-- ==== Sys2Proof/Word.lean ====
section
/-!
DEFINITION. Sys2Proof/Word.lean: the words of the register map and their plainest arithmetic (R7, R10).
Readings and choices (notes/assumptions): DESIGN CHOICE 151.
-/
namespace Sys2Proof

/-- A byte of a memory window or a frame. -/
abbrev Byte := BitVec 8
/-- A register (R10: registers are 32 bits wide). -/
abbrev Word := BitVec 32

/-- The natural number in bits `[lo + len - 1 : lo]` of `n` (R7). -/
def natFld (n lo len : Nat) : Nat := (n >>> lo) % 2 ^ len

/-- Bits `[lo + len - 1 : lo]` of a register (R7). -/
def Word.fld (w : Word) (lo len : Nat) : Nat := natFld w.toNat lo len

/-- A register with bits `[lo + len - 1 : lo]` replaced by the low bits of `v`. -/
def Word.setFld (w : Word) (lo len v : Nat) : Word :=
  BitVec.ofNat 32 (w.toNat - (natFld w.toNat lo len) * 2 ^ lo + (v % 2 ^ len) * 2 ^ lo)

/-- Bit `i` of a register. -/
def Word.bit (w : Word) (i : Nat) : Bool := w.toNat.testBit i

/-- A register with bit `i` set or cleared. -/
def Word.setBit (w : Word) (i : Nat) (b : Bool) : Word :=
  if b then w ||| BitVec.ofNat 32 (1 <<< i) else w &&& ~~~ BitVec.ofNat 32 (1 <<< i)

/-- The word of a natural number, modulo 2^32. -/
def wd (n : Nat) : Word := BitVec.ofNat 32 n

/-- The word of an integer, modulo 2^32. -/
def wdInt (z : Int) : Word := BitVec.ofInt 32 z

/-- A counter of `bits` bits that saturates. -/
def satInc (bits n : Nat) : Nat := if n + 1 < 2 ^ bits then n + 1 else 2 ^ bits - 1

/-- `n` limited to `lo .. hi`, at the nearer limit. -/
def clampNat (lo hi n : Nat) : Nat := if n < lo then lo else if hi < n then hi else n

/-- `z` limited to `lo .. hi`, at the nearer limit. -/
def clampInt (lo hi z : Int) : Int := if z < lo then lo else if hi < z then hi else z

/-- The signed value of the low `bits` bits of `n` (R7: two's complement). -/
def signedOf (bits n : Nat) : Int :=
  if n % 2 ^ bits < 2 ^ (bits - 1) then ((n % 2 ^ bits : Nat) : Int)
  else ((n % 2 ^ bits : Nat) : Int) - ((2 ^ bits : Nat) : Int)

/-- The low `bits` bits of an integer, as a natural number. -/
def bitsOfInt (bits : Nat) (z : Int) : Nat := (z % ((2 ^ bits : Nat) : Int)).toNat

/-- Signed saturation to 32 bits. -/
def sat32 (z : Int) : Int := clampInt (-2147483648) 2147483647 z

/-- `n / d` rounded to the nearest integer, half away from zero. -/
def roundAway (n : Int) (d : Nat) : Int :=
  if 0 ≤ n then (2 * n + d) / (2 * d : Nat) else -((2 * -n + d) / (2 * d : Nat))

/-- `n / d` rounded to the nearest integer, half up. -/
def roundUp (n : Int) (d : Nat) : Int := (2 * n + d) / (2 * d : Nat)

/-- One bit as a number. -/
def b2n (b : Bool) : Nat := if b then 1 else 0

end Sys2Proof
end

