-- ==== Sys2Proof/Syntax.lean ====
section
/-!
DEFINITION. Sys2Proof/Syntax.lean: the commands of the block, one constructor per row of the operation table, with the
data each brings from outside.
Readings and choices (notes/assumptions): DEDUCED 36; DESIGN CHOICE 40.
-/
namespace Sys2Proof

/-- The three sources of host requests (R74). -/
inductive HSrc where
  | hsp | en0 | en1
  deriving DecidableEq, Repr

/-- How a datagram brought a host request to an Ethernet port (R74, R83): addressed to the head, its UDP destination port, the
source's IPv4 address and UDP port, and for a fragment its identification, its offset in the datagram's data, bytes, and
whether more follow (the first fragment alone carries the UDP header). A frame on the HSP has none of it. -/
structure Dgram where
  ours : Bool := true
  port : Nat := 29640
  ip : Nat := 0
  udp : Nat := 0
  frag : Option (Nat × Nat × Bool) := none
  deriving DecidableEq, Repr

/-- A PTP message as the port receives it (R103, R104): the master's identity, domain and sequence number, the
internal receive stamp (DT64), the time-stamp it carries (s, ns), its correction field in 2^-16 ns, and for a peer
delay response the responder's turnaround in ns. -/
structure PtpMsg where
  mid : BitVec 64
  mport : BitVec 16
  domain : BitVec 8
  seq : BitVec 16
  rx : Nat
  sec : Nat
  ns : Nat
  corr : Int
  phase : Nat
  twoStep : Bool
  turn : Int
  /-- It came over UDP/IPv4, else under Ethertype 0x88F7 (R103). -/
  udp : Bool := false
  deriving DecidableEq, Repr

/-- A received EXL frame as the lane hands it up: its bytes from header to CRC, whether it came without K30.7 and
without K23.7 at its end, whether its start symbol was K28.2, the internal stamps (DT64) of its start-of-frame and
end-of-frame symbols and the phase φ_rx at capture, ru (R100). -/
structure RxFrame where
  bytes : List Byte
  intact : Bool
  soft : Bool
  sof : Nat
  eof : Nat
  phase : Nat
  deriving DecidableEq, Repr

/-- A fault condition that arises outside every other command (a memory upset, a condition the stack program finds): its
source number, page, address, agent, access and detail word (R449 to R451). -/
structure ExtRaise where
  src : BitVec 8
  page : BitVec 12
  addr : BitVec 32
  master : BitVec 8
  acc : BitVec 4
  detail : BitVec 32
  deriving DecidableEq, Repr

/-- How an RSL PDU copy reaches the head (R427): in a safety PDU frame on a ring direction, or as the data of a datagram
to port 29641, with the DT64 at which the frame checks of the port end. -/
inductive PduRx where
  | ring (ring : Fin 32) (rev : Bool) (f : RxFrame)
  | eth (port : Fin 2) (at_ : Nat) (pdu : List Byte)
  deriving DecidableEq, Repr

/-- Where a host request comes from (R67, R83): the port and, on an Ethernet port, its datagram. -/
structure HostFrom where
  src : HSrc
  via : Dgram := {}
  deriving DecidableEq, Repr

/-- A training frame as it arrives (R138): its start symbol and its bytes. -/
structure TrainFrame where
  start : Byte
  bytes : List Byte
  deriving DecidableEq, Repr

/-- A receiver that locks, and the code group of the first K28.5 it aligns on (R126, R135). -/
structure LaneLock where
  lane : Fin 32
  comma : BitVec 10
  deriving DecidableEq, Repr

/-- Line bits that a receiver takes, in order of arrival (R146, R148). -/
structure LaneBits where
  lane : Fin 32
  line : List Bool
  deriving DecidableEq, Repr

/-- A break of the elastic FIFO (R131): the symbols by which it has filled since the last run of idles, and whether a frame
is in progress. -/
structure FifoBreak where
  lane : Fin 32
  drift : Int
  inFrame : Bool
  deriving DecidableEq, Repr

/-- The code groups that a receiver has taken since the last such command, in order of arrival, bit a in bit 9 (R126, R128):
a violation is among them. -/
structure RxGroups where
  groups : List (BitVec 10)
  deriving DecidableEq, Repr

/-- Levels read back on SIRD and the ring time for which they have stood (R434). -/
structure Readback where
  sird : BitVec 4
  held : Nat
  deriving DecidableEq, Repr

/-- The commands: one constructor per row of the table of operations. -/
inductive Instr where
  /-- PERIOD_START (R35): Ring time reaches S(n+1): the period index advances and committed shadow values take effect. -/
  | periodStart
  /-- OUTPUT_BOUNDARY (R46): TS4 fires at S(n)+phi_out: shadow registers load into the leg timers and CYCLE-mode trip latches may release. -/
  | outputBoundary
  /-- COLLECTOR_LAUNCH (R168): At S(n)+t_CL the head launches an empty collector in each direction of every ring. -/
  | collectorLaunch
  /-- TELEMETRY_CLOSE (R44): TS1 at t_TC closes telemetry, marks slots with no valid copy stale and opens the compute window. -/
  | telemetryClose
  /-- COMMAND_LAUNCH (R116): At t_ML compute closes and the head frames and launches the command frames of every ring in both directions. -/
  | commandLaunch
  /-- SLOT_IMAGE_WRITE_BACK (R203): By t_CC the scheduler writes every slot as sent back into its CSM image. -/
  | slotImageWriteBack
  /-- COMMAND_CLOSE (R112): TS3 fires at t_CC: command close. -/
  | commandClose (cycles : BitVec 16)
  /-- JG0_PASS (R320): When JG1's pass ends JG0 runs its pass over every cell instance, deferring cells that cannot finish before TS1. -/
  | jg0Pass (fit : Nat) (cycles : BitVec 16)
  /-- JIG_IDLE_PASS (R317): While no frame plan runs each Jig engine runs a pass every 10 us of DT64. -/
  | jigIdlePass (eng : Fin 2) (cycles : BitVec 16)
  /-- JIG_TIMEOUT (R319): An instance's timer expires and event TIMEOUT is raised for it. -/
  | jigTimeout (inst : Nat)
  /-- RANGING_LAUNCH (R108): Once per millisecond Traverse launches a ranging frame on each ring direction after the beacon. -/
  | rangingLaunch
  /-- CHANNEL_FIRE (R113): A programmable Class S channel fires at its periodic offset or one-shot DT40 target. -/
  | channelFire (k : Nat)
  /-- PLAN_START_REQUEST (R114): A write of TRG.PCTL.EN = 1 requests the plan start or is refused with REFUSED and PLAN_RANGE. -/
  | planStartRequest (v : Word)
  /-- PLAN_START (R114): Ring time reaches S(0) and the frame plan begins with its period index. -/
  | planStart
  /-- PLAN_STOP_REQUEST (R610): A write of TRG.PCTL.EN = 0 or SSTOP = 1 requests a stop, or cancels a pending one. -/
  | planStopRequest (v : Word)
  /-- PCTL_EN_WRITE (R65): A write of PCTL.EN enables a block, or disables it at the end of its operation. -/
  | pctlEnWrite (page : Nat) (en : Bool)
  /-- PCTL_COMMIT (R61): A write of PCTL.COMMIT = 1 requests a commit of the page's shadow copies. -/
  | pctlCommit (page : Nat)
  /-- PCTL_SSTOP (R65): A write of PCTL.SSTOP requests the block to finish its operation and hold idle, or releases it. -/
  | pctlSstop (page : Nat) (on : Bool)
  /-- COMMIT_IDLE_ACCEPT (R64): With no frame plan running a COMMIT is accepted within 16 SYS cycles and takes effect at once. -/
  | commitIdleAccept (page : Nat)
  /-- BLOCK_IDLE (R65): A stopped or disabled block finishes its current operation and sets PSTA.IDLE. -/
  | blockIdle (page : Nat)
  /-- WLCK_OPEN (R58): A write of 0x5A5A to WLCK opens the page lock and clears VIOLC. -/
  | wlckOpen (page : Nat)
  /-- WLCK_CLOSE (R58): Any other write to WLCK closes the page lock. -/
  | wlckClose (page : Nat) (v : Word)
  /-- REGISTER_WRITE (R13): A host write to a register with no row of its own, under the access code of its fields. -/
  | registerWrite (src : HSrc) (page off : Nat) (v : Word)
  /-- ROC_READ (R13): A read of an ROC register returns its value and clears it. -/
  | rocRead (page off : Nat)
  /-- HOST_WRITE (R74): A WRITE request is checked whole and its words are posted for writing. -/
  | hostWrite (by_ : HostFrom) (bytes : List Byte)
  /-- HOST_READ (R79): A READ request posts a read of CNT words under a tag, or gets TAG_BUSY. -/
  | hostRead (by_ : HostFrom) (bytes : List Byte)
  /-- HOST_FETCH (R73): A FETCH returns the data of a completed read under its tag, or PENDING or NO_TAG. -/
  | hostFetch (by_ : HostFrom) (bytes : List Byte) (clocked : Bool)
  /-- HOST_STATUS (R70): A STATUS request returns the outstanding and ready tag maps of one half of the tag range. -/
  | hostStatus (by_ : HostFrom) (bytes : List Byte)
  /-- HSP_FRAME_ABORT (R73): HSP_CS_N rises before the request CRC has been clocked and the frame has no effect. -/
  | hspFrameAbort (bytes : List Byte)
  /-- HOST_WRITE_APPLY (R77): An accepted write is applied in page order, truncated at a 4 KiB boundary. -/
  | hostWriteApply (block : Nat)
  /-- HOST_READ_PERFORM (R81): An accepted read is performed after all earlier writes and completes within its bound. -/
  | hostReadPerform
  /-- SNAPL_READ (R89): A read of DTM.SNAPL latches DT64 into the source's latch pair. -/
  | snaplRead (who : Nat)
  /-- PTP_SYNC_RX (R104): An accepted Sync from the master yields one measurement for the servo. -/
  | ptpSyncRx (port : Fin 2) (m : PtpMsg)
  /-- PTP_FOLLOW_UP_RX (R103): A Follow_Up from the master completes a two-step Sync. -/
  | ptpFollowUpRx (port : Fin 2) (m : PtpMsg)
  /-- PTP_DELAY_REQ_TX (R121): At each DREQ interval the port sends a Delay_Req or Pdelay_Req. -/
  | ptpDelayReqTx (port : Fin 2) (stamp : Nat)
  /-- PTP_DELAY_RESP_RX (R103): A delay response updates the port's mean path delay. -/
  | ptpDelayRespRx (port : Fin 2) (m : PtpMsg)
  /-- PPS_EDGE (R105): A filtered rising edge of PPS_IN is stamped and yields a measurement. -/
  | ppsEdge (stamp : Nat)
  /-- GM_LOST (R92): No measurement is accepted for GMTO ms and Datum enters COAST. -/
  | gmLost
  /-- FCLR (R97): A write of DTCTL.FCLR clears a held foreign offset while no plan runs. -/
  | fclr
  /-- RANGING_RETURN (R109): A ranging frame returns and Traverse updates path, segment and head-to-node delays. -/
  | rangingReturn (ring : Fin 32) (rev : Bool) (f : RxFrame)
  /-- RANGING_LOST (R110): A ranging frame has not returned within 1 ms; three in a row raise TRAV_FAIL. -/
  | rangingLost (ring : Fin 32) (rev : Bool)
  /-- CLASS_F_LAUNCH (R115): A queued Class F entry launches at its target, or late with LAUNCH_LATE. -/
  | classFLaunch (queue : Nat) (launch : Nat)
  /-- TXKICK (R121): A write of TXKICK makes the Ethernet port scan for owned transmit descriptors. -/
  | txkick (port : Fin 2)
  /-- ETH_TX_WRITEBACK (R122): A transmitted frame's descriptor is written back with its stamp and OWN cleared. -/
  | ethTxWriteback (port : Fin 2)
  /-- ETH_RX_FRAME (R122): A received frame is stored in an owned receive descriptor and written back with its stamp. -/
  | ethRxFrame (port : Fin 2) (stamp phase : Nat) (bytes : List Byte)
  /-- ETH_LINK_CHANGE (R581): ENn_LOS changes and the port's link goes down or up. -/
  | ethLinkChange (port : Fin 2) (los : Bool)
  /-- LOS_SET (R134): Received power stays below LOSTH for 2 us and the lane returns to SIGNAL_WAIT. -/
  | losSet (lane : Fin 32) (dark : Bool) (pwr : BitVec 16)
  /-- LOS_CLEAR (R134): Power stays above LOSTH + 1 dB for 100 us and the lane enters LOCKING. -/
  | losClear (lane : Fin 32) (pwr : BitVec 16)
  /-- LANE_LOCKED (R135): The recovered-clock loop locks and aligns on 3 K28.5 and the lane enters TRAIN. -/
  | laneLocked (rx : LaneLock)
  /-- LOL_SET (R135): The recovered clock loses lock and the lane returns to LOCKING. -/
  | lolSet (lane : Fin 32)
  /-- ALIGNMENT_LOSS (R135): 4 code violations within 16 symbols end alignment. -/
  | alignmentLoss (lane : Fin 32)
  /-- TRAINING_FRAME_TX (R138): A side in TRAIN sends a training frame every 4 us. -/
  | trainingFrameTx (lane : Fin 32)
  /-- TRAINING_FRAME_RX (R139): A training frame arrives with requests, answers and DONE; enough DONE moves the lane to UP. -/
  | trainingFrameRx (lane : Fin 32) (f : TrainFrame)
  /-- TAP_APPLY (R140): A transmitter applies a far tap request within 2 us, or answers at limit or refused. -/
  | tapApply (lane : Fin 32)
  /-- EYE_MEASURE_DONE (R141): An eye measurement over 16 384 symbols completes. -/
  | eyeMeasureDone (lane : Fin 32) (eye : BitVec 6)
  /-- TRAIN_TIMEOUT (R143): TRNTO elapses in TRAIN and the exchange fails with TRAIN_FAIL. -/
  | trainTimeout (lane : Fin 32)
  /-- TRAIN_SILENCE (R143): No valid training frame for 1 ms fails the exchange. -/
  | trainSilence (lane : Fin 32)
  /-- RETRAIN (R133): A write of LNCTL.RETRAIN takes an UP lane back to TRAIN, else sets REFUSED. -/
  | retrain (lane : Fin 32)
  /-- LANE_MODE_WRITE (R149): A write of LNCTL.MODE enters or leaves TEST, or is refused on a mapped lane while a plan runs. -/
  | laneModeWrite (lane : Fin 32) (mode : BitVec 2)
  /-- INJGO (R147): A write of INJGO starts or restarts the selected bit-error injection. -/
  | injgo (lane : Fin 32)
  /-- LANE_CODE (R151): At each millisecond of DT64 more than CVTH code violations raise LANE_CODE. -/
  | laneCode (lane : Fin 32) (idles : List Nat) (drift : List Int) (pwr : BitVec 16)
  /-- LANE_FIFO (R131): The elastic FIFO overflows or runs empty and the frame in progress is discarded. -/
  | laneFifo (rx : FifoBreak)
  /-- CHECKER_LOCK (R146): 256 consecutive correct bits set CHKLOCK. -/
  | checkerLock (rx : LaneBits)
  /-- CHECKER_UNLOCK (R146): 32 errors within 256 bits clear CHKLOCK and reseed the checker. -/
  | checkerUnlock (lane : Fin 32) (line : List Bool) (last : Bool)
  /-- BITCNTL_READ (R146): A read of BITCNTL latches BITCNTH. -/
  | bitcntlRead (lane : Fin 32) (src : HSrc) (line : List Bool)
  /-- COLLECTOR_COPY_RX (R172): A collector copy arrives, passes the checks and its valid slots are decoded into telemetry records. -/
  | collectorCopyRx (ring : Fin 32) (rev : Bool) (f : RxFrame)
  /-- SVKICK (R194): A write of SVKICK makes the head scan the ring's service descriptors. -/
  | svkick (ring : Fin 32)
  /-- SERVICE_REQUEST_LAUNCH (R183): A descriptor that holds a tag launches its service request, or completes BAD_DESC or NO_PATH. -/
  | serviceRequestLaunch (ring : Fin 32)
  /-- SERVICE_RESPONSE_RX (R184): A matching service response completes its transaction and writes back the descriptor. -/
  | serviceResponseRx (ring : Fin 32) (rev : Bool) (f : RxFrame)
  /-- SERVICE_TIMEOUT (R184): 1 ms after launch a transaction completes TIMEOUT. -/
  | serviceTimeout (tag : Fin 64)
  /-- CAPTURE_STREAM_RX (R186): A valid capture frame is stored circularly in the ring's capture area. -/
  | captureStreamRx (ring : Fin 32) (rev : Bool) (f : RxFrame)
  /-- FORCE_SRSYNC (R190): A write of FORCE[7:0] sets SRSYNC for the named positions. -/
  | forceSrsync (ring : Fin 32) (mask : BitVec 8)
  /-- FORCE_RESYNC (R190): A write of FORCE[8] sets RSPEND for the ring. -/
  | forceResync (ring : Fin 32)
  /-- CVAL_READ (R230): A read of EDG.CVAL latches BCVAL and LSTA of the selected channel. -/
  | cvalRead
  /-- CHANNEL_RECOGNISED (R277): A Class S firing reaches the engines; latches set and waiting engines resume in one ENG cycle. -/
  | channelRecognised (k : Fin 16) (cycles : Nat)
  /-- NOP (R303): NOP, or a reserved encoding, executes with no effect. -/
  | nop (eng : Fin 10)
  /-- ADD (R304): Saturating 32-bit add. -/
  | add (eng : Fin 10)
  /-- SUB (R304): Saturating 32-bit subtract. -/
  | sub (eng : Fin 10)
  /-- ADDM (R304): Modular 32-bit add. -/
  | addm (eng : Fin 10)
  /-- SUBM (R304): Modular 32-bit subtract. -/
  | subm (eng : Fin 10)
  /-- ABS (R304): Saturating absolute value. -/
  | abs (eng : Fin 10)
  /-- NEG (R304): Saturating negation. -/
  | neg (eng : Fin 10)
  /-- MIN (R304): Signed minimum. -/
  | min (eng : Fin 10)
  /-- MAX (R304): Signed maximum. -/
  | max (eng : Fin 10)
  /-- AND (R304): Bitwise AND. -/
  | and (eng : Fin 10)
  /-- OR (R304): Bitwise OR. -/
  | or (eng : Fin 10)
  /-- XOR (R304): Bitwise exclusive OR. -/
  | xor (eng : Fin 10)
  /-- SHL (R304): Saturating left shift. -/
  | shl (eng : Fin 10)
  /-- SHR (R304): Arithmetic right shift, optionally rounding. -/
  | shr (eng : Fin 10)
  /-- SHRL (R304): Logical right shift. -/
  | shrl (eng : Fin 10)
  /-- NORM (R304): Count of redundant sign bits. -/
  | norm (eng : Fin 10)
  /-- CLAMP (R304): Clamp rd between ra and rb. -/
  | clamp (eng : Fin 10)
  /-- ADDI (R304): Saturating add of a 14-bit immediate. -/
  | addi (eng : Fin 10)
  /-- ADDMI (R304): Modular add of a 14-bit immediate. -/
  | addmi (eng : Fin 10)
  /-- MOVI (R304): Load a sign-extended 16-bit immediate. -/
  | movi (eng : Fin 10)
  /-- MOVH (R304): Load the upper 16 bits of a register. -/
  | movh (eng : Fin 10)
  /-- CMP (R304): Compare two registers into a predicate. -/
  | cmp (eng : Fin 10)
  /-- CMPI (R304): Compare a register with an immediate into a predicate. -/
  | cmpi (eng : Fin 10)
  /-- PLOG (R304): Predicate logic operation. -/
  | plog (eng : Fin 10)
  /-- EXTR (R304): Extract a bit field. -/
  | extr (eng : Fin 10)
  /-- INS (R304): Insert a bit field. -/
  | ins (eng : Fin 10)
  /-- LD (R305): Load a data memory word. -/
  | ld (eng : Fin 10) (upset : BitVec 2)
  /-- ST (R305): Store a data memory word. -/
  | st (eng : Fin 10)
  /-- LDC (R274): Issue a CSM (Tenon: SXM) load. -/
  | ldc (eng : Fin 10)
  /-- LDC_DELIVER (R274): A CSM load delivers its word to the register at the end of cycle c+3. -/
  | ldcDeliver (eng : Fin 9)
  /-- STC (R274): Issue a CSM (Tenon: SXM) store. -/
  | stc (eng : Fin 10)
  /-- STC_WRITE (R275): A CSM store writes its word at cycle c+3, coincident stores in port order. -/
  | stcWrite (eng : Fin 9)
  /-- BR (R304): Branch to a bundle index. -/
  | br (eng : Fin 10)
  /-- CALL (R304): Branch saving the return address in g15. -/
  | call (eng : Fin 10)
  /-- RET (R304): Return to the address in g15. -/
  | ret (eng : Fin 10)
  /-- DBNZ (R304): Decrement and branch if not zero. -/
  | dbnz (eng : Fin 10)
  /-- WAIT (R306): Suspend until the named channel's release latch is set. -/
  | wait (eng : Fin 10)
  /-- FCLR_FLAGS (R304): Clear the sticky flags named by the mask (FCLR instruction). -/
  | fclrFlags (eng : Fin 10)
  /-- FRD (R304): Read flags and predicates into a register. -/
  | frd (eng : Fin 10)
  /-- MUL (R307): 16 x 16 multiply into an accumulator. -/
  | mul (eng : Fin 10)
  /-- MAC (R307): Saturating multiply-accumulate. -/
  | mac (eng : Fin 10)
  /-- MSU (R307): Saturating multiply-subtract. -/
  | msu (eng : Fin 10)
  /-- MULW (R307): 32 x 16 multiply into an accumulator. -/
  | mulw (eng : Fin 10)
  /-- MACW (R307): Saturating 32 x 16 multiply-accumulate. -/
  | macw (eng : Fin 10)
  /-- ALD (R307): Load an accumulator with a shifted register. -/
  | ald (eng : Fin 10)
  /-- EXT (R307): Round and saturate an accumulator into a register. -/
  | ext (eng : Fin 10)
  /-- ADDA (R307): Add or subtract accumulators with saturation. -/
  | adda (eng : Fin 10)
  /-- ASH (R307): Shift an accumulator. -/
  | ash (eng : Fin 10)
  /-- SINCOS (R308): Sine and cosine of an angle. -/
  | sincos (eng : Fin 10)
  /-- ATAN2 (R308): Angle of a point in Q1.15 turns. -/
  | atan2 (eng : Fin 10)
  /-- RECIP (R308): Approximate reciprocal. -/
  | recip (eng : Fin 10)
  /-- RSQRT (R308): Approximate reciprocal square root. -/
  | rsqrt (eng : Fin 10)
  /-- DIV (R307): Exact scaled division. -/
  | div (eng : Fin 10)
  /-- MAC_RESULT (R310): A multi-cycle M-slot instruction writes its result and flags when its latency ends. -/
  | macResult (eng : Fin 10)
  /-- PE7_FREE (R290): PECFG.MODE = FREE returns TARGET to DISABLED and its output sets. -/
  | pe7Free (target : BitVec 3)
  /-- PE7_SHADOW (R288): PECFG.MODE = SHADOW copies TARGET's instruction memory and arms the data copy. -/
  | pe7Shadow (target : BitVec 3)
  /-- PE7_REPLACE (R290): PECFG.MODE = REPLACE copies TARGET's state to PE7 and retires TARGET. -/
  | pe7Replace (target : BitVec 3)
  /-- SHADOW_COPY_DONE (R288): The PE7 data copy completes and SHSTA.ARMED is set. -/
  | shadowCopyDone
  /-- SHADOW_REARM (R288): A write of SHCTL.REARM starts a new shadow copy. -/
  | shadowRearm
  /-- CMD_INSERT (R338): CLS.CMD INSERT raises event CMD_INSERT for a cell. -/
  | cmdInsert (addr : BitVec 8)
  /-- CMD_REMOVE (R338): CLS.CMD REMOVE raises event CMD_REMOVE for a cell. -/
  | cmdRemove (addr : BitVec 8)
  /-- CMD_BYPASS (R338): CLS.CMD BYPASS raises event CMD_BYPASS for a cell. -/
  | cmdBypass (addr : BitVec 8)
  /-- CMD_CHARGE (R338): CLS.CMD CHARGE raises event CMD_CHARGE for a cell. -/
  | cmdCharge (addr : BitVec 8)
  /-- CMD_RETIRE (R338): CLS.CMD RETIRE raises event CMD_RETIRE for a cell. -/
  | cmdRetire (addr : BitVec 8)
  /-- CMD_RETURN (R338): CLS.CMD RETURN raises event CMD_RETURN for a cell. -/
  | cmdReturn (addr : BitVec 8)
  /-- JCMD_START (R347): JG1.JCMD START raises the stack event HSTART. -/
  | jcmdStart
  /-- JCMD_STOP (R347): JG1.JCMD STOP raises the stack event HSTOP. -/
  | jcmdStop
  /-- TBLD (R344): A write of TBLD starts the check of a Jig table bank. -/
  | tbld (eng : Fin 2) (bank : Fin 4)
  /-- BANK_CHECK_DONE (R324): A bank check ends and sets VALID or REFUSED for the bank. -/
  | bankCheckDone (eng : Fin 2)
  /-- RETCLR (R341): A write of CLS.RETCLR deletes a cell's retirement entry while no plan runs. -/
  | retclr (addr : BitVec 8)
  /-- ROW_REPAIR (R343): A failing memory row is logged in the spare record, or ROW_SPARE_OUT is raised. -/
  | rowRepair (mem : Nat) (row : Nat)
  /-- HCMD_HANDOVER (R366): HCMD HANDOVER is accepted when the peer is an ARMED standby, else refused. -/
  | hcmdHandover
  /-- HCMD_LEAVE (R353): HCMD LEAVE takes the head to OFF. -/
  | hcmdLeave
  /-- HCMD_JOIN (R353): HCMD JOIN takes the head from OFF to LISTEN. -/
  | hcmdJoin
  /-- CLAIM_IN_EDGE (R355): An edge on CLAIM_IN restarts the block watchdog and makes a CLAIMING head lose its contest. -/
  | claimInEdge
  /-- CLAIM_BLOCK_END (R355): The CLAIM_IN watchdog reaches 400 (or 800) SFB cycles and the head is unblocked. -/
  | claimBlockEnd
  /-- CONTEST_WINDOW_END (R355): 100 quiet SFB cycles pass in CLAIMING and the head enters ACTIVE. -/
  | contestWindowEnd
  /-- CLAIM_REQUEST (R365): At t_CC + 200 ns a standby with no active copy or tie beacon forms a claim request. -/
  | claimRequest
  /-- PAIR_YIELD (R366): An active head that received no relayed copy for 2 periods yields to OFF. -/
  | pairYield
  /-- ACTIVE_COPY_RELAY (R357): A standby relays an active command copy that arrives in the relay window into the opposite direction. -/
  | activeCopyRelay (ring : Fin 32) (f : RxFrame)
  /-- RELAY_SUBST (R358): At R_k with no active copy, an ARMED standby substitutes its own command frame. -/
  | relaySubst (ring : Fin 32)
  /-- TIE_BEACON_RX (R359): A peer's tie beacon arrives, updating PEER, comparison, ARMED and plan lock. -/
  | tieBeaconRx (f : RxFrame)
  /-- TWIN_DIVERGE (R359): A standby finds its framed frames differ from the active's copies. -/
  | twinDiverge
  /-- TIE_LOST (R368): The tie leaves UP or 3 periods pass without the peer's tie beacon. -/
  | tieLost
  /-- JIG_STATE_TX (R350): The active head sends its Jig state frame on the tie after its tie beacon. -/
  | jigStateTx (launch : Nat)
  /-- JIG_STATE_RX (R363): A non-armed head sets its Jig instances to the active's states. -/
  | jigStateRx (f : RxFrame)
  /-- TIE_SLOTS_TX (R360): At t_XL a head sends node-originated slots to the peer. -/
  | tieSlotsTx
  /-- TIE_SLOTS_RX (R360): Shared slots from the peer fill cells with no valid own slot. -/
  | tieSlotsRx (f : RxFrame)
  /-- TIE_RANGING_TX (R362): A non-active head launches a tie ranging frame every 1 ms. -/
  | tieRangingTx (launch : Nat)
  /-- TIE_RANGING_ECHO (R362): The active head stamps and returns a tie ranging frame. -/
  | tieRangingEcho (f : RxFrame) (launch : Nat)
  /-- TIE_RANGING_RX (R362): The returned tie ranging frame yields a Datum measurement against the active. -/
  | tieRangingRx (f : RxFrame)
  /-- RANGING_COPY_TX (R361): A head forwards each received ring ranging frame to the peer as a ranging copy. -/
  | rangingCopyTx (launch : Nat)
  /-- RANGING_COPY_RX (R361): A ranging copy from the peer completes both-direction Traverse computation. -/
  | rangingCopyRx (f : RxFrame)
  /-- LISTEN_TIMEOUT (R353): 100 ms after the ring lanes are lit a LISTEN head enters STANDBY. -/
  | listenTimeout
  /-- TRIP_ACTIVE (R378): A filtered trip input becomes active and latches and switches off its mapped channels not in blanking. -/
  | tripActive (inputs : BitVec 12)
  /-- TRIP_INACTIVE (R380): A CYCLE-mode input goes inactive and a chopper channel latch releases. -/
  | tripInactive (input : Fin 12)
  /-- BLANKING_END (R384): A leg's blanking window ends and a pending mark latches the leg or is dropped. -/
  | blankingEnd (leg : Fin 12)
  /-- TLATCH_CLEAR (R381): A write of 1 to TLATCH clears a latch whose inputs are inactive, else REFUSED. -/
  | tlatchClear (v : Word)
  /-- CHOPPER_RESULT (R386): A new result of the chopper's source turns the channel on or off. -/
  | chopperResult (chop : Fin 2)
  /-- CHOP_CEIL_RELEASE (R388): The duty counter falls to ALIM/2 and the ceiling releases. -/
  | chopCeilRelease (chop : Fin 2)
  /-- CHTMIN_EXPIRY (R387): The minimum on-time ends and a due ceiling switch-off acts. -/
  | chtminExpiry (chop : Fin 2)
  /-- CHOP_SRC (R389): No source result for 64 us turns the channel off and sets NOSRC. -/
  | chopSrc (chop : Fin 2)
  /-- CONVERSION_DONE (R397): A converter conversion ends, writes its result and starts the next slot. -/
  | conversionDone (conv : Fin 4) (bits : List Bool)
  /-- SEQUENCE_TRIGGER (R397): A TSCH firing starts a triggered sequence, or is dropped with CNV_OVERRUN. -/
  | sequenceTrigger (conv : Fin 4) (target : Nat)
  /-- UGO (R404): A write of UGO requests an urgent conversion, or is dropped with CNV_URG_LOST. -/
  | ugo (mask : BitVec 4)
  /-- URGENT_TRIGGER (R404): UCFGn.TSCH fires with TSEN set and requests an urgent conversion. -/
  | urgentTrigger (conv : Fin 4)
  /-- URGENT_START (R404): At the next f_mod edge the running conversion is aborted and the urgent slot converts. -/
  | urgentStart (conv : Fin 4)
  /-- URGENT_DONE (R404): The urgent conversion writes URESn and the aborted slot restarts. -/
  | urgentDone (conv : Fin 4) (bits : List Bool)
  /-- REF_READY (R402): The reference delay passes and REF_RDY returns to 1. -/
  | refReady (conv : Fin 4)
  /-- CVCFG_WRITE (R399): A CVCFGn write enables or disables the converter, or changes only EN while enabled. -/
  | cvcfgWrite (conv : Fin 4) (v : Word)
  /-- CVREF_WRITE (R402): A new REFSEL clears REF_RDY and starts its delay. -/
  | cvrefWrite (conv : Fin 4) (v : Word)
  /-- MOD_RESULT (R401): A modulator input produces a result at a decimation instant. -/
  | modResult (input : Fin 16) (bits : List Bool)
  /-- MOD_ALIGN (R408): An aligned input's TSCH firing keeps or restarts its filter. -/
  | modAlign (input : Fin 16) (target : Nat)
  /-- MOD_STUCK (R409): 256 equal samples mark a modulator input stuck. -/
  | modStuck (input : Fin 16)
  /-- MOD_UNSTUCK (R409): A stuck input's level changes and its filter restarts. -/
  | modUnstuck (input : Fin 16)
  /-- MDCFG_WRITE (R415): An MDCFGi write configures or enables the input, or changes only EN while enabled. -/
  | mdcfgWrite (input : Fin 16) (v : Word)
  /-- MCLKCFG_WRITE (R406): An MCLKCFGk write starts or stops a modulator clock without runts. -/
  | mclkcfgWrite (clk : Fin 4) (v : Word)
  /-- IMAGE_INSTANT (R421): At I(k) the SFT writes input image k into both channels. -/
  | imageInstant (sird : BitVec 4)
  /-- SAFETY_TICK (R417): At T(k) both safety channels leave WAIT 16. -/
  | safetyTick (cycles : Nat)
  /-- COMPARE_POINT (R424): At C(k) each comparator compares both result records. -/
  | comparePoint (cycles : Nat)
  /-- APPLY_POINT (R431): At A(k) each output logic applies an equal record to its SIO lands and SSAFE request. -/
  | applyPoint
  /-- RSL_PDU_RX (R422): A safety PDU copy is checked and held for the next input image. -/
  | rslPduRx (rx : PduRx)
  /-- OFF_PULSE_START (R435): A due off-pulse test drives its SIO output low at T(k)+30 us. -/
  | offPulseStart
  /-- OFF_PULSE_END (R435): An off-pulse ends and the test passes or fails on readback. -/
  | offPulseEnd (low : Bool) (back : Option Nat) (sird : BitVec 4)
  /-- SIO_TEST_DUE (R435): A test waits for twice its interval. -/
  | sioTestDue (entry : Fin 8)
  /-- TICK_LOST (R420): A tick watchdog expires and the output logic sets its TICK latch. -/
  | tickLost (b : Bool)
  /-- SIO_RB (R434): SIRD disagrees with the drive for longer than RBT and the path latch sets. -/
  | sioRb (path : Fin 4) (rb : Readback)
  /-- CACK (R428): A write of SFT.CACK acknowledges a failed connection. -/
  | cack (conn : BitVec 8)
  /-- DCLR (R424): SCTL.DCLR clears DIV and TICK latches while no plan runs, else REFUSED. -/
  | dclr
  /-- SLATCH_CLEAR (R434): A write of 1 to SLATCH clears a path latch while SIRD is low, else REFUSED. -/
  | slatchClear (v : Word) (sird : BitVec 4)
  /-- SXMD_READ (R443): A read of SXMD returns an SXM word and advances SXMA. -/
  | sxmdRead
  /-- FAULT_RAISE (R449): A fault raise reaches Scribe, which records it and takes its severity's reaction. -/
  | faultRaise (ext : Option ExtRaise)
  /-- SCRIBE_RESET_DRIVE (R457): For a RESET record Scribe drives RST_N low for 500 us at the earliest allowed instant. -/
  | scribeResetDrive (cycles : Nat)
  /-- ACKC (R459): A write of ACKC acknowledges every record of the named classes. -/
  | ackc (mask : BitVec 16)
  /-- ACKALL (R459): SCTL.ACKALL acknowledges every class. -/
  | ackall
  /-- TRCLR (R456): SCTL.TRCLR clears the trip hold when JG1 is STOPPED and no TRIP record is unacknowledged. -/
  | trclr
  /-- LREC0_READ (R461): A read of LREC0 latches all eight words of the selected record. -/
  | lrec0Read (src : HSrc)
  /-- REF_SWITCH (R466): The reference in use stops being usable and the head switches down the chain. -/
  | refSwitch (lost : BitVec 2)
  /-- REFRET (R467): A write of REFRET returns to the primary reference while no plan runs, else REFUSED. -/
  | refret
  /-- PLL_LOCK (R470): A PLL achieves lock after 1 024 good comparisons. -/
  | pllLock (t : Bool)
  /-- CLK_A_LOL (R474): PLL-A loses lock and SYS and ENG switch to SFB. -/
  | clkALol
  /-- PLL_A_RETURN (R475): PLL-A has been locked for 1 ms and SYS and ENG switch back at a TS2 recognition. -/
  | pllAReturn
  /-- CLK_T_LOL (R477): PLL-T loses lock, enters holdover and Datum enters HOLDOVER. -/
  | clkTLol
  /-- PLL_T_RELOCK (R478): PLL-T regains lock and returns to its FADJ without a DT64 step. -/
  | pllTRelock
  /-- HRATIO_MEASURE (R477): Each 1 ms the head measures f_DTM / f_SFB. -/
  | hratioMeasure (q : BitVec 32)
  /-- CLK_MISSING (R480): A domain clock ceases to be good. -/
  | clkMissing (domain : Fin 8)
  /-- SFB_SILENT (R481): SFB shows no edge for 2 us and the SFB watch holds RST_N low. -/
  | sfbSilent
  /-- CLK_SFB (R481): SFB measures outside 90 to 110 MHz over 100 us. -/
  | clkSfb (khz : BitVec 32)
  /-- VIN_LOCKOUT_ASSERT (R488): VIN below 2.45 V for 1 us asserts power-on reset. -/
  | vinLockoutAssert
  /-- VIN_LOCKOUT_RELEASE (R488): VIN at or above 2.55 V for 1 us releases power-on reset. -/
  | vinLockoutRelease
  /-- VIN_MEASURE (R490): PWR measures VIN every 100 us and raises VIN_WARN or VIN_HIGH. -/
  | vinMeasure (mv : BitVec 16)
  /-- RST_N_FALL (R493): RST_N goes low and the controller starts measuring its low time. -/
  | rstNFall
  /-- CORE_RESET_START (R493): 1 us after the falling edge a core reset starts. -/
  | coreResetStart
  /-- SYSTEM_RESET_START (R493): 100 us after the falling edge the reset becomes a system reset. -/
  | systemResetStart
  /-- RST_N_RISE (R493): RST_N rises and the reset ends. -/
  | rstNRise (at_ : Nat)
  /-- DOMAIN_RELEASE (R497): After 256 good cycles a domain is released from reset. -/
  | domainRelease (sfb headId bootsel keyOk : Bool)
  /-- PLL_START_TIMEOUT (R498): A PLL not locked 10 ms after RST_N rises releases its domains on fallback clocks. -/
  | pllStartTimeout
  /-- IMAGE_LOAD (R501): The image loader runs its stages from MEMINIT to ENABLE. -/
  | imageLoad (took : Nat)
  /-- HSTART (R503): LDCTL.HSTART begins a host image stream in HOSTWAIT. -/
  | hstart
  /-- LDWIN_WRITE (R503): A write to LDWIN delivers stream words to the loader. -/
  | ldwinWrite (words : List Word)
  /-- HEND (R503): LDCTL.HEND ends the host image stream. -/
  | hend (took : Nat)
  /-- RCMD_CORE (R510): The RCMD core key drives RST_N low for 20 us. -/
  | rcmdCore
  /-- RCMD_SYSTEM (R510): The RCMD system key drives RST_N low for 500 us. -/
  | rcmdSystem
  /-- RESTORE (R509): After a core reset the loader reloads engine memories and re-enables the engines. -/
  | restore (took : Nat)
  /-- OKCMD_PROGRAM (R519): An OKCMD PROGRAM fuses an owner key hash into an EMPTY slot after authorisation. -/
  | okcmdProgram (v : Word)
  /-- OKCMD_REVOKE (R519): An OKCMD REVOKE revokes an ACTIVE slot after authorisation. -/
  | okcmdRevoke (v : Word)
  /-- FUSE_PROGRAM_DONE (R519): Slot fuse programming completes within 20 ms. -/
  | fuseProgramDone (error : Bool)
  /-- FLRCMD (R524): The floor key raises the SVN floor to the SVN in use. -/
  | flrcmd
  /-- FUSTART (R525): FUCTL.FUSTART erases the update slot. -/
  | fustart (v : Word)
  /-- FLASH_ERASE_DONE (R525): The update slot erase completes. -/
  | flashEraseDone
  /-- FUWIN_WRITE (R525): A write to FUWIN streams image words into the update slot. -/
  | fuwinWrite (words : List Word)
  /-- FUEND (R525): FUCTL.FUEND ends the update stream and starts its check. -/
  | fuend
  /-- UPDATE_CHECK_DONE (R525): The written slot is checked and FUSTA shows OK or REJECTED. -/
  | updateCheckDone
  /-- ATTGO (R526): ATTCTL.ATTGO latches the nonce and starts an attestation report, or is refused while busy. -/
  | attgo
  /-- ATTEST_DONE (R526): The signed attestation report is ready and DONE is set. -/
  | attestDone
  /-- CERTD_READ (R532): A read of CERTD returns a certificate word and advances CERTA. -/
  | certdRead
  /-- TEMP_MEASURE (R533): Each 250 us the die sensors measure and T_die is formed. -/
  | tempMeasure (readings : List (BitVec 16))
  /-- RAIL_EXCURSION (R535): A rail outside its window for 2 us raises RAIL_UV or RAIL_OV. -/
  | railExcursion (rail : Fin 8) (high : Bool)
  /-- DERATE_INTERVAL (R540): At each 100 ms interval MON evaluates the derating curves and steps n. -/
  | derateInterval
  /-- COMPENSATION_UPDATE (R545): Every 1 ms the MEMS and reference corrections are updated from TS5. -/
  | compensationUpdate
  /-- PRO_MEASURE (R546): Every 10 ms the ring oscillators are measured and the guard G formed. -/
  | proMeasure (khz : List (BitVec 32))
  /-- PREH_WRITE (R553): A write of PREHe sets counter e and its preset. -/
  | prehWrite (src : HSrc) (ctr : Fin 32) (hi : BitVec 16)
  /-- COUNTER_OVERFLOW (R554): A counter passes 2^48 - 1, reloads its preset and sets OVF. -/
  | counterOverflow (eng : Fin 8) (ctr : Fin 32)
  /-- PC_SAMPLE (R555): Three cycles after an overflow with SMPEN the engine records a PC sample. -/
  | pcSample (eng : Fin 8)
  /-- SNAP (R557): A write of SNAP bit n snapshots engine n's counters. -/
  | snap (mask : BitVec 8)
  /-- SMPOP (R556): A write of SMPOP removes the oldest sample. -/
  | smpop
  /-- CNTL_READ (R559): A read of CNTLe latches all 48 bits of counter e. -/
  | cntlRead (src : HSrc) (ctr : Fin 32)
  /-- LEG_TRANSITION (R383): A local leg's output timer reaches a transition offset inside its window: the lands change under dead time and the leg's blanking window starts. -/
  | legTransition (leg : Fin 12)
  /-- CODE_VIOLATION (R128): A lane receiver decodes a code violation, counts it in CVCNT and passes K30.7 up in place of a symbol inside a frame. -/
  | codeViolation (lane : Fin 32) (bad : RxGroups)
  /-- REFERENCE_USABLE (R465): The reference monitor finds MEMS or REFIN usable again and sets MEMSOK or REFINOK, and the SFB watch may take it as its clock. -/
  | referenceUsable (refin : Bool)
  /-- CLK_GOOD (R480): A domain clock that had ceased to be good shows its edges and frequency again, and CKSTA.MONOK and IRQS monitor change update. -/
  | clkGood (domain : Fin 8)
  /-- POWER_ON_DOMAIN_START (R489): VIN rises to 1.0 V: the power-on domain starts, the clamps hold the outputs and the device drives RST_N low. -/
  | powerOnDomainStart
  /-- POWER_ON_DOMAIN_LOSS (R489): VIN falls below 1.0 V: the BROWN latch clears and the passive pull-downs alone hold the clamped lands low. -/
  | powerOnDomainLoss
  /-- RAIL_MEASURE (R535): Every 100 us the MON block measures each internal rail and updates RAILr. -/
  | railMeasure (mv : List (BitVec 16))
  /-- FLOOR_RAISE_DONE (R524): The thermometer fuses of a floor raise finish programming and the SVN floor takes its new value. -/
  | floorRaiseDone
  /-- RELAYED_COPY_RX (R366): The active head receives a command copy relayed by the standby, which counts against the yield condition. -/
  | relayedCopyRx (ring : Fin 32) (f : RxFrame)
  /-- TAP_RESET (R496): TRST_N, or TMS held high for five rising edges of TCK, resets the IEEE 1149.1 TAP controller. -/
  | tapReset
  deriving DecidableEq, Repr

end Sys2Proof
end

