-- ==== Sys2Proof/Config.lean ====
section
/-!
DEFINITION. Sys2Proof/Config.lean: what an implementation of the device fixes and the values the spec leaves open. An
opaque constant has no body: nothing in Lean can evaluate it or prove a value of it.
Readings and choices (notes/assumptions): DESIGN CHOICE 8, 9, 154, 156, 158, 179, 188, 191; PRESUMED 44, 53;
  DEDUCED 61, 74, 113.
-/
namespace Sys2Proof.Config

/-- What a configuration section of an image set says (R521, type 6): its layout is not given. -/
structure Configuration where
  /-- Registers the loader writes: page × 0x1000 + offset, and value; read-only fields of the ring map and plan among
  them. -/
  regs : List (Nat × Word)
  /-- Bytes for CSM and table memory, by device address: SPT, LPT, field maps, arm map, Jig banks and curves. -/
  mem : List (Nat × List Byte)
  /-- Jig banks (engine, bank) that the section loads, to be checked by R324. -/
  banks : List (Nat × Nat)
  /-- Planned path delay, ru, by 2 × ring + direction (R45); node identities by cell address (R30). -/
  planD : List (Nat × Nat)
  ringIds : List (Nat × Nat)
  /-- Pages to enable (R505). -/
  enable : List Nat
  /-- AUTOSTART (R505). -/
  autostart : Bool
  /-- The ring map for which the frame plan was built: ring, cells, lower rate (R42). -/
  planMap : List (Nat × Nat × Bool)
  /-- The Plane programs of the set are those of the Calquetis stack program set (chapter 07); its Jig tables are the
  shipped ones (R335, R340); its Mortise and Tenon programs are the shipped safety programs (R428). -/
  calquetis : Bool
  shippedJig : Bool
  shippedSafety : Bool
  deriving DecidableEq, Repr, Inhabited

/-- The configuration that the bytes of a type 6 section spell. -/
opaque configOf : List Byte → Configuration

/-- DEVSN and the identity private key, fused at test (R515). -/
opaque devsn : BitVec 64
opaque identityKey : BitVec 256

/-- What the device certificate holds beside DEVSN and the identity public key: its bytes before the subject serial number, how
that number is written, the bytes between it and the subject key, and those after the key, the CA's signature among them
(R515). -/
opaque certHead : List Byte
opaque certSerial : BitVec 64 → List Byte
opaque certMid : List Byte
opaque certTail : List Byte

/-- MBASE and PROMINq in kHz (R546, R547). -/
opaque mbase : BitVec 4
opaque promin : Nat → BitVec 32

/-- Points 0 to 32 of the two fused correction tables: TS5 in 0.125 °C, and ppb or µV (R545). -/
opaque memsPoint : Nat → Int × Int
opaque refPoint : Nat → Int × Int

/-- The corrections at a TS5 outside the points of the tables, which R545 does not state. -/
opaque memsBeyond : Int → Int
opaque refBeyond : Int → Int

/-- A value the spec leaves undefined, fresh for each use (R17). -/
opaque freeWord : Nat → BitVec 32

/-- Cycles of the reference (1) and of SFB (2) that have begun by an instant of ring time: neither clock runs on ring time,
and the spec relates their phases to it in no rule: free values, DESIGN CHOICE (log 188). -/
opaque srcCycles : Nat → Nat → Nat

/-- Amperes per raw current count of a cell's slot, in 2^-32: the scale set in the node's configuration (R176), which the
stack parameter table does not hold. -/
opaque ampsPerCount : Nat → Nat

/-- Is step `i` of the geometric row from F0 to F1 in NS steps rounded up (R265)? The rounding of the row is not stated. -/
opaque stepUp : Nat → Nat → Nat → Nat → Bool

/-- What the shipped safety program set sends on connection `j` in cycle `k` while the connection has not failed: RUN, and
data word `w` (R425, R428 state neither). -/
opaque safeRun : Nat → Nat → Bool
opaque safeData : Nat → Nat → Nat → BitVec 32

/-- Rounding of a quotient where the spec states none: up when inexact? -/
opaque roundUp : Int → Nat → Bool

/-- Word address, in a node's register space, of its identity: the node's register map is not given. -/
opaque nodeIdReg : BitVec 16

/-- Word address, in a node's register space, of each of JG0's configuration writes (R330) and of the head-to-node
delays (R109). -/
opaque nodeCfgReg : Nat → BitVec 16

/-- Spare rows of the capture buffer: R448 gives it the row logging of R343, which states no number for it. -/
opaque captureSpares : Nat

/-- First word of the status entries in the stack status record (R236, 256 bytes): the record's layout is not given. -/
opaque stackBase : BitVec 6

/-- Sticky flags that the arithmetic of a program of the set leaves, by engine and period index (R261): the programs' number
formats are not stated. -/
opaque setFlags : Nat → Nat → BitVec 4

/-- Which of the results within the stated bound an approximating instruction delivers, by opcode and operands (R308,
R309): a fixed function of the operands. -/
opaque approxPick : Nat → BitVec 32 → BitVec 32 → Nat

end Sys2Proof.Config
end

