-- ==== Sys2Proof/Machine/RegTable.lean ====
section
/-!
DEFINITION. Sys2Proof/Machine/RegTable.lean: the register map: every page of R52, the common header of R57 and every
register table of the spec (name, offset, access masks by R13, reset value, reset level by R16), with the key of every
register. A register the spec gives no numeric reset value ("Fused", "Stored", "Random") stands here with 0 and is
answered from Config by the accessor in Machine/Ops.lean.
Readings and choices (notes/assumptions): DEDUCED 143; DESIGN CHOICE 187.
-/
namespace Sys2Proof.Machine

/-- Reset level letters of R16. -/
inductive Level where
  /-- Power-on reset only. -/
  | P
  /-- Power-on and system reset. -/
  | S
  /-- Power-on, system and core reset. -/
  | C
  deriving DecidableEq, Repr

/-- The access masks of a register (R13): each bit set says the bit has that access code. -/
structure Acc where
  rw : Nat := 0
  rwl : Nat := 0
  rws : Nat := 0
  w1c : Nat := 0
  wo : Nat := 0
  ro : Nat := 0
  roc : Nat := 0
  deriving DecidableEq, Repr

/-- One row of a register table: `count` registers from offset `off`, `stride` bytes apart. -/
structure RegDef where
  name : String
  off : Nat
  stride : Nat
  count : Nat
  acc : Acc
  reset : Nat
  level : Level
  deriving DecidableEq, Repr

/-- Is offset `o` one of the registers of this row? -/
def RegDef.has (d : RegDef) (o : Nat) : Bool :=
  if d.stride = 0 then o == d.off
  else Nat.ble d.off o && Nat.blt o (d.off + d.stride * d.count) && (o - d.off) % d.stride == 0

/-- The blocks of R52. -/
inductive Block where
  | sys
  | rst
  | clk
  | pwr
  | mon
  | dtm
  | trg
  | eth
  | lne
  | rng
  | cls
  | jg
  | pe
  | mrt
  | tnn
  | edg
  | stk
  | lbr
  | trp
  | cnv
  | mod
  | hpr
  | sft
  | sio
  | scr
  | sec
  | pmc
  | hsp
  deriving DecidableEq, Repr

/-- First page, number of pages and block code of each block (R52). -/
def Block.pages : List (Block × Nat × Nat × Nat) :=
  [(.sys, 0x000, 1, 0x01),
   (.rst, 0x001, 1, 0x02),
   (.clk, 0x002, 1, 0x03),
   (.pwr, 0x003, 1, 0x04),
   (.mon, 0x004, 1, 0x05),
   (.dtm, 0x008, 1, 0x08),
   (.trg, 0x009, 1, 0x09),
   (.eth, 0x00A, 2, 0x0A),
   (.lne, 0x010, 32, 0x10),
   (.rng, 0x030, 32, 0x11),
   (.cls, 0x050, 1, 0x12),
   (.jg, 0x051, 2, 0x13),
   (.pe, 0x060, 8, 0x18),
   (.mrt, 0x068, 1, 0x19),
   (.tnn, 0x069, 1, 0x1A),
   (.edg, 0x070, 1, 0x20),
   (.stk, 0x071, 1, 0x21),
   (.lbr, 0x078, 1, 0x28),
   (.trp, 0x079, 1, 0x29),
   (.cnv, 0x080, 1, 0x30),
   (.mod, 0x081, 1, 0x31),
   (.hpr, 0x088, 1, 0x38),
   (.sft, 0x090, 1, 0x40),
   (.sio, 0x091, 1, 0x41),
   (.scr, 0x098, 1, 0x48),
   (.sec, 0x0A0, 1, 0x50),
   (.pmc, 0x0A8, 1, 0x58),
   (.hsp, 0x0B0, 1, 0x60)]

/-- The block that owns a page number, if R52 defines the page. -/
def blockOf (page : Nat) : Option Block :=
  (Block.pages.find? fun p => Nat.ble p.2.1 page && Nat.blt page (p.2.1 + p.2.2.1)).map (·.1)

/-- The block code of a page (R52), 0 for a page that is not defined. -/
def blockCode (page : Nat) : Nat :=
  ((Block.pages.find? fun p => Nat.ble p.2.1 page && Nat.blt page (p.2.1 + p.2.2.1)).map (·.2.2.2)).getD 0

/-- The twelve engine pages, whose header is Level C (R57). -/
def isEnginePage (page : Nat) : Bool := (Nat.ble 0x51 page && Nat.ble page 0x52) || (Nat.ble 0x60 page && Nat.ble page 0x69)

/-- The common header of a page (R57). PID is computed by the accessor. -/
def headerRegs (page : Nat) : List RegDef :=
  let l : Level := if isEnginePage page then .C else .S
  [⟨"PID", 0x000, 0, 1, { ro := 0xFFFFFFFF }, page * 0x10000 + blockCode page * 0x100 + 1, l⟩,
   ⟨"PCTL", 0x004, 0, 1, { rw := 0x5, wo := 0x2 }, 0, l⟩,
   ⟨"PSTA", 0x008, 0, 1, { ro := 0xFFFF000F }, 4, l⟩,
   ⟨"IRQS", 0x00C, 0, 1, { w1c := 0x8000FFFF }, 0, l⟩,
   ⟨"IRQE", 0x010, 0, 1, { rw := 0x8000FFFF }, 0, l⟩,
   ⟨"IRQF", 0x014, 0, 1, { ro := 0x8000FFFF }, 0, l⟩,
   ⟨"FLTS", 0x018, 0, 1, { ro := 0xF }, 0, l⟩,
   ⟨"WLCK", 0x01C, 0, 1, { ro := 0xFF01 }, 0, l⟩]

/-- Block registers of SYS (R66). -/
def regsSys : List RegDef :=
  [⟨"DEVID", 0x100, 0, 1, { ro := 0xFFFFFFFF }, 0x964001, .P⟩,
   ⟨"IRQPG", 0x104, 0, 1, { ro := 0xFFF }, 0xFFF, .S⟩,
   ⟨"TAGOUT", 0x108, 0, 1, { ro := 0xFFFFFFFF }, 0x0, .S⟩,
   ⟨"TAGOUTH", 0x10C, 0, 1, { ro := 0xFFFFFFFF }, 0x0, .S⟩]

/-- Block registers of HSP (R66). -/
def regsHsp : List RegDef :=
  [⟨"HCFG", 0x100, 0, 1, { rwl := 0xF }, 0x3, .S⟩,
   ⟨"CRCCNT", 0x104, 0, 1, { roc := 0xFFFF }, 0x0, .S⟩,
   ⟨"TRCCNT", 0x108, 0, 1, { roc := 0xFFFF }, 0x0, .S⟩]

/-- Block registers of DTM (R119). -/
def regsDtm : List RegDef :=
  [⟨"DTCTL", 0x100, 0, 1, { rwl := 0xFFFF0013, wo := 0x20 }, 0xBB80000, .S⟩,
   ⟨"DTSTA", 0x104, 0, 1, { ro := 0x2F }, 0x8, .S⟩,
   ⟨"SNAPL", 0x108, 0, 1, { ro := 0xFFFFFFFF }, 0x0, .S⟩,
   ⟨"SNAPH", 0x10C, 0, 1, { ro := 0xFFFFFFFF }, 0x0, .S⟩,
   ⟨"FADJ", 0x110, 0, 1, { ro := 0xFFFFFFFF }, 0x0, .S⟩,
   ⟨"FAVG", 0x114, 0, 1, { ro := 0xFFFFFFFF }, 0x0, .S⟩,
   ⟨"OFFS", 0x118, 0, 1, { ro := 0xFFFFFFFF }, 0x0, .S⟩,
   ⟨"FOREIGN", 0x11C, 0, 1, { ro := 0xFFFFFFFF }, 0x0, .S⟩,
   ⟨"STEPLIM", 0x120, 0, 1, { rw := 0xFFFFFFFF }, 0x3E80, .S⟩,
   ⟨"SLEWMAX", 0x124, 0, 1, { rw := 0xFFFFFFFF }, 0xA7C5AC, .S⟩,
   ⟨"EPOCHL", 0x128, 0, 1, { rwl := 0xFFFFFFFF }, 0x6553F100, .S⟩,
   ⟨"EPOCHH", 0x12C, 0, 1, { rwl := 0xFFFF }, 0x0, .S⟩,
   ⟨"PPSCORR", 0x130, 0, 1, { rw := 0xFFFFFFFF }, 0x0, .S⟩,
   ⟨"TRVCTL", 0x134, 0, 1, { rw := 0x71 }, 0x41, .S⟩,
   ⟨"SRVB0", 0x140, 0, 1, { rw := 0xFFFFFFFF }, 0xA0, .S⟩,
   ⟨"SRVB1", 0x148, 0, 1, { rw := 0xFFFFFFFF }, 0x640, .S⟩,
   ⟨"SRVB2", 0x150, 0, 1, { rw := 0xFFFFFFFF }, 0x3E80, .S⟩,
   ⟨"SRVB3", 0x158, 0, 1, { rw := 0xFFFFFFFF }, 0xFFFFFFFF, .S⟩,
   ⟨"SRVK0", 0x144, 0, 1, { rw := 0xFFFFFFFF }, 0x4000040, .S⟩,
   ⟨"SRVK1", 0x14C, 0, 1, { rw := 0xFFFFFFFF }, 0x8000080, .S⟩,
   ⟨"SRVK2", 0x154, 0, 1, { rw := 0xFFFFFFFF }, 0x10000100, .S⟩,
   ⟨"SRVK3", 0x15C, 0, 1, { rw := 0xFFFFFFFF }, 0x10000100, .S⟩]

/-- Block registers of TRG (R120). -/
def regsTrg : List RegDef :=
  [⟨"PER", 0x100, 0, 1, { rws := 0xFFFFF }, 0x27100, .S⟩,
   ⟨"PIDX", 0x104, 0, 1, { ro := 0xFFFF }, 0x0, .S⟩,
   ⟨"PSTART", 0x108, 0, 1, { ro := 0xFFFFFFFF }, 0x0, .S⟩,
   ⟨"TCL", 0x10C, 0, 1, { ro := 0xFFFFF }, 0x0, .S⟩,
   ⟨"TTC", 0x110, 0, 1, { ro := 0xFFFFF }, 0x0, .S⟩,
   ⟨"TML", 0x114, 0, 1, { ro := 0xFFFFF }, 0x0, .S⟩,
   ⟨"TCC", 0x118, 0, 1, { ro := 0xFFFFF }, 0x0, .S⟩,
   ⟨"PHI", 0x11C, 0, 1, { ro := 0xFFFFF }, 0x0, .S⟩,
   ⟨"PMIN", 0x120, 0, 1, { ro := 0xFFFFF }, 0x0, .S⟩,
   ⟨"PMAX", 0x124, 0, 1, { ro := 0xFFFFF }, 0x0, .S⟩,
   ⟨"TSCFG", 0x140, 8, 11, { rw := 0xFF07 }, 0x0, .S⟩,
   ⟨"TSTGT", 0x144, 8, 11, { rw := 0xFFFFFFFF }, 0x0, .S⟩]

/-- Block registers of ETH (R121). TXRB and RXRB are 16-byte aligned: bits [3:0] are not held, so a written value reads back
with them 0 (DEDUCED 143). -/
def regsEth : List RegDef :=
  [⟨"ECFG", 0x100, 0, 1, { rwl := 0xFFF3F }, 0x0, .S⟩,
   ⟨"MACL", 0x104, 0, 1, { rwl := 0xFFFFFFFF }, 0x0, .S⟩,
   ⟨"MACH", 0x108, 0, 1, { rwl := 0xFFFF }, 0x0, .S⟩,
   ⟨"IPV4", 0x10C, 0, 1, { rwl := 0xFFFFFFFF }, 0x0, .S⟩,
   ⟨"MIDL", 0x110, 0, 1, { rw := 0xFFFFFFFF }, 0x0, .S⟩,
   ⟨"MIDH", 0x114, 0, 1, { rw := 0xFFFFFFFF }, 0x0, .S⟩,
   ⟨"MPORT", 0x118, 0, 1, { rw := 0xFFFF }, 0x0, .S⟩,
   ⟨"TXCORR", 0x11C, 0, 1, { rw := 0xFFFFFFFF }, 0x0, .S⟩,
   ⟨"RXCORR", 0x120, 0, 1, { rw := 0xFFFFFFFF }, 0x0, .S⟩,
   ⟨"MPD", 0x124, 0, 1, { ro := 0xFFFFFFFF }, 0x0, .S⟩,
   ⟨"POFS", 0x128, 0, 1, { ro := 0xFFFFFFFF }, 0x0, .S⟩,
   ⟨"TXRB", 0x12C, 0, 1, { rw := 0xFFFFFFF0 }, 0x0, .S⟩,
   ⟨"TXRN", 0x130, 0, 1, { rw := 0xFF }, 0x0, .S⟩,
   ⟨"RXRB", 0x134, 0, 1, { rw := 0xFFFFFFF0 }, 0x0, .S⟩,
   ⟨"RXRN", 0x138, 0, 1, { rw := 0xFF }, 0x0, .S⟩,
   ⟨"TXKICK", 0x13C, 0, 1, { wo := 0x1 }, 0x0, .S⟩]

/-- Block registers of LNE (R152). -/
def regsLne : List RegDef :=
  [⟨"LNCFG", 0x100, 0, 1, { rwl := 0xFFFFFF1 }, 0x8181080, .S⟩,
   ⟨"LNMAP", 0x104, 0, 1, { rwl := 0x7F }, 0x0, .S⟩,
   ⟨"LNCTL", 0x108, 0, 1, { rw := 0x3F0376, rwl := 0x800, wo := 0x401 }, 0x0, .S⟩,
   ⟨"INJINT", 0x10C, 0, 1, { rw := 0xFFFFFFFF }, 0xFFFF, .S⟩,
   ⟨"LNSTA", 0x110, 0, 1, { ro := 0x3FF7F }, 0x8, .S⟩,
   ⟨"TAPS", 0x114, 0, 1, { ro := 0xFFF0FFF }, 0x3C0, .S⟩,
   ⟨"PWR", 0x118, 0, 1, { ro := 0xFFFF }, 0x8000, .S⟩,
   ⟨"CVCNT", 0x11C, 0, 1, { roc := 0xFFFF }, 0x0, .S⟩,
   ⟨"LOSCNT", 0x120, 0, 1, { roc := 0xFFFF }, 0x0, .S⟩,
   ⟨"LOLCNT", 0x124, 0, 1, { roc := 0xFFFF }, 0x0, .S⟩,
   ⟨"TRNCNT", 0x128, 0, 1, { roc := 0xFFFF }, 0x0, .S⟩,
   ⟨"ELCNT", 0x12C, 0, 1, { roc := 0xFFFFFFFF }, 0x0, .S⟩,
   ⟨"ERRCNT", 0x130, 0, 1, { ro := 0xFFFFFFFF }, 0x0, .S⟩,
   ⟨"BITCNTL", 0x134, 0, 1, { ro := 0xFFFFFFFF }, 0x0, .S⟩,
   ⟨"BITCNTH", 0x138, 0, 1, { ro := 0xFFFF }, 0x0, .S⟩,
   ⟨"TRNCFG", 0x13C, 0, 1, { rw := 0xFFFFFF }, 0x301F40, .S⟩]

/-- Block registers of RNG (R194). -/
def regsRng : List RegDef :=
  [⟨"RCFG", 0x100, 0, 1, { ro := 0xFFFF3F }, 0x0, .S⟩,
   ⟨"RCTL", 0x104, 0, 1, { rwl := 0x103FF }, 0x7D, .S⟩,
   ⟨"RSTA", 0x108, 0, 1, { ro := 0xFF07FF }, 0x0, .S⟩,
   ⟨"FORCE", 0x10C, 0, 1, { wo := 0x1FF }, 0x0, .S⟩,
   ⟨"LATECNT", 0x110, 0, 1, { roc := 0xFFFF }, 0x0, .S⟩,
   ⟨"CRCCNT", 0x114, 0, 1, { roc := 0xFFFF }, 0x0, .S⟩,
   ⟨"LENCNT", 0x118, 0, 1, { roc := 0xFFFF }, 0x0, .S⟩,
   ⟨"ABRTCNT", 0x11C, 0, 1, { roc := 0xFFFF }, 0x0, .S⟩,
   ⟨"HDRCNT", 0x120, 0, 1, { roc := 0xFFFF }, 0x0, .S⟩,
   ⟨"MISCNT", 0x124, 0, 1, { roc := 0xFFFF }, 0x0, .S⟩,
   ⟨"STALECNT", 0x128, 0, 1, { roc := 0xFFFF }, 0x0, .S⟩,
   ⟨"ESCCNT", 0x12C, 0, 1, { roc := 0xFFFF }, 0x0, .S⟩,
   ⟨"SVLCNT", 0x130, 0, 1, { roc := 0xFFFF }, 0x0, .S⟩,
   ⟨"CAPB", 0x134, 0, 1, { rw := 0xFFFFFFF8 }, 0x0, .S⟩,
   ⟨"CAPL", 0x138, 0, 1, { rw := 0xFFFFFFFF }, 0x0, .S⟩,
   ⟨"CAPWP", 0x13C, 0, 1, { ro := 0xFFFFFFFF }, 0x0, .S⟩,
   ⟨"SVRB", 0x140, 0, 1, { rw := 0xFFFFFFF0 }, 0x0, .S⟩,
   ⟨"SVRN", 0x144, 0, 1, { rw := 0xFF }, 0x0, .S⟩,
   ⟨"SVKICK", 0x148, 0, 1, { wo := 0x1 }, 0x0, .S⟩]

/-- Block registers of EDG (R230). -/
def regsEdg : List RegDef :=
  [⟨"ESTA", 0x100, 0, 1, { w1c := 0xF, ro := 0xFFFF0000 }, 0x0, .S⟩,
   ⟨"LPTB", 0x104, 0, 1, { ro := 0xFFFFFFFF }, 0x0, .S⟩,
   ⟨"CSEL", 0x108, 0, 1, { rw := 0x7FF }, 0x0, .S⟩,
   ⟨"CVAL", 0x10C, 0, 1, { ro := 0xFFFFFFFF }, 0x0, .S⟩,
   ⟨"BCVAL", 0x110, 0, 1, { ro := 0xFFFFFFFF }, 0x0, .S⟩,
   ⟨"LSTA", 0x114, 0, 1, { ro := 0x1FFF }, 0x0, .S⟩,
   ⟨"SWCNT", 0x118, 0, 1, { roc := 0xFFFF }, 0x0, .S⟩,
   ⟨"EXCNT", 0x11C, 0, 1, { roc := 0xFFFF }, 0x0, .S⟩,
   ⟨"BRCNT", 0x120, 0, 1, { roc := 0xFFFF }, 0x0, .S⟩,
   ⟨"CSATCNT", 0x124, 0, 1, { roc := 0xFFFF }, 0x0, .S⟩,
   ⟨"SERRCNT", 0x128, 0, 1, { roc := 0xFFFF }, 0x0, .S⟩,
   ⟨"MMCCNT", 0x12C, 0, 1, { roc := 0xFFFF }, 0x0, .S⟩,
   ⟨"BUVCNT", 0x130, 0, 1, { roc := 0xFFFF }, 0x0, .S⟩,
   ⟨"ACFG", 0x140, 16, 6, { rws := 0xFFFF000F }, 0x6, .S⟩,
   ⟨"ABOOT", 0x144, 16, 6, { rws := 0xFFFF00FF }, 0x3E800008, .S⟩,
   ⟨"ABOFS", 0x148, 16, 6, { rws := 0xFFFFF }, 0x13880, .S⟩,
   ⟨"ACMAX", 0x14C, 16, 6, { rws := 0xFFFFF }, 0x7D00, .S⟩,
   ⟨"ANACT", 0x1A0, 4, 6, { ro := 0xFFFFFFFF }, 0x0, .S⟩]

/-- Block registers of STK (R269). -/
def regsStk : List RegDef :=
  [⟨"SCFG", 0x100, 0, 1, { ro := 0xFFFFFFFF }, 0x0, .S⟩,
   ⟨"SPTB", 0x104, 0, 1, { ro := 0xFFFFFFFF }, 0x0, .S⟩,
   ⟨"SMODE", 0x108, 0, 1, { rws := 0x3F07 }, 0x0, .S⟩,
   ⟨"VLVREF", 0x10C, 0, 1, { rws := 0xFFFF }, 0x1F40, .S⟩,
   ⟨"PLIMH", 0x110, 0, 1, { rws := 0xFFFFFFFF }, 0xFFFFFFFF, .S⟩,
   ⟨"QREF", 0x114, 0, 1, { rws := 0xFFFF }, 0x0, .S⟩,
   ⟨"SSTA", 0x118, 0, 1, { ro := 0xFF }, 0x0, .S⟩,
   ⟨"GFREQ", 0x11C, 0, 1, { ro := 0xFFFFFFFF }, 0x0, .S⟩,
   ⟨"GAMP", 0x120, 0, 1, { ro := 0xFFFF }, 0x0, .S⟩,
   ⟨"PGRID", 0x124, 0, 1, { ro := 0xFFFFFFFF }, 0x0, .S⟩,
   ⟨"VLV", 0x128, 0, 1, { ro := 0xFFFF }, 0x0, .S⟩,
   ⟨"PLIM", 0x12C, 0, 1, { ro := 0xFFFFFFFF }, 0x0, .S⟩,
   ⟨"SATF", 0x130, 0, 1, { w1c := 0xFF }, 0x0, .S⟩,
   ⟨"STALEC", 0x134, 0, 1, { roc := 0xFFFF }, 0x0, .S⟩,
   ⟨"INJCFG", 0x140, 0, 1, { rws := 0xFFF7FF7F }, 0x0, .S⟩,
   ⟨"INJAMP", 0x144, 0, 1, { rws := 0xFFFF }, 0x0, .S⟩,
   ⟨"INJF0", 0x148, 0, 1, { rws := 0xFFFFFFFF }, 0x0, .S⟩,
   ⟨"INJF1", 0x14C, 0, 1, { rws := 0xFFFFFFFF }, 0x0, .S⟩,
   ⟨"INJLEN", 0x150, 0, 1, { rws := 0xFFFFFFFF }, 0x0, .S⟩,
   ⟨"INJSTA", 0x154, 0, 1, { ro := 0xFFFFFFFF }, 0x0, .S⟩,
   ⟨"CAPB", 0x160, 0, 1, { rw := 0xFFFFFFF0 }, 0x0, .S⟩,
   ⟨"CAPL", 0x164, 0, 1, { rw := 0xFFFFFFFF }, 0x0, .S⟩,
   ⟨"CAPSEL", 0x168, 0, 1, { rw := 0xBFBFBFBF }, 0x0, .S⟩,
   ⟨"CAPDEC", 0x16C, 0, 1, { rw := 0xFF }, 0x0, .S⟩,
   ⟨"CAPT0L", 0x170, 0, 1, { ro := 0xFFFFFFFF }, 0x0, .S⟩,
   ⟨"CAPT0H", 0x174, 0, 1, { ro := 0xFFFFFFFF }, 0x0, .S⟩,
   ⟨"CAPWP", 0x178, 0, 1, { ro := 0xFFFFFFFF }, 0x0, .S⟩,
   ⟨"CAPSTA", 0x17C, 0, 1, { ro := 0xFFFFFFFF }, 0x0, .S⟩]

/-- Block registers of PE (pe7 only) (R295). -/
def regsPePe7 : List RegDef :=
  [⟨"PECFG", 0x100, 0, 1, { rwl := 0x703 }, 0x0, .C⟩,
   ⟨"SHCTL", 0x150, 0, 1, { wo := 0x1 }, 0x0, .C⟩,
   ⟨"SHSTA", 0x154, 0, 1, { ro := 0xFFFF000F }, 0x0, .C⟩,
   ⟨"SHADDR", 0x158, 0, 1, { ro := 0xFFFFFFFF }, 0x0, .C⟩,
   ⟨"SHPER", 0x15C, 0, 1, { roc := 0xFFFFFFFF }, 0x0, .C⟩]

/-- Block registers of PE (R295). -/
def regsPe : List RegDef :=
  [⟨"ENTRY", 0x104, 0, 1, { rwl := 0xFFF8 }, 0x0, .C⟩,
   ⟨"ESTA", 0x108, 0, 1, { ro := 0x1F7 }, 0x0, .C⟩,
   ⟨"PC", 0x10C, 0, 1, { ro := 0xFFFF }, 0x0, .C⟩,
   ⟨"FLAGS", 0x110, 0, 1, { w1c := 0xF }, 0x0, .C⟩,
   ⟨"CYCLAST", 0x134, 0, 1, { ro := 0xFFFF }, 0x0, .C⟩,
   ⟨"CYCMAX", 0x138, 0, 1, { roc := 0xFFFF }, 0x0, .C⟩,
   ⟨"ECCCNT", 0x13C, 0, 1, { roc := 0xFFFFFFFF }, 0x0, .C⟩,
   ⟨"ECCADR", 0x140, 0, 1, { ro := 0xFFFFFFFF }, 0x0, .C⟩]

/-- Block registers of PE (pe only) (R295). -/
def regsPePe : List RegDef :=
  [⟨"OSETlo", 0x114, 4, 4, { rwl := 0xFFFFFFFF }, 0x0, .C⟩,
   ⟨"OSETLB", 0x124, 0, 1, { rwl := 0xFFF }, 0x0, .C⟩,
   ⟨"OVCNT", 0x128, 0, 1, { roc := 0xFFFF }, 0x0, .C⟩,
   ⟨"OVPC", 0x12C, 0, 1, { ro := 0xFFFF }, 0x0, .C⟩,
   ⟨"OVPIDX", 0x130, 0, 1, { ro := 0xFFFF }, 0x0, .C⟩,
   ⟨"OSEThi", 0x160, 4, 4, { rwl := 0xFFFFFFFF }, 0x0, .C⟩]

/-- Block registers of CLS (R346). -/
def regsCls : List RegDef :=
  [⟨"LCFG", 0x100, 0, 1, { rw := 0xFF01FF }, 0x40020, .S⟩,
   ⟨"CMD", 0x104, 0, 1, { wo := 0x7FF }, 0x0, .S⟩,
   ⟨"CMDSTA", 0x108, 0, 1, { ro := 0xFF3F0F }, 0x0, .S⟩,
   ⟨"CSEL", 0x10C, 0, 1, { rw := 0xFF }, 0x0, .S⟩,
   ⟨"CSTA", 0x110, 0, 1, { ro := 0xFFFFFFFF }, 0x0, .S⟩,
   ⟨"CPEND", 0x114, 0, 1, { ro := 0xFFFFFFFF }, 0x0, .S⟩,
   ⟨"CTIME", 0x118, 0, 1, { ro := 0xFFFF }, 0x0, .S⟩,
   ⟨"NTGT", 0x120, 4, 6, { rw := 0x3F }, 0x0, .S⟩,
   ⟨"ACNT", 0x140, 4, 6, { ro := 0xFFFFFFFF }, 0x0, .S⟩,
   ⟨"RETMAP", 0x160, 4, 8, { ro := 0xFFFFFFFF }, 0x0, .S⟩,
   ⟨"RETCLR", 0x180, 0, 1, { wo := 0xFF }, 0x0, .S⟩,
   ⟨"FMB", 0x184, 0, 1, { ro := 0xFFFFFFFF }, 0x0, .S⟩,
   ⟨"REJCNT", 0x190, 0, 1, { roc := 0xFFFF }, 0x0, .S⟩,
   ⟨"DEFCNT", 0x194, 0, 1, { roc := 0xFFFF }, 0x0, .S⟩]

/-- Block registers of JG (R347). -/
def regsJg : List RegDef :=
  [⟨"TBANK", 0x100, 0, 1, { rws := 0x3 }, 0x0, .C⟩,
   ⟨"TBSTA", 0x104, 0, 1, { ro := 0xFFFFFFFF }, 0x0, .C⟩,
   ⟨"TBLD", 0x108, 0, 1, { wo := 0x3 }, 0x0, .C⟩,
   ⟨"TBASE", 0x110, 4, 4, { ro := 0xFFFFFFFF }, 0x0, .C⟩,
   ⟨"CVB", 0x120, 0, 1, { ro := 0xFFFFFFFF }, 0x0, .C⟩,
   ⟨"CVN", 0x124, 0, 1, { ro := 0xFF }, 0x0, .C⟩,
   ⟨"PASSLAST", 0x128, 0, 1, { ro := 0xFFFF }, 0x0, .C⟩,
   ⟨"PASSMAX", 0x12C, 0, 1, { roc := 0xFFFF }, 0x0, .C⟩,
   ⟨"TOCNT", 0x130, 0, 1, { roc := 0xFFFF }, 0x0, .C⟩,
   ⟨"EVDCNT", 0x134, 0, 1, { roc := 0xFFFF }, 0x0, .C⟩]

/-- Block registers of JG (jg1 only) (R347). -/
def regsJgJg1 : List RegDef :=
  [⟨"SSTATE", 0x140, 0, 1, { ro := 0x3F }, 0x0, .C⟩,
   ⟨"JCMD", 0x144, 0, 1, { wo := 0x3 }, 0x0, .C⟩,
   ⟨"JCMDSTA", 0x148, 0, 1, { ro := 0xFF3F0F }, 0x0, .C⟩]

/-- Block registers of HPR (R369). -/
def regsHpr : List RegDef :=
  [⟨"PCFG", 0x100, 0, 1, { rwl := 0x1F1F }, 0x1F1A, .S⟩,
   ⟨"HSTA", 0x104, 0, 1, { ro := 0x3FF }, 0x0, .S⟩,
   ⟨"HCMD", 0x108, 0, 1, { wo := 0x3 }, 0x0, .S⟩,
   ⟨"PEER", 0x10C, 0, 1, { ro := 0xFFFFFFFF }, 0x0, .S⟩,
   ⟨"RLYMAP", 0x110, 0, 1, { ro := 0xFFFFFFFF }, 0x0, .S⟩,
   ⟨"SUBMAP", 0x114, 0, 1, { ro := 0xFFFFFFFF }, 0x0, .S⟩,
   ⟨"TXL", 0x118, 0, 1, { ro := 0xFFFFF }, 0x0, .S⟩,
   ⟨"TIEN", 0x11C, 0, 1, { ro := 0x1F }, 0x0, .S⟩,
   ⟨"DIGEST", 0x120, 0, 1, { ro := 0xFFFFFFFF }, 0x0, .S⟩,
   ⟨"TOFS", 0x124, 0, 1, { ro := 0xFFFFFFFF }, 0x0, .S⟩,
   ⟨"DIVPIDX", 0x128, 0, 1, { ro := 0xFFFF }, 0x0, .S⟩,
   ⟨"DIVPOS", 0x12C, 0, 1, { ro := 0xFFFFFFFF }, 0x0, .S⟩,
   ⟨"CMPCNT", 0x130, 0, 1, { roc := 0xFFFFFFFF }, 0x0, .S⟩,
   ⟨"DIVCNT", 0x134, 0, 1, { roc := 0xFFFF }, 0x0, .S⟩,
   ⟨"SKPCNT", 0x138, 0, 1, { roc := 0xFFFF }, 0x0, .S⟩,
   ⟨"RLYLATE", 0x13C, 0, 1, { roc := 0xFFFF }, 0x0, .S⟩,
   ⟨"TIEDROP", 0x140, 0, 1, { roc := 0xFFFF }, 0x0, .S⟩,
   ⟨"TKCNT", 0x144, 0, 1, { roc := 0xFFFF }, 0x0, .S⟩,
   ⟨"CONCNT", 0x148, 0, 1, { roc := 0xFFFF }, 0x0, .S⟩]

/-- Block registers of LBR (R394). -/
def regsLbr : List RegDef :=
  [⟨"TLATCH", 0x100, 0, 1, { w1c := 0x3FFF }, 0x0, .S⟩,
   ⟨"TMASKD", 0x104, 0, 1, { ro := 0xFFF }, 0x0, .S⟩,
   ⟨"LOUT", 0x108, 0, 1, { ro := 0x3FFFFFF }, 0x0, .S⟩,
   ⟨"LBOOT", 0x10C, 0, 1, { rws := 0xFFFF00FF }, 0x3E800008, .S⟩,
   ⟨"LBOFS", 0x110, 0, 1, { rws := 0xFFFFF }, 0x13880, .S⟩,
   ⟨"LCMAX", 0x114, 0, 1, { rws := 0xFFFFF }, 0x7D00, .S⟩,
   ⟨"LSEL", 0x118, 0, 1, { rw := 0xF }, 0x0, .S⟩,
   ⟨"LCVAL", 0x11C, 0, 1, { ro := 0xFFFFFFFF }, 0x0, .S⟩,
   ⟨"LBCVAL", 0x120, 0, 1, { ro := 0xFFFFFFFF }, 0x0, .S⟩,
   ⟨"LLSTA", 0x124, 0, 1, { ro := 0xFFFFFFFF }, 0x0, .S⟩,
   ⟨"TRIPCNT", 0x128, 0, 1, { roc := 0xFFFF }, 0x0, .S⟩,
   ⟨"MASKCNT", 0x12C, 0, 1, { roc := 0xFFFF }, 0x0, .S⟩,
   ⟨"LCFG", 0x140, 16, 12, { rws := 0xFF }, 0x86, .S⟩,
   ⟨"LTIM", 0x144, 16, 12, { rws := 0x3FFFFFFF }, 0x0, .S⟩,
   ⟨"LBLK", 0x148, 16, 12, { rws := 0xFFFF }, 0x0, .S⟩,
   ⟨"LPH", 0x14C, 16, 12, { rws := 0xFFFF }, 0x0, .S⟩,
   ⟨"LHE0", 0x200, 16, 12, { rws := 0xFFFFFFFF }, 0x0, .S⟩,
   ⟨"LHE1", 0x204, 16, 12, { rws := 0xFFFFFFFF }, 0x0, .S⟩,
   ⟨"LHE2", 0x208, 16, 12, { rws := 0xFFFFFFFF }, 0x0, .S⟩,
   ⟨"CHCFG", 0x300, 32, 2, { rwl := 0x1FFF0D }, 0x0, .S⟩,
   ⟨"CHON", 0x304, 32, 2, { rwl := 0xFFFFFFFF }, 0x7FFFFFFF, .S⟩,
   ⟨"CHOFF", 0x308, 32, 2, { rwl := 0xFFFFFFFF }, 0x7FFFFFFE, .S⟩,
   ⟨"CHTMIN", 0x30C, 32, 2, { rwl := 0xFFFF }, 0xFA, .S⟩,
   ⟨"CHBURST", 0x310, 32, 2, { rwl := 0xFFFF }, 0xC8, .S⟩,
   ⟨"CHSTA", 0x314, 32, 2, { ro := 0xFFFF000F }, 0x0, .S⟩,
   ⟨"CHCNT", 0x318, 32, 2, { roc := 0xFFFF }, 0x0, .S⟩]

/-- Block registers of TRP (R395). -/
def regsTrp : List RegDef :=
  [⟨"TCFG", 0x100, 8, 12, { rwl := 0xFF3F }, 0x100, .S⟩,
   ⟨"TMAP", 0x104, 8, 12, { rwl := 0x3FFF }, 0x0, .S⟩,
   ⟨"TIN", 0x160, 0, 1, { ro := 0xFFF }, 0x0, .S⟩,
   ⟨"TACT", 0x164, 0, 1, { w1c := 0xFFF }, 0x0, .S⟩,
   ⟨"TLAST", 0x168, 0, 1, { ro := 0xFFFFFFFF }, 0x0, .S⟩,
   ⟨"TLASTT", 0x16C, 0, 1, { ro := 0xFFFFFFFF }, 0x0, .S⟩]

/-- Block registers of CNV (R414). SLOTn_j is 13 bits RW and names no field for bits [7:5]: they are held as written and read
back, DESIGN CHOICE (log 187). -/
def regsCnv : List RegDef :=
  [⟨"UGO", 0x100, 0, 1, { wo := 0xF }, 0x0, .S⟩,
   ⟨"OVRCNT", 0x104, 0, 1, { roc := 0xFFFF }, 0x0, .S⟩,
   ⟨"ABTCNT", 0x108, 0, 1, { roc := 0xFFFF }, 0x0, .S⟩,
   ⟨"UDRCNT", 0x10C, 0, 1, { roc := 0xFFFF }, 0x0, .S⟩,
   ⟨"SOVCNT", 0x110, 0, 1, { roc := 0xFFFF }, 0x0, .S⟩,
   ⟨"CVCFG", 0x140, 16, 4, { rw := 0xF7FFFFFF }, 0x80C, .S⟩,
   ⟨"CVREF", 0x144, 16, 4, { rw := 0x3 }, 0x0, .S⟩,
   ⟨"UCFG", 0x148, 16, 4, { rw := 0xF11F1F }, 0x1F1F, .S⟩,
   ⟨"CVSTA", 0x14C, 16, 4, { ro := 0x3FF007F }, 0x0, .S⟩,
   ⟨"SLOT", 0x200, 4, 32, { rw := 0x1FFF }, 0x1F1F, .S⟩,
   ⟨"RES", 0x300, 4, 32, { ro := 0xFFFFFFFF }, 0x0, .S⟩,
   ⟨"URES", 0x380, 4, 4, { ro := 0xFFFFFFFF }, 0x0, .S⟩]

/-- Block registers of MOD (R415). -/
def regsMod : List RegDef :=
  [⟨"MCLKCFG", 0x100, 4, 4, { rw := 0x1FF }, 0x40, .S⟩,
   ⟨"MDSTUCK", 0x110, 0, 1, { ro := 0xFFFF }, 0x0, .S⟩,
   ⟨"ALNCNT", 0x114, 0, 1, { roc := 0xFFFF }, 0x0, .S⟩,
   ⟨"OVRCNT", 0x118, 0, 1, { roc := 0xFFFF }, 0x0, .S⟩,
   ⟨"MDCFG", 0x140, 8, 16, { rw := 0xF7FFFFFF }, 0x4030, .S⟩,
   ⟨"MDSTA", 0x144, 8, 16, { ro := 0xFFFFFFF }, 0x0, .S⟩,
   ⟨"MDRES", 0x200, 4, 16, { ro := 0xFFFFFFFF }, 0x0, .S⟩]

/-- Block registers of SFT (R443). -/
def regsSft : List RegDef :=
  [⟨"SCTL", 0x100, 0, 1, { rwl := 0xFF, wo := 0x100 }, 0x32, .S⟩,
   ⟨"SSTA", 0x104, 0, 1, { ro := 0xFFFF003F }, 0x0, .S⟩,
   ⟨"SCYC", 0x108, 0, 1, { ro := 0xFFFFFFFF }, 0x0, .S⟩,
   ⟨"DIVADR", 0x10C, 0, 1, { ro := 0xFFFFFFFF }, 0x0, .S⟩,
   ⟨"CACK", 0x110, 0, 1, { wo := 0xFF }, 0x0, .S⟩,
   ⟨"CSEL", 0x114, 0, 1, { rw := 0xFF }, 0x0, .S⟩,
   ⟨"CSTA", 0x118, 0, 1, { ro := 0xFF }, 0x0, .S⟩,
   ⟨"RXCNT", 0x11C, 0, 1, { roc := 0xFFFF }, 0x0, .S⟩,
   ⟨"TXCNT", 0x120, 0, 1, { roc := 0xFFFF }, 0x0, .S⟩,
   ⟨"SCVCNT", 0x124, 0, 1, { roc := 0xFFFFFFFF }, 0x0, .S⟩,
   ⟨"DISCNT", 0x128, 0, 1, { roc := 0xFFFF }, 0x0, .S⟩,
   ⟨"DIVCNT", 0x12C, 0, 1, { roc := 0xFFFF }, 0x0, .S⟩,
   ⟨"SXMA", 0x130, 0, 1, { rw := 0x7FFC }, 0x0, .S⟩,
   ⟨"SXMD", 0x134, 0, 1, { ro := 0xFFFFFFFF }, 0x0, .S⟩]

/-- Block registers of SIO (R444). -/
def regsSio : List RegDef :=
  [⟨"SCFG", 0x100, 0, 1, { rwl := 0xFF }, 0x0, .S⟩,
   ⟨"HREQ", 0x104, 0, 1, { rw := 0xF }, 0x0, .S⟩,
   ⟨"SOUT", 0x108, 0, 1, { ro := 0x1FFFF }, 0x0, .S⟩,
   ⟨"SLATCH", 0x10C, 0, 1, { w1c := 0xF }, 0x0, .S⟩,
   ⟨"RBTIM", 0x110, 0, 1, { rwl := 0xFFFFFFFF }, 0x7D00014, .S⟩,
   ⟨"TSTA", 0x114, 0, 1, { ro := 0x1FFF }, 0x0, .S⟩,
   ⟨"TDONE", 0x118, 0, 1, { roc := 0xFFFF }, 0x0, .S⟩,
   ⟨"TFAIL", 0x11C, 0, 1, { roc := 0xFFFF }, 0x0, .S⟩,
   ⟨"TLAST", 0x120, 4, 8, { ro := 0xFFFFFFFF }, 0x0, .S⟩]

/-- Block registers of SCR (R463). -/
def regsScr : List RegDef :=
  [⟨"SCTL", 0x100, 0, 1, { wo := 0x3 }, 0x0, .S⟩,
   ⟨"ACKC", 0x104, 0, 1, { wo := 0xFFFF }, 0x0, .S⟩,
   ⟨"UNACK", 0x108, 0, 1, { ro := 0xFFFF }, 0x0, .S⟩,
   ⟨"SSTA", 0x10C, 0, 1, { ro := 0xFFFFFFFF }, 0x0, .S⟩,
   ⟨"LOGWP", 0x110, 0, 1, { ro := 0xFF }, 0x0, .S⟩,
   ⟨"LOSTCNT", 0x114, 0, 1, { roc := 0xFFFF }, 0x0, .S⟩,
   ⟨"RECCNT", 0x118, 0, 1, { roc := 0xFFFFFFFF }, 0x0, .S⟩,
   ⟨"ESCCNT", 0x11C, 0, 1, { roc := 0xFFFF }, 0x0, .S⟩,
   ⟨"LSEL", 0x120, 0, 1, { rw := 0xFF }, 0x0, .S⟩,
   ⟨"LREC", 0x140, 4, 8, { ro := 0xFFFFFFFF }, 0x0, .S⟩,
   ⟨"RREC", 0x180, 4, 8, { ro := 0xFFFFFFFF }, 0x0, .P⟩,
   ⟨"RRECV", 0x1A0, 0, 1, { w1c := 0x1 }, 0x0, .P⟩,
   ⟨"FEADDR", 0x200, 16, 16, { ro := 0xFFFFFFFF }, 0x0, .S⟩,
   ⟨"FEINFO", 0x204, 16, 16, { ro := 0xFFFFFFFF }, 0x0, .S⟩,
   ⟨"FETL", 0x208, 16, 16, { ro := 0xFFFFFFFF }, 0x0, .S⟩,
   ⟨"FETH", 0x20C, 16, 16, { ro := 0xFFFFFFFF }, 0x0, .S⟩,
   ⟨"CNT", 0x300, 4, 16, { roc := 0xFFFF }, 0x0, .S⟩,
   ⟨"SEV0", 0x400, 0, 1, { rwl := 0x777777 }, 0x344243, .S⟩,
   ⟨"SEV1", 0x404, 0, 1, {  }, 0x0, .S⟩,
   ⟨"SEV2", 0x408, 0, 1, { rwl := 0x77777 }, 0x42131, .S⟩,
   ⟨"SEV3", 0x40C, 0, 1, {  }, 0x0, .S⟩,
   ⟨"SEV4", 0x410, 0, 1, { rwl := 0x77777777 }, 0x14421343, .S⟩,
   ⟨"SEV5", 0x414, 0, 1, { rwl := 0x7 }, 0x2, .S⟩,
   ⟨"SEV6", 0x418, 0, 1, {  }, 0x0, .S⟩,
   ⟨"SEV7", 0x41C, 0, 1, {  }, 0x0, .S⟩,
   ⟨"SEV8", 0x420, 0, 1, { rwl := 0x77777 }, 0x21411, .S⟩,
   ⟨"SEV9", 0x424, 0, 1, {  }, 0x0, .S⟩,
   ⟨"SEV10", 0x428, 0, 1, { rwl := 0x77777777 }, 0x11121122, .S⟩,
   ⟨"SEV11", 0x42C, 0, 1, { rwl := 0x77 }, 0x13, .S⟩,
   ⟨"SEV12", 0x430, 0, 1, { rwl := 0x777777 }, 0x112212, .S⟩,
   ⟨"SEV13", 0x434, 0, 1, {  }, 0x0, .S⟩,
   ⟨"SEV14", 0x438, 0, 1, { rwl := 0x777777 }, 0x111122, .S⟩,
   ⟨"SEV15", 0x43C, 0, 1, {  }, 0x0, .S⟩,
   ⟨"SEV16", 0x440, 0, 1, { rwl := 0x77777777 }, 0x33333112, .S⟩,
   ⟨"SEV17", 0x444, 0, 1, { rwl := 0x7 }, 0x3, .S⟩,
   ⟨"SEV18", 0x448, 0, 1, { rwl := 0x77777777 }, 0x33213312, .S⟩,
   ⟨"SEV19", 0x44C, 0, 1, { rwl := 0x777 }, 0x142, .S⟩,
   ⟨"SEV20", 0x450, 0, 1, { rwl := 0x7777 }, 0x4123, .S⟩,
   ⟨"SEV21", 0x454, 0, 1, {  }, 0x0, .S⟩,
   ⟨"SEV22", 0x458, 0, 1, { rwl := 0x7777 }, 0x3122, .S⟩] ++
  [⟨"SEV23", 0x45C, 0, 1, {  }, 0x0, .S⟩,
   ⟨"SEV24", 0x460, 0, 1, { rwl := 0x777777 }, 0x122112, .S⟩,
   ⟨"SEV25", 0x464, 0, 1, {  }, 0x0, .S⟩,
   ⟨"SEV26", 0x468, 0, 1, { rwl := 0x77777777 }, 0x33333333, .S⟩,
   ⟨"SEV27", 0x46C, 0, 1, { rwl := 0x7777777 }, 0x3113333, .S⟩,
   ⟨"SEV28", 0x470, 0, 1, { rwl := 0x7777 }, 0x1211, .S⟩,
   ⟨"SEV29", 0x474, 0, 1, { rwl := 0x7777777 }, 0x1333444, .S⟩,
   ⟨"SEV30", 0x478, 0, 1, { rwl := 0x77777 }, 0x21112, .S⟩,
   ⟨"SEV31", 0x47C, 0, 1, {  }, 0x0, .S⟩]

/-- Block registers of CLK (R486). -/
def regsClk : List RegDef :=
  [⟨"CKCFG", 0x100, 0, 1, { rwl := 0x3D }, 0x30, .S⟩,
   ⟨"CKSSC", 0x104, 0, 1, { rwl := 0xF }, 0x0, .S⟩,
   ⟨"CKSTA", 0x108, 0, 1, { ro := 0x3FFFF }, 0x0, .S⟩,
   ⟨"PLANSS", 0x10C, 0, 1, { ro := 0xF }, 0x0, .S⟩,
   ⟨"REFRET", 0x110, 0, 1, { wo := 0x1 }, 0x0, .S⟩,
   ⟨"HRATIO", 0x114, 0, 1, { ro := 0xFFFFFFFF }, 0x0, .S⟩,
   ⟨"SFBFRQ", 0x118, 0, 1, { ro := 0xFFFFFFFF }, 0x0, .S⟩,
   ⟨"LOLCNT", 0x11C, 0, 1, { roc := 0xFFFFFFFF }, 0x0, .S⟩,
   ⟨"REFSWCNT", 0x120, 0, 1, { roc := 0xFFFF }, 0x0, .S⟩,
   ⟨"CLKOCFG", 0x140, 16, 4, { rw := 0x7 }, 0x0, .S⟩,
   ⟨"CLKODIV", 0x144, 16, 4, { rw := 0xFFFFFFF }, 0x2, .S⟩,
   ⟨"CLKODLY", 0x148, 16, 4, { rw := 0xFFFFFFFF }, 0x0, .S⟩,
   ⟨"CLKOHI", 0x14C, 16, 4, { rw := 0xFFFFFFF }, 0x0, .S⟩]

/-- Block registers of RST (R512). -/
def regsRst : List RegDef :=
  [⟨"RCAUSE", 0x100, 0, 1, { w1c := 0x1FF }, 0x1, .P⟩,
   ⟨"RLAST", 0x104, 0, 1, { ro := 0xFFFF1FF3 }, 0x13, .P⟩,
   ⟨"RWIDTH", 0x108, 0, 1, { ro := 0xFFFFFFFF }, 0x0, .P⟩,
   ⟨"RCMD", 0x10C, 0, 1, { wo := 0xFFFFFFFF }, 0x0, .S⟩,
   ⟨"BSTA", 0x110, 0, 1, { ro := 0x1FF }, 0x0, .S⟩,
   ⟨"BTIME", 0x114, 0, 1, { ro := 0xFFFFFFFF }, 0x0, .S⟩,
   ⟨"LDCTL", 0x118, 0, 1, { wo := 0x3 }, 0x0, .S⟩,
   ⟨"LDCNT", 0x11C, 0, 1, { ro := 0xFFFFFFFF }, 0x0, .S⟩,
   ⟨"DOMRST", 0x120, 0, 1, { ro := 0xFF }, 0x0, .S⟩,
   ⟨"PREWCNT", 0x124, 0, 1, { roc := 0xFFFF }, 0x0, .S⟩,
   ⟨"LDWIN", 0x800, 4, 512, { wo := 0xFFFFFFFF }, 0x0, .S⟩]

/-- Block registers of PWR (R513). -/
def regsPwr : List RegDef :=
  [⟨"VIN", 0x100, 0, 1, { ro := 0xFFFF }, 0x0, .S⟩,
   ⟨"VWARN", 0x104, 0, 1, { rw := 0xFFFF }, 0xAF0, .S⟩,
   ⟨"VMIN", 0x108, 0, 1, { roc := 0xFFFF }, 0xFFFF, .S⟩,
   ⟨"VMAX", 0x10C, 0, 1, { roc := 0xFFFF }, 0x0, .S⟩,
   ⟨"PWSTA", 0x110, 0, 1, { ro := 0x7 }, 0x0, .S⟩]

/-- Block registers of SEC (R532). -/
def regsSec : List RegDef :=
  [⟨"DEVSNL", 0x100, 0, 1, { ro := 0xFFFFFFFF }, 0x0, .P⟩,
   ⟨"DEVSNH", 0x104, 0, 1, { ro := 0xFFFFFFFF }, 0x0, .P⟩,
   ⟨"SSTA", 0x108, 0, 1, { ro := 0x1FF }, 0x0, .S⟩,
   ⟨"SVNS", 0x10C, 0, 1, { ro := 0xFFFF }, 0x0, .S⟩,
   ⟨"CFGCTR", 0x110, 0, 1, { ro := 0xFFFFFFFF }, 0x0, .S⟩,
   ⟨"LDREJ", 0x114, 0, 1, { ro := 0x3F }, 0x0, .S⟩,
   ⟨"IMGH", 0x120, 4, 8, { ro := 0xFFFFFFFF }, 0x0, .S⟩,
   ⟨"ANONCE", 0x140, 4, 8, { rw := 0xFFFFFFFF }, 0x0, .S⟩,
   ⟨"ATTCTL", 0x160, 0, 1, { wo := 0x1 }, 0x0, .S⟩,
   ⟨"ATTSTA", 0x164, 0, 1, { ro := 0xF }, 0x0, .S⟩,
   ⟨"CERTA", 0x168, 0, 1, { rw := 0x7FC }, 0x0, .S⟩,
   ⟨"CERTD", 0x16C, 0, 1, { ro := 0xFFFFFFFF }, 0x0, .S⟩,
   ⟨"CERTLEN", 0x170, 0, 1, { ro := 0xFFF }, 0x0, .P⟩,
   ⟨"OKCMD", 0x180, 0, 1, { wo := 0xFFFFF }, 0x0, .S⟩,
   ⟨"OKSTA", 0x184, 0, 1, { ro := 0xF }, 0x0, .S⟩,
   ⟨"FLRCMD", 0x188, 0, 1, { wo := 0xFFFFFFFF }, 0x0, .S⟩,
   ⟨"AUTHN", 0x190, 4, 4, { ro := 0xFFFFFFFF }, 0x0, .S⟩,
   ⟨"FUCTL", 0x1A0, 0, 1, { wo := 0x7 }, 0x0, .S⟩,
   ⟨"FUSTA", 0x1A4, 0, 1, { ro := 0xFF }, 0x0, .S⟩,
   ⟨"FUCNT", 0x1A8, 0, 1, { ro := 0xFFFFFFFF }, 0x0, .S⟩,
   ⟨"OKBUF", 0x200, 4, 64, { rw := 0xFFFFFFFF }, 0x0, .S⟩,
   ⟨"ATTREP", 0x400, 4, 64, { ro := 0xFFFFFFFF }, 0x0, .S⟩,
   ⟨"FUWIN", 0x800, 4, 512, { wo := 0xFFFFFFFF }, 0x0, .S⟩]

/-- Block registers of MON (R549). -/
def regsMon : List RegDef :=
  [⟨"TCFG", 0x100, 0, 1, { rw := 0x13F }, 0x13F, .S⟩,
   ⟨"THOT", 0x104, 0, 1, { rwl := 0xFFFF }, 0x3E8, .S⟩,
   ⟨"TCHOT", 0x108, 0, 1, { rwl := 0xFF }, 0xFA, .S⟩,
   ⟨"TRAMP", 0x10C, 0, 1, { rw := 0xFF }, 0x32, .S⟩,
   ⟨"TSTA", 0x110, 0, 1, { ro := 0x3F1F }, 0x0, .S⟩,
   ⟨"TDIE", 0x114, 0, 1, { ro := 0xFFFF }, 0x0, .S⟩,
   ⟨"TCELL", 0x118, 0, 1, { ro := 0xFFFF }, 0x0, .S⟩,
   ⟨"TLIM", 0x11C, 0, 1, { ro := 0xFFFFFFFF }, 0x20, .S⟩,
   ⟨"TMAX", 0x120, 0, 1, { roc := 0xFFFF }, 0x8000, .S⟩,
   ⟨"TSENS", 0x140, 4, 6, { ro := 0xFFFF }, 0x0, .S⟩,
   ⟨"RAIL", 0x160, 4, 8, { ro := 0xFFFF }, 0x0, .S⟩,
   ⟨"PRO", 0x180, 4, 4, { ro := 0xFFFFFFFF }, 0x0, .S⟩,
   ⟨"MSTEP", 0x190, 0, 1, { ro := 0xFFF }, 0x0, .P⟩,
   ⟨"GUARD", 0x194, 0, 1, { ro := 0xFFFF }, 0x0, .S⟩,
   ⟨"MEMSCOR", 0x198, 0, 1, { ro := 0xFFFFFFFF }, 0x0, .S⟩,
   ⟨"VREFCOR", 0x19C, 0, 1, { ro := 0xFFFFFFFF }, 0x0, .S⟩,
   ⟨"RAILCNT", 0x1A0, 0, 1, { roc := 0xFFFF }, 0x0, .S⟩]

/-- Block registers of PMC (R559). -/
def regsPmc : List RegDef :=
  [⟨"ESEL", 0x100, 0, 1, { rw := 0x7 }, 0x0, .C⟩,
   ⟨"CTL", 0x104, 0, 1, { rw := 0xFF }, 0x0, .C⟩,
   ⟨"SNAP", 0x108, 0, 1, { wo := 0xFF }, 0x0, .C⟩,
   ⟨"OVEN", 0x10C, 0, 1, { rw := 0xFFFFFFFF }, 0x0, .C⟩,
   ⟨"SMPEN", 0x110, 0, 1, { rw := 0xFFFFFFFF }, 0x0, .C⟩,
   ⟨"OVF", 0x114, 0, 1, { w1c := 0xFFFFFFFF }, 0x0, .C⟩,
   ⟨"SNIDX", 0x118, 0, 1, { ro := 0xFFFFFFFF }, 0x0, .C⟩,
   ⟨"SMPN", 0x11C, 0, 1, { ro := 0x1F }, 0x0, .C⟩,
   ⟨"SMPL0", 0x120, 0, 1, { ro := 0xFFFFFFFF }, 0x0, .C⟩,
   ⟨"SMPL1", 0x124, 0, 1, { ro := 0xFFFFFFFF }, 0x0, .C⟩,
   ⟨"SMPOP", 0x128, 0, 1, { wo := 0x1 }, 0x0, .C⟩,
   ⟨"SMPLOST", 0x12C, 0, 1, { roc := 0xFFFF }, 0x0, .C⟩,
   ⟨"CNTL", 0x200, 8, 32, { ro := 0xFFFFFFFF }, 0x0, .C⟩,
   ⟨"CNTH", 0x204, 8, 32, { ro := 0xFFFF }, 0x0, .C⟩,
   ⟨"PREL", 0x300, 8, 32, { rw := 0xFFFFFFFF }, 0x0, .C⟩,
   ⟨"PREH", 0x304, 8, 32, { rw := 0xFFFF }, 0x0, .C⟩,
   ⟨"SNL", 0x400, 8, 32, { ro := 0xFFFFFFFF }, 0x0, .C⟩,
   ⟨"SNH", 0x404, 8, 32, { ro := 0xFFFF }, 0x0, .C⟩]

/-- The block registers of a page. -/
def blockRegs (page : Nat) : List RegDef :=
  match blockOf page with
  | none => []
  | some .sys => regsSys
  | some .rst => regsRst
  | some .clk => regsClk
  | some .pwr => regsPwr
  | some .mon => regsMon
  | some .dtm => regsDtm
  | some .trg => regsTrg
  | some .eth => regsEth
  | some .lne => regsLne
  | some .rng => regsRng
  | some .cls => regsCls
  | some .jg => if page = 0x52 then regsJg ++ regsJgJg1 else regsJg
  | some .pe => if page = 0x67 then regsPe ++ regsPePe ++ regsPePe7 else regsPe ++ regsPePe
  | some .mrt => regsPe
  | some .tnn => regsPe
  | some .edg => regsEdg
  | some .stk => regsStk
  | some .lbr => regsLbr
  | some .trp => regsTrp
  | some .cnv => regsCnv
  | some .mod => regsMod
  | some .hpr => regsHpr
  | some .sft => regsSft
  | some .sio => regsSio
  | some .scr => regsScr
  | some .sec => regsSec
  | some .pmc => regsPmc
  | some .hsp => regsHsp

/-- The register at an offset of a page, if the page assigns it (R15). -/
def regDef (page off : Nat) : Option RegDef :=
  if off < 0x100 then (headerRegs page).find? (·.has off) else (blockRegs page).find? (·.has off)

/-- The register with a key: `page * 0x1000 + offset`. -/
def keyDef (k : Nat) : Option RegDef := regDef (k / 0x1000) (k % 0x1000)

/-- The reset value of a register by its key (0 where the page assigns none: R15). -/
def resetOf (k : Nat) : Nat := ((keyDef k).map (·.reset)).getD 0

/-- Is the register with key `k` restored by a reset of level `l` (R16)? -/
def restoredBy (l : Level) (k : Nat) : Bool :=
  match keyDef k with
  | none => true
  | some d =>
    match l, d.level with
    | .P, _ => true
    | .S, .P => false
    | .S, _ => true
    | .C, .C => true
    | .C, _ => false

end Sys2Proof.Machine

/-! Keys of the registers: `page * 0x1000 + offset`. -/
namespace Sys2Proof.R

/-- Key of PCTL of a page (R57). -/
abbrev PCTL (page : Nat) : Nat := page * 0x1000 + 0x004
/-- Key of PSTA of a page (R57). -/
abbrev PSTA (page : Nat) : Nat := page * 0x1000 + 0x008
/-- Key of IRQS of a page (R57). -/
abbrev IRQS (page : Nat) : Nat := page * 0x1000 + 0x00C
/-- Key of IRQE of a page (R57). -/
abbrev IRQE (page : Nat) : Nat := page * 0x1000 + 0x010
/-- Key of IRQF of a page (R57). -/
abbrev IRQF (page : Nat) : Nat := page * 0x1000 + 0x014
/-- Key of FLTS of a page (R57). -/
abbrev FLTS (page : Nat) : Nat := page * 0x1000 + 0x018
/-- Key of WLCK of a page (R57). -/
abbrev WLCK (page : Nat) : Nat := page * 0x1000 + 0x01C

abbrev SYS.DEVID : Nat := 0x00100
abbrev SYS.IRQPG : Nat := 0x00104
abbrev SYS.TAGOUT : Nat := 0x00108
abbrev SYS.TAGOUTH : Nat := 0x0010C
abbrev HSP.HCFG : Nat := 0xB0100
abbrev HSP.CRCCNT : Nat := 0xB0104
abbrev HSP.TRCCNT : Nat := 0xB0108
abbrev DTM.DTCTL : Nat := 0x08100
abbrev DTM.DTSTA : Nat := 0x08104
abbrev DTM.SNAPL : Nat := 0x08108
abbrev DTM.SNAPH : Nat := 0x0810C
abbrev DTM.FADJ : Nat := 0x08110
abbrev DTM.FAVG : Nat := 0x08114
abbrev DTM.OFFS : Nat := 0x08118
abbrev DTM.FOREIGN : Nat := 0x0811C
abbrev DTM.STEPLIM : Nat := 0x08120
abbrev DTM.SLEWMAX : Nat := 0x08124
abbrev DTM.EPOCHL : Nat := 0x08128
abbrev DTM.EPOCHH : Nat := 0x0812C
abbrev DTM.PPSCORR : Nat := 0x08130
abbrev DTM.TRVCTL : Nat := 0x08134
abbrev DTM.SRVB0 : Nat := 0x08140
abbrev DTM.SRVB1 : Nat := 0x08148
abbrev DTM.SRVB2 : Nat := 0x08150
abbrev DTM.SRVB3 : Nat := 0x08158
abbrev DTM.SRVK0 : Nat := 0x08144
abbrev DTM.SRVK1 : Nat := 0x0814C
abbrev DTM.SRVK2 : Nat := 0x08154
abbrev DTM.SRVK3 : Nat := 0x0815C
abbrev TRG.PER : Nat := 0x09100
abbrev TRG.PIDX : Nat := 0x09104
abbrev TRG.PSTART : Nat := 0x09108
abbrev TRG.TCL : Nat := 0x0910C
abbrev TRG.TTC : Nat := 0x09110
abbrev TRG.TML : Nat := 0x09114
abbrev TRG.TCC : Nat := 0x09118
abbrev TRG.PHI : Nat := 0x0911C
abbrev TRG.PMIN : Nat := 0x09120
abbrev TRG.PMAX : Nat := 0x09124
abbrev TRG.TSCFG (i : Nat) : Nat := 0x09140 + 8 * i
abbrev TRG.TSTGT (i : Nat) : Nat := 0x09144 + 8 * i
abbrev ETH.ECFG (n : Nat) : Nat := (0x0A + n) * 0x1000 + 0x100
abbrev ETH.MACL (n : Nat) : Nat := (0x0A + n) * 0x1000 + 0x104
abbrev ETH.MACH (n : Nat) : Nat := (0x0A + n) * 0x1000 + 0x108
abbrev ETH.IPV4 (n : Nat) : Nat := (0x0A + n) * 0x1000 + 0x10C
abbrev ETH.MIDL (n : Nat) : Nat := (0x0A + n) * 0x1000 + 0x110
abbrev ETH.MIDH (n : Nat) : Nat := (0x0A + n) * 0x1000 + 0x114
abbrev ETH.MPORT (n : Nat) : Nat := (0x0A + n) * 0x1000 + 0x118
abbrev ETH.TXCORR (n : Nat) : Nat := (0x0A + n) * 0x1000 + 0x11C
abbrev ETH.RXCORR (n : Nat) : Nat := (0x0A + n) * 0x1000 + 0x120
abbrev ETH.MPD (n : Nat) : Nat := (0x0A + n) * 0x1000 + 0x124
abbrev ETH.POFS (n : Nat) : Nat := (0x0A + n) * 0x1000 + 0x128
abbrev ETH.TXRB (n : Nat) : Nat := (0x0A + n) * 0x1000 + 0x12C
abbrev ETH.TXRN (n : Nat) : Nat := (0x0A + n) * 0x1000 + 0x130
abbrev ETH.RXRB (n : Nat) : Nat := (0x0A + n) * 0x1000 + 0x134
abbrev ETH.RXRN (n : Nat) : Nat := (0x0A + n) * 0x1000 + 0x138
abbrev ETH.TXKICK (n : Nat) : Nat := (0x0A + n) * 0x1000 + 0x13C
abbrev LNE.LNCFG (n : Nat) : Nat := (0x10 + n) * 0x1000 + 0x100
abbrev LNE.LNMAP (n : Nat) : Nat := (0x10 + n) * 0x1000 + 0x104
abbrev LNE.LNCTL (n : Nat) : Nat := (0x10 + n) * 0x1000 + 0x108
abbrev LNE.INJINT (n : Nat) : Nat := (0x10 + n) * 0x1000 + 0x10C
abbrev LNE.LNSTA (n : Nat) : Nat := (0x10 + n) * 0x1000 + 0x110
abbrev LNE.TAPS (n : Nat) : Nat := (0x10 + n) * 0x1000 + 0x114
abbrev LNE.PWR (n : Nat) : Nat := (0x10 + n) * 0x1000 + 0x118
abbrev LNE.CVCNT (n : Nat) : Nat := (0x10 + n) * 0x1000 + 0x11C
abbrev LNE.LOSCNT (n : Nat) : Nat := (0x10 + n) * 0x1000 + 0x120
abbrev LNE.LOLCNT (n : Nat) : Nat := (0x10 + n) * 0x1000 + 0x124
abbrev LNE.TRNCNT (n : Nat) : Nat := (0x10 + n) * 0x1000 + 0x128
abbrev LNE.ELCNT (n : Nat) : Nat := (0x10 + n) * 0x1000 + 0x12C
abbrev LNE.ERRCNT (n : Nat) : Nat := (0x10 + n) * 0x1000 + 0x130
abbrev LNE.BITCNTL (n : Nat) : Nat := (0x10 + n) * 0x1000 + 0x134
abbrev LNE.BITCNTH (n : Nat) : Nat := (0x10 + n) * 0x1000 + 0x138
abbrev LNE.TRNCFG (n : Nat) : Nat := (0x10 + n) * 0x1000 + 0x13C
abbrev RNG.RCFG (n : Nat) : Nat := (0x30 + n) * 0x1000 + 0x100
abbrev RNG.RCTL (n : Nat) : Nat := (0x30 + n) * 0x1000 + 0x104
abbrev RNG.RSTA (n : Nat) : Nat := (0x30 + n) * 0x1000 + 0x108
abbrev RNG.FORCE (n : Nat) : Nat := (0x30 + n) * 0x1000 + 0x10C
abbrev RNG.LATECNT (n : Nat) : Nat := (0x30 + n) * 0x1000 + 0x110
abbrev RNG.CRCCNT (n : Nat) : Nat := (0x30 + n) * 0x1000 + 0x114
abbrev RNG.LENCNT (n : Nat) : Nat := (0x30 + n) * 0x1000 + 0x118
abbrev RNG.ABRTCNT (n : Nat) : Nat := (0x30 + n) * 0x1000 + 0x11C
abbrev RNG.HDRCNT (n : Nat) : Nat := (0x30 + n) * 0x1000 + 0x120
abbrev RNG.MISCNT (n : Nat) : Nat := (0x30 + n) * 0x1000 + 0x124
abbrev RNG.STALECNT (n : Nat) : Nat := (0x30 + n) * 0x1000 + 0x128
abbrev RNG.ESCCNT (n : Nat) : Nat := (0x30 + n) * 0x1000 + 0x12C
abbrev RNG.SVLCNT (n : Nat) : Nat := (0x30 + n) * 0x1000 + 0x130
abbrev RNG.CAPB (n : Nat) : Nat := (0x30 + n) * 0x1000 + 0x134
abbrev RNG.CAPL (n : Nat) : Nat := (0x30 + n) * 0x1000 + 0x138
abbrev RNG.CAPWP (n : Nat) : Nat := (0x30 + n) * 0x1000 + 0x13C
abbrev RNG.SVRB (n : Nat) : Nat := (0x30 + n) * 0x1000 + 0x140
abbrev RNG.SVRN (n : Nat) : Nat := (0x30 + n) * 0x1000 + 0x144
abbrev RNG.SVKICK (n : Nat) : Nat := (0x30 + n) * 0x1000 + 0x148
abbrev EDG.ESTA : Nat := 0x70100
abbrev EDG.LPTB : Nat := 0x70104
abbrev EDG.CSEL : Nat := 0x70108
abbrev EDG.CVAL : Nat := 0x7010C
abbrev EDG.BCVAL : Nat := 0x70110
abbrev EDG.LSTA : Nat := 0x70114
abbrev EDG.SWCNT : Nat := 0x70118
abbrev EDG.EXCNT : Nat := 0x7011C
abbrev EDG.BRCNT : Nat := 0x70120
abbrev EDG.CSATCNT : Nat := 0x70124
abbrev EDG.SERRCNT : Nat := 0x70128
abbrev EDG.MMCCNT : Nat := 0x7012C
abbrev EDG.BUVCNT : Nat := 0x70130
abbrev EDG.ACFG (i : Nat) : Nat := 0x70140 + 16 * i
abbrev EDG.ABOOT (i : Nat) : Nat := 0x70144 + 16 * i
abbrev EDG.ABOFS (i : Nat) : Nat := 0x70148 + 16 * i
abbrev EDG.ACMAX (i : Nat) : Nat := 0x7014C + 16 * i
abbrev EDG.ANACT (i : Nat) : Nat := 0x701A0 + 4 * i
abbrev STK.SCFG : Nat := 0x71100
abbrev STK.SPTB : Nat := 0x71104
abbrev STK.SMODE : Nat := 0x71108
abbrev STK.VLVREF : Nat := 0x7110C
abbrev STK.PLIMH : Nat := 0x71110
abbrev STK.QREF : Nat := 0x71114
abbrev STK.SSTA : Nat := 0x71118
abbrev STK.GFREQ : Nat := 0x7111C
abbrev STK.GAMP : Nat := 0x71120
abbrev STK.PGRID : Nat := 0x71124
abbrev STK.VLV : Nat := 0x71128
abbrev STK.PLIM : Nat := 0x7112C
abbrev STK.SATF : Nat := 0x71130
abbrev STK.STALEC : Nat := 0x71134
abbrev STK.INJCFG : Nat := 0x71140
abbrev STK.INJAMP : Nat := 0x71144
abbrev STK.INJF0 : Nat := 0x71148
abbrev STK.INJF1 : Nat := 0x7114C
abbrev STK.INJLEN : Nat := 0x71150
abbrev STK.INJSTA : Nat := 0x71154
abbrev STK.CAPB : Nat := 0x71160
abbrev STK.CAPL : Nat := 0x71164
abbrev STK.CAPSEL : Nat := 0x71168
abbrev STK.CAPDEC : Nat := 0x7116C
abbrev STK.CAPT0L : Nat := 0x71170
abbrev STK.CAPT0H : Nat := 0x71174
abbrev STK.CAPWP : Nat := 0x71178
abbrev STK.CAPSTA : Nat := 0x7117C
abbrev PE.PECFG (p : Nat) : Nat := p * 0x1000 + 0x100
abbrev PE.SHCTL (p : Nat) : Nat := p * 0x1000 + 0x150
abbrev PE.SHSTA (p : Nat) : Nat := p * 0x1000 + 0x154
abbrev PE.SHADDR (p : Nat) : Nat := p * 0x1000 + 0x158
abbrev PE.SHPER (p : Nat) : Nat := p * 0x1000 + 0x15C
abbrev PE.ENTRY (p : Nat) : Nat := p * 0x1000 + 0x104
abbrev PE.ESTA (p : Nat) : Nat := p * 0x1000 + 0x108
abbrev PE.PC (p : Nat) : Nat := p * 0x1000 + 0x10C
abbrev PE.FLAGS (p : Nat) : Nat := p * 0x1000 + 0x110
abbrev PE.CYCLAST (p : Nat) : Nat := p * 0x1000 + 0x134
abbrev PE.CYCMAX (p : Nat) : Nat := p * 0x1000 + 0x138
abbrev PE.ECCCNT (p : Nat) : Nat := p * 0x1000 + 0x13C
abbrev PE.ECCADR (p : Nat) : Nat := p * 0x1000 + 0x140
abbrev PE.OSETlo (p : Nat) (i : Nat) : Nat := p * 0x1000 + 0x114 + 4 * i
abbrev PE.OSETLB (p : Nat) : Nat := p * 0x1000 + 0x124
abbrev PE.OVCNT (p : Nat) : Nat := p * 0x1000 + 0x128
abbrev PE.OVPC (p : Nat) : Nat := p * 0x1000 + 0x12C
abbrev PE.OVPIDX (p : Nat) : Nat := p * 0x1000 + 0x130
abbrev PE.OSEThi (p : Nat) (i : Nat) : Nat := p * 0x1000 + 0x160 + 4 * i
abbrev CLS.LCFG : Nat := 0x50100
abbrev CLS.CMD : Nat := 0x50104
abbrev CLS.CMDSTA : Nat := 0x50108
abbrev CLS.CSEL : Nat := 0x5010C
abbrev CLS.CSTA : Nat := 0x50110
abbrev CLS.CPEND : Nat := 0x50114
abbrev CLS.CTIME : Nat := 0x50118
abbrev CLS.NTGT (i : Nat) : Nat := 0x50120 + 4 * i
abbrev CLS.ACNT (i : Nat) : Nat := 0x50140 + 4 * i
abbrev CLS.RETMAP (i : Nat) : Nat := 0x50160 + 4 * i
abbrev CLS.RETCLR : Nat := 0x50180
abbrev CLS.FMB : Nat := 0x50184
abbrev CLS.REJCNT : Nat := 0x50190
abbrev CLS.DEFCNT : Nat := 0x50194
abbrev JG.TBANK (n : Nat) : Nat := (0x51 + n) * 0x1000 + 0x100
abbrev JG.TBSTA (n : Nat) : Nat := (0x51 + n) * 0x1000 + 0x104
abbrev JG.TBLD (n : Nat) : Nat := (0x51 + n) * 0x1000 + 0x108
abbrev JG.TBASE (n : Nat) (i : Nat) : Nat := (0x51 + n) * 0x1000 + 0x110 + 4 * i
abbrev JG.CVB (n : Nat) : Nat := (0x51 + n) * 0x1000 + 0x120
abbrev JG.CVN (n : Nat) : Nat := (0x51 + n) * 0x1000 + 0x124
abbrev JG.PASSLAST (n : Nat) : Nat := (0x51 + n) * 0x1000 + 0x128
abbrev JG.PASSMAX (n : Nat) : Nat := (0x51 + n) * 0x1000 + 0x12C
abbrev JG.TOCNT (n : Nat) : Nat := (0x51 + n) * 0x1000 + 0x130
abbrev JG.EVDCNT (n : Nat) : Nat := (0x51 + n) * 0x1000 + 0x134
abbrev JG.SSTATE (n : Nat) : Nat := (0x51 + n) * 0x1000 + 0x140
abbrev JG.JCMD (n : Nat) : Nat := (0x51 + n) * 0x1000 + 0x144
abbrev JG.JCMDSTA (n : Nat) : Nat := (0x51 + n) * 0x1000 + 0x148
abbrev HPR.PCFG : Nat := 0x88100
abbrev HPR.HSTA : Nat := 0x88104
abbrev HPR.HCMD : Nat := 0x88108
abbrev HPR.PEER : Nat := 0x8810C
abbrev HPR.RLYMAP : Nat := 0x88110
abbrev HPR.SUBMAP : Nat := 0x88114
abbrev HPR.TXL : Nat := 0x88118
abbrev HPR.TIEN : Nat := 0x8811C
abbrev HPR.DIGEST : Nat := 0x88120
abbrev HPR.TOFS : Nat := 0x88124
abbrev HPR.DIVPIDX : Nat := 0x88128
abbrev HPR.DIVPOS : Nat := 0x8812C
abbrev HPR.CMPCNT : Nat := 0x88130
abbrev HPR.DIVCNT : Nat := 0x88134
abbrev HPR.SKPCNT : Nat := 0x88138
abbrev HPR.RLYLATE : Nat := 0x8813C
abbrev HPR.TIEDROP : Nat := 0x88140
abbrev HPR.TKCNT : Nat := 0x88144
abbrev HPR.CONCNT : Nat := 0x88148
abbrev LBR.TLATCH : Nat := 0x78100
abbrev LBR.TMASKD : Nat := 0x78104
abbrev LBR.LOUT : Nat := 0x78108
abbrev LBR.LBOOT : Nat := 0x7810C
abbrev LBR.LBOFS : Nat := 0x78110
abbrev LBR.LCMAX : Nat := 0x78114
abbrev LBR.LSEL : Nat := 0x78118
abbrev LBR.LCVAL : Nat := 0x7811C
abbrev LBR.LBCVAL : Nat := 0x78120
abbrev LBR.LLSTA : Nat := 0x78124
abbrev LBR.TRIPCNT : Nat := 0x78128
abbrev LBR.MASKCNT : Nat := 0x7812C
abbrev LBR.LCFG (i : Nat) : Nat := 0x78140 + 16 * i
abbrev LBR.LTIM (i : Nat) : Nat := 0x78144 + 16 * i
abbrev LBR.LBLK (i : Nat) : Nat := 0x78148 + 16 * i
abbrev LBR.LPH (i : Nat) : Nat := 0x7814C + 16 * i
abbrev LBR.LHE0 (i : Nat) : Nat := 0x78200 + 16 * i
abbrev LBR.LHE1 (i : Nat) : Nat := 0x78204 + 16 * i
abbrev LBR.LHE2 (i : Nat) : Nat := 0x78208 + 16 * i
abbrev LBR.CHCFG (i : Nat) : Nat := 0x78300 + 32 * i
abbrev LBR.CHON (i : Nat) : Nat := 0x78304 + 32 * i
abbrev LBR.CHOFF (i : Nat) : Nat := 0x78308 + 32 * i
abbrev LBR.CHTMIN (i : Nat) : Nat := 0x7830C + 32 * i
abbrev LBR.CHBURST (i : Nat) : Nat := 0x78310 + 32 * i
abbrev LBR.CHSTA (i : Nat) : Nat := 0x78314 + 32 * i
abbrev LBR.CHCNT (i : Nat) : Nat := 0x78318 + 32 * i
abbrev TRP.TCFG (i : Nat) : Nat := 0x79100 + 8 * i
abbrev TRP.TMAP (i : Nat) : Nat := 0x79104 + 8 * i
abbrev TRP.TIN : Nat := 0x79160
abbrev TRP.TACT : Nat := 0x79164
abbrev TRP.TLAST : Nat := 0x79168
abbrev TRP.TLASTT : Nat := 0x7916C
abbrev CNV.UGO : Nat := 0x80100
abbrev CNV.OVRCNT : Nat := 0x80104
abbrev CNV.ABTCNT : Nat := 0x80108
abbrev CNV.UDRCNT : Nat := 0x8010C
abbrev CNV.SOVCNT : Nat := 0x80110
abbrev CNV.CVCFG (i : Nat) : Nat := 0x80140 + 16 * i
abbrev CNV.CVREF (i : Nat) : Nat := 0x80144 + 16 * i
abbrev CNV.UCFG (i : Nat) : Nat := 0x80148 + 16 * i
abbrev CNV.CVSTA (i : Nat) : Nat := 0x8014C + 16 * i
abbrev CNV.SLOT (i : Nat) : Nat := 0x80200 + 4 * i
abbrev CNV.RES (i : Nat) : Nat := 0x80300 + 4 * i
abbrev CNV.URES (i : Nat) : Nat := 0x80380 + 4 * i
abbrev MOD.MCLKCFG (i : Nat) : Nat := 0x81100 + 4 * i
abbrev MOD.MDSTUCK : Nat := 0x81110
abbrev MOD.ALNCNT : Nat := 0x81114
abbrev MOD.OVRCNT : Nat := 0x81118
abbrev MOD.MDCFG (i : Nat) : Nat := 0x81140 + 8 * i
abbrev MOD.MDSTA (i : Nat) : Nat := 0x81144 + 8 * i
abbrev MOD.MDRES (i : Nat) : Nat := 0x81200 + 4 * i
abbrev SFT.SCTL : Nat := 0x90100
abbrev SFT.SSTA : Nat := 0x90104
abbrev SFT.SCYC : Nat := 0x90108
abbrev SFT.DIVADR : Nat := 0x9010C
abbrev SFT.CACK : Nat := 0x90110
abbrev SFT.CSEL : Nat := 0x90114
abbrev SFT.CSTA : Nat := 0x90118
abbrev SFT.RXCNT : Nat := 0x9011C
abbrev SFT.TXCNT : Nat := 0x90120
abbrev SFT.SCVCNT : Nat := 0x90124
abbrev SFT.DISCNT : Nat := 0x90128
abbrev SFT.DIVCNT : Nat := 0x9012C
abbrev SFT.SXMA : Nat := 0x90130
abbrev SFT.SXMD : Nat := 0x90134
abbrev SIO.SCFG : Nat := 0x91100
abbrev SIO.HREQ : Nat := 0x91104
abbrev SIO.SOUT : Nat := 0x91108
abbrev SIO.SLATCH : Nat := 0x9110C
abbrev SIO.RBTIM : Nat := 0x91110
abbrev SIO.TSTA : Nat := 0x91114
abbrev SIO.TDONE : Nat := 0x91118
abbrev SIO.TFAIL : Nat := 0x9111C
abbrev SIO.TLAST (i : Nat) : Nat := 0x91120 + 4 * i
abbrev SCR.SCTL : Nat := 0x98100
abbrev SCR.ACKC : Nat := 0x98104
abbrev SCR.UNACK : Nat := 0x98108
abbrev SCR.SSTA : Nat := 0x9810C
abbrev SCR.LOGWP : Nat := 0x98110
abbrev SCR.LOSTCNT : Nat := 0x98114
abbrev SCR.RECCNT : Nat := 0x98118
abbrev SCR.ESCCNT : Nat := 0x9811C
abbrev SCR.LSEL : Nat := 0x98120
abbrev SCR.LREC (i : Nat) : Nat := 0x98140 + 4 * i
abbrev SCR.RREC (i : Nat) : Nat := 0x98180 + 4 * i
abbrev SCR.RRECV : Nat := 0x981A0
abbrev SCR.FEADDR (i : Nat) : Nat := 0x98200 + 16 * i
abbrev SCR.FEINFO (i : Nat) : Nat := 0x98204 + 16 * i
abbrev SCR.FETL (i : Nat) : Nat := 0x98208 + 16 * i
abbrev SCR.FETH (i : Nat) : Nat := 0x9820C + 16 * i
abbrev SCR.CNT (i : Nat) : Nat := 0x98300 + 4 * i
abbrev CLK.CKCFG : Nat := 0x02100
abbrev CLK.CKSSC : Nat := 0x02104
abbrev CLK.CKSTA : Nat := 0x02108
abbrev CLK.PLANSS : Nat := 0x0210C
abbrev CLK.REFRET : Nat := 0x02110
abbrev CLK.HRATIO : Nat := 0x02114
abbrev CLK.SFBFRQ : Nat := 0x02118
abbrev CLK.LOLCNT : Nat := 0x0211C
abbrev CLK.REFSWCNT : Nat := 0x02120
abbrev CLK.CLKOCFG (i : Nat) : Nat := 0x02140 + 16 * i
abbrev CLK.CLKODIV (i : Nat) : Nat := 0x02144 + 16 * i
abbrev CLK.CLKODLY (i : Nat) : Nat := 0x02148 + 16 * i
abbrev CLK.CLKOHI (i : Nat) : Nat := 0x0214C + 16 * i
abbrev RST.RCAUSE : Nat := 0x01100
abbrev RST.RLAST : Nat := 0x01104
abbrev RST.RWIDTH : Nat := 0x01108
abbrev RST.RCMD : Nat := 0x0110C
abbrev RST.BSTA : Nat := 0x01110
abbrev RST.BTIME : Nat := 0x01114
abbrev RST.LDCTL : Nat := 0x01118
abbrev RST.LDCNT : Nat := 0x0111C
abbrev RST.DOMRST : Nat := 0x01120
abbrev RST.PREWCNT : Nat := 0x01124
abbrev RST.LDWIN (i : Nat) : Nat := 0x01800 + 4 * i
abbrev PWR.VIN : Nat := 0x03100
abbrev PWR.VWARN : Nat := 0x03104
abbrev PWR.VMIN : Nat := 0x03108
abbrev PWR.VMAX : Nat := 0x0310C
abbrev PWR.PWSTA : Nat := 0x03110
abbrev SEC.DEVSNL : Nat := 0xA0100
abbrev SEC.DEVSNH : Nat := 0xA0104
abbrev SEC.SSTA : Nat := 0xA0108
abbrev SEC.SVNS : Nat := 0xA010C
abbrev SEC.CFGCTR : Nat := 0xA0110
abbrev SEC.LDREJ : Nat := 0xA0114
abbrev SEC.IMGH (i : Nat) : Nat := 0xA0120 + 4 * i
abbrev SEC.ANONCE (i : Nat) : Nat := 0xA0140 + 4 * i
abbrev SEC.ATTCTL : Nat := 0xA0160
abbrev SEC.ATTSTA : Nat := 0xA0164
abbrev SEC.CERTA : Nat := 0xA0168
abbrev SEC.CERTD : Nat := 0xA016C
abbrev SEC.CERTLEN : Nat := 0xA0170
abbrev SEC.OKCMD : Nat := 0xA0180
abbrev SEC.OKSTA : Nat := 0xA0184
abbrev SEC.FLRCMD : Nat := 0xA0188
abbrev SEC.AUTHN (i : Nat) : Nat := 0xA0190 + 4 * i
abbrev SEC.FUCTL : Nat := 0xA01A0
abbrev SEC.FUSTA : Nat := 0xA01A4
abbrev SEC.FUCNT : Nat := 0xA01A8
abbrev SEC.OKBUF (i : Nat) : Nat := 0xA0200 + 4 * i
abbrev SEC.ATTREP (i : Nat) : Nat := 0xA0400 + 4 * i
abbrev SEC.FUWIN (i : Nat) : Nat := 0xA0800 + 4 * i
abbrev MON.TCFG : Nat := 0x04100
abbrev MON.THOT : Nat := 0x04104
abbrev MON.TCHOT : Nat := 0x04108
abbrev MON.TRAMP : Nat := 0x0410C
abbrev MON.TSTA : Nat := 0x04110
abbrev MON.TDIE : Nat := 0x04114
abbrev MON.TCELL : Nat := 0x04118
abbrev MON.TLIM : Nat := 0x0411C
abbrev MON.TMAX : Nat := 0x04120
abbrev MON.TSENS (i : Nat) : Nat := 0x04140 + 4 * i
abbrev MON.RAIL (i : Nat) : Nat := 0x04160 + 4 * i
abbrev MON.PRO (i : Nat) : Nat := 0x04180 + 4 * i
abbrev MON.MSTEP : Nat := 0x04190
abbrev MON.GUARD : Nat := 0x04194
abbrev MON.MEMSCOR : Nat := 0x04198
abbrev MON.VREFCOR : Nat := 0x0419C
abbrev MON.RAILCNT : Nat := 0x041A0
abbrev PMC.ESEL : Nat := 0xA8100
abbrev PMC.CTL : Nat := 0xA8104
abbrev PMC.SNAP : Nat := 0xA8108
abbrev PMC.OVEN : Nat := 0xA810C
abbrev PMC.SMPEN : Nat := 0xA8110
abbrev PMC.OVF : Nat := 0xA8114
abbrev PMC.SNIDX : Nat := 0xA8118
abbrev PMC.SMPN : Nat := 0xA811C
abbrev PMC.SMPL0 : Nat := 0xA8120
abbrev PMC.SMPL1 : Nat := 0xA8124
abbrev PMC.SMPOP : Nat := 0xA8128
abbrev PMC.SMPLOST : Nat := 0xA812C
abbrev PMC.CNTL (i : Nat) : Nat := 0xA8200 + 8 * i
abbrev PMC.CNTH (i : Nat) : Nat := 0xA8204 + 8 * i
abbrev PMC.PREL (i : Nat) : Nat := 0xA8300 + 8 * i
abbrev PMC.PREH (i : Nat) : Nat := 0xA8304 + 8 * i
abbrev PMC.SNL (i : Nat) : Nat := 0xA8400 + 8 * i
abbrev PMC.SNH (i : Nat) : Nat := 0xA8404 + 8 * i
/-- Key of SEVj (R463). -/
abbrev SCR.SEV (j : Nat) : Nat := 0x98400 + 4 * j

end Sys2Proof.R

/-! Fault sources: class ranges, numbers and default severities (R446, R447). -/
namespace Sys2Proof.Src

abbrev CLK_A_LOL : Nat := 0x00
abbrev CLK_T_LOL : Nat := 0x01
abbrev CLK_REF_SWITCH : Nat := 0x02
abbrev CLK_REF_LOST : Nat := 0x03
abbrev CLK_MISSING : Nat := 0x04
abbrev CLK_SFB : Nat := 0x05
abbrev VIN_WARN : Nat := 0x10
abbrev VIN_HIGH : Nat := 0x11
abbrev RST_CORE : Nat := 0x12
abbrev LOAD_FAIL : Nat := 0x13
abbrev LOAD_NONE : Nat := 0x14
abbrev TDIE_HOT : Nat := 0x20
abbrev TDIE_CRIT : Nat := 0x21
abbrev TCELL_HOT : Nat := 0x22
abbrev THERM_DERATE : Nat := 0x23
abbrev TSENS_FAULT : Nat := 0x24
abbrev RAIL_UV : Nat := 0x25
abbrev RAIL_OV : Nat := 0x26
abbrev ENG_MARGIN : Nat := 0x27
abbrev ENG_AGED : Nat := 0x28
abbrev HOST_DECODE : Nat := 0x40
abbrev MEM_ECC_CE : Nat := 0x41
abbrev MEM_ECC_UE : Nat := 0x42
abbrev ROW_REPAIR : Nat := 0x43
abbrev ROW_SPARE_OUT : Nat := 0x44
abbrev GM_LOST : Nat := 0x50
abbrev SERVO_CLAMP : Nat := 0x51
abbrev TIME_STEP : Nat := 0x52
abbrev TIME_FOREIGN : Nat := 0x53
abbrev TRAV_FAIL : Nat := 0x54
abbrev HOP_SLOW : Nat := 0x55
abbrev LAUNCH_LATE : Nat := 0x56
abbrev COLL_LATE : Nat := 0x57
abbrev PLAN_MARGIN : Nat := 0x58
abbrev PLAN_RANGE : Nat := 0x59
abbrev LANE_LOS : Nat := 0x60
abbrev LANE_DARK : Nat := 0x61
abbrev LANE_LOL : Nat := 0x62
abbrev TRAIN_FAIL : Nat := 0x63
abbrev LANE_CODE : Nat := 0x64
abbrev LANE_FIFO : Nat := 0x65
abbrev COPY_MISMATCH : Nat := 0x70
abbrev RING_BREAK : Nat := 0x71
abbrev SLOT_STALE : Nat := 0x72
abbrev DECODE_ERR : Nat := 0x73
abbrev FRAME_ERR : Nat := 0x74
abbrev SVC_LOST : Nat := 0x75
abbrev SCHED_ERR : Nat := 0x80
abbrev CARRY_SAT : Nat := 0x81
abbrev MISMATCH_COMMIT : Nat := 0x82
abbrev BOOT_UV_A0 : Nat := 0x83
abbrev BOOT_UV_A1 : Nat := 0x84
abbrev BOOT_UV_A2 : Nat := 0x85
abbrev BOOT_UV_A3 : Nat := 0x86
abbrev BOOT_UV_A4 : Nat := 0x87
abbrev BOOT_UV_A5 : Nat := 0x88
abbrev PLL_COAST : Nat := 0x90
abbrev PLL_RESYNC : Nat := 0x91
abbrev FREQ_RANGE : Nat := 0x92
abbrev GRID_OV : Nat := 0x93
abbrev RT_ACTIVE : Nat := 0x94
abbrev LV_UV : Nat := 0x95
abbrev LV_OV : Nat := 0x96
abbrev ARM_IMBAL : Nat := 0x97
abbrev CELL_LOST : Nat := 0x98
abbrev CELL_OV : Nat := 0x99
abbrev CTRL_SAT : Nat := 0x9A
abbrev PE_OVERRUN : Nat := 0xA0
abbrev SHADOW_MISMATCH : Nat := 0xA1
abbrev ENG_ECC_CE : Nat := 0xA2
abbrev ENG_ECC_UE : Nat := 0xA3
abbrev CELL_FAULT : Nat := 0xB0
abbrev SPARE_OUT : Nat := 0xB1
abbrev JG_DEFER : Nat := 0xB2
abbrev JG_TABLE_DIRTY : Nat := 0xB3
abbrev TWIN_DIVERGE : Nat := 0xC0
abbrev TAKEOVER : Nat := 0xC1
abbrev CLAIM_CONTEST : Nat := 0xC2
abbrev PAIR_YIELD : Nat := 0xC3
abbrev TIE_LOST : Nat := 0xC4
abbrev RELAY_SUBST : Nat := 0xC5
abbrev LB_TRIP0 : Nat := 0xD0
abbrev LB_TRIP1 : Nat := 0xD1
abbrev LB_TRIP2 : Nat := 0xD2
abbrev LB_TRIP3 : Nat := 0xD3
abbrev LB_TRIP4 : Nat := 0xD4
abbrev LB_TRIP5 : Nat := 0xD5
abbrev LB_TRIP6 : Nat := 0xD6
abbrev LB_TRIP7 : Nat := 0xD7
abbrev LB_TRIP8 : Nat := 0xD8
abbrev LB_TRIP9 : Nat := 0xD9
abbrev LB_TRIP10 : Nat := 0xDA
abbrev LB_TRIP11 : Nat := 0xDB
abbrev MASKED_TRIP : Nat := 0xDC
abbrev CHOP_CEIL : Nat := 0xDD
abbrev CHOP_SRC : Nat := 0xDE
abbrev CNV_OVERRUN : Nat := 0xE0
abbrev CNV_URG_LOST : Nat := 0xE1
abbrev MOD_STUCK : Nat := 0xE2
abbrev MOD_ALIGN : Nat := 0xE3
abbrev SAFE_DIVERGE : Nat := 0xE8
abbrev SAFE_OVERRUN : Nat := 0xE9
abbrev TICK_LOST : Nat := 0xEA
abbrev RSL_CONN : Nat := 0xEB
abbrev SIO_RB : Nat := 0xEC
abbrev SIO_TEST_FAIL : Nat := 0xED
abbrev SIO_TEST_DUE : Nat := 0xEE
abbrev KEY_FAULT : Nat := 0xF0
abbrev AUTH_FAIL : Nat := 0xF1
abbrev OWNER_SLOT : Nat := 0xF2
abbrev FLASH_UPD_REJ : Nat := 0xF3
abbrev ENROL_REFUSED : Nat := 0xF4

/-- The class code of a source number (R446). -/
def classOf (src : Nat) : Nat :=
  if src < 0x30 then src / 16 else if src < 0x40 then 2
  else if src < 0xE0 then src / 16 - 1
  else if src < 0xE8 then 0xD else if src < 0xF0 then 0xE else 0xF

end Sys2Proof.Src
end

