-- ==== Sys2Proof/Machine/State.lean ====
section
/-!
DEFINITION. Sys2Proof/Machine/State.lean: the state of the block: every register (in one register file keyed by page
and offset), memory, buffer, counter, mode and pin the spec gives it, and the queue of waiting commands.
Readings and choices (notes/assumptions): DESIGN CHOICE 5, 6, 11, 130, 160; DEDUCED 31, 54, 58, 78, 105, 117.
-/
namespace Sys2Proof.Machine

/-- Why a command can stop with a fault: no command of this block does. -/
inductive Fault where
  /-- Raised by no command; it keeps the type inhabited. Safe: nothing stops here. -/
  | none
  deriving DecidableEq, Repr

/-- Why a command is refused. -/
inductive Refusal where
  /-- The dispatch arm of a command that has no meaning yet raises this, with the command's mnemonic. Safe. -/
  | notModelled (mnemonic : String)
  deriving DecidableEq, Repr

/-- Base address of CSM (R53). -/
abbrev csmBase : Nat := 0x50000000
/-- Base address of table memory (R53). -/
abbrev tblBase : Nat := 0x58000000
/-- Base address of the capture buffer (R53). -/
abbrev capBase : Nat := 0x5C000000
/-- Base address of the window of engine `n` (R53). -/
abbrev engBase (n : Nat) : Nat := 0x60000000 + n * 0x100000

/-! ### Sparse maps and memories -/

/-- A sparse map: keys strictly rising, no key at the value an unlisted key has. -/
abbrev NMap (α : Type) := List (Nat × α)

/-- Bytes by address, in canonical form (R10, R53): addresses strictly rising, no byte equal to what an unlisted
address reads as. -/
abbrev Memory := List Host.Cell

/-! ### Host access (chapter 02) -/

/-- An accepted write or read, waiting to be applied or performed (R77 to R79). -/
inductive HostOp where
  /-- Words to write from a byte address; the burst is already cut at the 4 KiB boundary (R76). -/
  | write (src : HSrc) (addr : Nat) (words : List Word)
  /-- A read of `cnt` words under a tag. -/
  | read (src : HSrc) (tag addr cnt : Nat)
  deriving DecidableEq, Repr

/-- An outstanding read (R80). -/
structure Tag where
  src : HSrc
  cnt : Nat
  /-- STAT bits TRUNC and BUS_ERR of the read. -/
  stat : Nat
  /-- The data once performed. -/
  data : Option (List Word) := none
  deriving DecidableEq, Repr

/-- A fragment of a host request's datagram that waits for the others (R74). -/
structure Frag where
  src : HSrc
  via : Dgram
  id : Nat
  ofs : Nat
  more : Bool
  bytes : List Byte
  deriving DecidableEq, Repr

/-- The host port: accepted operations in order of acceptance, outstanding tags, the last response. -/
structure HostPort where
  ops : List HostOp := []
  tags : NMap (Option Tag) := []
  /-- The last response sent (R68, R83): the source it answers, on an Ethernet port the IPv4 address and UDP port it goes to,
  and its bytes. -/
  rsp : Option (HSrc × Nat × Nat × List Byte) := none
  /-- Fragments in the ports' buffers (R74). -/
  frags : List Frag := []
  /-- The pair SNAPH, SNAPL latched by a SNAPL read, by reading agent (R89): 0 to 2 the host sources, 0x10 + n engine
  n. -/
  snap : NMap (Option (Word × Word)) := []
  deriving DecidableEq, Repr

/-! ### Scribe (chapter 15) -/

/-- A fault raise on its way to Scribe (R449, R451). -/
structure Raise where
  src : Nat
  page : Nat
  time : Nat
  pidx : Nat
  addr : Nat := 0
  master : Nat := 0
  acc : Nat := 0
  detail : Nat := 0
  deriving DecidableEq, Repr

/-- A log record (R450). -/
structure FaultRec where
  raise : Raise
  sevp : Nat
  sevt : Nat
  esc : Bool
  first : Bool
  ack : Bool
  lostb : Bool
  count : Nat
  tlast : Nat
  /-- Order in which the record was made (R460). -/
  seq : Nat
  deriving DecidableEq, Repr

/-- Scribe. -/
structure Scribe where
  /-- Raises not yet recorded (R449). -/
  inflight : List Raise := []
  /-- The log by slot 0 to 255 (R460). -/
  log : NMap (Option FaultRec) := []
  /-- Unacknowledged records that were not stored (R460): class, page, severity taken. -/
  lost : List (Nat × Nat × Nat) := []
  /-- Records were lost since the last stored record (R460). -/
  lostb : Bool := false
  /-- Records made since reset, the order of R460. -/
  seq : Nat := 0
  /-- The trip hold (R456). -/
  hold : Bool := false
  /-- Record words latched by LREC0 reads, per host source (R461). -/
  lrec : NMap (List Word) := []
  /-- DT64 of the record that took RESET while its drive is still due (R457). -/
  resetDue : Option Nat := none
  /-- The first instant at or after that record at which no frame plan ran or the paired head was not ACTIVE (R457). -/
  freeAt : Option Nat := none
  /-- The first output boundary that the trip hold governs, once a framing has taken it (R457). -/
  heldAt : Option Nat := none
  deriving DecidableEq, Repr

/-! ### The frame plan (chapters 01 and 03) -/

/-- The frame plan's run state. The plan's quantities stand in the TRG registers. -/
structure Plan where
  /-- An image set has loaded a frame plan (R114). -/
  loaded : Bool := false
  /-- A plan runs: from the accepted start request to the stop (R64). -/
  run : Bool := false
  /-- S(0) has been reached. -/
  started : Bool := false
  /-- DT64 of S(0) while starting, of S(n) of the period executing once started. -/
  start : Nat := 0
  /-- Length P of the period executing, ru. -/
  per : Nat := 0
  /-- A stop is requested and not yet accepted (R610). -/
  stopReq : Bool := false
  /-- A stop has been accepted: the plan stops at S(n+1) (R610). -/
  stopAcc : Bool := false
  /-- A start written after the stop was accepted (R610). -/
  restart : Bool := false
  /-- TS2 of the executing period has passed. -/
  pastML : Bool := false
  /-- DT64 of the last output boundary. -/
  boundary : Nat := 0
  /-- The output boundary S(n+1) + φ_out of the last stop, while it is still due (R610). -/
  lastBoundary : Option Nat := none
  /-- DT64 of the DTM cycle in which the accepted start reached the DTM domain (R98). -/
  asked : Option Nat := none
  /-- Planned path delay D of each ring direction, ru; key 2 × ring + direction (R45). -/
  planD : NMap Nat := []
  /-- Index of the first period, where the plan was locked to an active head (R363). -/
  idx0 : Option Nat := none
  /-- A period has been executed since power-on or system reset (R189). -/
  ran : Bool := false
  /-- Periodic channels TS5 to TS15 that have fired in the executing period, by bit (R113). -/
  fired : Nat := 0
  /-- The instant at which each programmable channel last fired, by channel: its target to 1 ru where the channel is of the
  land kind, else the DTM cycle that has reached it (R88, R112). -/
  firedAt : NMap Nat := []
  /-- The ring map the loaded plan was built for: cells and lower symbol rate of each ring (R42). -/
  ringMap : List (Nat × Nat × Bool) := []
  deriving DecidableEq, Repr

/-! ### Datum, Traverse and the Ethernet ports (chapter 03) -/

/-- Datum's servo. FADJ and FINT are held in 2^-48 of the nominal frequency: the Q8.8 gains times e, exactly (R93). -/
structure Datum where
  fint : Int := 0
  fadj : Int := 0
  favg : Int := 0
  /-- The last 16 FADJ values while LOCKED, newest first (R94). -/
  hist : List Int := []
  /-- The held foreign offset, ru (R95). -/
  foreign : Option Int := none
  /-- Consecutive measurements with |e| below SRVB0 (R92). -/
  good : Nat := 0
  /-- DT64 of the last accepted measurement. -/
  lastMeas : Nat := 0
  /-- The plan stopped with FHELD = 1 and AUTOSTEP = 1: the next measurement is applied by R95 unheld (R97). -/
  autostep : Bool := false
  /-- The state left for HOLDOVER (R99). -/
  left : Option Nat := none
  /-- Time-valid as frames carry it (R99). -/
  tv : Bool := true
  /-- Relock happened; time-valid returns at the next period boundary (R99). -/
  tvDue : Bool := false
  deriving DecidableEq, Repr

/-- A ranging frame as it came back: the head's launch stamp (DT64), the node entries (input, output; DT32), and the
arrival stamp where this head received it itself (R181, R361). -/
structure RangeRet where
  launch : Nat
  entries : List (Nat × Nat)
  arrival : Option Int
  deriving DecidableEq, Repr

/-- Traverse's measurements of one ring direction. -/
structure TravDir where
  /-- DT64 of the launches of the ranging frames in flight, oldest first. -/
  inFlight : List Nat := []
  /-- Consecutive losses (R110). -/
  lost : Nat := 0
  /-- The last return of the round, until the other direction's has arrived. -/
  ret : Option RangeRet := none
  /-- Path delay of the last rounds, newest first, ru (R109). -/
  d : List Int := []
  /-- Twice the segment delays of the last rounds, by segment, newest round first; kept with the forward direction. -/
  seg : List (List Int) := []
  /-- Residences of the last rounds, by node, newest round first. -/
  res : List (List Int) := []
  /-- The excess over the direction's margin was beyond its limit at the last round (R45). -/
  excess : Bool := false
  /-- The same of the sum of both directions of a twin ring; kept with the forward direction. -/
  overSum : Bool := false
  /-- Head-to-node delays last computed, ru, by position. -/
  toNode : List Int := []
  deriving DecidableEq, Repr

/-- One Ethernet port. Times of PTP are held in 1/4096 ru, the unit of a correction field of 2^-16 ns (R103). -/
structure EthPort where
  link : Bool := false
  /-- A master has been accepted since EN was set with ANYM = 1 (R104). -/
  heard : Bool := false
  /-- A two-step Sync waiting for its Follow_Up: sequence, receive stamp, correction. -/
  sync : Option (Nat × Int × Int) := none
  /-- t1 (with corrections) and t2 of the last complete Sync. -/
  t12 : Option (Int × Int) := none
  /-- Sequence number and transmit stamp t3 of the last Delay_Req or Pdelay_Req. -/
  req : Option (Nat × Int) := none
  seq : Nat := 0
  /-- DT64 of the last Delay_Req or Pdelay_Req (ECFG.DREQ, R121). -/
  reqAt : Option Nat := none
  /-- Mean path delay in 1/8192 ru. -/
  mpd : Int := 0
  /-- Transmit descriptor in use: next index to scan, and indexes of frames launched but not written back. -/
  txNext : Nat := 0
  rxNext : Nat := 0
  /-- Descriptors queued for launch; descriptors launched and waiting for write-back: index, stamp, late. -/
  txDone : List (Nat × Nat × Bool) := []
  deriving DecidableEq, Repr

/-- An entry of a Class F queue (R115). -/
structure ClassF where
  /-- DT40 launch target; none launches when reached. -/
  target : Option Nat
  /-- The target was past when queued or became past through a step. -/
  past : Bool := false
  bytes : List Byte := []
  /-- Ethernet descriptor index, for the write-back. -/
  desc : Option Nat := none
  /-- The entry was queued by the head itself (no LAUNCH_LATE raise: R118). -/
  own : Bool := false
  /-- On EXL, the type of the frame, whose header is that of the period of launch (R155); `bytes` is its payload. -/
  type : Option Nat := none
  deriving DecidableEq, Repr

/-- A Class F queue: the EXL ring directions and the Ethernet ports each have one. -/
structure FQueue where
  q : List ClassF := []
  /-- The last entry launched late (R115). -/
  late : Bool := false
  /-- The transmitter of an Ethernet port is busy until this DT64. -/
  busy : Nat := 0
  deriving DecidableEq, Repr

/-- A frame the head has put on a transmitter. -/
inductive OutFrame where
  /-- On an EXL lane: the DT64 of the internal stamp of its start-of-frame symbol, bytes from header to CRC. -/
  | exl (lane : Nat) (launch : Nat) (bytes : List Byte)
  /-- A relayed copy ended with K23.7 because its input failed (R357). -/
  | cut (lane : Nat) (launch : Nat) (bytes : List Byte)
  /-- On an Ethernet port. -/
  | eth (port : Nat) (launch : Nat) (bytes : List Byte)
  /-- An RSL PDU in a UDP/IPv4 datagram: port, instant, peer address, peer UDP port, PDU (R427). -/
  | udp (port : Nat) (launch : Nat) (ip : Nat) (udpPort : Nat) (pdu : List Byte)
  /-- 16 K28.6 symbols, after which the lane's transmitter goes dark (R136). -/
  | dark (lane : Nat) (launch : Nat)
  /-- A Delay_Req or, with `peer`, a Pdelay_Req of the port's PTP slave, with `udp` over UDP/IPv4. -/
  | ptp (port : Nat) (launch : Nat) (seq : Nat) (peer udp : Bool)
  /-- From an instant on a lane's transmitter sends the pattern that LNCTL.PAT selects (R145). -/
  | pattern (lane : Nat) (launch : Nat) (pat : Nat)
  /-- Line bits retransmitted as received, in far-end loopback (R148). -/
  | bits (lane : Nat) (launch : Nat) (line : List Bool)
  /-- Line bits inverted by the injector from an instant on: `count` bits in a row, or one in every `every` bits until the
  injection is changed (R147). -/
  | invert (lane : Nat) (launch : Nat) (count : Nat) (every : Option Nat)
  deriving DecidableEq, Repr

/-! ### Lanes (chapter 04) -/

/-- A request for the three taps (R139): codes 0 hold, 1 increment, 2 decrement, 3 preset. -/
structure TapReq where
  pre : Nat := 0
  main : Nat := 0
  post : Nat := 0
  deriving DecidableEq, Repr

/-- Where the eye search of R142 stands. -/
inductive SearchAt where
  /-- First measurement, taps as they stand. -/
  | first
  /-- Waiting for the answer to the request of step `i` (POST, PRE, MAIN; increment, decrement). -/
  | asked (i : Nat)
  /-- Measuring after step `i` was applied. -/
  | measure (i : Nat)
  /-- Waiting for the reversal of step `i`. -/
  | reversing (i : Nat)
  /-- Measuring after the reversal of step `i`. -/
  | remeasure (i : Nat)
  /-- The search has ended. -/
  | ended
  deriving DecidableEq, Repr

/-- A training exchange (R138 to R143). -/
structure Train where
  /-- SEQ of the present request and the request. -/
  seq : Nat := 0
  req : TapReq := {}
  /-- The answer to the present request is awaited. -/
  waiting : Bool := false
  /-- ASEQ and ASTAT sent. -/
  aseq : Nat := 0
  astat : Nat := 0
  /-- A far request received and not yet acted on: its SEQ and taps. -/
  far : Option (Nat × TapReq) := none
  /-- DONE is being sent; frames sent with DONE; DONE received. -/
  done : Bool := false
  doneSent : Nat := 0
  doneRx : Bool := false
  /-- Search: position, best eye, requests made, improved in this pass. -/
  search : SearchAt := .first
  eye : Nat := 0
  requests : Nat := 0
  improved : Bool := false
  /-- DT64 of entry to TRAIN, of the last valid training frame, and since which the taps and the eye measurement stand. -/
  entered : Nat := 0
  lastRx : Nat := 0
  settled : Nat := 0
  deriving DecidableEq, Repr

/-- The pattern checker (R146): the last bits it predicts from, newest first, the correct bits in a row while it is not
locked, and the errors among the last 256 bits, newest first, while it is. -/
structure Checker where
  ref : List Bool := []
  run : Nat := 0
  errs : List Bool := []
  deriving DecidableEq, Repr

/-- What a lane holds beside its registers. -/
structure Lane where
  train : Train := {}
  /-- DT64 of the last training frame sent in this exchange (R138). -/
  trainAt : Option Nat := none
  /-- Code violations of a millisecond of DT64 and that millisecond, plus one; the last millisecond judged, plus one
  (R151). -/
  cvMs : Nat := 0
  cvIn : Nat := 0
  msAt : Nat := 0
  /-- Symbol numbers of the last code violations since alignment, newest first (R135). -/
  viol : List Nat := []
  /-- BITCNT, 48 bits, BITCNTH as each source of requests latched it, and the checker (R146). -/
  bitcnt : Nat := 0
  lat : NMap Nat := []
  chk : Checker := {}
  /-- An injection of kind 3 has been started and INJ not changed since, with its interval in bits; it acts now (R147). -/
  inj : Option Nat := none
  injOn : Bool := false
  /-- A frame being received is to be discarded (R128, R131, R137). -/
  drop : Bool := false
  /-- Fill of the elastic FIFO, symbols, and whether it recentres at the next run of idles (R130, R131). -/
  fill : Nat := 8
  recentre : Bool := false
  /-- The lane's transmitter gives light (R132). -/
  lit : Bool := false
  /-- Running disparity of the transmitter and of the receiver: positive (R126). -/
  rd : Bool := false
  rxRd : Bool := false
  /-- Symbols received since alignment, and whether a frame is being received (R128, R135). -/
  rxCount : Nat := 0
  rxIn : Bool := false
  /-- Line bits taken from the lane's own serialiser since near-end loopback began (R148). -/
  loop : Nat := 0
  /-- Instant at which the last symbol of the last frame leaves, 1/5 ru of DT64 (R129). -/
  end5 : Nat := 0
  deriving DecidableEq, Repr

/-! ### Rings (chapter 05) -/

/-- The copy of a cell's slot used in the executing period (R172). -/
structure SlotCopy where
  bytes : List Byte
  stamp : Nat
  rev : Bool
  /-- The copy was originated by a cell node (R174). -/
  node : Bool := false
  /-- Both copies have arrived valid. -/
  both : Bool := false
  deriving DecidableEq, Repr

/-- What the head keeps about a cell's slots, by cell address. -/
structure CellRx where
  /-- The copy used in the executing period. -/
  copy : Option SlotCopy := none
  /-- The copy used was rejected under R175: the slot is stale for the period, its record as it was before. -/
  bad : Bool := false
  /-- The record's bytes before a copy of the executing period was written. -/
  prior : List Byte := []
  /-- The records of even (bit 0) and odd (bit 1) periods hold the undefined words of a cell not RANGED (R173); the same
  before the copy of the executing period. -/
  undef : Nat := 0
  priorUndef : Nat := 0
  /-- The slot came in a tie slots frame (R360). -/
  tie : Bool := false
  /-- Consecutive stale periods. -/
  stale : Nat := 0
  /-- Closed periods since the slot last arrived valid in each direction (R183); 255 never. -/
  ageF : Nat := 255
  ageR : Nat := 255
  /-- VPRED of the last command sent (R173); 0xFFFF no prediction. -/
  vpred : Nat := 0xFFFF
  /-- A head that is not ACTIVE holds the active's command copy of the period for the cell (R360). -/
  held : Bool := true
  /-- SRSYNC due in the next command for the cell (R190). -/
  srsync : Bool := false
  /-- Word 4 [31:24] flags of the last valid slot: byte 1. -/
  flags : Nat := 0
  /-- The last command slot sent for the cell, as sent. -/
  sent : List Byte := []
  deriving DecidableEq, Repr

/-- What a ring holds beside its registers. -/
structure Ring where
  /-- Millisecond of DT64, plus one, in which FRAME_ERR was last raised. -/
  errMs : Nat := 0
  /-- Next service descriptor to serve (R183) and scanning since SVKICK. -/
  svNext : Nat := 0
  svScan : Bool := false
  /-- The last collector copy of a direction, by direction, was originated by a head (R174). -/
  headOrig : NMap Bool := []
  deriving DecidableEq, Repr

/-! ### Jig engines (chapter 10) -/

/-- A service transaction the head issues itself, without a descriptor (R109, R330). -/
inductive HeadSvc where
  /-- JG0's read of the node identity. -/
  | idRead
  /-- JG0's configuration write number `i`. -/
  | cfg (i : Nat)
  /-- Traverse's two head-to-node delays. -/
  | delay
  /-- JG0's exchange of an enrolment proof (R529). -/
  | proof
  deriving DecidableEq, Repr

/-- One Jig instance: a cell of JG0 by address, or the stack of JG1 (R317). -/
structure JInst where
  st : Nat := 0
  /-- Pending events, bit e for event e. -/
  pend : Nat := 0
  /-- Passes left of a time limit counted in periods. -/
  tPass : Option Nat := none
  /-- DT64 at which a time limit in ms, 100 ms or s ends. -/
  tAt : Option Nat := none
  /-- Passes in the present state. -/
  passes : Nat := 0
  /-- DT64 of entry to the present state (R340). -/
  entered : Nat := 0
  /-- Share weight in use (R326), forced BYP, ramp started, its last step written, RAMP_DONE due. -/
  w : Nat := 0
  byp : Bool := false
  ramp : Bool := false
  k : Nat := 0
  rampDone : Bool := false
  /-- Charge curve: V0 in mV, DT64 of CHGSTART, consecutive slots within the band (R331). -/
  v0 : Nat := 0
  chg : Nat := 0
  chgRun : Nat := 0
  /-- The identity read matched; the node has both delays (R328); identity as read. -/
  idOk : Bool := false
  /-- A configuration write of the last CFGWRITE did not complete OK. -/
  cfgBad : Bool := false
  delays : Bool := false
  ident : Nat := 0
  /-- The node's challenge as read with its identity (R529). -/
  challenge : List Byte := []
  deriving DecidableEq, Repr

/-- The Jig engines. -/
structure Jig where
  /-- Instances by cell address; 256 is the stack. -/
  inst : NMap JInst := []
  /-- Service requests of the head itself, waiting: cell address and kind, oldest first. -/
  svc : List (Nat × HeadSvc) := []
  /-- Bank under check, by engine. -/
  check : NMap (Option Nat) := []
  /-- Consecutive periods of PLL in TRACK (R339). -/
  trackRun : Nat := 0
  /-- PLLST, RT and the DONE, ABORT bits of INJSTA as last watched. -/
  lastStk : Nat := 0
  /-- Members of each arm at the last pass (R334). -/
  members : NMap Nat := []
  /-- Multiple of 10 µs of DT64, plus one, at which an engine last ran a pass without a frame plan (R317). -/
  idleAt : NMap Nat := []
  /-- Cells that JG0's last pass deferred (R320, R564). -/
  deferred : List Nat := []
  /-- JG1's pass of the period has ended and JG0's has not been run (R317). -/
  jg0Due : Bool := false
  deriving DecidableEq, Repr

/-- A cell's phase (R223 to R225). -/
structure Phase where
  theta : Nat := 0
  theta0 : Nat := 0
  target : Nat := 0
  member : Bool := false
  deriving DecidableEq, Repr

/-- The phases of an arm: step of the move, 0 when none is running. -/
structure ArmPhase where
  k : Nat := 0
  /-- The members, in rank order, and AOFS of the last telemetry close. -/
  members : List Nat := []
  aofs : Nat := 0
  deriving DecidableEq, Repr

/-- The spare record in flash (R341). -/
structure SpareRec where
  /-- Retired cells: address and node identity. -/
  cells : NMap (Option Nat) := []
  /-- The retired engine and PE7's REPLACE target. -/
  engine : Option Nat := none
  /-- Ring moves: LNMAP value by lane. -/
  moves : NMap (Option Word) := []
  /-- Logged memory rows: memory number × 2^20 + row. -/
  rows : List Nat := []
  /-- Rows whose repair has been applied at a boot (R343). -/
  applied : List Nat := []
  /-- Of a memory row: one more than the DT64 of its last corrected error; the rows to be logged (R343). -/
  ecc : NMap Nat := []
  failing : List Nat := []
  deriving DecidableEq, Repr

/-! ### Monitors (chapter 19) -/

/-- What the MON block holds beside its registers. -/
structure Mon where
  /-- The orderly ramp: P_start and its start instant (R541). -/
  ramp : Option (Nat × Nat) := none
  /-- P_ramp = 0 has been written (R543). -/
  rampZero : Bool := false
  /-- Consecutive intervals above n (R540). -/
  up : Nat := 0
  /-- Highest T_die of the interval, 0.125 °C; none yet. -/
  maxDie : Option Int := none
  /-- Highest cell code of the interval and its address. -/
  maxCell : Option (Nat × Nat) := none
  /-- TDIE_HOT and TCELL_HOT are raised and not yet re-armed (R538). -/
  dieHot : Bool := false
  cellHot : Bool := false
  /-- Highest cell code of the executing period, and T_cell as the last telemetry close formed it (R537). -/
  cellNow : Option (Nat × Nat) := none
  cellIs : Option (Nat × Nat) := none
  /-- Consecutive deviating measurements, by sensor (R534). -/
  dev : NMap Nat := []
  /-- Consecutive measurements with G below 1.03, above 1.08 (R547); ENG_AGED raised. -/
  low : Nat := 0
  high : Nat := 0
  aged : Bool := false
  /-- Consecutive VIN measurements below VWARN, above 5.50 V (R490). -/
  vinLow : Nat := 0
  vinHigh : Nat := 0
  /-- MSTEP since it left MBASE (R547). -/
  mstep : Option Nat := none
  /-- The 100 ms intervals of DT64 that have ended (R537). -/
  interval : Nat := 0
  deriving DecidableEq, Repr

/-- A service transaction in flight, by tag (R184). -/
structure Svc where
  ring : Nat
  rev : Bool
  /-- Descriptor index; none for a transaction of the head itself. -/
  desc : Option Nat
  /-- What the head itself asks for. -/
  kind : Option HeadSvc
  pidx : Nat
  dst : Nat
  op : Nat
  cnt : Nat
  buf : Nat
  launch : Nat
  /-- Byte address of the descriptor, for its write-back. -/
  at_ : Nat := 0
  deriving DecidableEq, Repr


/-! ### Edge scheduler (chapter 06) -/

/-- A leg entry as the scheduler works on it: mode code, level at offset 0, transition offsets, half-period and phase. -/
structure Entry where
  mode : Nat := 0
  lv0 : Bool := false
  x : List Nat := []
  hp : Nat := 0
  ph : Nat := 0
  deriving DecidableEq, Repr

/-- What the scheduler holds for a leg or channel (R203, R212, R215). -/
structure LegSt where
  carry : Int := 0
  bcarry : Int := 0
  bcnt : Nat := 0
  endlvl : Bool := false
  off : Bool := true
  /-- Mode code last sent. -/
  mode : Nat := 0
  /-- The previous window, resolved; none since the block was last reset (R201). -/
  prev : Option Entry := none
  /-- Length of the previous window. -/
  prevP : Nat := 0
  deriving DecidableEq, Repr

/-- The previous DAB group window of a cell (R200, R201): DMODE (0 off, 1 carrier), HP, PHP, DPS, P. -/
structure GroupSt where
  carrier : Bool
  hp : Nat
  php : Nat
  dps : Int
  prevP : Nat
  deriving DecidableEq, Repr

/-- The edge scheduler. -/
structure Edge where
  /-- By cell address × 8 + channel; local leg k at 0x1000 + k. -/
  legs : NMap LegSt := []
  groups : NMap (Option GroupSt) := []
  /-- Cells and local legs whose entries are framed FREEZE at the next framing because their engine overran (R282). -/
  frzCells : Nat := 0
  frzLegs : Nat := 0
  /-- BCVAL and LSTA latched by a CVAL read, each until it is read or CSEL is written (R230). -/
  latB : Option Word := none
  latL : Option Word := none
  deriving DecidableEq, Repr


/-! ### Engines (chapters 08, 09 and 20) -/

/-- The programmer's state of an engine but its flags and PC, which stand in FLAGS and PC of its page (R296). -/
structure EngRegs where
  g : NMap Word := []
  a : NMap (BitVec 48) := []
  p : BitVec 4 := 0
  deriving DecidableEq, Repr

/-- A bundle whose A-slot instruction has executed and whose M-slot instruction is next: the state both read (R299), the
cycle of issue, and what is left of the A slot for the end of the bundle. -/
structure Half where
  old : EngRegs
  at_ : Nat
  jump : Option Nat := none
  wait : Option Nat := none
  aw : Option Nat := none
  /-- Issue cost of the A slot on Tenon. -/
  cost : Nat := 0
  deriving DecidableEq, Repr

/-- The destination of an M-slot result. -/
inductive MDst where
  | g (r : Nat) (v : Word)
  | a (r : Nat) (v : BitVec 48)
  deriving DecidableEq, Repr

/-- A multi-cycle M-slot result on its way: the cycle from which it is usable, destination and flags (R310). -/
structure MPend where
  due : Nat
  dst : MDst
  flags : Nat
  deriving DecidableEq, Repr

/-- A CSM access in flight: the cycle in which it reads or writes its word (R274). -/
structure CsmAcc where
  due : Nat
  store : Bool
  addr : Nat
  /-- Destination register of a load; data of a store, or the word a load has read already (R275). -/
  rd : Nat
  val : Word
  got : Bool := false
  deriving DecidableEq, Repr

/-- What an engine holds beside its page and its memories. -/
structure Eng where
  r : EngRegs := {}
  /-- Release latches L[0] to L[15] (R276). -/
  latch : Nat := 0
  half : Option Half := none
  /-- First cycle in which the next bundle may issue; first cycle in which the MAC unit is free. -/
  nextAt : Nat := 0
  macFree : Nat := 0
  /-- First cycle at which an LDC destination, an M-slot register and an accumulator result is usable (R311). -/
  useL : NMap Nat := []
  useM : NMap Nat := []
  useA : NMap Nat := []
  pend : List MPend := []
  /-- The last one-cycle result of the M slot: its cycle, what stood in its register, the flags and IRQS.FLAG (bit 4) before
  it; an engine abandoned in that cycle takes it back (R314). -/
  undo : Option MPend := none
  acc : List CsmAcc := []
  /-- Cycle of the last release at TS1 (or the tick), cycle in which the home wait was issued, released since TS1. -/
  rel : Nat := 0
  homeAt : Nat := 0
  inWin : Bool := false
  /-- First cycle of the compute window not yet counted (R551). -/
  winAt : Nat := 0
  /-- First cycle whose slots are not yet counted (R552). -/
  acct : Nat := 0
  /-- The last bundles issued, newest first: cycle and address (R555). -/
  last : List (Nat × Nat) := []
  /-- EN has been written 0 while HALTED (R271). -/
  offArm : Bool := false
  deriving DecidableEq, Repr

/-- PE7 in SHADOW (R288, R289): stores of the period not yet matched, oldest first, matched count, the home waits. -/
structure Shadow where
  /-- Instruction memory is copied and the data copy waits for TS2 with TARGET in HOME. -/
  waiting : Bool := false
  tgt : List (Nat × Word) := []
  own : List (Nat × Word) := []
  idx : Nat := 0
  homeT : Option Nat := none
  homeS : Option Nat := none
  /-- Released with TARGET in this period. -/
  live : Bool := false
  /-- The copy of this attempt has ended: host writes to TARGET's data memory reach both memories (R288). -/
  copied : Bool := false
  deriving DecidableEq, Repr

/-- A sample due three cycles after an overflow (R555). -/
structure SampleDue where
  eng : Nat
  ctr : Nat
  at_ : Nat
  pidx : Nat
  since : Nat
  deriving DecidableEq, Repr

/-- The performance counters. Keys: engine × 32 + counter. -/
structure Pmc where
  ctr : NMap Nat := []
  preset : NMap Nat := []
  /-- PREL values by source × 256 + engine × 32 + counter (R553). -/
  prel : NMap Nat := []
  snap : NMap Nat := []
  /-- Period index and SEQ of the snapshot, by engine. -/
  snPidx : NMap Nat := []
  snSeq : NMap Nat := []
  oven : NMap Nat := []
  smpen : NMap Nat := []
  ovf : NMap Nat := []
  /-- Samples, oldest first: words 0 and 1. -/
  smp : NMap (List (Word × Word)) := []
  lost : NMap Nat := []
  due : List SampleDue := []
  /-- CNTH latched by source (R559). -/
  lat : NMap Nat := []
  /-- DT64 of the last write of a counter's preset (R553). -/
  setAt : NMap (Option Nat) := []
  deriving DecidableEq, Repr

/-! ### Local bridges, trips and choppers (chapter 12) -/

/-- An output land: the instants (DT64) at which it rises and falls, and the last instant at which it fell. -/
structure Land where
  up : Option Nat := none
  down : Option Nat := none
  low : Nat := 0
  /-- Edge time of its last edge, ru: the edge starts half of it before its instant (R372). -/
  edge : Nat := 0
  deriving DecidableEq, Repr

/-- A local leg's output stage (R370, R371, R375, R383). -/
structure LocalLeg where
  /-- The shadow register: the entries framed for the windows to come, the next first; two where an output boundary is still
  due at the framing after (R46). -/
  shadow : List Entry := []
  /-- The entry in the output timers, the start (DT64) and length of its window, the last offset carried out. -/
  loaded : Entry := {}
  start : Nat := 0
  len : Nat := 0
  cur : Nat := 0
  /-- The offset up to which R219 holds the conducting switch on. -/
  hold : Nat := 0
  /-- Condition of the leg: none off, else its level. -/
  side : Option Bool := none
  hi : Land := {}
  lo : Land := {}
  /-- Blanking window: from, to (DT64). -/
  blank : Option (Nat × Nat) := none
  /-- Inputs that set the latch; inputs that marked a MASKED_TRIP pending. -/
  by_ : Nat := 0
  mark : Nat := 0
  /-- The latch has been set since the last output boundary at which the leg was free. -/
  tripped : Bool := false
  deriving DecidableEq, Repr

/-- A chopper channel (R386 to R389). -/
structure Chopper where
  on : Bool := false
  /-- DT64 of the turn-on; A and the DT64 up to which it counts. -/
  onAt : Nat := 0
  a : Nat := 0
  aAt : Nat := 0
  /-- Held off by the ceiling, or due to be switched off by it at CHTMIN. -/
  ceil : Bool := false
  nosrc : Bool := false
  /-- DT64 of the last result used, or of enabling. -/
  used : Nat := 0
  /-- Results of the source with the DT64 of their arrival, not yet compared, oldest first. -/
  x : List (Int × Nat) := []
  by_ : Nat := 0
  /-- CHOPc: high while the switch is to conduct. -/
  land : Land := {}
  deriving DecidableEq, Repr

/-- A trip input's count of consecutive output windows in which it has acted (R380). -/
structure TripIn where
  run : Nat := 0
  acted : Bool := false
  /-- DT64 of the last change of the filtered level (R377). -/
  since : Option Nat := none
  deriving DecidableEq, Repr

/-- Local legs, chopper channels and trip inputs. -/
structure Local where
  legs : NMap LocalLeg := []
  chop : NMap Chopper := []
  trips : NMap TripIn := []
  deriving DecidableEq, Repr

/-! ### Measurement (chapter 13) -/

/-- An internal converter beside its registers. Instants are of the CNV clock (`Meas.ofs`). -/
structure Conv where
  /-- Start of the conversion running. -/
  start : Nat := 0
  busy : Bool := false
  /-- The conversion running is the urgent one. -/
  urg : Bool := false
  /-- An urgent request waiting for the next f_mod edge, with the instant it reached the CNV domain. -/
  req : Option Nat := none
  /-- The sequence slot converting or aborted. -/
  slot : Nat := 0
  /-- A conversion of the sequence was aborted and restarts after the urgent one. -/
  resume : Bool := false
  /-- Waiting for a firing in TRIG mode. -/
  wait : Bool := false
  /-- A firing is held until the urgent result is written. -/
  held : Bool := false
  /-- The slot register as taken at the start of the slot: INP and INN. -/
  inputs : Nat := 0
  /-- The instant of the firing that began the sequence (CNV clock), while no other slot has begun (R405). -/
  fired : Option Nat := none
  /-- REF_RDY returns at this instant; REF_RDY has been 1 throughout the running conversion. -/
  refAt : Option Nat := none
  refOk : Bool := false
  deriving DecidableEq, Repr

/-- A modulator input beside its registers. -/
structure ModIn where
  /-- First sampling edge of the filter since its last restart (CNV clock); none while it has not started. -/
  base : Option Int := none
  /-- Sampling edges taken since the restart, held while the clock is stopped. -/
  paused : Option Nat := none
  /-- Results produced since the restart. -/
  n : Nat := 0
  /-- Enabled with ALGN = 1 and no firing yet. -/
  wait : Bool := false
  /-- The stream's bits that the filter still weighs, newest first (R400, R407). -/
  bits : List Bool := []
  deriving DecidableEq, Repr

/-- Converters, modulator inputs and modulator clocks. -/
structure Meas where
  conv : NMap Conv := []
  mods : NMap ModIn := []
  /-- First rising edge of each running MCLK (CNV clock). -/
  mclk : NMap (Option Nat) := []
  /-- End of the last cycle of each MCLK that has stopped (CNV clock, R406). -/
  mclkEnd : NMap Nat := []
  /-- The CNV clock runs from PLL-T without steps: its time is DT64 plus this, modulo 2^64. -/
  ofs : Nat := 0
  deriving DecidableEq, Repr

/-! ### Head pairing (chapter 11) -/

/-- The peer's last tie beacon (R350). -/
structure TieBeacon where
  pidx : Nat
  dt64 : Nat
  digest : Nat
  per : Nat
  role : Nat
  armed : Bool
  hovr : Bool
  deriving DecidableEq, Repr

/-- What a paired head holds beside the HPR page. -/
structure Pair where
  /-- DT64 of the last edge on CLAIM_IN (R355). -/
  edgeAt : Nat := 0
  /-- Head B lost a contest and has not been ACTIVE since: it is blocked for 800 cycles. -/
  lost : Bool := false
  /-- DT64 of the entry to CLAIMING, the role it came from, and whether the claim is that of INIT. -/
  claimAt : Nat := 0
  from_ : Nat := 0
  init : Bool := false
  /-- A claim request stands (R365). -/
  request : Bool := false
  /-- HCMD HANDOVER has been accepted (R366). -/
  handover : Bool := false
  /-- The last valid tie beacon of the peer, and periods without one since. -/
  beacon : Option TieBeacon := none
  missed : Nat := 0
  /-- TIE_LOST has been raised since the last beacon. -/
  tieLost : Bool := false
  /-- The active's command copies received for the next period, by ring: PIDX and payload. -/
  copies : NMap (Option (Nat × List Byte)) := []
  /-- Rings whose copy lay in the relay window, and rings substituted, in the executing period. -/
  relayed : Nat := 0
  subst : Nat := 0
  /-- Own framed command frames of the next period, by ring: RESYNC and payload (R358, R359). -/
  own : NMap (Bool × List Byte) := []
  /-- First difference of the period: ring and payload byte; already counted. -/
  diff : Option (Nat × Nat) := none
  diffDone : Bool := false
  /-- Periods compared without a difference since the plan start; ARMED is out of reach until the next plan start. -/
  cmpRun : Nat := 0
  cmpBad : Bool := false
  /-- The head has joined a running stack (R359). -/
  joined : Bool := false
  /-- Jig states of the active's last Jig state frame (R350). -/
  jig : List Byte := []
  /-- The active received a relayed copy in the executing period; consecutive quiet periods (R366). -/
  rlyRx : Bool := false
  quiet : Nat := 0
  /-- DT64 at which the ring lanes were lit in LISTEN, while the head is in it. -/
  litAt : Option Nat := none
  /-- A plan stopped by a disagreement or an excess locks again (R363). -/
  relock : Bool := false
  /-- Launch stamp of the tie ranging frame in flight (R362). -/
  tieRange : Option Nat := none
  /-- Ring ranging payloads received and not yet copied to the peer: ring, direction, PIDX, payload (R361). -/
  rangeFwd : List (Nat × Bool × Nat × List Byte) := []
  /-- The tie has left UP and TIE_LOST has not been raised for it (R368). -/
  tieDown : Bool := false
  /-- The tie slots frame and the Jig state frame of the period have been sent (R350). -/
  slotsTx : Bool := false
  jigSent : Bool := false
  /-- Millisecond of DT64, plus one, of the last tie ranging frame (R350). -/
  tieMs : Nat := 0
  /-- The relay and the comparison run in the executing period: what EN and SSTOP said as it began (R65, R369). -/
  runs : Bool := false
  deriving DecidableEq, Repr

/-! ### Capture of the stack's loops (R267) -/

/-- The head's copying of capture sets. -/
structure Capture where
  /-- Periods since the last set copied; sets copied. -/
  cnt : Nat := 0
  sets : Nat := 0
  deriving DecidableEq, Repr

/-! ### The stack program set (chapter 07)

Quantities the programs compute are held in 2^-32 of their unit (log 150). -/

/-- What the programs keep of a cell between periods: its control record (R236, R239 to R241, R256 to R259). -/
structure CellCtl where
  /-- Voltage used, mV; arm current, A. -/
  v : Nat := 0
  i : Int := 0
  /-- Prediction sent for the next period, 50 mV; 0xFFFF while none has been. -/
  vpred : Nat := 0xFFFF
  stale : Nat := 0
  /-- Modulation indexes and DAB powers (W) of the last two periods, newest first. -/
  m : List Int := []
  p : List Int := []
  /-- Duty trim, DAB integrator (W), DPS, and whether the DAB group is in CARRIER. -/
  trim : Int := 0
  z : Int := 0
  dps : Int := 0
  dab : Bool := false
  /-- Inserted in the last period (R256). -/
  ins : Bool := false
  deriving DecidableEq, Repr

/-- What the programs keep of an arm (R249, R253, R254, R259). -/
structure ArmCtl where
  /-- Arm current, A; Σ w V, V; Σ w. -/
  i : Int := 0
  wv : Int := 0
  w : Int := 0
  /-- Arm energy and nominal energy, J. -/
  e : Int := 0
  en : Int := 0
  /-- Arm reference v*, V; integrator and correction of the energy loop, per unit. -/
  ref : Int := 0
  y : Int := 0
  dP : Int := 0
  /-- PHP of the arm's continuous carrier, from the first period on. -/
  php : Option Nat := none
  deriving DecidableEq, Repr

/-- A running injection (R264 to R266). -/
structure Inject where
  /-- Periods run; bit or step; periods or turns of it; shift register. -/
  k : Nat := 0
  n : Nat := 0
  ph : Int := 0
  lfsr : Nat := 0x7FFF
  /-- The signal's present value, per unit of the point's signal. -/
  val : Int := 0
  deriving DecidableEq, Repr

/-- What the programs keep between periods (R242 to R266). -/
structure CalState where
  /-- PLL: angle in 2^-32 turn, frequency and its integrator (Hz), state of R243, good periods of COAST, error (turns). -/
  theta : Nat := 0
  f : Int := 0
  x : Int := 0
  pll : Nat := 0
  good : Nat := 0
  err : Int := 0
  /-- Periods since a hard resync, while the ramp runs (R245). -/
  ramp : Option Nat := none
  /-- The first period after a cold takeover is treated as a hard resync (R367). -/
  cold : Bool := false
  /-- The generalised integrator of single-phase: voltage and current, in phase and in quadrature. -/
  gi : List Int := [0, 0, 0, 0]
  /-- a²; v_gd, v_gq, i_d, i_q, per unit. -/
  a2 : Int := 0
  dq : List Int := [0, 0, 0, 0]
  /-- Integrators of the current loop and of the LV bus loop; P* (per unit) as stage 2 left it. -/
  xd : Int := 0
  xq : Int := 0
  xlv : Int := 0
  pref : Int := 0
  /-- Grid power, W; v_LV, V; i_LV, A. -/
  pg : Int := 0
  vlv : Int := 0
  ilv : Int := 0
  /-- Ride-through and its good periods (R262). -/
  rt : Bool := false
  rtGood : Nat := 0
  /-- Lengths of the conditions of R246 and R252: f at a limit (ru); periods of a² above AMAX², v_LV below and above. -/
  fHeld : Nat := 0
  ov : Nat := 0
  lvLow : Nat := 0
  lvHigh : Nat := 0
  /-- The limits of R248 and R249 acted in the period. -/
  ilim : Bool := false
  vlim : Bool := false
  /-- P_fwd in use, kW, and the smallest term (R251). -/
  plim : Nat × Nat := (0, 0)
  inj : Option Inject := none
  injRun : Bool := false
  injDone : Bool := false
  injAbort : Bool := false
  injCnt : Nat := 0
  /-- Loop error, output and feedback at the loop points, for the capture taps (R267). -/
  taps : NMap (List Int) := []
  /-- Engines that reported a flag, and cell-periods bridged, in the period. -/
  sat : Nat := 0
  bridged : Nat := 0
  arms : NMap ArmCtl := []
  cells : NMap CellCtl := []
  deriving DecidableEq, Repr

/-- Are the loaded programs those of the shipped sets: the Calquetis stack programs (chapter 07) and the safety programs
(R428, R429)? -/
structure Shipped where
  stack : Bool := false
  safety : Bool := false
  deriving DecidableEq, Repr

/-! ### Safety channels and safe isolation (chapter 14) -/

/-- A PDU of a connection on its way into an image (R422): its copies with check time (DT64) and path. -/
structure PduIn where
  seq : Nat
  pdu : List Byte
  at_ : Nat
  /-- Path of copy 1: 0 forward or EN0, 1 reverse or EN1. -/
  path : Nat
  second : Option (List Byte × Nat) := none
  deriving DecidableEq, Repr

/-- A connection's PDUs and acknowledgement. -/
structure Conn where
  /-- PDUs not yet in an image, in order of their first copies. -/
  waiting : List PduIn := []
  /-- SEQs of the PDUs already in images, or discarded, whose second copies have not come (R422). -/
  late : List Nat := []
  /-- CACK written since the last image. -/
  ack : Bool := false
  /-- State byte in the last applied record. -/
  state : Nat := 0
  deriving DecidableEq, Repr

/-- An off-pulse test that waits for its cycle: the cycle in which it was due; SIO_TEST_DUE raised. -/
structure TestWait where
  due : Nat
  raised : Bool := false
  deriving DecidableEq, Repr

/-- What a channel of the shipped safety program set keeps of a connection (R428): state, last fault code, SEQ last
accepted, its check time (DT64), RUN in use, ACK taken and not yet used, SEQ of its next PDU. -/
structure SafeConn where
  st : Nat := 0
  fault : Nat := 0
  ref : Nat := 0
  last : Nat := 0
  run : Bool := false
  ack : Bool := false
  seq : Nat := 0
  deriving DecidableEq, Repr

/-- The SFT block, both output logics and the readback. -/
structure Sft where
  conns : NMap Conn := []
  /-- Cycles whose image, tick, compare and apply points have been reached: k + 1. -/
  image : Nat := 0
  tick : Nat := 0
  compared : Nat := 0
  applied : Nat := 0
  /-- DT64 of the last tick, from which the watchdogs run (R416). -/
  lastTick : Option Nat := none
  /-- Outcome of the last comparison: each comparator found the records equal; A absent; B absent. -/
  equalA : Bool := false
  equalB : Bool := false
  absA : Bool := false
  absB : Bool := false
  /-- DIV and TICK latches of the two output logics. -/
  divA : Bool := false
  divB : Bool := false
  tickA : Bool := false
  tickB : Bool := false
  /-- PERMIT of the last record each output logic applied. -/
  permA : Nat := 0
  permB : Nat := 0
  /-- Filtered SIRD0 to SIRD3. -/
  sird : Nat := 0
  /-- The off-pulse test running: entry and start (DT64). -/
  test : Option (Nat × Nat) := none
  /-- PERMIT fell or a latch was set during its off-pulse (R445). -/
  testLost : Bool := false
  tests : NMap (Option TestWait) := []
  /-- Entries whose last test passed. -/
  passed : Nat := 0
  /-- The shipped program of channel A and of channel B, by connection (R428). -/
  progA : NMap SafeConn := []
  progB : NMap SafeConn := []
  deriving DecidableEq, Repr

/-! ### Clocks (chapter 16) -/

/-- A clock output under one setting (R482 to R484), in the time of its source: ru of ring time for DTM (SRC 0), cycles of the
source for another. It rises at `start`, `start` + `per` … before `stop` and is high for `high`. Before `start`, from `open_`
on, the phase of 16 cycles is undefined. -/
structure ClkSet where
  src : Nat := 0
  start : Nat
  stop : Option Nat := none
  per : Nat
  high : Nat
  /-- Since when its 16 cycles of undefined phase run, and the use of free values that their phases are drawn from. -/
  open_ : Option (Nat × Nat) := none
  deriving DecidableEq, Repr

/-- A clock output: the setting in force and the one it follows. -/
structure ClkOut where
  cur : Option ClkSet := none
  prev : Option ClkSet := none
  deriving DecidableEq, Repr

/-- What the clock blocks hold beside the CLK page. -/
structure Clk where
  /-- DT64 since which PLL-A has been locked without a break (R475). -/
  aSince : Option Nat := none
  /-- ENG cycle of the last TS2 recognition (R475). -/
  ts2 : Option Nat := none
  /-- DT64 of the last switch of the reference (R466). -/
  swAt : Option Nat := none
  outs : NMap ClkOut := []
  deriving DecidableEq, Repr

/-! ### Identity and signed images (chapter 18) -/

/-- An owner slot's fuses: state code of R518, key hash. -/
structure Slot where
  st : Nat := 0
  hash : List Byte := []
  deriving DecidableEq, Repr

/-- An attestation report being built (R526, R527): nonce, DT64 at ATTGO, MODW, and the words the hash unit had read
before a host write changed them, by device address. -/
structure Attest where
  nonce : List Word
  dt64 : Nat
  modw : Bool := false
  before : NMap (Option Word) := []
  deriving DecidableEq, Repr

/-- An update of a flash slot (R525): 1 erasing, 2 taking words, 3 checking. -/
structure Update where
  slot : Nat
  stage : Nat
  deriving DecidableEq, Repr

/-- The SEC unit beside its page. -/
structure Sec where
  slots : NMap Slot := []
  floor : Nat := 0
  /-- A slot command whose fuses are being blown: op, slot, hash. -/
  cmd : Option (Nat × Nat × List Byte) := none
  /-- A floor raise whose fuses are being blown: the new floor. -/
  raise : Option Nat := none
  /-- The use of free values that AUTHN is drawn from. -/
  authnAt : Nat := 0
  /-- OSLOT of the image set in use. -/
  oslot : Nat := 0
  update : Option Update := none
  attest : Option Attest := none
  deriving DecidableEq, Repr

/-! ### Supply, reset and boot (chapter 17) -/

/-- The reset controller and the image loader beside their pages. Domains by the bit codes of R485. -/
structure Rst where
  /-- VIN is at or above 1.0 V; the BROWN latch. -/
  powered : Bool := true
  brown : Bool := false
  /-- Power-on reset is asserted; the device itself drives RST_N low during it; when the lock-out released it. -/
  por : Bool := false
  porDrive : Bool := false
  porAt : Nat := 0
  /-- The output clamps hold their lands low (R499, R505). -/
  clamp : Bool := true
  /-- What the reset controller had measured from power-on to the start of DT64, ru: while DTM was in reset, SFB cycles scaled by
  2.5 (R493). Its time is DT64 plus this. -/
  clock : Nat := 0
  /-- When RST_N fell, while it is low, in that time, as are the other instants here. -/
  low : Option Nat := none
  /-- An external agent holds RST_N low; SFB is silent; when the other requesters' drives end. -/
  ext : Bool := false
  silent : Bool := false
  drive : Nat := 0
  /-- Cause bits of this pulse; the level it has reached (0, 1 core, 2 system). -/
  cause : Nat := 0
  level : Nat := 0
  /-- Domains held in reset. -/
  held : Nat := 0xAF
  /-- DTM has not been released since power-on reset; when RST_N rose. -/
  cold : Bool := true
  roseAt : Nat := 0
  /-- The 10 ms of R498 have run out. -/
  late : Bool := false
  /-- When SYS was released (BTIME). -/
  sysAt : Nat := 0
  /-- The strap HEAD_ID, the strap BOOTSEL as sampled. -/
  bootsel : Bool := false
  /-- The host stream has begun; its bytes. -/
  streaming : Bool := false
  stream : Memory := []
  /-- The IEEE 1149.1 TAP controller is in its reset state. -/
  tapReset : Bool := true
  deriving DecidableEq, Repr

/-! ### The whole state -/

/-- The state of the block. -/
structure State where
  /-- DT64, ring time in ru (R85). -/
  dt64 : Nat := 0
  /-- Every register at a value other than its reset value, by key (R12, R13). -/
  regs : NMap Word := []
  /-- Shadow copies of RWS registers written since the last acceptance (R13, R61). -/
  shadow : NMap (Option Word) := []
  /-- RWS values accepted at a t_ML and due at the next period boundary (R48). -/
  accepted : NMap (Option Word) := []
  /-- CSM, table memory, capture buffer and engine instruction memories, by device address (R53). -/
  mem : Memory := []
  /-- Engine data memories, by device address: a word nothing has written has no value (R271). -/
  dmem : Memory := []
  /-- SXM of the safety channels, by byte offset (R423). -/
  sxm : Memory := []
  /-- The module's serial flash (R2), image slots and spare area. -/
  flash : Memory := []
  /-- The frame plan's run state. -/
  plan : Plan := {}
  /-- The host port. -/
  host : HostPort := {}
  /-- Scribe. -/
  scribe : Scribe := {}
  /-- Datum's servo. -/
  datum : Datum := {}
  /-- Traverse, by 2 × ring + direction. -/
  trav : NMap TravDir := []
  /-- Millisecond of DT64, plus one, of the last Traverse round (R108). -/
  travMs : Nat := 0
  /-- The Ethernet ports. -/
  eth : NMap EthPort := []
  /-- Class F queues by queue number. -/
  fq : NMap FQueue := []
  /-- Lanes. -/
  lanes : NMap Lane := []
  /-- Rings. -/
  rings : NMap Ring := []
  /-- Slots by cell address. -/
  cells : NMap CellRx := []
  /-- Service transactions by tag. -/
  svc : NMap (Option Svc) := []
  /-- The ring whose service request was served last (R183). -/
  svTurn : Nat := 31
  /-- The Jig engines. -/
  jig : Jig := {}
  /-- Cell phases by address. -/
  phases : NMap Phase := []
  /-- Phase moves by arm. -/
  armPh : NMap ArmPhase := []
  /-- The spare record. -/
  spare : SpareRec := {}
  /-- Monitors. -/
  mon : Mon := {}
  /-- The edge scheduler. -/
  edge : Edge := {}
  /-- Node identities of the loaded ring map, by cell address (R30). -/
  ringIds : NMap Nat := []
  /-- Engines by number: PE0 to PE7, Mortise 8, Tenon 9 (R270). -/
  eng : NMap Eng := []
  /-- The ENG cycle of the last channel recognition (R277). -/
  engCycle : Nat := 0
  /-- The ENG cycle of the last TS1 recognition. -/
  ts1Cycle : Nat := 0
  /-- PE7 in SHADOW. -/
  shadow7 : Shadow := {}
  /-- Performance counters. -/
  pmc : Pmc := {}
  /-- Local legs, chopper channels and trip inputs. -/
  loc : Local := {}
  /-- SSAFE requests that have reached DTM: bit 0 output logic A, bit 1 B (R436). -/
  ssafe : Nat := 3
  /-- A core reset has started and its restore has not completed (R508). -/
  restoring : Bool := false
  /-- Converters, modulator inputs and modulator clocks. -/
  meas : Meas := {}
  /-- Head pairing. -/
  pair : Pair := {}
  /-- The copying of capture sets. -/
  capt : Capture := {}
  /-- The shipped programs loaded, and what the stack programs keep. -/
  shipped : Shipped := {}
  pset : CalState := {}
  /-- Safety channels and safe isolation. -/
  sft : Sft := {}
  /-- Clocks. -/
  clk : Clk := {}
  /-- Identity and signed images: fuses and the SEC unit. -/
  sec : Sec := {}
  /-- The reset controller and the image loader. -/
  rst : Rst := {}
  /-- Frames put on the transmitters by the last command that launched any. -/
  out : List OutFrame := []
  /-- Uses of free values so far: the model's own counter. -/
  free : Nat := 4
  /-- Commands waiting, first in, first out. -/
  pending : List Instr := []
  deriving DecidableEq, Repr

/-- The block at the rise of RST_N that ends power-on reset (R489, R493): every register at its reset value, the domains
still held in reset until their clocks are good (R497), nothing loaded, no command waiting. -/
def State.reset : State := {}

end Sys2Proof.Machine
end

