-- ==== Sys2Proof/Machine/Ops.lean ====
section
/-!
DEFINITION. Sys2Proof/Machine/Ops.lean: the named operations over sparse maps, memory, registers, events and faults
that every command's meaning is written with.
Readings and choices (notes/assumptions): DESIGN CHOICE 3, 4, 8, 76; DEDUCED 56, 145.
-/
namespace Sys2Proof.Machine

/-! ### Sparse maps -/

/-- The value at key `k`; `d` where the map lists none. -/
def NMap.get {α : Type} (d : α) : NMap α → Nat → α
  | [], _ => d
  | (a, v) :: t, k => if a = k then v else NMap.get d t k

/-- The map without key `k`. -/
def NMap.erase {α : Type} (m : NMap α) (k : Nat) : NMap α := m.filter fun p => !(p.1 == k)

/-- The map with `v` at key `k`, in key order. -/
def NMap.ins {α : Type} : NMap α → Nat → α → NMap α
  | [], k, v => [(k, v)]
  | (a, w) :: t, k, v =>
    if a = k then (k, v) :: t
    else if k < a then (k, v) :: (a, w) :: t
    else (a, w) :: NMap.ins t k v

/-- The map with `v` at key `k`: the default value is not listed. -/
def NMap.put {α : Type} [DecidableEq α] (d : α) (m : NMap α) (k : Nat) (v : α) : NMap α :=
  if v = d then m.erase k else m.ins k v

/-- Keys strictly rising. -/
def NMap.sorted {α : Type} : NMap α → Bool
  | [] => true
  | [_] => true
  | (a, _) :: (b, w) :: t => Nat.blt a b && NMap.sorted ((b, w) :: t)

/-- The canonical form: keys strictly rising, no value at the default. -/
def NMap.wf {α : Type} [DecidableEq α] (d : α) (m : NMap α) : Bool :=
  m.sorted && m.all fun p => !decide (p.2 = d)

/-! ### Memory (R10, R53) -/

/-- The byte at an address; an address nothing has written reads 0 (log entry 4). -/
def Memory.read (m : Memory) (a : Nat) : Byte := NMap.get 0 m a

/-- Memory with one byte written. -/
def Memory.write (m : Memory) (a : Nat) (b : Byte) : Memory := NMap.put 0 m a b

/-- Memory with bytes written from an address upward. -/
def Memory.writeBytes (m : Memory) (a : Nat) : List Byte → Memory
  | [] => m
  | b :: t => (m.write a b).writeBytes (a + 1) t

/-- `n` bytes from an address upward. -/
def Memory.readBytes (m : Memory) (a : Nat) : Nat → List Byte
  | 0 => []
  | n + 1 => m.read a :: m.readBytes (a + 1) n

/-- The canonical form of memory. -/
def Memory.wf (m : Memory) : Bool := NMap.wf (0 : Byte) m

/-- The number spelt by bytes, least significant first (R10: little-endian). -/
def leNat : List Byte → Nat
  | [] => 0
  | b :: t => b.toNat + 256 * leNat t

/-- `n` bytes of a number, least significant first. -/
def natLe : Nat → Nat → List Byte
  | 0, _ => []
  | n + 1, v => BitVec.ofNat 8 v :: natLe n (v / 256)

/-- The number spelt by bytes, most significant first (R68). -/
def beNat (l : List Byte) : Nat := l.foldl (fun n b => n * 256 + b.toNat) 0

/-- `n` bytes of a number, most significant first. -/
def natBe (n v : Nat) : List Byte := (natLe n v).reverse

/-- The little-endian number of `n` bytes at an address. -/
def Memory.readLE (m : Memory) (a n : Nat) : Nat := leNat (m.readBytes a n)

/-- Memory with `n` little-endian bytes of `v` written at an address. -/
def Memory.writeLE (m : Memory) (a n v : Nat) : Memory := m.writeBytes a (natLe n v)

/-- The 32-bit word at an address. -/
def Memory.readWord (m : Memory) (a : Nat) : Word := wd (m.readLE a 4)

/-- Memory with a 32-bit word written at an address, whole (R55). -/
def Memory.writeWord (m : Memory) (a : Nat) (w : Word) : Memory := m.writeLE a 4 w.toNat

/-- `n` bytes of a sorted memory from `a` on; none where nothing is listed. The list starts at or after `a`. -/
def optBytes : Memory → Nat → Nat → List (Option Byte)
  | _, _, 0 => []
  | [], a, n + 1 => none :: optBytes [] (a + 1) n
  | (k, v) :: t, a, n + 1 => if k = a then some v :: optBytes t (a + 1) n else none :: optBytes ((k, v) :: t) (a + 1) n

/-- `n` bytes of a memory from `a` on, in one pass. -/
def Memory.slice (m : Memory) (a n : Nat) : List Byte :=
  (optBytes (m.filter fun p => Nat.ble a p.1) a n).map fun b => b.getD 0

/-- Bytes put in place of what a memory holds from `a` on, every byte listed. -/
def memSplice (m : Memory) (a : Nat) (l : List Byte) : Memory :=
  (m.filter fun p => Nat.blt p.1 a) ++ ((List.range l.length).zip l).map (fun p => (a + p.1, p.2)) ++
    m.filter fun p => Nat.ble (a + l.length) p.1

/-- The same in a memory whose unlisted bytes read 0. -/
def memPut (m : Memory) (a : Nat) (l : List Byte) : Memory :=
  (m.filter fun p => Nat.blt p.1 a) ++
    (((List.range l.length).zip l).map fun p => (a + p.1, p.2)).filter (fun p => p.2 ≠ 0) ++
    m.filter fun p => Nat.ble (a + l.length) p.1

/-- A memory without the `n` addresses from `a` on. -/
def memClear (m : Memory) (a n : Nat) : Memory := m.filter fun p => Nat.blt p.1 a || Nat.ble (a + n) p.1

/-! ### Registers (R12, R13, R16) -/

/-- The value a register holds. -/
def State.reg (s : State) (k : Nat) : Word := NMap.get (wd (resetOf k)) s.regs k

/-- The state with a register's value replaced. -/
def State.setReg (s : State) (k : Nat) (v : Word) : State :=
  { s with regs := NMap.put (wd (resetOf k)) s.regs k v }

/-- A register's value as a number. -/
def State.regN (s : State) (k : Nat) : Nat := (s.reg k).toNat

/-- A field of a register. -/
def State.regF (s : State) (k lo len : Nat) : Nat := (s.reg k).fld lo len

/-- A bit of a register. -/
def State.regB (s : State) (k i : Nat) : Bool := (s.reg k).bit i

/-- A register read as a signed 32-bit number. -/
def State.regI (s : State) (k : Nat) : Int := (s.reg k).toInt

/-- The state with a field of a register replaced. -/
def State.setF (s : State) (k lo len v : Nat) : State := s.setReg k ((s.reg k).setFld lo len v)

/-- The state with a bit of a register replaced. -/
def State.setB (s : State) (k i : Nat) (b : Bool) : State := s.setReg k ((s.reg k).setBit i b)

/-- A counter of `bits` bits at bit `lo` of a register, advanced by one and saturating. -/
def State.bumpAt (s : State) (k lo bits : Nat) : State := s.setF k lo bits (satInc bits (s.regF k lo bits))

/-- A 16-bit saturating counter register advanced by one. -/
def State.bump (s : State) (k : Nat) : State := s.bumpAt k 0 16

/-- An accepted value that has not yet taken effect (RWS), else the value in use: what framing at the accepting t_ML
uses (R13, R220, R374). -/
def State.regAcc (s : State) (k : Nat) : Word := (NMap.get none s.accepted k).getD (s.reg k)

/-- Field of the value framing uses. -/
def State.regAccF (s : State) (k lo len : Nat) : Nat := (s.regAcc k).fld lo len

/-! ### Events (R57) -/

/-- A hardware event sets an IRQS bit of a page. -/
def State.irq (s : State) (page bit : Nat) : State := s.setB (R.IRQS page) bit true

/-- PSTA.ENS of a page. -/
def State.ens (s : State) (page : Nat) : Bool := s.regB (R.PSTA page) 0

/-- PCTL.EN of a page, in use. -/
def State.enabled (s : State) (page : Nat) : Bool := s.regB (R.PCTL page) 0

def State.setEns (s : State) (page : Nat) (b : Bool) : State := s.setB (R.PSTA page) 0 b
def State.setCpend (s : State) (page : Nat) (b : Bool) : State := s.setB (R.PSTA page) 1 b
def State.setIdle (s : State) (page : Nat) (b : Bool) : State := s.setB (R.PSTA page) 2 b

/-! ### Faults -/

/-- A block raises a fault (R449): the raise carries DT64 and the index of the period executing, 0 with no plan
running, and is on its way to Scribe. -/
def State.fault (s : State) (src page : Nat) (addr : Nat := 0) (master : Nat := 0) (acc : Nat := 0)
    (detail : Nat := 0) : State :=
  { s with scribe := { s.scribe with inflight := s.scribe.inflight ++
      [{ src := src, page := page, time := s.dt64,
         pidx := if s.plan.run then s.regN R.TRG.PIDX else 0,
         addr := addr, master := master, acc := acc, detail := detail }] } }

/-- `f` applied when the condition holds. -/
def State.when (s : State) (c : Bool) (f : State → State) : State := if c then f s else s

/-! ### Time (R85, R87, R88) -/

/-- `d` ru of ring time pass: DT64 increases by 64 every DTM cycle, so it stands at the first cycle that has reached the
instant (R85, R88). -/
def State.elapse (s : State) (d : Nat) : State := { s with dt64 := (s.dt64 + (d + 63) / 64 * 64) % 2 ^ 64 }

/-- DTM has not been released since power-on reset: DT64 has not started and stands at 0 (R495, R498). -/
def State.dtmOff (s : State) : Bool := s.rst.cold && s.rst.held.testBit 2

/-- DT64 brought forward to the first DTM cycle that has reached an instant in the future by R87; never back. -/
def State.reach (s : State) (t : Nat) : State :=
  let d := (t + 2 ^ 64 - s.dt64 % 2 ^ 64) % 2 ^ 64
  if s.dtmOff then s else if d < 2 ^ 63 then s.elapse d else s

/-- First multiple of `m` at or after `t`. -/
def upTo (m t : Nat) : Nat := (t + m - 1) / m * m

/-- An instant belongs to a DTM cycle before the present one. -/
def State.passed (s : State) (t : Nat) : Bool :=
  let d := (s.dt64 + 2 ^ 64 - t % 2 ^ 64) % 2 ^ 64
  Nat.ble 64 d && Nat.blt d (2 ^ 63)

/-- The next multiple `k` of `unit` ru of DT64 not in the past, after the one taken last; `last` is its number plus one.
After a step back in time the multiples are taken anew. -/
def State.nextMultiple (s : State) (last unit : Nat) : Nat :=
  let up := (s.dt64 + unit - 1) / unit
  if Nat.ble last (s.dt64 / unit + 1) then Nat.max last up else up

/-- The compare of R87 between target and present in an n-bit format: has the target been reached? -/
def reached (bits target now : Nat) : Bool :=
  let d := (target + 2 ^ bits - now % 2 ^ bits) % 2 ^ bits
  d = 0 || Nat.ble (2 ^ (bits - 1)) d

/-- Index of the next period. -/
def State.nextPidx (s : State) : Nat := (s.regN R.TRG.PIDX + 1) % 65536

/-! ### Engines and the crossbar ports from 9 upward (R270, R273, R275) -/

def State.engine (s : State) (n : Nat) : Eng := NMap.get {} s.eng n

def State.setEng (s : State) (n : Nat) (e : Eng) : State := { s with eng := NMap.put {} s.eng n e }

/-- Register page of engine `n`: PE0 to PE7, Mortise 8, Tenon 9. -/
def engPage (n : Nat) : Nat := 0x60 + n

/-- PECFG.MODE and TARGET of PE7. -/
def State.pe7Mode (s : State) : Nat := s.regF (R.PE.PECFG 0x67) 0 2
def State.pe7Target (s : State) : Nat := s.regF (R.PE.PECFG 0x67) 8 3

/-- Crossbar port of an engine: PE7 in REPLACE takes TARGET's (R290). -/
def State.csmPort (s : State) (n : Nat) : Nat := if n = 7 && s.pe7Mode = 2 then s.pe7Target else n

/-- Key of an access: cycle, loads before stores, ports ascending (R275). -/
def State.csmKey (s : State) (n : Nat) (x : CsmAcc) : Nat := x.due * 64 + b2n x.store * 32 + s.csmPort n

/-- The result mirror is not RAM: stores to it are ignored (R411). -/
def inMirror (off : Nat) : Bool := Nat.ble 0x34000 off && Nat.blt off 0x34180

/-- Does an engine's outstanding access meet the words of `len` bytes from a device address, the mirror's words aside? -/
def CsmAcc.meets (x : CsmAcc) (a len : Nat) : Bool :=
  Nat.blt (csmBase + x.addr / 4 * 4) (a + len) && Nat.blt a (csmBase + x.addr / 4 * 4 + 4) && !inMirror x.addr

/-- What a load due in cycle `due` reads in the word of a CSM address: the last store in flight to it of an earlier cycle,
PE7's in SHADOW aside, else memory (R274, R275). -/
def State.inFlight (s : State) (addr due : Nat) : Word :=
  let st : List (Nat × CsmAcc) := ((List.range 9).map fun n => ((s.engine n).acc.filter fun y =>
    y.store && Nat.blt y.due due && y.addr / 4 == addr / 4 && (n != 7 || s.pe7Mode != 1)).map fun y => (s.csmKey n y, y)).flatten
  match st.foldl (fun (b : Option (Nat × CsmAcc)) q => match b with
      | some p => if p.1 ≤ q.1 then some q else b
      | none => some q) none with
  | some q => q.2.val
  | none => s.mem.readWord (csmBase + addr / 4 * 4)

/-- Outstanding accesses of an engine that coincide with a store of a port from 9 upward: an engine's store does not stand,
and a load returns the word before it (R275). -/
def State.claimed (s : State) (a len : Nat) (l : List CsmAcc) : List CsmAcc :=
  l.filterMap fun x =>
    if x.got || !x.meets a len then some x
    else if x.store then none
    else some { x with got := true, val := s.inFlight x.addr x.due }

/-- Ports 9 to 11 store at a device address (R273): in the order of R275 after every coincident engine access. An engine's
access issued before the command and not yet in CSM counts as coincident with it (log 145). -/
def State.csmClaim (s : State) (a len : Nat) : State :=
  (List.range 9).foldl (fun t n =>
    if (t.engine n).acc.any fun x => x.meets a len then t.setEng n { t.engine n with acc := s.claimed a len (t.engine n).acc }
    else t) s

/-- Memory with bytes that a crossbar port stores, those in the result mirror aside (R411). -/
def Memory.portBytes (m : Memory) (a : Nat) (l : List Byte) : Memory :=
  let lo := csmBase + 0x34000
  let hi := csmBase + 0x34180
  if a + l.length ≤ lo || hi ≤ a then m.writeBytes a l
  else (m.writeBytes a (l.take (lo - a))).writeBytes (Nat.max a hi) (l.drop (hi - a))

/-- A store of bytes, and of one word, by a port from 9 upward. -/
def State.portBytes (s : State) (a : Nat) (l : List Byte) : State :=
  { s.csmClaim a l.length with mem := s.mem.portBytes a l }

def State.portWord (s : State) (a : Nat) (w : Word) : State := s.portBytes a (natLe 4 w.toNat)

/-! ### Free values -/

/-- A 32-bit value the spec leaves open, fresh at each use. -/
def State.freeWord (s : State) : Word := Config.freeWord s.free

/-- The state after a free value has been used. -/
def State.useFree (s : State) : State := { s with free := s.free + 1 }

end Sys2Proof.Machine
end

