-- ==== Sys2Proof/Machine/Crypto.lean ====
section
/-!
DEFINITION. Sys2Proof/Machine/Crypto.lean: SHA-256, and ECDSA on P-256 with the deterministic nonce of RFC 6979 (R516).
The algorithms and constants are those of the published standards, which the spec names (log entry 70).
Readings and choices (notes/assumptions): PRESUMED 70.
-/
namespace Sys2Proof.Machine

/-! ### SHA-256 -/

/-- The first `n` primes from `k` on, by trial division; `fuel` candidates. -/
def primesFrom : Nat → Nat → List Nat → List Nat
  | 0, _, acc => acc
  | fuel + 1, k, acc => primesFrom fuel (k + 1) (if acc.any (fun p => k % p == 0) then acc else acc ++ [k])

/-- Largest r with r ^ e ≤ n, over `b` bits. -/
def rootFrom (n e : Nat) : Nat → Nat → Nat
  | 0, r => r
  | b + 1, r => rootFrom n e b (if (r + 2 ^ b) ^ e ≤ n then r + 2 ^ b else r)

/-- First 32 fraction bits of the e-th root of a prime. -/
def rootFrac (e p : Nat) : Nat := rootFrom (p * 2 ^ (32 * e)) e 40 0 % 2 ^ 32

/-- The 64 round constants: cube roots of the first 64 primes. -/
def shaK : List Word := ((primesFrom 310 2 []).take 64).map fun p => wd (rootFrac 3 p)

/-- The initial value: square roots of the first 8 primes. -/
def shaInit : List Word := ((primesFrom 310 2 []).take 8).map fun p => wd (rootFrac 2 p)

/-- The next word of the message schedule, from the last 16, newest first. -/
def shaNext (w : List Word) : Word :=
  let g (i : Nat) : Word := w.getD (i - 1) 0
  let s0 := (g 15).rotateRight 7 ^^^ (g 15).rotateRight 18 ^^^ (g 15) >>> 3
  let s1 := (g 2).rotateRight 17 ^^^ (g 2).rotateRight 19 ^^^ (g 2) >>> 10
  g 16 + s0 + g 7 + s1

/-- The 64 schedule words of a block, oldest first. -/
def shaSchedule (block : List Word) : List Word :=
  ((List.range 48).foldl (fun w _ => shaNext (w.take 16) :: w) block.reverse).reverse

/-- One round on a..h. -/
def shaRound : List Word → Word × Word → List Word
  | [a, b, c, d, e, f, g, h], (k, w) =>
    let t1 := h + (e.rotateRight 6 ^^^ e.rotateRight 11 ^^^ e.rotateRight 25) + ((e &&& f) ^^^ (~~~ e &&& g)) + k + w
    let t2 := (a.rotateRight 2 ^^^ a.rotateRight 13 ^^^ a.rotateRight 22) + ((a &&& b) ^^^ (a &&& c) ^^^ (b &&& c))
    [t1 + t2, a, b, c, d + t1, e, f, g]
  | l, _ => l

/-- The compression of one block of 64 bytes. -/
def shaBlock (k : List Word) (h : List Word) (b : List Byte) : List Word :=
  let w := shaSchedule ((List.range 16).map fun i => wd (beNat ((b.drop (4 * i)).take 4)))
  ((k.zip w).foldl shaRound h).zipWith (· + ·) h

/-- Blocks of 64 bytes, `n` of them. -/
def shaRun (k : List Word) : Nat → List Word → List Byte → List Word
  | 0, h, _ => h
  | n + 1, h, l => shaRun k n (shaBlock k h (l.take 64)) (l.drop 64)

/-- SHA-256 of bytes: 32 bytes. -/
def sha256 (l : List Byte) : List Byte :=
  let n := l.length
  let blocks := (n + 9 + 63) / 64
  let m := l ++ [0x80] ++ List.replicate (blocks * 64 - n - 9) 0 ++ natBe 8 (8 * n)
  ((shaRun shaK blocks shaInit m).map fun w => natBe 4 w.toNat).flatten

/-- HMAC with SHA-256. -/
def hmac256 (key msg : List Byte) : List Byte :=
  let k0 := if 64 < key.length then sha256 key else key
  let k := k0 ++ List.replicate (64 - k0.length) 0
  sha256 (k.map (· ^^^ 0x5C) ++ sha256 (k.map (· ^^^ 0x36) ++ msg))

/-! ### P-256 -/

namespace P256

/-- The field prime. -/
def p : Nat := 2 ^ 256 - 2 ^ 224 + 2 ^ 192 + 2 ^ 96 - 1
/-- The group order. -/
def n : Nat := 0xFFFFFFFF00000000FFFFFFFFFFFFFFFFBCE6FAADA7179E84F3B9CAC2FC632551
/-- The curve coefficient b; a is −3. -/
def b : Nat := 0x5AC635D8AA3A93E7B3EBBD55769886BC651D06B0CC53B0F63BCE3C3E27D2604B
/-- The base point. -/
def gx : Nat := 0x6B17D1F2E12C4247F8BCE6E563A440F277037D812DEB33A0F4A13945D898C296
def gy : Nat := 0x4FE342E2FE1A7F9B8EE7EB4A7C0F9E162BCE33576B315ECECBB6406837BF51F5

/-- x^e modulo m, over the low `k` bits of e from the top. -/
def powFrom (m x e : Nat) : Nat → Nat → Nat
  | 0, r => r
  | k + 1, r =>
    let q := r * r % m
    powFrom m x e k (if e.testBit k then q * x % m else q)

/-- The inverse modulo a prime. -/
def inv (m x : Nat) : Nat := powFrom m (x % m) (m - 2) 256 1

/-- A difference modulo p. -/
def sub (x y : Nat) : Nat := (x % p + p - y % p) % p

/-- Points in Jacobian coordinates; z = 0 is the neutral element. -/
structure Pt where
  x : Nat
  y : Nat
  z : Nat
  deriving DecidableEq, Repr

def dbl (a : Pt) : Pt :=
  if a.z = 0 || a.y = 0 then ⟨1, 1, 0⟩
  else
    let y2 := a.y * a.y % p
    let s := 4 * a.x * y2 % p
    let z2 := a.z * a.z % p
    let m := 3 * sub a.x z2 * (a.x + z2) % p
    let x := sub (m * m) (2 * s)
    ⟨x, sub (m * sub s x) (8 * (y2 * y2 % p)), 2 * a.y * a.z % p⟩

def add (a c : Pt) : Pt :=
  if a.z = 0 then c
  else if c.z = 0 then a
  else
    let za := a.z * a.z % p
    let zc := c.z * c.z % p
    let u1 := a.x * zc % p
    let u2 := c.x * za % p
    let s1 := a.y * zc % p * c.z % p
    let s2 := c.y * za % p * a.z % p
    if u1 = u2 then (if s1 = s2 then dbl a else ⟨1, 1, 0⟩)
    else
      let h := sub u2 u1
      let r := sub s2 s1
      let h2 := h * h % p
      let h3 := h2 * h % p
      let v := u1 * h2 % p
      let x := sub (sub (r * r) h3) (2 * v)
      ⟨x, sub (r * sub v x) (s1 * h3), h * a.z % p * c.z % p⟩

/-- k × a over the low `bits` bits of k. -/
def mulFrom (k : Nat) (a : Pt) : Nat → Pt → Pt
  | 0, r => r
  | i + 1, r =>
    let d := dbl r
    mulFrom k a i (if k.testBit i then add d a else d)

def mul (k : Nat) (a : Pt) : Pt := mulFrom k a 256 ⟨1, 1, 0⟩

/-- The affine x of a point. -/
def affX (a : Pt) : Nat :=
  let i := inv p a.z
  a.x * (i * i % p) % p

def affY (a : Pt) : Nat :=
  let i := inv p a.z
  a.y * (i * i % p * i % p) % p

/-- Is (x, y) a point of the curve? -/
def onCurve (x y : Nat) : Bool :=
  Nat.blt x p && Nat.blt y p && y * y % p == (x * x % p * x + sub 0 (3 * x) + b) % p

end P256

/-- The public key of a private key: x then y, each big-endian (R516). -/
def ecdsaPublic (d : Nat) : List Byte :=
  let q := P256.mul d ⟨P256.gx, P256.gy, 1⟩
  natBe 32 (P256.affX q) ++ natBe 32 (P256.affY q)

/-- Does an ECDSA signature (r then s) over a message verify under a public key (R516)? -/
def ecdsaVerify (pub msg sig : List Byte) : Bool :=
  let x := beNat (pub.take 32)
  let y := beNat ((pub.drop 32).take 32)
  let r := beNat (sig.take 32)
  let s := beNat ((sig.drop 32).take 32)
  let e := beNat (sha256 msg)
  let ok := pub.length == 64 && sig.length == 64 && P256.onCurve x y && Nat.blt 0 r && Nat.blt r P256.n && Nat.blt 0 s &&
    Nat.blt s P256.n
  if !ok then false
  else
    let w := P256.inv P256.n s
    let q := P256.add (P256.mul (e * w % P256.n) ⟨P256.gx, P256.gy, 1⟩) (P256.mul (r * w % P256.n) ⟨x, y, 1⟩)
    q.z ≠ 0 && P256.affX q % P256.n == r

/-- One candidate of the deterministic nonce from K and V, and the K and V after a rejection; `fuel` candidates. -/
def signFrom (d e : Nat) : Nat → List Byte → List Byte → List Byte
  | 0, _, _ => List.replicate 64 0
  | fuel + 1, k, v =>
    let t := hmac256 k v
    let c := beNat t
    let q := P256.mul c ⟨P256.gx, P256.gy, 1⟩
    let r := P256.affX q % P256.n
    let s := P256.inv P256.n c * (e + r * d) % P256.n
    if c ≠ 0 && Nat.blt c P256.n && r ≠ 0 && s ≠ 0 then natBe 32 r ++ natBe 32 s
    else
      let k1 := hmac256 k (t ++ [0])
      signFrom d e fuel k1 (hmac256 k1 t)

/-- The ECDSA signature of a message under a private key, with the nonce of RFC 6979 (R516). -/
def ecdsaSign (d : Nat) (msg : List Byte) : List Byte :=
  let h := sha256 msg
  let seed := natBe 32 d ++ natBe 32 (beNat h % P256.n)
  let v0 := List.replicate 32 (1 : Byte)
  let k0 := List.replicate 32 (0 : Byte)
  let k1 := hmac256 k0 (v0 ++ [0] ++ seed)
  let v1 := hmac256 k1 v0
  let k2 := hmac256 k1 (v1 ++ [1] ++ seed)
  signFrom d (beNat h) 64 k2 (hmac256 k2 v1)

end Sys2Proof.Machine
end

