-- ==== Sys2Proof/Machine/Code.lean ====
section
/-!
DEFINITION. Sys2Proof/Machine/Code.lean: the 8b/10b code of the lanes, its special symbols and running disparity (R126,
R127, R153), and the pseudo-random patterns of the test mode (R145).
Readings and choices (notes/assumptions): PRESUMED 133, 134.
-/
namespace Sys2Proof.Machine

/-! ### The 8b/10b code (R126) -/

/-- The 6-bit codes abcdei of D.0 to D.31 at negative running disparity, and of K.28 after them. -/
def code6 : List Nat :=
  [0b100111, 0b011101, 0b101101, 0b110001, 0b110101, 0b101001, 0b011001, 0b111000] ++
  [0b111001, 0b100101, 0b010101, 0b110100, 0b001101, 0b101100, 0b011100, 0b010111] ++
  [0b011011, 0b100011, 0b010011, 0b110010, 0b001011, 0b101010, 0b011010, 0b111010] ++
  [0b110011, 0b100110, 0b010110, 0b110110, 0b001110, 0b101110, 0b011110, 0b101011, 0b001111]

/-- The 4-bit codes fghj of D.x.0 to D.x.7 at negative running disparity. -/
def code4 : List Nat := [0b1011, 0b1001, 0b0101, 0b1100, 0b1101, 0b1010, 0b0110, 0b1110]

/-- The 4-bit codes of the special groups at positive running disparity. -/
def codeK4 : List Nat := [0b0100, 0b1001, 0b0101, 0b0011, 0b0010, 0b1010, 0b0110, 0b1000]

/-- Ones among the low `n` bits. -/
def ones (n v : Nat) : Nat := ((List.range n).filter fun i => v.testBit i).length

/-- Running disparity after a sub-block of `n` bits: positive after more ones, negative after fewer, else as before. -/
def rdAfter (n v : Nat) (rd : Bool) : Bool := if 2 * ones n v = n then rd else Nat.blt n (2 * ones n v)

/-- A sub-block at a running disparity: the complement of its code at negative disparity where that code is unbalanced, or
is one of the two balanced codes that alternate. -/
def subBlock (n c : Nat) (alternates rd : Bool) : Nat :=
  if rd && (2 * ones n c ≠ n || alternates) then 2 ^ n - 1 - c else c

/-- A symbol: a data byte, or a special group named by its byte (K.28.5 is 0xBC). -/
inductive Sym where
  | d (b : Byte)
  | k (b : Byte)
  deriving DecidableEq, Repr

/-- The code group of a symbol at a running disparity, bit a in bit 9, and the disparity after it. -/
def codeGroup (x : Sym) (rd : Bool) : BitVec 10 × Bool :=
  match x with
  | .d b =>
    let lo := b.toNat % 32
    let hi := b.toNat / 32
    let c6 := subBlock 6 (code6.getD lo 0) (lo == 7) rd
    let r1 := rdAfter 6 c6 rd
    let alt := hi = 7 && (if r1 then lo == 11 || lo == 13 || lo == 14 else lo == 17 || lo == 18 || lo == 20)
    let c4 := subBlock 4 (if alt then 0b0111 else code4.getD hi 0) (hi == 3) r1
    (BitVec.ofNat 10 (c6 * 16 + c4), rdAfter 4 c4 r1)
  | .k b =>
    let lo := b.toNat % 32
    let c6 := subBlock 6 (code6.getD (if lo = 28 then 32 else lo) 0) false rd
    let r1 := rdAfter 6 c6 rd
    let k4 := codeK4.getD (b.toNat / 32) 0
    let c4 := if r1 then k4 else 15 - k4
    (BitVec.ofNat 10 (c6 * 16 + c4), rdAfter 4 c4 r1)

/-- The code groups of symbols sent in a row, and the disparity after them. -/
def codeGroups : List Sym → Bool → List (BitVec 10) × Bool
  | [], rd => ([], rd)
  | x :: t, rd =>
    let g := codeGroup x rd
    let r := codeGroups t g.2
    (g.1 :: r.1, r.2)

/-! ### The special symbols (R127) -/

abbrev kIdle : Byte := 0xBC
abbrev kSof : Byte := 0xFB
abbrev kSoft : Byte := 0x5C
abbrev kEof : Byte := 0xFD
abbrev kErr : Byte := 0xFE
abbrev kAbort : Byte := 0xF7
abbrev kSoftr : Byte := 0x1C
abbrev kEidle : Byte := 0xDC

def specials : List Byte := [kIdle, kSof, kSoft, kEof, kErr, kAbort, kSoftr, kEidle]

/-- The start symbol of a frame type (R138, R155). -/
def startSym (type : Nat) : Byte := if type = 9 then kSoftr else if type = 3 || type = 4 then kSoft else kSof

/-- The symbols of a frame, from its start-of-frame symbol to the symbol that ends it (R153). -/
def frameSyms (bytes : List Byte) (ends : Byte) : List Sym :=
  .k (startSym ((bytes.getD 0 0).toNat / 16)) :: bytes.map Sym.d ++ [.k ends]

/-- The running disparity after a received group, valid or not. -/
def rdPast (g : BitVec 10) (rd : Bool) : Bool := rdAfter 4 (g.toNat % 16) (rdAfter 6 (g.toNat / 16) rd)

/-- The special symbol of R127 that a group is at a running disparity. -/
def specialOf (g : BitVec 10) (rd : Bool) : Option Byte := specials.find? fun k => (codeGroup (.k k) rd).1 == g

/-- Is a received group a code violation at a running disparity: no data group of it, and no special symbol of R127? -/
def violates (g : BitVec 10) (rd : Bool) : Bool :=
  !((List.range 256).any fun i => (codeGroup (.d (BitVec.ofNat 8 i)) rd).1 == g) &&
    (specialOf g rd).isNone

/-- Is a frame being received after a symbol: from a start-of-frame symbol to EOF or ABORT (R128)? -/
def inFrameAfter (x : Option Byte) (was : Bool) : Bool :=
  match x with
  | some k => if k = kSof || k = kSoft || k = kSoftr then true else if k = kEof || k = kAbort then false else was
  | none => was

/-- Bit `j` of a stream of K28.5 that begins at a running disparity. -/
def idleBit (rd : Bool) (j : Nat) : Bool := (codeGroup (.k kIdle) (rd != (j / 10 % 2 == 1))).1.getLsbD (9 - j % 10)

/-! ### Patterns (R145) -/

/-- Degree and second tap of a pattern: PRBS7, PRBS15, PRBS31. -/
def prbsTaps (pat : Nat) : Nat × Nat := match pat with
  | 0 => (7, 6)
  | 1 => (15, 14)
  | _ => (31, 28)

/-- The bit a pattern continues with after the last bits, newest first; PRBS15 and PRBS31 are sent inverted (ITU-T O.150). -/
def prbsNext (pat : Nat) (last : List Bool) : Bool :=
  let t := prbsTaps pat
  let x := last.getD (t.1 - 1) false != last.getD (t.2 - 1) false
  if pat = 0 then x else !x

/-- `n` bits of a pattern after the last bits. -/
def prbsBits (pat : Nat) : Nat → List Bool → List Bool
  | 0, _ => []
  | n + 1, last =>
    let b := prbsNext pat last
    b :: prbsBits pat n ((b :: last).take 31)

/-- One received line bit: the checker seeds itself from the received bits until 256 in a row are correct; then it compares
with its own sequence, until 32 errors fall within 256 bits (R146). The new state, whether it is locked, and whether the
bit was checked and in error. -/
def Checker.bit (c : Checker) (pat : Nat) (locked b : Bool) : Checker × Bool × Bool :=
  let deg := (prbsTaps pat).1
  let p := prbsNext pat c.ref
  if locked then
    let errs := ((b != p) :: c.errs).take 256
    if Nat.ble 32 ((errs.filter id).length) then ({}, false, b != p)
    else ({ c with ref := (p :: c.ref).take 31, errs := errs }, true, b != p)
  else
    let run := if Nat.ble deg c.ref.length && b == p then c.run + 1 else 0
    let c1 : Checker := { ref := (b :: c.ref).take 31, run := run, errs := [] }
    if run = 256 then ({ c1 with run := 0 }, true, false) else (c1, false, false)

end Sys2Proof.Machine
end

