-- ==== Sys2Proof/Machine/Frame.lean ====
section
/-!
DEFINITION. Sys2Proof/Machine/Frame.lean: CRCs, the EXL frame layout and its checks (R69, R153 to R157), the lanes a
ring direction uses (R27, R28, R150), stamps (R100) and the launch of a frame (R137).
Readings and choices (notes/assumptions): DESIGN CHOICE 40; DEDUCED 45, 129, 131.
-/
namespace Sys2Proof.Machine

/-! ### CRCs -/

/-- One byte of a CRC with most significant bit first (`w` bits, polynomial `p`). -/
def crcMsbByte (w p crc : Nat) (b : Byte) : Nat :=
  (List.range 8).foldl (fun c _ =>
    let t := c * 2
    (if c.testBit (w - 1) then t ^^^ p else t) % 2 ^ w) (crc ^^^ (b.toNat * 2 ^ (w - 8)))

/-- The CRC-16 of R69. -/
def crc16 (l : List Byte) : Nat := l.foldl (crcMsbByte 16 0x1021) 0xFFFF

/-- One byte of a reflected CRC-32 with reflected polynomial `p`. -/
def crcLsbByte (p crc : Nat) (b : Byte) : Nat :=
  (List.range 8).foldl (fun c _ => if c % 2 = 1 then (c / 2) ^^^ p else c / 2) (crc ^^^ b.toNat)

/-- The CRC-32 of IEEE 802.3 (R156): the link CRC. -/
def crc32 (l : List Byte) : Nat := (l.foldl (crcLsbByte 0xEDB88320) 0xFFFFFFFF) ^^^ 0xFFFFFFFF

/-- The CRC-32C (Castagnoli): reflected, initial value and final XOR all ones. -/
def crc32c (l : List Byte) : Nat := (l.foldl (crcLsbByte 0x82F63B78) 0xFFFFFFFF) ^^^ 0xFFFFFFFF

/-! ### Stamps (R100) -/

/-- A transmit stamp: internal stamp + 38.4 ns + TXCORR, summed in 1/5 ru and rounded to the nearest ru. -/
def txStamp (internal : Nat) (corr : Int) : Int := (5 * ((internal : Int) + corr) + 3072 + 2) / 5

/-- A receive stamp: internal stamp − 51.2 ns − φ_rx − RXCORR, rounded to the nearest ru. -/
def rxStamp (internal : Nat) (phase corr : Int) : Int := (5 * ((internal : Int) - phase - corr) - 4096 + 2) / 5

/-! ### Frame layout (R153, R154) -/

/-- The byte at an index, 0 beyond the end. -/
def byteAt (l : List Byte) (i : Nat) : Nat := (l.getD i 0).toNat

/-- `n` little-endian bytes from an index. -/
def leAt (l : List Byte) (i n : Nat) : Nat := leNat ((l.drop i).take n)

/-- The 8 header bytes of a frame a head originates (R154). -/
def frameHeader (type : Nat) (rev : Bool) (hid : Nat) (ring len pidx : Nat) (tv : Bool) (dstate : Nat)
    (resync relay : Bool) : List Byte :=
  [BitVec.ofNat 8 (type * 16 + b2n rev * 8 + hid * 2), BitVec.ofNat 8 (ring * 8)] ++
    natLe 2 len ++ natLe 2 pidx ++
    natLe 2 (b2n tv + dstate * 2 + b2n resync * 16 + b2n relay * 32)

/-- A frame from header to CRC (R153). -/
def frameOf (header payload : List Byte) : List Byte :=
  header ++ payload ++ natLe 4 (crc32 (header ++ payload))

def frameType (f : List Byte) : Nat := byteAt f 0 / 16
def frameRev (f : List Byte) : Bool := (byteAt f 0).testBit 3
def frameOrig (f : List Byte) : Bool := (byteAt f 0).testBit 2
def frameHid (f : List Byte) : Nat := (byteAt f 0 / 2) % 2
def frameRing (f : List Byte) : Nat := byteAt f 1 / 8
def framePos (f : List Byte) : Nat := byteAt f 1 % 8
def frameLen (f : List Byte) : Nat := leAt f 2 2 % 2048
def framePidx (f : List Byte) : Nat := leAt f 4 2
def frameRelay (f : List Byte) : Bool := (byteAt f 6).testBit 5
def frameTv (f : List Byte) : Bool := (byteAt f 6).testBit 0
def frameDstate (f : List Byte) : Nat := (byteAt f 6 / 2) % 8
def framePayload (f : List Byte) : List Byte := (f.drop 8).take (f.length - 12)

/-- Does a type start with K28.2 (R155)? -/
def softType (t : Nat) : Bool := t == 3 || t == 4

/-- The first check of R157 that fails, by the offset of its counter on the RNG page. -/
def frameCheck (ring : Nat) (rev : Bool) (r : RxFrame) : Option Nat :=
  let f := r.bytes
  if !r.intact then some 0x11C
  else if f.length < 12 || 1024 < f.length then some 0x118
  else if crc32 (f.take (f.length - 4)) ≠ leAt f (f.length - 4) 4 then some 0x114
  else if 1012 < frameLen f || frameLen f ≠ f.length - 12 || (frameLen f = 0 && frameType f ≠ 3) then some 0x118
  else if frameType f = 0 || 9 ≤ frameType f || softType (frameType f) ≠ r.soft || frameRing f ≠ ring
      || frameRev f ≠ rev || (byteAt f 0).testBit 0 || leAt f 2 2 / 2048 ≠ 0 || leAt f 6 2 / 64 ≠ 0 then some 0x120
  else none

/-! ### Lanes of a ring direction (R27, R28, R150) -/

/-- Is the head paired, and its role (R352)? -/
def State.paired (s : State) : Bool := s.regB R.HPR.PCFG 0
def State.role (s : State) : Nat := s.regF R.HPR.HSTA 0 3

/-- The tie lane, LN(TIELN), of a paired head (R349). -/
def State.tieLane (s : State) : Nat := s.regF R.HPR.PCFG 8 5
def State.isTie (s : State) (n : Nat) : Bool := s.paired && n == s.tieLane

/-- What a lane's LNMAP assigns it to; that of the tie lane is ignored (R349). -/
def State.lnmap (s : State) (n : Nat) : Word := if s.isTie n then 0 else s.reg (R.LNE.LNMAP n)

/-- ROLE of a lane: 0 spare (R150). -/
def State.lnRole (s : State) (n : Nat) : Nat := (s.lnmap n).fld 5 2

/-- The lane assigned to a ring in one of some roles (LNMAP). -/
def State.laneIn (s : State) (ring : Nat) (roles : List Nat) : Option Nat :=
  (List.range 32).find? fun n => (s.lnmap n).fld 0 5 == ring && roles.contains (s.lnRole n)

/-- The lane whose transmitter sends a ring direction: forward the out-lane, reverse the in-lane; a twin-head lane
sends forward from head A and reverse from head B. -/
def State.txLane (s : State) (ring : Nat) (rev : Bool) : Option Nat :=
  match s.laneIn ring [if rev then 2 else 1] with
  | some n => some n
  | none => if (s.regB R.HPR.HSTA 3) = rev then s.laneIn ring [3] else none

/-- The lane whose receiver ends a ring direction. -/
def State.rxLane (s : State) (ring : Nat) (rev : Bool) : Option Nat :=
  match s.laneIn ring [if rev then 1 else 2] with
  | some n => some n
  | none => if (s.regB R.HPR.HSTA 3) = rev then none else s.laneIn ring [3]

/-- Lane state codes of R132. -/
def State.laneState (s : State) (lane : Nat) : Nat := s.regF (R.LNE.LNSTA lane) 0 3

/-- Is a lane UP? -/
def State.laneUp (s : State) (lane : Nat) : Bool := s.laneState lane == 4

/-- Is the lane that sends a ring direction UP? -/
def State.txUp (s : State) (ring : Nat) (rev : Bool) : Bool := (s.txLane ring rev).any s.laneUp

/-- Is the lane that receives a ring direction UP? -/
def State.rxUp (s : State) (ring : Nat) (rev : Bool) : Bool := (s.rxLane ring rev).any s.laneUp

/-- Is a ring in the loaded ring map (RCFG.NCELL)? -/
def State.ringCells (s : State) (ring : Nat) : Nat := s.regF (R.RNG.RCFG ring) 0 4

/-- HID of frames this head originates: 0 head A or single head, 1 head B (R154). -/
def State.hid (s : State) : Nat := s.regF R.HPR.HSTA 3 1

/-- The framer launches commands and beacons: an unpaired head, or ACTIVE (R353). -/
def State.active (s : State) : Bool := !s.paired || s.role == 4

/-- Every slot is framed with SAFE = 1 and every local leg off: the trip hold, or a safety request in an ACTIVE or unpaired
head (R436, R456). -/
def State.allSafe (s : State) : Bool := s.scribe.hold || (s.ssafe ≠ 0 && s.active)

/-- From the start of a core reset until its restore completes (R508). -/
def State.inRestore (s : State) : Bool := s.restoring

/-- Ring transmitters originate collectors and ranging: an unpaired head, STANDBY, CLAIMING or ACTIVE (R352). -/
def State.onRing (s : State) : Bool := !s.paired || Nat.ble 2 s.role

/-- The direction this head originates in twin-head wiring: forward from head A, reverse from head B (R28). -/
def State.ownDir (s : State) : Bool := s.hid == 1

/-- Does this head originate frames in the direction? -/
def State.originates (s : State) (rev : Bool) : Bool := !s.paired || rev == s.ownDir

/-- Datum's state code (R91). -/
def State.dstate (s : State) : Nat := s.regF R.DTM.DTSTA 0 3

/-- Queue number of a ring direction's Class F queue; the Ethernet ports are 64 and 65. -/
def queueOf (ring : Nat) (rev : Bool) : Nat := 2 * ring + b2n rev

/-- Symbol time B of a ring in 1/5 ru: 51.2 ru, or 102.4 ru at the lower rate (R38). -/
def State.symFifths (s : State) (ring : Nat) : Nat := if s.regB (R.RNG.RCFG ring) 5 then 512 else 256

/-- Time S(L) a frame of L bytes occupies, ru rounded up (R40). -/
def State.frameTime (s : State) (ring len : Nat) : Nat := ((len + 2) * s.symFifths ring + 4) / 5

/-! ### Transmitters (R126, R129) -/

def State.lane (s : State) (n : Nat) : Lane := NMap.get {} s.lanes n

def State.setLane (s : State) (n : Nat) (l : Lane) : State := { s with lanes := NMap.put {} s.lanes n l }

/-- Symbol time of a lane, 1/5 ru (R125); the tie runs at 3.125 Gbaud (R349). -/
def State.laneFifths (s : State) (n : Nat) : Nat := if s.regB (R.LNE.LNCFG n) 0 && !s.isTie n then 512 else 256

/-- Symbols leave a lane's transmitter from an instant on: idles have filled the time since the last frame, each reversing
the running disparity, which then goes on through the symbols (R126, R127). -/
def State.txSyms (s : State) (n t : Nat) (l : List Sym) : State :=
  let x := s.lane n
  let b := s.laneFifths n
  let idles := (5 * t - x.end5) / b
  s.setLane n { x with rd := (codeGroups l (x.rd != (idles % 2 == 1))).2, end5 := 5 * t + l.length * b }

/-- One item leaves a transmitter of a lane. -/
def State.txLine (s : State) (f : OutFrame) : State :=
  match f with
  | .exl n t b => s.txSyms n t (frameSyms b kEof)
  | .cut n t b => s.txSyms n t (frameSyms b kAbort)
  | .dark n t => s.txSyms n t (List.replicate 16 (.k kEidle))
  | _ => s

/-- What the head sends: it stands in `out`, and the lanes' transmitters go on from it. -/
def State.send (s : State) (l : List OutFrame) : State := { l.foldl State.txLine s with out := l }

/-- What `f` sends comes after what stands in `out`. -/
def State.also (s : State) (f : State → State) : State :=
  let t := f { s with out := [] }
  { t with out := s.out ++ t.out }

/-- The steps of one command: what they send stands in `out` together; where none sends, `out` is as it was. -/
def State.together (s : State) (fs : List (State → State)) : State :=
  let t := fs.foldl State.also { s with out := [] }
  if t.out.isEmpty then { t with out := s.out } else t

/-- A lane's transmitter has sent 2 K28.5 since its last frame (R129), and the first instant at which it has. -/
def State.laneFree (s : State) (n t : Nat) : Bool := Nat.ble ((s.lane n).end5 + 2 * s.laneFifths n) (5 * t)
def State.laneFreeAt (s : State) (n : Nat) : Nat := ((s.lane n).end5 + 2 * s.laneFifths n + 4) / 5

/-- The transmitter of a ring direction is free at an instant. -/
def State.dirFree (s : State) (ring : Nat) (rev : Bool) (t : Nat) : Bool := (s.txLane ring rev).all fun n => s.laneFree n t

/-- The first instant at which the transmitter of a ring direction is free. -/
def State.dirFreeAt (s : State) (ring : Nat) (rev : Bool) : Nat := ((s.txLane ring rev).map s.laneFreeAt).getD 0

/-- S(n) + t_ML and S(n) + t_CC. -/
def State.tML (s : State) : Nat := s.plan.start + s.plan.per - s.regF R.TRG.TML 0 20
def State.tCC (s : State) : Nat := s.plan.start + s.plan.per - s.regF R.TRG.TCC 0 20

/-- R_k: the relay instant of a ring; the active is the peer (R357). -/
def State.relayAt (s : State) (ring : Nat) : Nat :=
  s.tML + NMap.get 0 s.plan.planD (queueOf ring (!s.ownDir)) + 1600

/-- The instants of a period at which the head may launch a frame of the plan on a ring: the collector, the command (a standby
relays or substitutes it at R_k), the beacon and the ranging frame (R43, R116; log 45). -/
def State.planLaunches (s : State) (ring : Nat) : List Nat :=
  [s.plan.start + s.regF R.TRG.TCL 0 20, if s.paired && s.role = 2 then s.relayAt ring else s.tML, s.tCC]

/-- The next launch of the plan on a ring at or after an instant (R43). -/
def State.nextPlanLaunch (s : State) (ring t : Nat) : Option Nat :=
  if !s.plan.run then none
  else
    let cl := s.plan.start + s.regF R.TRG.TCL 0 20
    if !s.plan.started then some cl
    else
      let l := s.planLaunches ring
      some (((l ++ l.map fun x => x + s.plan.per).find? fun x => Nat.ble t x).getD (cl + 2 * s.plan.per))

/-- A frame outside the plan that starts at an instant leaves its transmitter, with the 2 idles after it, before the next
plan launch (R43, R129). -/
def State.fitsPlan (s : State) (ring t len : Nat) : Bool :=
  match s.nextPlanLaunch ring t with
  | some l => Nat.ble (5 * t + (len + 4) * s.symFifths ring) (5 * l)
  | none => true

/-- The frames put on the transmitters of one ring direction: nothing while its lane is not UP (R137) or the ring
transmitters are dark (R352). -/
def State.exlOut (s : State) (ring : Nat) (rev : Bool) (launch : Nat) (bytes : List Byte) : List OutFrame :=
  match s.txLane ring rev with
  | some n => if s.laneUp n && s.onRing then [.exl n launch bytes] else []
  | none => []

/-- Is a command frame launched on the ring: by a head that holds authority, on a lane that is UP (R137, R353)? -/
def State.cmdGoes (s : State) (ring : Nat) : Bool :=
  s.active && s.onRing && (s.txUp ring false || s.txUp ring true)

/-- The header this head gives a frame it originates in the executing period. -/
def State.header (s : State) (type ring : Nat) (rev : Bool) (len pidx : Nat) (resync : Bool) : List Byte :=
  frameHeader type rev s.hid ring len pidx s.datum.tv s.dstate resync false

/-- A frame received on a ring that fails R157: counted once, FRAME_ERR once per millisecond of DT64 and ring. -/
def State.frameErr (s : State) (ring off : Nat) : State :=
  let ms := s.dt64 / 16000000
  let s1 := s.bump ((0x30 + ring) * 0x1000 + off)
  let r := NMap.get {} s1.rings ring
  let s2 := { s1 with rings := NMap.put {} s1.rings ring { r with errMs := ms + 1 } }
  s2.when (r.errMs ≠ ms + 1) fun t => t.fault Src.FRAME_ERR (0x30 + ring) ring 0x28 4

/-! ### Reception (R128, R137) -/

/-- A frame comes up from the lane that ends a ring direction: nothing while that lane is not UP; a frame in which the
lane passed K30.7 up is not intact (R128, R137). -/
def State.rxTake (s : State) (ring : Nat) (rev : Bool) (f : RxFrame) : Option (State × RxFrame) :=
  match s.rxLane ring rev with
  | none => none
  | some n =>
    if !s.laneUp n then none
    else
      let l := s.lane n
      some (s.setLane n { l with drop := false }, { f with intact := f.intact && !l.drop })

/-- Receive stamps of a frame's start and end, referred to the reference plane (R100). -/
def sofStamp (f : RxFrame) : Int := rxStamp f.sof f.phase 0

/-- DEDUCED (log 131): the arrival that R44 and R172 compare is this stamp of the end-of-frame symbol. -/
def eofStamp (f : RxFrame) : Int := rxStamp f.eof f.phase 0

end Sys2Proof.Machine
end

