-- ==== Sys2Proof/Machine/Stp.lean ====
section
/-!
DEFINITION. Sys2Proof/Machine/Stp.lean: the tables in table memory and the CSM areas the blocks share: the stack
parameter table (R237), the arm map, the field map (R323), curves (R322) and telemetry records (R173).
Readings and choices (notes/assumptions): DEDUCED 31, 123; PRESUMED 53.
-/
namespace Sys2Proof.Machine

/-- A word of the stack parameter table (R237). -/
def State.spt (s : State) (i : Nat) : Word := s.mem.readWord (tblBase + s.regN R.STK.SPTB + 4 * i)

/-- An unsigned field of an SPT word. -/
def State.sptF (s : State) (i lo len : Nat) : Nat := (s.spt i).fld lo len

/-- Word of the stack status record (R236) at which entry `k` stands: the record's layout is not given, so its first word is
free; entries 0 to 8 are the status words that `stkStatus` names (log 53). -/
def statusWord (k : Nat) : Nat := (Config.stackBase.toNat + k) % 64

/-- A status register of the STK page that the program set reports (R269): the word of the stack status record (R236)
whose place the spec does not give. 0 SSTA, 1 GFREQ, 2 GAMP, 3 PGRID, 4 VLV, 5 PLIM, 6 INJSTA; 7 the
engines that reported a flag (SATF), 8 the cell-periods bridged (STALEC) of the period. -/
def State.stkStatus (s : State) (k : Nat) : Word :=
  let w := s.mem.readWord (csmBase + 0x30000 + 4 * statusWord k)
  match k with
  | 0 => if s.plan.run then w &&& 0xFF else w &&& 0xF8
  | 2 | 4 => w &&& 0xFFFF
  | 5 => w &&& 0x7FFFF
  | 6 => w &&& 0xFFFF0007
  | _ => w

/-- Number of arms, as STK.SCFG shows it from the SPT. -/
def State.narm (s : State) : Nat := s.sptF 0 4 3

/-- CARP, the grid-side carrier period in periods. -/
def State.carp (s : State) : Nat := s.sptF 0 8 8

/-- STALEMAX. -/
def State.staleMax (s : State) : Nat := s.sptF 0 16 4

/-- The arm map byte of a cell address. -/
def State.armByte (s : State) (addr : Nat) : Byte := s.mem.read (tblBase + s.regN R.STK.SPTB + 1024 + addr)

/-- Does the cell belong to the stack? -/
def State.inMap (s : State) (addr : Nat) : Bool := (s.armByte addr).toNat.testBit 7

/-- The arm of a cell. -/
def State.armOf (s : State) (addr : Nat) : Nat := (s.armByte addr).toNat % 8

/-- The cell addresses of the arm map, ascending. -/
def State.mapCells (s : State) : List Nat := (List.range 256).filter s.inMap

/-- A word of a ring's field map (R323). -/
def State.fieldMap (s : State) (ring i : Nat) : Word :=
  s.mem.readWord (tblBase + s.regN R.CLS.FMB + 16 * ring + 4 * i)

/-- Do a ring's slots carry a DAB group entry (R160, R323)? DABG and the slot size RCFG.CSLOT agree in a compiled map. -/
def State.groupRing (s : State) (ring cslot : Nat) : Bool := (s.fieldMap ring 0).bit 18 || Nat.blt cslot 80

/-- COAST_MAX of a ring's cells. -/
def State.coastMax (s : State) (ring : Nat) : Nat := (s.fieldMap ring 0).fld 20 3

/-- Base address of curve `i` of a Jig engine (0 JG0, 1 JG1: R347). -/
def State.curveAt (s : State) (eng i : Nat) : Nat := tblBase + s.regN (R.JG.CVB (1 + eng)) + 68 * i

/-- A point of a curve. -/
def curvePoint (m : Memory) (base k : Nat) : Nat × Int :=
  let w := m.readWord (base + 4 * k)
  (w.fld 0 16, signedOf 16 (w.fld 16 16))

/-- The value of a curve of `n` points at `x` between the points from `k` on (R322). -/
def curveFrom (m : Memory) (base x : Nat) : Nat → Nat → Int
  | 0, k => (curvePoint m base k).2
  | fuel + 1, k =>
    let p := curvePoint m base k
    let q := curvePoint m base (k + 1)
    if x ≤ p.1 then p.2
    else if x < q.1 then roundAway (p.2 * ((q.1 : Int) - p.1) + (q.2 - p.2) * ((x : Int) - p.1)) (q.1 - p.1)
    else curveFrom m base x fuel (k + 1)

/-- The value of a curve at `x`: Y1 below the first point, Y_NPTS from the last, linear between, rounded half away from
zero (R322). -/
def curveValue (m : Memory) (base x : Nat) : Int :=
  let n := (m.readWord base).fld 0 5
  curveFrom m base x (n - 1) 1

/-- X of the last declared point of a curve. -/
def curveLastX (m : Memory) (base : Nat) : Nat := (curvePoint m base ((m.readWord base).fld 0 5)).1

/-- Address of a cell's telemetry record of a period (R173). -/
def recAt (pidx addr : Nat) : Nat := csmBase + (pidx % 2) * 0x8000 + addr * 0x80

/-- A word of a cell's telemetry record of the executing period. -/
def State.recWord (s : State) (addr i : Nat) : Word := s.mem.readWord (recAt (s.regN R.TRG.PIDX) addr + 4 * i)

/-- The cell's capacitor voltage in the record of the executing period, mV. -/
def State.recV (s : State) (addr : Nat) : Nat := (s.recWord addr 0).toNat

/-- The record of the executing period is stale. -/
def State.recStale (s : State) (addr : Nat) : Bool := (s.recWord addr 9).bit 0

/-- The quotient rounded where the spec states no rounding: floor, or one more when inexact and the free rounding says
so. -/
def freeRound (n : Int) (d : Nat) : Int :=
  if d = 0 then 0
  else if n % d = 0 then n / d else n / d + (if Config.roundUp n d then 1 else 0)

end Sys2Proof.Machine
end

