-- ==== Sys2Proof/Machine/Jig.lean ====
section
/-!
DEFINITION. Sys2Proof/Machine/Jig.lean: the Jig engines: instances, events, guards, actions, passes, outputs, commands,
bank checks (R317 to R344), and the orderly ramp and P_thermal write that JG1's pass works with (R541 to R543).
Readings and choices (notes/assumptions): DEDUCED 67, 68, 71, 72, 73, 77, 180; DESIGN CHOICE 76, 161, 181.
-/
namespace Sys2Proof.Machine

/-- The instance of JG0 for a cell address, or of JG1 at 256. -/
def State.inst (s : State) (i : Nat) : JInst := NMap.get {} s.jig.inst i

/-- Replaces an instance. -/
def State.setInst (s : State) (i : Nat) (j : JInst) : State :=
  { s with jig := { s.jig with inst := NMap.put {} s.jig.inst i j } }

/-- Event `e` becomes pending at an instance. -/
def JInst.raise (j : JInst) (e : Nat) : JInst := { j with pend := j.pend ||| 2 ^ e }

/-- Event `e` is raised for an instance (R328, R339). -/
def State.jigEvent (s : State) (i e : Nat) : State := s.setInst i ((s.inst i).raise e)

/-- JG1's instance number. -/
abbrev stackInst : Nat := 256

/-- The engine number of an instance: 0 JG0, 1 JG1. -/
def engOf (i : Nat) : Nat := if i = stackInst then 1 else 0

/-- Byte address of a bank of a Jig engine. -/
def State.bankAt (s : State) (eng bank : Nat) : Nat := tblBase + s.regN (R.JG.TBASE (1 + eng) bank)

/-- Byte address of the bank in use. -/
def State.bankInUse (s : State) (eng : Nat) : Nat := s.bankAt eng (s.regF (R.JG.TBANK (1 + eng)) 0 2)

/-- The state descriptor of a state (R321). -/
def descOf (m : Memory) (bank st : Nat) : Word := m.readWord (bank + 4 * st)

/-- The entry for a state and an event (R321). -/
def entryOf (m : Memory) (bank st e : Nat) : Word := m.readWord (bank + 0x100 + (st * 32 + e) * 4)

/-- The output class of a cell's state (R326). -/
def State.classOfCell (s : State) (addr : Nat) : Nat := (descOf s.mem (s.bankInUse 0) (s.inst addr).st).fld 0 4

/-- Is a class a member class (INSERT, ACTIVE, REMOVE)? -/
def memberClass (c : Nat) : Bool := c == 4 || c == 5 || c == 6

/-- The members of an arm, ascending (R223). -/
def State.membersOf (s : State) (arm : Nat) : List Nat :=
  s.mapCells.filter fun a => s.armOf a == arm && memberClass (s.classOfCell a)

/-- Cells of an arm in a class. -/
def State.cellsInClass (s : State) (arm c : Nat) : List Nat :=
  s.mapCells.filter fun a => s.armOf a == arm && s.classOfCell a == c

/-- Cells of an arm in a state. -/
def State.cellsInState (s : State) (arm st : Nat) : List Nat :=
  s.mapCells.filter fun a => s.armOf a == arm && (s.inst a).st == st

/-! ### Guards (R329) -/

/-- LVOK: v_LV, as STK.VLV shows it, within VLVMIN to VLVMAX of the SPT. -/
def State.lvOk (s : State) : Bool :=
  let v := (s.stkStatus 4).fld 0 16
  Nat.ble (s.sptF 20 0 16) v && Nat.ble v (s.sptF 20 16 16)

/-- NORAMP: no cell of the cell's arm has class INSERT or REMOVE. -/
def State.noRamp (s : State) (arm : Nat) : Bool :=
  (s.cellsInClass arm 4).isEmpty && (s.cellsInClass arm 6).isEmpty

/-- Does a guard hold for an instance (R329)? -/
def State.guardHolds (s : State) (i guard : Nat) (inv : Bool) : Bool :=
  let g := match guard with
    | 0 => true
    | 1 => s.lvOk
    | 2 => s.noRamp (s.armOf i)
    | 3 => (s.inst stackInst).st == 4 || (s.inst stackInst).st == 5
    | 4 => s.regB R.CLS.LCFG 8
    | 5 => s.plan.run
    | _ => false
  g != inv

/-! ### The orderly ramp (R541 to R543) -/

/-- RAMP_DOWN: the ramp starts from the P_fwd in use; one that runs goes on. -/
def State.rampDown (s : State) : State :=
  match s.mon.ramp with
  | some _ => s
  | none => { s with mon := { s.mon with ramp := some ((s.stkStatus 5).fld 0 16, s.dt64), rampZero := false } }.setB
      R.MON.TSTA 1 true

/-- The ramp ends: P_thermal returns to P_step (R543). -/
def State.rampOff (s : State) : State :=
  match s.mon.ramp with
  | none => s
  | some _ => ({ s with mon := { s.mon with ramp := none, rampZero := false } }.setB R.MON.TSTA 1 false).irq 0x04 5

/-- P_ramp in kW at the present instant. -/
def State.pRamp (s : State) (p start : Nat) : Nat :=
  let total := s.regF R.MON.TRAMP 0 8 * 16000000
  let t := (s.dt64 + 2 ^ 64 - start) % 2 ^ 64
  if total ≤ t then 0 else p * (total - t) / total

/-- The limit step n: held at 32 while MON is disabled (R540). -/
def State.thermN (s : State) : Nat := if s.enabled 0x04 then s.regF R.MON.TLIM 0 6 else 32

/-- P_step = n × PMAXF / 32, kW. -/
def State.pStep (s : State) : Nat := s.thermN * s.sptF 6 0 16 / 32

/-- P_thermal in kW (R542). -/
def State.pThermal (s : State) : Nat :=
  match s.mon.ramp with
  | some (p, t) => Nat.min s.pStep (s.pRamp p t)
  | none => s.pStep

/-- The P_thermal write at TS3 or an idle pass: the CSM word at 0x3_4200, and RAMP_END after the first write of
P_ramp = 0 (R542, R543). -/
def State.thermWrite (s : State) : State :=
  let v := s.pThermal
  let zero := match s.mon.ramp with
    | some (p, t) => s.pRamp p t == 0
    | none => false
  let s1 := { s with mon := { s.mon with rampZero := s.mon.rampZero || zero } }.portWord (csmBase + 0x34200)
    (wd (v + b2n s.mon.ramp.isSome * 65536))
  let s2 := s1.setF R.MON.TLIM 16 16 v
  s2.when (zero && !s.mon.rampZero) fun t => t.jigEvent stackInst 11

/-! ### Actions (R330, R339) -/

/-- Event `e` for every JG0 instance of the arm map. -/
def State.allCells (s : State) (e : Nat) : State := s.mapCells.foldl (fun t a => t.jigEvent a e) s

/-- JG0's service requests of CFGWRITE: TD, TMIN, ISRC and ISNK of the LPT, SAFEB, COAST and HFMASK of the field map and
RSCALE of the ring, in that order (R330). -/
abbrev cfgWrites : Nat := 8

/-- The effect of an action code. -/
def State.jigAction (s : State) (i code : Nat) : State :=
  match code with
  | 0x01 =>
    let t := s.setInst i { s.inst i with idOk := false }
    { t with jig := { t.jig with svc := t.jig.svc ++ [(i, .idRead)] } }
  | 0x02 =>
    let t := s.setInst i { s.inst i with cfgBad := false }
    { t with jig := { t.jig with svc := t.jig.svc ++ (List.range cfgWrites).map fun n => (i, .cfg n) } }
  | 0x03 => s.setInst i { s.inst i with v0 := s.recV i, chg := s.dt64, chgRun := 0 }
  | 0x04 => s.setInst i { s.inst i with w := 0, byp := true, ramp := false, rampDone := false }
  | 0x05 =>
    ((s.setInst i { s.inst i with w := 0, byp := true, ramp := false, rampDone := false }).fault Src.CELL_FAULT 0x50
      (i + s.armOf i * 256) 0x1A).irq 0x50 1
  | 0x06 =>
    { (s.setB (R.CLS.RETMAP (i / 32)) (i % 32) true) with
      spare := { s.spare with cells := NMap.put none s.spare.cells i (some (s.inst i).ident) } }
  | 0x10 => s.allCells 15
  | 0x11 => (s.allCells 14).setB R.SIO.SOUT 16 false
  | 0x12 => s.setB R.SIO.SOUT 16 true
  | 0x13 => s.rampDown
  | 0x14 => s.rampOff
  | _ => s

/-! ### One transition (R318, R319, R338) -/

/-- The time limit of an entry: passes, or the DT64 at which it ends. -/
def limitOf (now : Nat) (w : Word) : Option Nat × Option Nat :=
  let n := w.fld 18 12
  if n = 0 then (none, none)
  else match w.fld 30 2 with
    | 0 => (some n, none)
    | 1 => (none, some (now + n * 16000000))
    | 2 => (none, some (now + n * 1600000000))
    | _ => (none, some (now + n * 16000000000))

/-- Is event `e` of an instance a host command (R338)? -/
def isCommand (i e : Nat) : Bool :=
  if i = stackInst then e == 3 || e == 4 else Nat.ble 8 e && Nat.ble e 13

/-- A command is decided: result posted, PEND cleared. -/
def State.cmdDone (s : State) (i result : Nat) : State :=
  let st := (s.inst i).st
  if i = stackInst then
    if s.regB (R.JG.JCMDSTA 1) 0 then
      (s.setReg (R.JG.JCMDSTA 1) (wd (st * 256 + result * 2))).irq 0x52 3
    else s
  else
    if s.regB R.CLS.CMDSTA 0 && s.regF R.CLS.CMDSTA 16 8 == i then
      let t := (s.setReg R.CLS.CMDSTA (wd (i * 65536 + st * 256 + result * 2))).irq 0x50 0
      t.when (result ≠ 0) fun u => u.bump R.CLS.REJCNT
    else s

/-- SRSYNC is due in the next command of a cell (R190). -/
def State.srsyncAt (s : State) (addr : Nat) : State :=
  { s with cells := NMap.put {} s.cells addr { NMap.get {} s.cells addr with srsync := true } }

/-- An instance takes an entry: its action, its next state, its timer (R319). -/
def State.takeEntry (s : State) (i : Nat) (w : Word) : State :=
  let s1 := s.jigAction i (w.fld 6 8)
  let j := s1.inst i
  let nx := w.fld 0 6
  if nx = j.st then s1
  else
    let l := limitOf s1.dt64 w
    let s2 := s1.setInst i { j with st := nx, tPass := l.1, tAt := l.2, passes := 0, entered := s1.dt64,
                                    ramp := false, k := 0, rampDone := false, chgRun := 0 }
    if i = stackInst then
      let s3 := s2.setReg (R.JG.SSTATE 1) (wd nx)
      s3.when (nx = 0 || nx = 8) fun t => t.rampOff
    else s2.when (nx = 1) fun t => t.srsyncAt i

/-- Takes the pending events of an instance in ascending code from `e`, `fuel` of them, until one is taken (R318). -/
def State.takeEvents (s : State) (i : Nat) : Nat → Nat → State
  | 0, _ => s
  | fuel + 1, e =>
    let j := s.inst i
    if !j.pend.testBit e then s.takeEvents i fuel (e + 1)
    else
      let w := entryOf s.mem (s.bankInUse (engOf i)) j.st e
      let s1 := s.setInst i { j with pend := j.pend - 2 ^ e }
      if w.fld 0 6 = 0x3F then
        let s2 := if isCommand i e then s1.cmdDone i 1 else s1.bump (R.JG.EVDCNT (1 + engOf i))
        s2.takeEvents i fuel (e + 1)
      else if s.guardHolds i (w.fld 14 3) (w.bit 17) then
        let s2 := if isCommand i e then s1.cmdDone i 0 else s1
        s2.takeEntry i w
      else
        let s2 := if isCommand i e then s1.cmdDone i 2 else s1.bump (R.JG.EVDCNT (1 + engOf i))
        s2.takeEvents i fuel (e + 1)

/-- The timer of an instance at a pass: TIMEOUT is raised at the first pass at or after it expires (R319). -/
def State.jigTimer (s : State) (i : Nat) (pass : Bool) : State :=
  let j := s.inst i
  let tp := match j.tPass with
    | some n => if pass then some (n - 1) else some n
    | none => none
  let due := tp == some 0 || j.tAt.any fun t => reached 64 t s.dt64
  if due then
    (s.setInst i { j.raise 7 with tPass := none, tAt := none }).bump (R.JG.TOCNT (1 + engOf i))
  else s.setInst i { j with tPass := tp }

/-! ### Outputs of JG0 (R326, R327, R331 to R333) -/

/-- The target phase of rank `r` of `n` members (R223). -/
def phaseTarget (r n aofs : Nat) : Nat :=
  if n = 0 then 0 else ((roundUp ((r * 65536 : Nat) : Int) n).toNat + aofs) % 65536

/-- The target phase of a member cell, from the membership JG0 has committed (R332). -/
def State.cellTarget (s : State) (addr : Nat) : Nat :=
  let ms := s.membersOf (s.armOf addr)
  phaseTarget ((ms.filter fun a => Nat.blt a addr).length) ms.length (s.regF (R.EDG.ACFG (s.armOf addr)) 16 16)

/-- Is output window `m` a cell's carrier-zero window (R332)? -/
def carrierZero (carp m theta : Nat) : Bool :=
  let x := (m % carp * 65536 + theta * carp) % (65536 * carp)
  x == 0 || Nat.blt (65536 * carp) (x + 65536)

/-- The mean voltage of an arm's members, mV, or VCREF of the arm (R331). -/
def State.armTarget (s : State) (arm : Nat) : Int :=
  let ms := s.membersOf arm
  if ms.isEmpty then ((s.sptF (49 + 16 * arm) 0 16 * 100 : Nat) : Int)
  else freeRound ((ms.map s.recV).sum : Nat) ms.length

/-- The DAB reference JG0 writes for a cell in CHARGE class, 50 mV (R331). -/
def State.chargeRef (s : State) (addr : Nat) : Nat :=
  let j := s.inst addr
  let ms := ((s.dt64 + 2 ^ 64 - j.chg) % 2 ^ 64) / 16000000
  let c := curveValue s.mem (s.curveAt 0 0) (Nat.min ms 65535)
  let v := (j.v0 : Int) * 32767 + (s.armTarget (s.armOf addr) - j.v0) * c
  (clampInt 0 65535 (freeRound v (32767 * 50))).toNat

/-- The step of a cell's outputs in one pass, by the class of its state (R326, R332, R333). -/
def State.cellOutputs (s : State) (addr : Nat) : State :=
  let j := s.inst addr
  let c := s.classOfCell addr
  let m := (s.regN R.TRG.PIDX + 2) % 65536
  let zero := carrierZero s.carp m (s.cellTarget addr)
  let kins := s.regF R.CLS.LCFG 0 8
  let j1 : JInst := match c with
    | 4 =>
      if !j.ramp then
        if zero && Nat.blt 0 j.passes then
          { j with ramp := true, k := 1, byp := false, w := (roundUp (32767 : Int) kins).toNat,
                   rampDone := decide (kins = 1) }
        else { j with byp := true, w := 0 }
      else if j.k < kins then
        { j with k := j.k + 1, w := (roundUp (((j.k + 1) * 32767 : Nat) : Int) kins).toNat,
                 rampDone := decide (j.k + 1 = kins) }
      else j
    | 5 => { j with byp := false, w := 0x7FFF }
    | 6 =>
      if j.passes = 0 then { j with byp := false }
      else if j.k < kins then
        { j with k := j.k + 1, w := (roundUp (((kins - (j.k + 1)) * 32767 : Nat) : Int) kins).toNat, byp := false }
      else if zero && !j.byp then { j with byp := true, rampDone := true }
      else j
    | 0 => { j with byp := false, w := 0 }
    | _ => { j with byp := true, w := 0 }
  let dab := match c with
    | 2 => s.chargeRef addr
    | 3 => 0xFFFF
    | 4 => 0xFFFF
    | 5 => 0xFFFF
    | 6 => 0xFFFF
    | _ => 0
  let valid := c ≠ 0
  let life := j1.st + c * 64 + b2n j1.byp * 1024 + b2n (decide (c = 7)) * 2048 + b2n (decide valid) * 4096 +
    b2n (memberClass c) * 8192
  let s1 := s.setInst addr { j1 with passes := satInc 16 j1.passes }
  ((s1.portWord (csmBase + 0x20400 + addr * 4) (wd j1.w)).portWord (csmBase + 0x20800 + addr * 4) (wd dab)).portWord
    (csmBase + 0x20C00 + addr * 4) (wd life)

/-- The lifecycle word of a cell (R327). -/
def State.lifeWord (s : State) (addr : Nat) : Word := s.mem.readWord (csmBase + 0x20C00 + addr * 4)

/-- Events JG0 finds itself at a pass: RAMP_DONE and CHARGED (R331 to R333). -/
def State.cellEvents (s : State) (addr : Nat) : State :=
  let j := s.inst addr
  let j1 := if j.rampDone then { j.raise 21 with rampDone := false } else j
  let c := s.classOfCell addr
  if c = 2 && s.plan.run then
    let t := ((s.dt64 + 2 ^ 64 - j.chg) % 2 ^ 64) / 16000000
    let d := ((s.recV addr : Nat) : Int) - s.armTarget (s.armOf addr)
    let band : Int := ((s.regF R.CLS.LCFG 16 8 * 500 : Nat) : Int)
    let inBand := !s.recStale addr && Nat.ble (curveLastX s.mem (s.curveAt 0 0)) t && decide (d ≤ band) && decide (-band ≤ d)
    let run := if inBand then j1.chgRun + 1 else 0
    s.setInst addr (if run = 8 then { j1.raise 20 with chgRun := run } else { j1 with chgRun := run })
  else s.setInst addr j1

/-- DEMAND for the arms that are short (R334). -/
def State.demandArm (s : State) (arm : Nat) : State :=
  let n := (s.membersOf arm).length
  let tgt := Nat.min (s.regF (R.CLS.NTGT arm) 0 6) 48
  let standby := s.cellsInClass arm 3
  let st := (s.inst stackInst).st
  let run := st == 4 || st == 5
  let pick := if st = 3 then standby.take (tgt - n)
    else if run && s.regB R.CLS.LCFG 8 && s.noRamp arm then standby.take 1 else []
  let s1 := if n < tgt then pick.foldl (fun t a => t.jigEvent a 22) s else s
  let was := NMap.get 0 s.jig.members arm
  let s2 := { s1 with jig := { s1.jig with members := NMap.put 0 s1.jig.members arm n } }
  s2.when (n < tgt && standby.isEmpty && n < was) fun t =>
    (t.fault Src.SPARE_OUT 0x50 (arm * 256) 0x1A).irq 0x50 2

/-- ACNT registers from the present instances (R346). -/
def State.countArm (s : State) (arm : Nat) : State :=
  s.setReg (R.CLS.ACNT arm) (wd ((s.membersOf arm).length + (s.cellsInState arm 5).length * 256 +
    (s.cellsInState arm 7).length * 65536))

/-- What a pass raises for a cell: its timer counts the pass, and its own events. -/
def State.cellRaise (s : State) (addr : Nat) : State := (s.jigTimer addr true).cellEvents addr

/-- The first steps of a cell in a pass: its timer, its own events, one transition. -/
def State.cellPass (s : State) (addr : Nat) : State := (s.cellRaise addr).takeEvents addr 32 0

/-- PASSLAST and PASSMAX of an engine (R347). -/
def State.passTime (s : State) (eng cycles : Nat) : State :=
  let s1 := s.setReg (R.JG.PASSLAST (1 + eng)) (wd cycles)
  s1.when (Nat.blt (s.regF (R.JG.PASSMAX (1 + eng)) 0 16) cycles) fun t =>
    t.setReg (R.JG.PASSMAX (1 + eng)) (wd cycles)

/-- An engine runs passes while it is enabled and not stopped (R65). -/
def State.jigRuns (s : State) (eng : Nat) : Bool :=
  s.ens (0x51 + eng) && s.enabled (0x51 + eng) && !s.regB (R.PCTL (0x51 + eng)) 2

/-- A command still pending for a cell whose instance starts anew is decided as having no entry in its state: DESIGN CHOICE
(log 161), since R336 leaves its event not pending. -/
def State.dropCommand (s : State) : State :=
  s.when (s.regB R.CLS.CMDSTA 0) fun t => t.cmdDone (t.regF R.CLS.CMDSTA 16 8) 1

/-- The time limit with which an instance's timer restarts as it is set to a state from outside its table: that of the first
entry that leads there, from its own state before another's; the spec names no entry: DESIGN CHOICE (log 181). -/
def State.stateLimit (s : State) (i st : Nat) : Option Nat × Option Nat :=
  let b := s.bankInUse (engOf i)
  let entries (u : Nat) : List Word := ((List.range 32).map (entryOf s.mem b u)).filter fun w => w.fld 0 6 == st
  match entries (s.inst i).st ++ ((List.range 64).filter fun u => u != st).flatMap entries with
  | w :: _ => limitOf s.dt64 w
  | [] => (none, none)

/-- A head that is not an ARMED standby sets every Jig instance that differs to the active's state, restarting its timer
and clearing its pending events (R363). -/
def State.jigFollow (s : State) : State :=
  if !s.paired || s.role = 4 || s.role = 0 || s.regB R.HPR.HSTA 6 || s.pair.jig.isEmpty then s
  else
    (stackInst :: s.mapCells).foldl (fun t i =>
      let st := byteAt t.pair.jig i % 64
      let j := t.inst i
      if j.st = st then t
      else
        let l := t.stateLimit i st
        let t1 := t.setInst i { j with st := st, pend := 0, tPass := l.1, tAt := l.2, passes := 0, entered := t.dt64 }
        t1.when (i = stackInst) fun u => u.setReg (R.JG.SSTATE 1) (wd st)) s

/-- JG0's pass over the instances of the arm map; `fit` cells can be written before the next TS1, the others are
deferred with their transitions, and are taken first in the next pass; their timers count this one (R317, R319, R320,
R564). -/
def State.cellsPass (s : State) (fit cycles : Nat) : State :=
  if !s.jigRuns 0 then s
  else
    let arms := List.range (Nat.min s.narm 6)
    let s0 := arms.foldl State.demandArm s.jigFollow
    let late (a : Nat) : Bool := s0.jig.deferred.contains a
    let cells := s0.mapCells.filter late ++ s0.mapCells.filter fun a => !late a
    let now := cells.take fit
    let s1 := now.foldl State.cellPass s0
    let s2 := now.foldl State.cellOutputs s1
    let s2l := (cells.drop fit).foldl State.cellRaise s2
    let s2d := { s2l with jig := { s2l.jig with deferred := cells.drop fit } }
    let s3 := (arms.foldl State.countArm s2d).passTime 0 cycles
    s3.when (Nat.blt fit cells.length) fun t => (t.bump R.CLS.DEFCNT).fault Src.JG_DEFER 0x51 0 0x1A

/-- JG0's pass of a period, which starts when JG1's has ended: once a period while a frame plan runs (R317). -/
def State.jg0Pass (s : State) (fit cycles : Nat) : State :=
  if s.jig.jg0Due then { s with jig := { s.jig with jg0Due := false } }.cellsPass fit cycles else s

/-- The stack status as the period's programs left it: PLL periods in TRACK, ride-through entry and exit as JG1 events,
and the STK page's events (R262, R269, R339). -/
def State.stackWatch (s : State) : State :=
  let w := s.stkStatus 0
  let i := s.stkStatus 6
  let old := s.jig.lastStk
  let rt := w.bit 3
  let s1 := { s with jig := { s.jig with trackRun := if w.fld 0 3 = 1 then s.jig.trackRun + 1 else 0,
                                         lastStk := (w.fld 0 4) + (i.fld 1 2) * 16 } }
  let s2 := s1.when (natFld old 0 3 ≠ w.fld 0 3) fun t => t.irq 0x71 0
  let s3 := s2.when (rt && !old.testBit 3) fun t => (t.jigEvent stackInst 5).irq 0x71 1
  let s4 := s3.when (!rt && old.testBit 3) fun t => (t.jigEvent stackInst 6).irq 0x71 2
  let s5 := s4.when (i.fld 1 2 ≠ 0 && natFld old 4 2 ≠ i.fld 1 2) fun t => t.irq 0x71 3
  let sat := (s.stkStatus 7).fld 0 8
  let s6 := s5.when (sat ≠ 0) fun t => (t.setReg R.STK.SATF (t.reg R.STK.SATF ||| wd sat)).irq 0x71 5
  s6.setF R.STK.STALEC 0 16 (Nat.min 0xFFFF (s6.regF R.STK.STALEC 0 16 + (s.stkStatus 8).fld 0 16))

/-- The events of the stack that JG1 finds itself at a pass (R339, R340). -/
def State.stackEvents (s : State) : State :=
  let arms := List.range (Nat.min s.narm 6)
  let tgt (a : Nat) := Nat.min (s.regF (R.CLS.NTGT a) 0 6) 48
  let ready := arms.all fun a => Nat.ble (tgt a) ((s.membersOf a).length + (s.cellsInClass a 3).length)
  let active := arms.all fun a => Nat.ble (tgt a) (s.cellsInState a 7).length
  let j := s.inst stackInst
  let inRide := j.st == 5
  let ms : Nat := ((s.dt64 + 2 ^ 64 - j.entered) % 2 ^ 64) / 16000000
  let expired := inRide && Nat.blt 1 (s.regF (R.JG.CVN 1 ) 0 8) &&
    decide (curveValue s.mem (s.curveAt 1 1) ((s.stkStatus 2).fld 0 16) ≤ ((ms : Nat) : Int))
  let s1 := if s.plan.run then
      let a := if ready then s.jigEvent stackInst 8 else s
      let b := if Nat.ble 100 a.jig.trackRun then a.jigEvent stackInst 9 else a
      if active then b.jigEvent stackInst 10 else b
    else s
  if expired then s1.jigEvent stackInst 2 else s1

/-- JG1's pass for the stack instance (R317, R318). -/
def State.jg1Pass (s : State) (cycles : Nat) : State :=
  if !s.jigRuns 1 then s
  else
    let s1 := ((s.jigFollow.stackEvents.jigTimer stackInst true).takeEvents stackInst 32 0).passTime 1 cycles
    let j := s1.inst stackInst
    s1.setInst stackInst { j with passes := satInc 16 j.passes }

/-- A pass of an engine with no frame plan running, at the next multiple of 10 µs of DT64 (R317). -/
def State.jigIdlePass (s : State) (eng cycles : Nat) : State :=
  if s.plan.run then s
  else
    let k := s.nextMultiple (NMap.get 0 s.jig.idleAt eng) 160000
    let s1 := s.reach (k * 160000)
    let s2 := { s1 with jig := { s1.jig with idleAt := NMap.put 0 s1.jig.idleAt eng (k + 1) } }
    if eng = 0 then s2.cellsPass 256 cycles else s2.jg1Pass cycles

/-- The timer of an instance that runs to an instant of ring time expires; the first pass at or after it raises TIMEOUT and
counts it, as does the pass at which a limit counted in periods ends (R319). -/
def State.jigTimeout (s : State) (i : Nat) : State :=
  let j := s.inst i
  match j.tPass, j.tAt with
  | _, none => s
  | some _, _ => s
  | none, some t => s.reach t

/-- JG0's instances at the start of every frame plan and when it leaves reset: RETIRED where RETMAP names the address,
ABSENT elsewhere, nothing pending (R336). -/
def State.jigRestart (s : State) : State :=
  let retired := (List.range 256).filter fun a => s.regB (R.CLS.RETMAP (a / 32)) (a % 32)
  let keep := NMap.get {} s.jig.inst stackInst
  ({ s with jig := { s.jig with
      jg0Due := false, inst := NMap.put {} (retired.map fun a => (a, ({ st := 11 } : JInst))) stackInst keep,
      svc := s.jig.svc.filter fun p => p.2 == .delay, members := [], deferred := [] } } : State).dropCommand

/-! ### Commands (R338) -/

/-- A host command for one cell: its event becomes pending, or it is answered at once. -/
def State.cellCommand (s : State) (addr code : Nat) : State :=
  if s.regB R.CLS.CMDSTA 0 then s.irq 0x50 3
  else
    let reject (result : Nat) : State :=
      ((s.setReg R.CLS.CMDSTA (wd (addr * 65536 + (s.inst addr).st * 256 + result * 2))).irq 0x50 0).bump R.CLS.REJCNT
    if code = 0 || 6 < code then reject 3
    else if !s.inMap addr then reject 4
    else (s.setReg R.CLS.CMDSTA (wd (addr * 65536 + 1))).jigEvent addr (7 + code)

/-- A host command for the stack: 1 START raises HSTART, 2 STOP raises HSTOP. -/
def State.stackCommand (s : State) (code : Nat) : State :=
  if s.regB (R.JG.JCMDSTA 1) 0 then s.irq 0x50 3
  else if code = 1 then (s.setReg (R.JG.JCMDSTA 1) (wd 1)).jigEvent stackInst 4
  else if code = 2 then (s.setReg (R.JG.JCMDSTA 1) (wd 1)).jigEvent stackInst 3
  else (s.setReg (R.JG.JCMDSTA 1) (wd ((s.inst stackInst).st * 256 + 6))).irq 0x52 3

/-! ### Banks (R324, R344) -/

/-- Is a state defined in a bank? -/
def stDef (m : Memory) (b st : Nat) : Bool := (descOf m b st).bit 7
/-- May a state be held without a time limit? -/
def stRest (m : Memory) (b st : Nat) : Bool := (descOf m b st).bit 4

/-- Is an action code one of its engine? -/
def actionOk (jg1 : Bool) (c : Nat) : Bool :=
  if jg1 then c == 0 || (Nat.ble 0x10 c && Nat.ble c 0x14) else Nat.ble c 6

/-- From a state, do TIMEOUT entries reach a REST state in at most `fuel` steps (R324 check 5)? -/
def timeoutReaches (m : Memory) (b : Nat) : Nat → Nat → Bool
  | 0, st => stRest m b st
  | fuel + 1, st => stRest m b st || timeoutReaches m b fuel ((entryOf m b st 7).fld 0 6)

/-- Check 6: a curve has 2 to 16 points, X strictly ascending. -/
def curveOk (m : Memory) (base : Nat) : Bool :=
  let n := (m.readWord base).fld 0 5
  Nat.ble 2 n && Nat.ble n 16 &&
    (List.range (n - 1)).all fun k => Nat.blt (curvePoint m base (k + 1)).1 (curvePoint m base (k + 2)).1

/-- The checks of R324 over a bank and its engine's curves. -/
def bankOk (m : Memory) (b cvb cvn : Nat) (jg1 : Bool) : Bool :=
  let sts := List.range 64
  let evs := List.range 32
  stDef m b 0 && stRest m b 0 &&
  sts.all (fun st => evs.all fun e =>
    let w := entryOf m b st e
    (w.fld 0 6 == 0x3F || stDef m b (w.fld 0 6)) && actionOk jg1 (w.fld 6 8) && Nat.ble (w.fld 14 3) 5) &&
  sts.all (fun st => Nat.ble ((descOf m b st).fld 0 4) 7) &&
  sts.all (fun st => !stDef m b st || stRest m b st ||
    (let t := entryOf m b st 7
     t.fld 0 6 ≠ 0x3F && t.fld 0 6 ≠ st && t.fld 14 3 == 0 && !t.bit 17 &&
     sts.all fun u => u == st || evs.all fun e =>
       let w := entryOf m b u e
       w.fld 0 6 ≠ st || w.fld 18 12 ≠ 0) && timeoutReaches m b 64 st) &&
  (List.range cvn).all fun i => curveOk m (cvb + 68 * i)

/-- A write of TBLD starts the check of a bank (R344). -/
def State.tbld (s : State) (eng bank : Nat) : State :=
  { s with jig := { s.jig with check := NMap.put none s.jig.check eng (some bank) } }.setB (R.JG.TBSTA (1 + eng)) 9 true

/-- A bank check ends: VALID or REFUSED is set for the bank (R344). -/
def State.bankDone (s : State) (eng : Nat) : State :=
  match NMap.get none s.jig.check eng with
  | none => s
  | some bank =>
    let ok := bankOk s.mem (s.bankAt eng bank) (s.curveAt eng 0) (s.regF (R.JG.CVN (1 + eng)) 0 8) (eng == 1)
    let k := R.JG.TBSTA (1 + eng)
    let s1 := { s with jig := { s.jig with check := NMap.put none s.jig.check eng none } }
    (((s1.setB k 9 false).setB k bank ok).setB k (4 + bank) (!ok)).irq (0x51 + eng) 0

/-- May a new bank come into use: VALID, and it defines every state an instance then holds (R344)? -/
def State.bankTakes (s : State) (eng bank : Nat) : Bool :=
  s.regB (R.JG.TBSTA (1 + eng)) bank &&
    (if eng = 1 then [stackInst] else s.mapCells).all fun i => stDef s.mem (s.bankAt eng bank) (s.inst i).st

/-- A host write into the bank that TBANK names sets DIRTY, which no rule clears before the next reset (log 180), and raises
JG_TABLE_DIRTY (R344). -/
def State.bankWritten (s : State) (addr : Nat) (master : Nat) : State :=
  [0, 1].foldl (fun t eng =>
    t.when (Nat.ble (t.bankInUse eng) addr && Nat.blt addr (t.bankInUse eng + 0x2100)) fun u =>
      ((u.setB (R.JG.TBSTA (1 + eng)) 8 true).irq (0x51 + eng) 2).fault Src.JG_TABLE_DIRTY (0x51 + eng) 0 master 2) s

/-- A write of RETCLR, accepted only while no frame plan runs, deletes a cell's retirement entry (R341). -/
def State.retclr (s : State) (addr : Nat) : State :=
  if s.plan.run then s
  else { s.setB (R.CLS.RETMAP (addr / 32)) (addr % 32) false with
         spare := { s.spare with cells := NMap.put none s.spare.cells addr none } }

end Sys2Proof.Machine
end

