-- ==== Sys2Proof/Machine/Edge.lean ====
section
/-!
DEFINITION. Sys2Proof/Machine/Edge.lean: the edge scheduler (R195 to R230): leg entries, validity, the clamp to the
committed P, interleaving, carries, pulse policies, bootstrap refresh, and the framing of one cell's slot.
Readings and choices (notes/assumptions): DEDUCED 46, 47, 48, 49, 50, 51, 52, 127, 163.
-/
namespace Sys2Proof.Machine

/-! ### Entries (R162, R163) -/

/-- A leg entry as its 96-bit field spells it, and its NE. -/
structure RawEntry where
  e : Entry
  ne : Nat
  deriving DecidableEq, Repr

/-- The entry spelt by a 96-bit little-endian field (R162). -/
def rawEntry (n : Nat) : RawEntry :=
  let ne := natFld n 83 3
  let e0 := natFld n 0 20
  let e1 := natFld n 20 20
  { e := { mode := natFld n 80 3, lv0 := n.testBit 86,
           x := [e0, e1, natFld n 40 20, natFld n 60 20].take ne,
           hp := e0, ph := e1 + natFld n 87 1 * 2 ^ 20 }, ne := ne }

/-- The level of a CARRIER wave from offset 0 (R199). -/
def waveLv0 (hp ph : Nat) : Bool := ph == 0 || Nat.blt hp ph

/-- The 96-bit field of an entry as sent: unused fields 0 (R162, R198, R199). -/
def entryBits (e : Entry) : Nat :=
  match e.mode with
  | 2 =>
    (e.x.getD 0 0) + (e.x.getD 1 0) * 2 ^ 20 + (e.x.getD 2 0) * 2 ^ 40 + (e.x.getD 3 0) * 2 ^ 60 +
      2 * 2 ^ 80 + e.x.length * 2 ^ 83 + b2n e.lv0 * 2 ^ 86
  | 3 => e.hp + (e.ph % 2 ^ 20) * 2 ^ 20 + 3 * 2 ^ 80 + b2n (waveLv0 e.hp e.ph) * 2 ^ 86 + (e.ph / 2 ^ 20) * 2 ^ 87
  | m => m * 2 ^ 80

def entryBytes (e : Entry) : List Byte := natLe 12 (entryBits e)

/-- The mode HOLD_OFF, every field 0. -/
def holdOff : Entry := {}

/-! ### The parameters of a leg -/

/-- What the scheduler needs to know of a leg for one framing. -/
structure LegPar where
  /-- W_min = TD + TMIN (R207). -/
  w : Nat
  /-- 0 SWALLOW, 1 EXTEND, 2 CARRY (R210). -/
  policy : Nat
  bootEn : Bool
  bs : Bool
  bootHold : Nat
  bootWidth : Nat
  bootOfs : Nat
  cmax : Nat
  chop : Bool
  /-- Interleave phase, Q0.16 turns; 0 for none. -/
  theta : Nat
  /-- The committed P of the period governed, and P_chk of R198. -/
  p : Nat
  pChk : Nat
  /-- The image's P differs from the committed P (R221). -/
  clamp : Bool
  /-- A full-state command (R191). -/
  full : Bool
  deriving DecidableEq, Repr

/-- What a framing counts (R229, R230). -/
structure Tally where
  sw : Nat := 0
  ex : Nat := 0
  br : Nat := 0
  csat : Nat := 0
  serr : Nat := 0
  mmc : Nat := 0
  /-- First cell and channel of an invalid entry and of a policy carry limited, for the records' ADDR (R451). -/
  serrAt : Option Nat := none
  csatAt : Option Nat := none
  mmcAt : Option Nat := none
  deriving DecidableEq, Repr

def Tally.add (a b : Tally) : Tally :=
  { sw := a.sw + b.sw, ex := a.ex + b.ex, br := a.br + b.br, csat := a.csat + b.csat, serr := a.serr + b.serr,
    mmc := a.mmc + b.mmc, serrAt := a.serrAt <|> b.serrAt, csatAt := a.csatAt <|> b.csatAt, mmcAt := a.mmcAt <|> b.mmcAt }

/-! ### Steps 1 to 4 (R201, R205, R221, R226) -/

/-- Step 1: a FREEZE resolves into the previous window; HOLD_OFF where there was none (R201). -/
def resolveFreeze (st : LegSt) (p : Nat) : Entry :=
  match st.prev with
  | none => holdOff
  | some e =>
    match e.mode with
    | 2 => { e with x := e.x.filter fun t => Nat.blt t p }
    | 3 => { e with ph := (e.ph + 2 * e.hp * (st.prevP / (2 * e.hp) + 1) - st.prevP) % (2 * e.hp) }
    | _ => e

/-- Offsets strictly ascending from above `lo`, at most `hi`. -/
def ascending (hi : Nat) : Nat → List Nat → Bool
  | _, [] => true
  | lo, t :: ts => Nat.blt lo t && Nat.ble t hi && ascending hi t ts

/-- Step 2: is an entry valid (R197 to R199, R205)? -/
def entryValid (r : RawEntry) (g : LegPar) : Bool :=
  match r.e.mode with
  | 0 => true
  | 1 => !g.chop
  | 2 => Nat.ble r.ne 4 && ascending (g.pChk - 1) 0 r.e.x && (r.e.x.isEmpty || Nat.blt 0 g.pChk)
  | 3 => !g.chop && Nat.ble 80000 r.e.hp && Nat.blt r.e.ph (2 * r.e.hp) && Nat.ble (2 * g.w) r.e.hp
  | 4 => true
  | _ => false

/-- Step 3: the clamp of an EDGE entry to the committed P (R221). -/
def clampEntry (e : Entry) (g : LegPar) : Entry :=
  if e.mode = 2 then
    let x := e.x.filter fun t => Nat.blt t g.p
    if e.lv0 && x.isEmpty && !g.chop then { mode := 1 } else { e with x := x }
  else e

/-- Step 4: the interleave phase of a CARRIER entry (R226). -/
def interleave (theta hp ph : Nat) : Nat :=
  if hp = 0 then ph else (ph + (roundUp ((theta * 2 * hp : Nat) : Int) 65536).toNat) % (2 * hp)

/-! ### Carries and pulse policies (R209 to R213) -/

/-- Time at level 1 of a window of length `p` that starts at `lv` at offset `from_` (R209). -/
def highTime (p : Nat) : Bool → Nat → List Nat → Int
  | lv, at_, [] => if lv then (p : Int) - at_ else 0
  | lv, at_, t :: ts => (if lv then (t : Int) - at_ else 0) + highTime p (!lv) t ts

/-- A carry applied to the last transition of an EDGE entry (R212): the entry and the part not applied. -/
def applyCarry (g : LegPar) (e : Entry) (c : Int) : Entry × Int :=
  match e.x.reverse with
  | [] => (e, c)
  | t :: before =>
    let lo : Int := match before with
      | [] => g.w
      | u :: _ => (u : Int) + g.w
    let hi : Int := (g.p : Int) - g.w
    if (t : Int) < lo || hi < (t : Int) then (e, c)
    else
      -- the level before the last transition
      let falls := if before.length % 2 = 0 then e.lv0 else !e.lv0
      let want : Int := if falls then t - c else t + c
      let new := clampInt lo hi want
      let dH : Int := if falls then new - t else t - new
      ({ e with x := (new.toNat :: before).reverse }, c + dH)

/-- May an interval of width `w` be extended (R210, R211)? -/
def extends? (policy w2 : Nat) (w : Int) : Bool :=
  if policy = 0 then false else if policy = 1 then true else decide ((w2 : Int) ≤ 2 * w)

/-- The head and inner intervals of the pass of R211: `done` holds the kept points, newest first, down to offset 0. -/
def passInner (g : LegPar) : List Nat → Bool → List Nat → Nat → Nat → Bool × List Nat × Nat × Nat
  | done, lv, [], sw, ex => (lv, done, sw, ex)
  | done, lv, y :: ys, sw, ex =>
    let prev := done.headD 0
    let w : Int := (y : Int) - prev
    if (g.w : Int) ≤ w then passInner g (y :: done) lv ys sw ex
    else if extends? g.policy g.w w then passInner g ((prev + g.w) :: done) lv ys sw (ex + 1)
    else match done with
      | _ :: d :: ds => passInner g (d :: ds) lv ys (sw + 2) ex
      | _ => passInner g done (!lv) ys (sw + 1) ex

/-- The tail interval of the pass of R211. -/
def passTail (g : LegPar) : List Nat → Nat → Nat → List Nat × Nat × Nat
  | [], sw, ex => ([], sw, ex)
  | [z], sw, ex => ([z], sw, ex)
  | t :: u :: rest, sw, ex =>
    if (t : Int) ≤ (g.p : Int) - g.w then (t :: u :: rest, sw, ex)
    else if extends? g.policy g.w ((g.p : Int) - t) && decide ((u : Int) + g.w ≤ (g.p : Int) - g.w) then
      ((g.p - g.w) :: u :: rest, sw, ex + 1)
    else passTail g (u :: rest) (sw + 1) ex

/-- Step 6 on an EDGE entry: the checked entry, the volt-second error, transitions removed and moved (R211). -/
def pulsePass (g : LegPar) (e : Entry) : Entry × Int × Nat × Nat :=
  let hReq := highTime g.p e.lv0 0 e.x
  let a := passInner g [0] e.lv0 e.x 0 0
  let b := passTail g a.2.1 a.2.2.1 a.2.2.2
  let x := b.1.reverse.drop 1
  let err := highTime g.p a.1 0 x - hReq
  let out : Entry := if a.1 && x.isEmpty && !g.chop then { mode := 1 } else { mode := 2, lv0 := a.1, x := x }
  (out, err, b.2.1, b.2.2)

/-- A carry held within ±CMAX: the value and whether a part was discarded (R213). -/
def limitCarry (g : LegPar) (c : Int) : Int × Bool :=
  let d := clampInt (-(g.cmax : Int)) g.cmax c
  (d, decide (d ≠ c))

/-- Does an entry hold level 1 throughout (R215)? -/
def allHigh (e : Entry) : Bool := e.mode == 1 || (e.mode == 2 && e.lv0 && e.x.isEmpty)

/-- Does an entry hold level 0 in a part of its window (R215)? -/
def holdsLow (e : Entry) : Bool := e.mode == 2 && !(e.lv0 && e.x.isEmpty)

/-- The refresh entry (R216) and its width. -/
def refreshEntry (g : LegPar) : Entry × Nat :=
  let wb := Nat.min (Nat.max g.bootWidth g.w) (g.p - 2 * g.w)
  let o := clampNat g.w (g.p - g.w - wb) g.bootOfs
  ({ mode := 2, lv0 := true, x := [o, o + wb] }, wb)

/-- Level at the end of a window, and is the leg off (R230 LSTA)? -/
def endState (p : Nat) (e : Entry) : Bool × Bool :=
  match e.mode with
  | 1 => (true, false)
  | 2 => (if e.x.length % 2 = 0 then e.lv0 else !e.lv0, false)
  | 3 => (decide ((p - 1 + 2 * e.hp - e.ph % (2 * e.hp)) % (2 * e.hp) < e.hp), false)
  | _ => (false, true)

/-- Step 8: the leg's end state, recorded with the window as framed. -/
def recordLeg (st : LegSt) (p : Nat) (e : Entry) (modeSent : Nat) : LegSt :=
  let q := endState p e
  { st with endlvl := q.1, off := q.2, mode := modeSent, prev := some e, prevP := p }

/-- A leg recorded off: slots with VALID = 0 or SAFE = 1, L0 and L1 with BYP = 1, HOLD_OFF (R202, R214). -/
def legOff (st : LegSt) (p : Nat) : LegSt :=
  { recordLeg st p holdOff 0 with carry := 0, bcarry := 0 }

/-- An entry as the scheduler's own raw form, for the checks of step 2 on an entry that step 1 resolved (R201, R204). -/
def Entry.raw (e : Entry) : RawEntry := { e := e, ne := e.x.length }

/-- Steps 1 to 8 for one leg entry: the new leg state, the entry sent (FREEZE only where the repeated entry passes every check
unchanged and the command is not full-state), and the counts (R204). The repeated entry is checked too: where it fails step 2,
substituting FREEZE gives that entry again, so it is counted and sent in explicit mode: DEDUCED (log 49). -/
def schedule (g : LegPar) (st0 : LegSt) (raw : RawEntry) : LegSt × Entry × Tally :=
  let st : LegSt := if g.full then { st0 with carry := 0, bcarry := 0 } else st0
  let ok := entryValid raw g
  let frz := raw.e.mode = 4 || (!ok && st.prev.isSome)
  let e1 := if frz then resolveFreeze st g.p else if ok then raw.e else holdOff
  let okR := !frz || entryValid e1.raw g
  let serr := if ok && okR then 0 else 1
  let e3 := if g.clamp then clampEntry e1 g else e1
  let e4 := if e3.mode = 3 && !frz then { e3 with ph := interleave g.theta e3.hp e3.ph } else e3
  let isEdge := e4.mode == 2
  -- step 5
  let useC := isEdge && !frz && !e4.x.isEmpty
  let b := if useC then applyCarry g e4 st.bcarry else (e4, st.bcarry)
  let c := if useC && g.policy = 2 then applyCarry g b.1 st.carry else (b.1, st.carry)
  -- step 6
  let r := if isEdge then pulsePass g c.1 else (c.1, 0, 0, 0)
  -- step 7: a refresh due applies neither carry
  let due := g.bs && g.bootEn && allHigh r.1 && Nat.ble g.bootHold st.bcnt
  let r2 := if due && isEdge then pulsePass g e4 else r
  let e7 := if due then (refreshEntry g).1 else r2.1
  let bc0 : Int := if due then st.bcarry - (refreshEntry g).2 else b.2
  let cc0 : Int := if due then st.carry else c.2
  let cc1 : Int := if isEdge && !frz && g.policy = 2 then cc0 + r2.2.1 else cc0
  let cl := limitCarry g cc1
  let bl := limitCarry g bc0
  let bcnt := if !(g.bs && g.bootEn) then st.bcnt
    else if due then 0
    else if allHigh r2.1 then Nat.min 255 (st.bcnt + 1)
    else if holdsLow r2.1 then 0 else st.bcnt
  let clear := g.full || e7.mode = 0
  let carry := if clear || g.policy ≠ 2 then 0 else cl.1
  let bcarry := if clear then 0 else bl.1
  let asFreeze := frz && okR && !g.full && decide (e7 = e1)
  let st' := { recordLeg st g.p e7 (if asFreeze then 4 else e7.mode) with carry := carry, bcarry := bcarry, bcnt := bcnt }
  (st', if asFreeze then { mode := 4 } else e7,
   { sw := r2.2.2.1, ex := r2.2.2.2, br := b2n due, csat := b2n (cl.2 && !clear && g.policy = 2) + b2n (bl.2 && !clear),
     serr := serr, mmc := b2n (g.clamp && e1.mode == 2),
     csatAt := if cl.2 && !clear && g.policy = 2 then some 0 else none, serrAt := if ok && okR then none else some 0 })

/-! ### DAB groups (R163, R200) -/

/-- A DAB group entry: DMODE, HP, PHP, DPS. -/
structure Group where
  dmode : Nat
  hp : Nat
  php : Nat
  dps : Int
  deriving DecidableEq, Repr

def rawGroup (n : Nat) : Group :=
  { dmode := natFld n 62 2, hp := natFld n 0 20, php := natFld n 20 21, dps := signedOf 21 (natFld n 41 21) }

def groupBytes (d : Group) : List Byte :=
  natLe 8 (if d.dmode = 1 then d.hp + d.php * 2 ^ 20 + bitsOfInt 21 d.dps * 2 ^ 41 + 2 ^ 62 else d.dmode * 2 ^ 62)

/-- Is a group entry valid (R199, R200, R205)? `w` is the largest W_min of the four legs. -/
def groupValid (d : Group) (w : Nat) : Bool :=
  match d.dmode with
  | 1 => Nat.ble 80000 d.hp && Nat.blt d.php (2 * d.hp) && decide (-(d.hp : Int) < d.dps) && decide (d.dps < d.hp) &&
      Nat.ble (2 * w) d.hp
  | 3 => false
  | _ => true

/-- The four legs of a group as entries L2 to L5 (R200). -/
def groupLegs (d : Group) : List Entry :=
  if d.dmode = 1 then
    let m := 2 * d.hp
    let s := bitsOfMod m (d.php + d.dps)
    [{ mode := 3, hp := d.hp, ph := d.php }, { mode := 3, hp := d.hp, ph := (d.php + d.hp) % m },
     { mode := 3, hp := d.hp, ph := s }, { mode := 3, hp := d.hp, ph := (s + d.hp) % m }]
  else [holdOff, holdOff, holdOff, holdOff]
where
  /-- An integer modulo `m`, as a natural number. -/
  bitsOfMod (m : Nat) (z : Int) : Nat := (z % (m : Int)).toNat

/-- A group resolved from FREEZE (R201). -/
def resolveGroup (g : Option GroupSt) : Group :=
  match g with
  | some q => if q.carrier then
      { dmode := 1, hp := q.hp, php := (q.php + 2 * q.hp * (q.prevP / (2 * q.hp) + 1) - q.prevP) % (2 * q.hp), dps := q.dps }
    else { dmode := 0, hp := 0, php := 0, dps := 0 }
  | none => { dmode := 0, hp := 0, php := 0, dps := 0 }

/-- The steps of R204 for a DAB group: new group state, group sent, group as executed, invalid. -/
def scheduleGroup (theta p w : Nat) (full : Bool) (st : Option GroupSt) (d : Group) :
    Option GroupSt × Group × Group × Bool :=
  let ok := groupValid d w
  let frz := d.dmode = 2 || !ok
  let e := if frz then resolveGroup st
    else if d.dmode = 1 then { d with php := interleave theta d.hp d.php } else d
  let okR := !frz || groupValid e w
  let sent := if frz && okR && !full then { dmode := 2, hp := 0, php := 0, dps := 0 } else e
  (some { carrier := e.dmode == 1, hp := e.hp, php := e.php, dps := e.dps, prevP := p }, sent, e, !(ok && okR))

/-! ### One cell's slot (R165, R202, R204, R206) -/

/-- Word `i` of a cell's LPT row (R206). -/
def State.lpt (s : State) (addr i : Nat) : Word :=
  s.mem.readWord (tblBase + s.regN R.EDG.LPTB + addr * 64 + 4 * i)

/-- W_min of a channel; TD is 0 for the chopper. -/
def State.wmin (s : State) (addr ch : Nat) : Nat :=
  let w := s.lpt addr ch
  (if ch = 6 then 0 else Nat.min (w.fld 0 16) 64000) + Nat.min (w.fld 16 14) 16000

/-- The state of a leg. -/
def State.leg (s : State) (k : Nat) : LegSt := NMap.get {} s.edge.legs k

def State.setLeg (s : State) (k : Nat) (l : LegSt) : State :=
  { s with edge := { s.edge with legs := NMap.put {} s.edge.legs k l } }

/-- CSM address of a cell's slot image for a period (R165). -/
def imageAt (m addr : Nat) : Nat := csmBase + 0x10000 + (m % 2) * 0x8000 + addr * 0x80

/-- The committed P of the period that a framing governs (R48, R49). -/
def State.perNext (s : State) : Nat := s.regAccF R.TRG.PER 0 20

/-- The scheduler's parameters of a cell's channel. -/
def State.legPar (s : State) (addr ch imgP : Nat) (full : Bool) : LegPar :=
  let a := s.armOf addr
  let p := s.perNext
  let ilv := (s.regAcc (R.EDG.ACFG a)).bit 3
  { w := s.wmin addr ch, policy := s.regAccF (R.EDG.ACFG a) 0 2, bootEn := (s.regAcc (R.EDG.ACFG a)).bit 2,
    bs := Nat.blt ch 6 && (s.lpt addr 7).bit ch, bootHold := s.regAccF (R.EDG.ABOOT a) 0 8,
    bootWidth := s.regAccF (R.EDG.ABOOT a) 16 16, bootOfs := s.regAccF (R.EDG.ABOFS a) 0 20,
    cmax := s.regAccF (R.EDG.ACMAX a) 0 20, chop := ch == 6,
    theta := if ilv then (NMap.get {} s.phases addr).theta else 0, p := p,
    pChk := if imgP = 0 then p else imgP, clamp := decide (imgP ≠ 0) && decide (imgP ≠ p), full := full }

/-- Replaces the place in a tally by a cell's address and channel. -/
def Tally.here (t : Tally) (addr ch : Nat) : Tally :=
  { t with serrAt := t.serrAt.map fun _ => addr + ch * 256, csatAt := t.csatAt.map fun _ => addr + ch * 256 }

/-- One leg entry of a cell's slot: state, bytes sent, tally. `off`: sent as HOLD_OFF whatever the image holds. -/
def State.frameLeg (s : State) (addr ch imgP : Nat) (full off frz : Bool) (n : Nat) : State × List Byte × Tally :=
  let k := addr * 8 + ch
  if off then (s.setLeg k (legOff (s.leg k) s.perNext), entryBytes holdOff, {})
  else
    let raw := if frz then { e := { mode := 4 }, ne := 0 } else rawEntry n
    let r := schedule (s.legPar addr ch imgP full) (s.leg k) raw
    (s.setLeg k r.1, entryBytes r.2.1, r.2.2.here addr ch)

/-- The legs of a cell all recorded off, and its group (R202). -/
def State.cellOff (s : State) (addr : Nat) : State :=
  let legs := (List.range 7).foldl (fun l ch => NMap.put {} l (addr * 8 + ch)
    (legOff (NMap.get {} l (addr * 8 + ch)) s.perNext)) s.edge.legs
  let off : GroupSt := { carrier := false, hp := 0, php := 0, dps := 0, prevP := s.perNext }
  { s with edge := { s.edge with legs := legs, groups := NMap.put none s.edge.groups addr (some off) } }

/-- The DAB group of a cell's slot. -/
def State.frameGroup (s : State) (addr : Nat) (full frz : Bool) (n : Nat) : State × List Byte × Tally :=
  let a := s.armOf addr
  let theta := if (s.regAcc (R.EDG.ACFG a)).bit 3 then (NMap.get {} s.phases addr).theta else 0
  let w := Nat.max (Nat.max (s.wmin addr 2) (s.wmin addr 3)) (Nat.max (s.wmin addr 4) (s.wmin addr 5))
  let d : Group := if frz then { dmode := 2, hp := 0, php := 0, dps := 0 } else rawGroup n
  let r := scheduleGroup theta s.perNext w full (NMap.get none s.edge.groups addr) d
  let modeSent := if r.2.1.dmode = 2 then 4 else if r.2.1.dmode = 1 then 3 else 0
  let legs := ((groupLegs r.2.2.1).zipIdx).foldl (fun l q =>
    let st := NMap.get {} l (addr * 8 + 2 + q.2)
    let st1 := if q.1.mode = 0 then { legOff st s.perNext with mode := modeSent } else recordLeg st s.perNext q.1 modeSent
    let st2 := if s.regAccF (R.EDG.ACFG a) 0 2 = 2 then st1 else { st1 with carry := 0 }
    NMap.put {} l (addr * 8 + 2 + q.2) (if full then { st2 with carry := 0, bcarry := 0 } else st2)) s.edge.legs
  ({ s with edge := { s.edge with legs := legs, groups := NMap.put none s.edge.groups addr r.1 } }, groupBytes r.2.1,
   { serr := b2n r.2.2.2, serrAt := if r.2.2.2 then some (addr + 2 * 256) else none })

/-- The header of a slot (R161). -/
def slotHeader (addr per vpred : Nat) (valid byp srsync safe : Bool) : List Byte :=
  [BitVec.ofNat 8 addr, BitVec.ofNat 8 (b2n valid + b2n byp * 2 + b2n srsync * 4 + b2n safe * 8)] ++
    natLe 3 per ++ [0] ++ natLe 2 vpred

/-- `n` zero bytes. -/
def zeros (n : Nat) : List Byte := List.replicate n 0

/-- OSETj of a Plane engine. -/
def osetKey (n j : Nat) : Nat := if j < 4 then R.PE.OSETlo (0x60 + n) j else R.PE.OSEThi (0x60 + n) (j - 4)

/-- Is the cell in the output set of an engine that is DISABLED, HALTED or RETIRED, or parked under SSTOP (R280)? -/
def State.engInvalid (s : State) (addr : Nat) : Bool :=
  (List.range 8).any fun n =>
    let st := s.regF (R.PE.ESTA (0x60 + n)) 0 3
    (st == 0 || st == 4 || st == 5 || (st == 1 && s.regB (R.PCTL (0x60 + n)) 2)) && s.regB (osetKey n (addr / 32)) (addr % 32)

/-- The slot of one cell for the period governed `m`: the new state, the slot as sent and the counts (R161, R165,
R191, R202, R327, R456). -/
def State.frameCell (s : State) (addr m cslot : Nat) (resync : Bool) : State × List Byte × Tally :=
  let life := s.lifeWord addr
  let c := NMap.get {} s.cells addr
  let p := s.perNext
  let img := imageAt m addr
  let stopped := !s.enabled 0x70 || s.regB (R.PCTL 0x70) 2
  let valid := life.bit 12 && s.inMap addr && !stopped && !s.engInvalid addr
  if !valid then
    let slot := slotHeader addr p 0xFFFF false false false false ++ zeros (cslot - 8)
    let s1 := s.cellOff addr
    ({ s1 with cells := NMap.put {} s1.cells addr { c with vpred := 0xFFFF, sent := slot, srsync := c.srsync } },
     slot, {})
  else
    let byp := life.bit 10 || (s.mem.read (img + 1)).toNat.testBit 1
    let safe := life.bit 11 || s.allSafe
    let sr := c.srsync
    let full := resync || sr
    let vpred := if full then 0xFFFF else s.mem.readLE (img + 6) 2
    let imgP := s.mem.readLE (img + 2) 3 % 2 ^ 20
    let head := slotHeader addr p vpred true byp sr safe
    let dabg := s.groupRing (addr / 8) cslot
    let chop := cslot == 52 || cslot == 92
    let frz := s.edge.frzCells.testBit addr
    let done (t : State) (slot : List Byte) (y : Tally) : State × List Byte × Tally :=
      ({ t with cells := NMap.put {} t.cells addr { c with vpred := vpred, sent := slot, srsync := sr && !s.cmdGoes (addr / 8) } }, slot,
       { y with mmc := if y.mmc = 0 then 0 else 1, mmcAt := if y.mmc = 0 then none else some addr })
    if safe then done (s.cellOff addr) (head ++ zeros (cslot - 8)) {}
    else
      let a := s.frameLeg addr 0 imgP full byp frz (s.mem.readLE (img + 8) 12)
      let b := a.1.frameLeg addr 1 imgP full byp frz (s.mem.readLE (img + 20) 12)
      let d : State × List Byte × Tally :=
        if dabg then b.1.frameGroup addr full frz (s.mem.readLE (img + 32) 8)
        else [2, 3, 4, 5].foldl (fun q ch =>
          let r := q.1.frameLeg addr ch imgP full false frz (s.mem.readLE (img + 8 + 12 * ch) 12)
          (r.1, q.2.1 ++ r.2.1, q.2.2.add r.2.2)) (b.1, [], {})
      let e : State × List Byte × Tally :=
        if chop then d.1.frameLeg addr 6 imgP full (!(s.lpt addr 7).bit 8) frz (s.mem.readLE (img + (if dabg then 40 else 80)) 12)
        else (d.1, [], {})
      done e.1 (head ++ a.2.1 ++ b.2.1 ++ d.2.1 ++ e.2.1) (((a.2.2.add b.2.2).add d.2.2).add e.2.2)

/-- A 16-bit counter advanced by `n`, saturating. -/
def State.bumpBy (s : State) (k n : Nat) : State :=
  if n = 0 then s else s.setF k 0 16 (Nat.min 0xFFFF (s.regF k 0 16 + n))

/-- What a framing counted goes to the EDG page, and its sources are raised at most once (R222, R229, R230). -/
def State.edgeTally (s : State) (t : Tally) (m : Nat) : State :=
  let s1 := (((((s.bumpBy R.EDG.SWCNT t.sw).bumpBy R.EDG.EXCNT t.ex).bumpBy R.EDG.BRCNT t.br).bumpBy R.EDG.CSATCNT
    t.csat).bumpBy R.EDG.SERRCNT t.serr).bumpBy R.EDG.MMCCNT t.mmc
  let s2 := match t.serrAt with
    | some a => ((s1.setB R.EDG.ESTA 1 true).irq 0x70 1).fault Src.SCHED_ERR 0x70 a 0x29
    | none => s1
  let s3 := match t.csatAt with
    | some a => ((s2.setB R.EDG.ESTA 2 true).irq 0x70 2).fault Src.CARRY_SAT 0x70 a 0x29
    | none => s2
  match t.mmcAt with
  | some a => (((s3.setB R.EDG.ESTA 0 true).setF R.EDG.ESTA 16 16 m).irq 0x70 0).fault Src.MISMATCH_COMMIT 0x70 a 0x29
  | none => s3

/-! ### Phases (R223 to R225) -/

/-- The phases of an arm for the next period: written at t_TC; a change of the members, and with it of their count and ranks,
or of AOFS starts or restarts a move (R224, R225). -/
def State.phaseArm (s : State) (arm : Nat) : State :=
  let ms := s.membersOf arm
  let n := ms.length
  let aofs := s.regF (R.EDG.ACFG arm) 16 16
  let tgt (a : Nat) := phaseTarget ((ms.filter fun b => Nat.blt b a).length) n aofs
  let ap := NMap.get {} s.armPh arm
  let cellsA := s.mapCells.filter fun a => s.armOf a == arm
  let old (a : Nat) := NMap.get {} s.phases a
  let change := !ms.isEmpty && (ap.members ≠ ms || ap.aofs ≠ aofs)
  let k := if change then 1 else if ap.k = 0 || ms.isEmpty then 0 else ap.k + 1
  let ended := k = 16
  let step (a : Nat) : Phase :=
    let o := old a
    let t := tgt a
    if !ms.contains a then {}
    else if !o.member then { theta := t, theta0 := t, target := t, member := true }
    else if k = 0 then { o with target := t }
    else
      let th0 := if change then o.theta else o.theta0
      let d : Int := (((t : Int) - th0 + 32768) % 65536) - 32768
      { theta := (((th0 : Int) + roundAway (d * k) 16) % 65536).toNat, theta0 := th0, target := t, member := true }
  let ph := cellsA.foldl (fun q a => NMap.put {} q a (step a)) s.phases
  let mem := cellsA.foldl (fun m a => m.writeWord (csmBase + 0x20000 + a * 4)
    (wd ((step a).theta + (step a).target * 65536))) s.mem
  let k' := if ended then 0 else k
  let left := if k' = 0 then 0 else 16 - k'
  let s1 := { cellsA.foldl (fun t a => t.csmClaim (csmBase + 0x20000 + a * 4) 4) s with
                     phases := ph, mem := mem, armPh := NMap.put {} s.armPh arm { k := k', members := ms, aofs := aofs } }
  let s2 := (s1.setReg (R.EDG.ANACT arm) (wd (n + b2n (k' ≠ 0) * 256 + left * 65536))).setB (R.PSTA 0x70) (16 + arm)
    (k' ≠ 0)
  s2.when ended fun t => t.irq 0x70 4

/-- Is a cell not yet RANGED (R173)? -/
def State.notRanged (s : State) (addr : Nat) : Bool := (s.inst addr).st == 0 || (s.inst addr).st == 1

/-- The bootstrap undervoltage check of an arm at t_TC (R218). The slot of a cell not yet RANGED is left out, as R173 keeps
its content from every decision: DEDUCED (log 163). -/
def State.bootUv (s : State) (arm : Nat) : State :=
  let cellsA := s.mapCells.filter fun a => s.armOf a == arm && (NMap.get {} s.cells a).copy.isSome && !s.notRanged a
  let buv (a : Nat) : Nat := match (NMap.get {} s.cells a).copy with
    | some c => byteAt c.bytes 15 % 64
    | none => 0
  let en := s.regB (R.EDG.ACFG arm) 2
  if en then s.bumpBy R.EDG.BUVCNT ((cellsA.map fun a => ((List.range 6).filter fun j => (buv a).testBit j).length).sum)
  else
    match cellsA.find? fun a => (buv a &&& (s.lpt a 7).fld 0 6) ≠ 0 with
    | some a =>
      let ch := ((List.range 6).find? fun j => (buv a).testBit j && (s.lpt a 7).bit j).getD 0
      ((s.setB R.EDG.ESTA 3 true).irq 0x70 3).fault (Src.BOOT_UV_A0 + arm) 0x70 (a + ch * 256) 0x28
    | none => s

/-! ### CVAL, BCVAL, LSTA (R230) -/

/-- LSTA of a leg. -/
def lstaOf (l : LegSt) : Word := wd (l.mode + b2n l.endlvl * 8 + b2n l.off * 16 + Nat.min 255 l.bcnt * 32)

/-- The leg that CSEL names; none for channel 7. -/
def State.cselLeg (s : State) : Option LegSt :=
  let w := s.reg R.EDG.CSEL
  if w.fld 8 3 = 7 then none else some (s.leg (w.fld 0 8 * 8 + w.fld 8 3))

/-- CVAL of the selected channel: 0 while the arm's POLICY is not CARRY. -/
def State.cval (s : State) : Word :=
  match s.cselLeg with
  | some l => if s.regF (R.EDG.ACFG (s.armOf (s.regF R.EDG.CSEL 0 8))) 0 2 = 2 then wdInt l.carry else 0
  | none => 0

def State.bcval (s : State) : Word := match s.cselLeg with
  | some l => wdInt l.bcarry
  | none => 0

def State.lsta (s : State) : Word := match s.cselLeg with
  | some l => lstaOf l
  | none => 0

/-- A read of CVAL latches BCVAL and LSTA of the same channel and framing. -/
def State.cvalRead (s : State) : State :=
  { s with edge := { s.edge with latB := some s.bcval, latL := some s.lsta } }

/-- A read of BCVAL or LSTA takes what a CVAL read has latched, once, else the state as the last framing left it. -/
def State.bcvalRead (s : State) : State × Word :=
  ({ s with edge := { s.edge with latB := none } }, s.edge.latB.getD s.bcval)

def State.lstaRead (s : State) : State × Word :=
  ({ s with edge := { s.edge with latL := none } }, s.edge.latL.getD s.lsta)

/-- A CSEL write takes effect at once: nothing latched stands. -/
def State.cselWritten (s : State) : State := { s with edge := { s.edge with latB := none, latL := none } }

/-- A policy other than CARRY has been committed: the policy carries of the legs concerned are cleared (R214). -/
def State.carryClear (s : State) (p : Nat → Bool) : State :=
  { s with edge := { s.edge with legs := s.edge.legs.filterMap fun q =>
      let l := if p q.1 then { q.2 with carry := 0 } else q.2
      if l = {} then none else some (q.1, l) } }

/-- What a register of the LBR and EDG pages does as a committed value takes effect (R214). -/
def State.policyApplied (s : State) (k : Nat) : State :=
  let arms := ((List.range 6).filter fun a => k = R.EDG.ACFG a && s.regF k 0 2 ≠ 2)
  let legs := ((List.range 12).filter fun l => k = R.LBR.LCFG l && s.regF k 0 2 ≠ 2)
  s.when (!(arms.isEmpty && legs.isEmpty)) fun t => t.carryClear fun q =>
    if q < 0x1000 then arms.contains (t.armOf (q / 8)) else legs.contains (q - 0x1000)

end Sys2Proof.Machine
end

