-- ==== Sys2Proof/Machine/Service.lean ====
section
/-!
DEFINITION. Sys2Proof/Machine/Service.lean: service transactions and their descriptors (R182 to R185).
Readings and choices (notes/assumptions): DEDUCED 43; PRESUMED 44.
-/
namespace Sys2Proof.Machine

/-- CSM byte offset of a service descriptor (R185). -/
def State.svDesc (s : State) (ring i : Nat) : Nat := s.regN (R.RNG.SVRB ring) + 16 * i

/-- Write-back of the service descriptor at a byte address at completion: OWN cleared, words 2 and 3 (R185). -/
def State.svWriteBack (s : State) (a status tag nstat : Nat) : State :=
  let w1 := (s.mem.readWord (a + 4)).setBit 31 false
  let w2 := wd (status + tag * 256 + nstat * 2 ^ 24)
  s.portBytes (a + 4) ([w1, w2, wd s.dt64].map fun w => natLe 4 w.toNat).flatten

/-- Is it a configuration write? -/
def HeadSvc.isCfg : HeadSvc → Bool
  | .cfg _ => true
  | _ => false

/-- A transaction the head issued itself completes: the events it gives its cell (R328, R330). -/
def State.headSvcDone (s : State) (addr : Nat) (kind : HeadSvc) (ok : Bool) (data : List Byte) : State :=
  match kind with
  | .idRead =>
    if ok then
      let id := leNat (data.take 8)
      let i : JInst := { s.inst addr with ident := id, challenge := (data.drop 8).take 16 }
      if id = NMap.get 0 s.ringIds addr then s.setInst addr { i with idOk := true }
      else (s.setInst addr { i with idOk := false }).jigEvent addr 6
    else s
  | .cfg _ =>
    if ok then
      let more := s.jig.svc.any (fun p => p.1 == addr && p.2.isCfg) || (List.range 64).any fun tag =>
        (NMap.get none s.svc tag).any fun t => t.dst == addr && t.kind.any HeadSvc.isCfg
      if more || (s.inst addr).cfgBad then s else s.jigEvent addr 18
    else
      let s1 := { s with jig := { s.jig with svc := s.jig.svc.filter fun p => !(p.1 == addr && p.2.isCfg) } }
      (s1.setInst addr { s1.inst addr with cfgBad := true }).jigEvent addr 19
  | .delay => s.setInst addr { s.inst addr with delays := ok }
  | .proof => s

/-- A transaction completes with a status: descriptor write-back or the head's own events; SVC_LOST for LINK_LOST and
TIMEOUT (R184, R185, R193); ENROL_REFUSED where a node refuses the head's own configuration write with NSTAT = 0xE1 (R529). -/
def State.svComplete (s : State) (tag status nstat : Nat) (data : List Byte := []) : State :=
  match NMap.get none s.svc tag with
  | none => s
  | some t =>
    let s0 := { s with svc := NMap.put none s.svc tag none }
    let s1 := match t.desc with
      | some _ => (s0.svWriteBack t.at_ status tag nstat).irq (0x30 + t.ring) 2
      | none => s0
    let s2 := match t.kind with
      | some k => s1.headSvcDone t.dst k (status == 0) data
      | none => s1
    let s3 := s2.when (nstat = 0xE1 && t.kind.any fun k => k == .proof || k.isCfg) fun u => u.fault Src.ENROL_REFUSED 0xA0 t.dst 0x1A
    s3.when (status = 2 || status = 3) fun u =>
      u.fault Src.SVC_LOST (0x30 + t.ring) (t.ring + t.dst * 256) 0x2B

/-- Every transaction that meets a condition completes LINK_LOST (R184). -/
def State.svLinkLost (s : State) (p : Nat → Svc → Bool) : State :=
  (List.range 64).foldl (fun u tag =>
    match NMap.get none u.svc tag with
    | some t => u.when (p tag t) fun v => v.svComplete tag 2 0
    | none => u) s

/-- The transactions that need a lane complete LINK_LOST when the lane leaves UP (R184). -/
def State.svLaneDown (s : State) (lane : Nat) : State :=
  s.svLinkLost fun _ t => s.txLane t.ring t.rev == some lane || s.rxLane t.ring (!t.rev) == some lane

/-- The lowest free service tag (R183). -/
def State.svFreeTag (s : State) : Option Nat := (List.range 64).find? fun t => (NMap.get none s.svc t).isNone

/-- The direction of a request: opposite to the one in which the target's slot last arrived valid; with both, the
direction of the shorter head-to-node delay, forward when equal (R183). -/
def State.svDir (s : State) (ring pos : Nat) : Bool :=
  let c := NMap.get {} s.cells (ring * 8 + pos)
  if c.ageF < c.ageR then true
  else if c.ageR < c.ageF then false
  else
    let d (rev : Bool) : Int := (NMap.get {} s.trav (queueOf ring rev)).toNode.getD pos 0
    decide (d true < d false)

/-- A write of SVKICK makes the head scan the ring's descriptors (R194). -/
def State.svKick (s : State) (ring : Nat) : State :=
  let r := NMap.get {} s.rings ring
  { s with rings := NMap.put {} s.rings ring { r with svScan := Nat.blt 0 (s.regF (R.RNG.SVRN ring) 0 8) } }

/-- Next descriptor index of a ring of `n`. -/
def nextIdx (n i : Nat) : Nat := if i + 1 < n then i + 1 else 0

/-- A request of `words` data words may start now on a ring direction: its lane is not UP (it then completes without a
frame), or its transmitter is free and R43 is kept. -/
def State.svMay (s : State) (ring : Nat) (rev : Bool) (words : Nat) : Bool :=
  !s.txUp ring rev || (s.dirFree ring rev s.dt64 && s.fitsPlan ring s.dt64 (20 + 4 * words))

/-- A request is launched under a tag, or completes LINK_LOST without a frame while its lane is not UP (R183). -/
def State.svSend (s : State) (tag : Nat) (t : Svc) (reg : Nat) (data : List Byte) : State :=
  let s1 := { s with svc := NMap.put none s.svc tag (some t), svTurn := t.ring }
  if !s.txUp t.ring t.rev then s1.svComplete tag 2 0
  else
    let payload := [BitVec.ofNat 8 (tag + t.op * 64), BitVec.ofNat 8 t.dst] ++ natLe 2 reg ++
      [BitVec.ofNat 8 t.cnt, 0, 0, 0] ++ data
    let frame := frameOf (s.header 5 t.ring t.rev payload.length t.pidx false) payload
    s1.send (s.exlOut t.ring t.rev s.dt64 frame)

/-- The data words of one of JG0's configuration writes: TD and TMIN, then ISRC and ISNK, of the cell's LPT row in two
writes each of the legs and the chopper; SAFEB, COAST and HFMASK of the field map; RSCALE of the ring (R330). -/
def State.cfgData (s : State) (addr i : Nat) : List Byte :=
  let ring := addr / 8
  let each (f : Word → Nat) : List Byte := ((List.range 7).map fun ch => natLe 4 (f (s.lpt addr ch))).flatten
  let eachG (f : Word → Nat) : List Byte := ((List.range 7).map fun ch => natLe 4 (f (s.lpt addr (8 + ch)))).flatten
  match i with
  | 0 => each fun w => Nat.min (w.fld 0 16) 64000
  | 1 => each fun w => Nat.min (w.fld 16 14) 16000
  | 2 => eachG fun w => w.fld 0 4
  | 3 => eachG fun w => w.fld 4 4
  | 4 => natLe 4 ((s.fieldMap ring 0).fld 19 1)
  | 5 => natLe 4 (s.coastMax ring)
  | 6 => natLe 4 ((s.fieldMap ring 1).fld 0 16)
  | _ => natLe 4 (s.regF (R.RNG.RCTL ring) 0 10)

/-- The proof of an enrolled head: its identity public key and its signature over the node's challenge, the node's identity and
DEVSN (R516, R529). The byte order of the two numbers, and the layout of the read that brings identity and challenge, are taken
as those of the other numbers of chapter 18: PRESUMED (log 44). -/
def State.enrolProof (s : State) (addr : Nat) : List Byte :=
  let d := Config.identityKey.toNat
  let i := s.inst addr
  ecdsaPublic d ++ ecdsaSign d (i.challenge ++ natLe 8 i.ident ++ natLe 8 Config.devsn.toNat)

/-- A request of the head itself: operation, register and data (R109, R330, R529). -/
def State.ownReq (s : State) (addr : Nat) (kind : HeadSvc) : Nat × Nat × List Byte :=
  match kind with
  | .idRead => (0, Config.nodeIdReg.toNat, [])
  | .cfg i => (1, (Config.nodeCfgReg i).toNat, s.cfgData addr i)
  | .delay =>
    let dl (r : Bool) : Int := (NMap.get {} s.trav (queueOf (addr / 8) r)).toNode.getD (addr % 8) 0
    (1, (Config.nodeCfgReg 8).toNat, natLe 4 (bitsOfInt 32 (dl false)) ++ natLe 4 (bitsOfInt 32 (dl true)))
  | .proof => (2, (Config.nodeCfgReg 9).toNat, s.enrolProof addr)

/-- A request of the head itself for a cell of the ring is launched (R109, R330). -/
def State.svOwn (s : State) (ring addr : Nat) (kind : HeadSvc) (tag : Nat) : State :=
  let s1 := { s with jig := { s.jig with svc := s.jig.svc.erase (addr, kind) } }
  let d := s.ownReq addr kind
  let cnt := if d.1 = 0 then 6 else d.2.2.length / 4
  let t : Svc := { ring := ring, rev := s.svDir ring (addr % 8), desc := none, kind := some kind,
                   pidx := s.regN R.TRG.PIDX, dst := addr, op := d.1, cnt := cnt, buf := 0, launch := s.dt64 }
  s1.svSend tag t d.2.1 d.2.2

/-- What a ring has to serve next: nothing, a request of the head itself, or the descriptor at the scan position with its
index, byte address and word 1 (R183). -/
inductive SvNext where
  | none
  | own (addr : Nat) (kind : HeadSvc)
  | desc (i a : Nat) (w1 : Word)
  deriving DecidableEq, Repr

def State.svNext (s : State) (ring : Nat) : SvNext :=
  match s.jig.svc.find? fun p => p.1 / 8 == ring && s.active with
  | some p => .own p.1 p.2
  | none =>
    let r := NMap.get {} s.rings ring
    let n := s.regF (R.RNG.SVRN ring) 0 8
    if !r.svScan || n = 0 then .none
    else
      let i := if r.svNext < n then r.svNext else 0
      let a := csmBase + s.svDesc ring i
      .desc i a (s.mem.readWord (a + 4))

/-- The completion of a descriptor that needs no frame: BAD_DESC (4) or NO_PATH (5, R367); 0 where it is to be launched. -/
def State.svReject (s : State) (ring : Nat) (w1 : Word) : Nat :=
  let c := NMap.get ({} : CellRx) s.cells (ring * 8 + w1.fld 26 3)
  if w1.fld 29 2 = 3 || w1.fld 16 7 = 0 || 64 < w1.fld 16 7 then 4
  else if !s.active || (2 ≤ c.ageF && 2 ≤ c.ageR) then 5
  else 0

/-- Data words that the request of a descriptor carries. -/
def descWords (w1 : Word) : Nat := if w1.fld 29 2 = 0 then 0 else w1.fld 16 7

/-- Can the ring be served at this instant? -/
def State.svReady (s : State) (ring : Nat) : Bool :=
  match s.svNext ring with
  | .none => false
  | .own addr kind => s.svMay ring (s.svDir ring (addr % 8)) ((s.ownReq addr kind).2.2.length / 4)
  | .desc _ _ w1 => !w1.bit 31 || s.svReject ring w1 ≠ 0 || s.svMay ring (s.svDir ring (w1.fld 26 3)) (descWords w1)

/-- The ring whose turn it is: the first that can be served after the one served last, by ring number (R183). -/
def State.svWho (s : State) : Option Nat := ((List.range 32).map fun i => (s.svTurn + 1 + i) % 32).find? s.svReady

/-- The next request of a ring is served in its turn: one of the head's own, else the descriptor at the scan position. A
descriptor completes BAD_DESC, NO_PATH or LINK_LOST without a frame, or takes a tag and its request is launched (R183 to
R185). -/
def State.svLaunch (s : State) (ring : Nat) : State :=
  match s.svFreeTag with
  | none => s
  | some tag =>
    if s.svWho ≠ some ring then s
    else
      match s.svNext ring with
      | .none => s
      | .own addr kind => s.svOwn ring addr kind tag
      | .desc i a w1 =>
        let r := NMap.get {} s.rings ring
        if !w1.bit 31 then { s with rings := NMap.put {} s.rings ring { r with svScan := false, svNext := i } }
        else
          let adv := { s with rings := NMap.put {} s.rings ring { r with svNext := nextIdx (s.regF (R.RNG.SVRN ring) 0 8) i },
                              svTurn := ring }
          if s.svReject ring w1 ≠ 0 then (adv.svWriteBack a (s.svReject ring w1) 0 0).irq (0x30 + ring) 2
          else
            let buf := (s.mem.readWord a).toNat
            let op := w1.fld 29 2
            let t : Svc := { ring := ring, rev := s.svDir ring (w1.fld 26 3), desc := some i, kind := none,
                             pidx := s.regN R.TRG.PIDX, dst := ring * 8 + w1.fld 26 3, op := op, cnt := w1.fld 16 7,
                             buf := buf, launch := s.dt64, at_ := a }
            adv.svSend tag t (w1.fld 0 16) (if op = 0 then [] else s.mem.readBytes buf (4 * w1.fld 16 7))

/-- 1 ms of DT64 has passed since a transaction's launch (R184). -/
def State.svTimeout (s : State) (tag : Nat) : State :=
  match NMap.get none s.svc tag with
  | some t => (s.reach (t.launch + 16000000)).svComplete tag 3 0
  | none => s

/-- A service response arrives: one that matches a transaction within 1 ms of its launch completes it (R157, R184, R185). -/
def State.svResponse (s : State) (ring : Nat) (rev : Bool) (f : RxFrame) : State :=
  match s.rxTake ring rev f with
  | none => s
  | some (s0, g) =>
    match frameCheck ring rev g with
    | some off => s0.frameErr ring off
    | none =>
      let s1 := s0.reach g.eof
      let p := framePayload g.bytes
      let tag := byteAt p 0 % 64
      match NMap.get none s1.svc tag with
      | none => s1.bump (R.RNG.SVLCNT ring)
      | some t =>
        if s1.passed (t.launch + 16000000) then (s1.svComplete tag 3 0).bump (R.RNG.SVLCNT ring)
        else if frameType g.bytes = 6 && byteAt p 1 = t.dst && leAt p 2 2 = t.pidx && t.ring = ring then
          let nstat := byteAt p 5
          let data := (p.drop 8).take (4 * Nat.min t.cnt (byteAt p 4 % 128))
          let s2 := if t.op = 0 && nstat = 0 && t.desc.isSome then s1.portBytes t.buf data else s1
          s2.svComplete tag (if nstat = 0 then 0 else 1) nstat data
        else s1.bump (R.RNG.SVLCNT ring)

end Sys2Proof.Machine
end

