-- ==== Sys2Proof/Machine/Lanes.lean ====
section
/-!
DEFINITION. Sys2Proof/Machine/Lanes.lean: lane states, loss of signal and of lock, the training exchange, the pattern
checker and the injector (R132 to R152).
Readings and choices (notes/assumptions): DEDUCED 37, 39, 138, 165; DESIGN CHOICE 135, 136, 137, 164, 166, 167.
-/
namespace Sys2Proof.Machine

/-- The ring a lane carries, if its ROLE is not spare (R150). -/
def State.ringOfLane (s : State) (n : Nat) : Option Nat := if s.lnRole n = 0 then none else some ((s.lnmap n).fld 0 5)

/-- RSPEND of a ring (R190). -/
def State.rspend (s : State) (ring : Nat) : State := s.setB (R.RNG.RSTA ring) 4 true

/-- May the transmitter of a lane give light: a ring lane of a paired head not in OFF, nor in LISTEN before its plan is
locked (R352, R363)? -/
def State.mayLight (s : State) (n : Nat) : Bool :=
  s.lnRole n == 0 || !s.paired || Nat.ble 2 s.role || (s.role == 1 && s.pair.litAt.isSome)

/-- LNCTL.MODE of a lane in TEST; 0 in any other state. -/
def State.testMode (s : State) (n : Nat) : Nat := if s.laneState n = 5 then s.regF (R.LNE.LNCTL n) 1 2 else 0

/-- Does the receiver see the fibre: not in OFF, nor in near-end loopback, whose receiver sees the lane's own serialiser
(R132, R148)? -/
def State.fibre (s : State) (n : Nat) : Bool := s.laneState n ≠ 0 && s.testMode n ≠ 2

/-- The rate of a lane that carries a ring is the ring's, that of the tie lane 3.125 Gbaud (R125, R349). -/
def State.rateSync (s : State) (n : Nat) : State :=
  match s.ringOfLane n with
  | some r => s.setB (R.LNE.LNCFG n) 0 (s.regB (R.RNG.RCFG r) 5)
  | none => if s.isTie n then s.setB (R.LNE.LNCFG n) 0 false else s

/-- LNSTA.FILL reports the fill (R130). A full FIFO of 16 symbols shows as 15, the most the field holds: DESIGN CHOICE
(log 164). -/
def State.setFill (s : State) (n fill : Nat) : State :=
  (s.setLane n { s.lane n with fill := fill }).setF (R.LNE.LNSTA n) 8 4 (Nat.min 15 fill)

/-- A run of idles passes the FIFO. One of at least 2 brings the fill back to 8, by insertions or by deletions that leave at
least 1 idle, and ELCNT counts them; recentring is counted as neither: DESIGN CHOICE (log 135). Far-end loopback and pattern
mode insert and delete none (R130, R131, R145, R148). -/
def State.fifoRun (s : State) (n idles : Nat) : State :=
  let l := s.lane n
  let k := R.LNE.ELCNT n
  if l.recentre then (s.setLane n { l with recentre := false }).setFill n 8
  else if idles < 2 || s.testMode n = 1 || s.testMode n = 3 then s
  else
    let ins := 8 - l.fill
    let del := Nat.min (l.fill - 8) (idles - 1)
    ((s.setFill n (l.fill + ins - del)).setF k 0 16 (Nat.min 0xFFFF (s.regF k 0 16 + ins))).setF k 16 16
      (Nat.min 0xFFFF (s.regF k 16 16 + del))

/-- Near-end loopback begins: the receiver is locked and aligned to the lane's own K28.5, whose run recentres the FIFO, and no
fibre drift reaches it (R148). -/
def State.loopStart (s : State) (n : Nat) : State :=
  let s1 := s.txSyms n s.dt64 []
  ((s1.setLane n { s1.lane n with loop := 0, rxIn := false, viol := [] }).setF (R.LNE.LNSTA n) 4 2 2).fifoRun n 17

/-- Does the injector act: in pattern mode, and in UP with INJLIVE = 1 (R147)? -/
def State.injActs (s : State) (n : Nat) : Bool := s.testMode n = 1 || (s.laneState n = 4 && s.regB (R.LNE.LNCTL n) 11)

/-- An injection of kind 3 begins or ceases to act as the injector does; `l` is sent before (R147). -/
def State.injSync (s : State) (n : Nat) (l : List OutFrame) : State :=
  let x := s.lane n
  let on := x.inj.isSome && s.injActs n
  let more : List OutFrame := match x.inj with
    | some e => if on && !x.injOn then [.invert n s.dt64 1 (some e)] else if !on && x.injOn then [.invert n s.dt64 0 none] else []
    | none => if x.injOn then [.invert n s.dt64 0 none] else []
  let s1 := s.setLane n { x with injOn := on }
  if (l ++ more).isEmpty then s1 else s1.send (l ++ more)

/-- A lane enters a state: STATE and PSTA.BLK report it; leaving UP completes service transactions LINK_LOST and sets
DOWN; entering UP sets UP and RSPEND of its ring; entering TRAIN starts an exchange; leaving lock drops alignment. The transmitter
leaves OFF with negative running disparity (R126); in pattern mode it sends the pattern (R145), and an injection of kind 3
acts in the states R147 names. ALIGN is cleared too as an exchange that has failed returns to LOCKING, where the receiver
aligns anew: DEDUCED (log 165). -/
def State.laneGoto (s : State) (n st : Nat) : State :=
  let old := s.laneState n
  let s1 := (s.setF (R.LNE.LNSTA n) 0 3 st).setF (R.PSTA (0x10 + n)) 16 3 st
  let l := s1.lane n
  let s2 := s1.setLane n { l with lit := decide (st ≠ 0) && s.mayLight n, drop := l.drop && decide (st ≠ 4),
                                  rd := l.rd && old ≠ 0, end5 := if old = 0 then 5 * s.dt64 else l.end5 }
  let s3 := s2.when (old = 4 && st ≠ 4) fun t => (t.svLaneDown n).irq (0x10 + n) 1
  let s4 := s3.when (st = 4 && old ≠ 4) fun t =>
    match t.ringOfLane n with
    | some r => (t.irq (0x10 + n) 0).rspend r
    | none => t.irq (0x10 + n) 0
  let s5 := s4.when (st = 3) fun t =>
    let l := t.lane n
    (t.setLane n { l with train := { seq := l.train.seq, aseq := l.train.aseq, astat := l.train.astat,
                                     entered := t.dt64, lastRx := t.dt64, settled := t.dt64 },
                          trainAt := none }).bump (R.LNE.TRNCNT n)
  let s6 := s5.when (st = 2 || st = 1 || st = 0) fun t => t.setB (R.LNE.LNSTA n) 5 false
  let s7 := (s6.when (s6.testMode n = 2) fun t => t.loopStart n).injSync n
    (if s6.testMode n = 1 then [.pattern n s6.dt64 (s6.regF (R.LNE.LNCTL n) 4 2)] else [])
  (s7.setIdle (0x10 + n) (st = 0)).setEns (0x10 + n) (decide (st ≠ 0))

/-- From SIGNAL_WAIT with LOS clear a lane goes on to LOCKING (R133). -/
def State.laneSettle (s : State) (n : Nat) : State :=
  s.when (s.laneState n = 1 && !s.regB (R.LNE.LNSTA n) 3) fun t => t.laneGoto n 2

/-- The exchange has sent DONE in 2 frames and received it in 1: UP (R143). -/
def State.trainCheck (s : State) (n : Nat) : State :=
  let t := (s.lane n).train
  s.when (s.laneState n = 3 && Nat.ble 2 t.doneSent && t.doneRx) fun u => u.laneGoto n 4

/-! ### Loss of signal and of lock (R134 to R136) -/

/-- The LOS threshold in 0.1 dBm: −24 dBm + 0.5 dB × LOSTH (R134). -/
def State.losTh (s : State) (n : Nat) : Int := -240 + 5 * (s.regF (R.LNE.LNCFG n) 4 4 : Int)

/-- LOS of a lane. -/
def State.los (s : State) (n : Nat) : Bool := s.regB (R.LNE.LNSTA n) 3

/-- LOS in the same cycle as a loss of lock or alignment raises only its own source: the LANE_LOL raise of the cycle is
withdrawn (R135). -/
def State.withdrawLol (s : State) (n : Nat) : State :=
  { s with scribe := { s.scribe with inflight := s.scribe.inflight.filter fun r =>
      !(r.src == Src.LANE_LOL && r.page == 0x10 + n && r.time == s.dt64) } }

/-- LOS sets: SIGNAL_WAIT from LOCKING, TRAIN or UP, with LANE_LOS, or LANE_DARK after an announced switch-off (R133,
R136). -/
def State.losOn (s : State) (n : Nat) (dark : Bool) : State :=
  let st := s.laneState n
  let s1 := (s.setB (R.LNE.LNSTA n) 3 true).bump (R.LNE.LOSCNT n)
  s1.when (st = 2 || st = 3 || st = 4) fun t =>
    ((t.laneGoto n 1).withdrawLol n).fault (if dark then Src.LANE_DARK else Src.LANE_LOS) (0x10 + n) n

/-- The average received power, signed, 0.1 dBm, over 2 µs: below LOSTH it sets LOS; `dark` when the receiver has decoded 4
K28.6 in the last 10 µs (R134, R136). -/
def State.losSet (s : State) (n : Nat) (dark : Bool) (pwr : BitVec 16) : State :=
  if !s.fibre n then s
  else (s.setReg (R.LNE.PWR n) (wd pwr.toNat)).when (!s.los n && decide (pwr.toInt < s.losTh n)) fun t => t.losOn n dark

/-- The average received power over 100 µs: at or above LOSTH + 1 dB it clears LOS (R134). -/
def State.losClear (s : State) (n : Nat) (pwr : BitVec 16) : State :=
  if !s.fibre n then s
  else (s.setReg (R.LNE.PWR n) (wd pwr.toNat)).when (decide (s.losTh n + 10 ≤ pwr.toInt)) fun t =>
    (t.setB (R.LNE.LNSTA n) 3 false).laneSettle n

/-- The loop is locked and 3 K28.5 are aligned: TRAIN from LOCKING (R133, R135). The receiver takes its running disparity
from the first K28.5 it aligned to (R126). -/
def State.laneLocked (s : State) (n : Nat) (comma : BitVec 10) : State :=
  match [false, true].find? fun rd => (codeGroup (.k kIdle) rd).1 == comma with
  | none => s
  | some rd =>
    if s.laneState n = 2 then
      let l := s.lane n
      (((s.setLane n { l with rxRd := (codeGroup (.k kIdle) rd).2, rxCount := 0, rxIn := false, viol := [] }).setB
        (R.LNE.LNSTA n) 4 false).setB (R.LNE.LNSTA n) 5 true).laneGoto n 3
    else s

/-- Loss of lock or of alignment: LOCKING from TRAIN or UP, with LANE_LOL (R133, R135). -/
def State.lockLost (s : State) (n : Nat) : State :=
  let st := s.laneState n
  let s1 := s.bump (R.LNE.LOLCNT n)
  if st = 3 || st = 4 then (s1.laneGoto n 2).fault Src.LANE_LOL (0x10 + n) n else s1

def State.lolSet (s : State) (n : Nat) : State :=
  if !s.fibre n then s else (s.lockLost n).setB (R.LNE.LNSTA n) 4 true

/-- Have 4 code violations fallen within 16 consecutive symbols (R135)? -/
def Lane.misaligned (l : Lane) : Bool :=
  match l.viol with
  | a :: _ :: _ :: d :: _ => Nat.ble d a && Nat.blt (a - d) 16
  | _ => false

def State.alignLost (s : State) (n : Nat) : State :=
  if s.fibre n && s.regB (R.LNE.LNSTA n) 5 && (s.lane n).misaligned then
    let l := s.lane n
    ((s.setLane n { l with viol := [] }).lockLost n).setB (R.LNE.LNSTA n) 5 false
  else s

/-! ### The training exchange (R138 to R143) -/

/-- Tap request of search step `i`: POST, PRE, MAIN, each increment then decrement (R142). -/
def stepReq (i : Nat) (reverse : Bool) : TapReq :=
  let op := if (i % 2 = 0) ≠ reverse then 1 else 2
  match i / 2 with
  | 0 => { post := op }
  | 1 => { pre := op }
  | _ => { main := op }

/-- A new request of this side: the next SEQ value. -/
def Train.ask (t : Train) (r : TapReq) (at_ : SearchAt) : Train :=
  { t with seq := (t.seq + 1) % 16, req := r, waiting := true, requests := t.requests + 1, search := at_ }

/-- The search ends: DONE with an eye of at least EYEMIN (R142). R142's `fail` sends no DONE, so that the exchange ends at
TRNTO or by silence (R143): DESIGN CHOICE (log 137). -/
def Train.finish (t : Train) (eyeMin : Nat) : Train :=
  { t with search := .ended, done := Nat.ble eyeMin t.eye, waiting := false }

/-- The next step of the search after step `i - 1`: a request, a new pass, or the end (R142). The limit is compared as
R142's procedure writes it, `requests = TRNMAX`: a reversal that carries the count past TRNMAX leaves a search that stops
only with a pass that improves nothing: DEDUCED (log 138). -/
def Train.next (t : Train) (i trnMax eyeMin : Nat) : Train :=
  if i < 6 then
    if t.requests = trnMax then t.finish eyeMin else t.ask (stepReq i false) (.asked i)
  else if t.improved then
    if t.requests = trnMax then t.finish eyeMin
    else ({ t with improved := false }).ask (stepReq 0 false) (.asked 0)
  else t.finish eyeMin

/-- The far side has answered the present request (R139). -/
def Train.answered (t : Train) (astat trnMax eyeMin : Nat) : Train :=
  let u := { t with waiting := false }
  match t.search with
  | .asked i => if astat = 0 then { u with search := .measure i } else u.next (i + 1) trnMax eyeMin
  | .reversing i => { u with search := .remeasure i }
  | _ => u

/-- An eye figure for the present taps (R141, R142). -/
def Train.measured (t : Train) (e eyeGood trnMax eyeMin : Nat) : Train :=
  match t.search with
  | .first =>
    let u := { t with eye := e }
    if eyeGood ≤ e then { u with search := .ended, done := true } else u.next 0 trnMax eyeMin
  | .measure i =>
    if t.eye + 2 ≤ e then ({ t with eye := e, improved := true }).next (i + 1) trnMax eyeMin
    else t.ask (stepReq i true) (.reversing i)
  | .remeasure i => ({ t with eye := e }).next (i + 1) trnMax eyeMin
  | _ => t

/-- A tap after a request: none when it would leave 0 to 15 (R140). -/
def tapAfter (op cur preset : Nat) : Option Nat :=
  match op with
  | 0 => some cur
  | 1 => if cur < 15 then some (cur + 1) else none
  | 2 => if 0 < cur then some (cur - 1) else none
  | _ => some preset

/-- The far side's request is applied whole or not at all: taps PRE, MAIN, POST, and ASTAT (R140). A request that would
both leave 0 to 15 and break the tap rule is answered at limit: DESIGN CHOICE (log 137). -/
def applyTaps (r : TapReq) (pre main post : Nat) : Nat × Nat × Nat × Nat :=
  match tapAfter r.pre pre 0, tapAfter r.main main 12, tapAfter r.post post 3 with
  | some a, some b, some c => if b < a + c then (pre, main, post, 2) else (a, b, c, 0)
  | _, _, _ => (pre, main, post, 1)

/-- A transmitter acts on the pending far request (R140). -/
def State.tapApply (s : State) (n : Nat) : State :=
  let l := s.lane n
  match l.train.far with
  | none => s
  | some (seq, r) =>
    let k := R.LNE.TAPS n
    let q := applyTaps r (s.regF k 0 4) (s.regF k 4 4) (s.regF k 8 4)
    (((s.setF k 0 4 q.1).setF k 4 4 q.2.1).setF k 8 4 q.2.2.1).setLane n
      { l with train := { l.train with far := none, aseq := seq, astat := q.2.2.2 } }

/-- The payload of this side's training frame (R139). -/
def State.trainPayload (s : State) (n : Nat) : List Byte :=
  let t := (s.lane n).train
  let k := R.LNE.TAPS n
  let r : TapReq := if t.waiting then t.req else {}
  [BitVec.ofNat 8 (t.seq * 16 + t.aseq),
   BitVec.ofNat 8 (r.pre * 64 + r.main * 16 + r.post * 4 + b2n t.done * 2),
   BitVec.ofNat 8 (s.regF k 0 4 * 16 + s.regF k 4 4),
   BitVec.ofNat 8 (s.regF k 8 4 * 16 + t.astat * 4),
   BitVec.ofNat 8 (s.regF (R.LNE.LNSTA n) 12 6), 0, 0, 0]

/-- The instant of a side's next training frame: 4 µs after its last one, and after a frame still under way (R129, R138). -/
def State.trainDue (s : State) (n : Nat) : Nat :=
  Nat.max (match (s.lane n).trainAt with
    | some t => t + 64000
    | none => s.dt64) (s.laneFreeAt n)

/-- A side in TRAIN sends a training frame (R138). -/
def State.trainTx (s : State) (n : Nat) : State :=
  if s.laneState n ≠ 3 then s
  else
    let s1 := s.reach (s.trainDue n)
    let ring := (s.lnmap n).fld 0 5
    let rev := s.lnRole n = 2 || (s.lnRole n = 3 && s.regB R.HPR.HSTA 3)
    let s2 := s1.send [.exl n s1.dt64 (frameOf (s.header 9 ring rev 8 0 false) (s.trainPayload n))]
    let l := s2.lane n
    (s2.setLane n { l with trainAt := some s1.dt64,
                           train := { l.train with doneSent := if l.train.done then l.train.doneSent + 1 else 0 } }).also
      fun t => t.trainCheck n

/-- Is a training frame valid: K28.0, type Training, 8 bytes, a good CRC (R138)? -/
def trainValid (start : Byte) (f : List Byte) : Bool :=
  start == kSoftr && f.length == 20 && frameType f == 9 && frameLen f == 8 && crc32 (f.take 16) == leAt f 16 4

/-- A training frame arrives; one with a failed CRC, or in which the lane passed K30.7 up, is ignored (R128, R138, R139). -/
def State.trainRx (s : State) (n : Nat) (start : Byte) (f : List Byte) : State :=
  let st := s.laneState n
  if !(st = 3 || st = 4) then s
  else if (s.lane n).drop then s.setLane n { s.lane n with drop := false }
  else if !trainValid start f then s
  else
    let p := framePayload f
    let k := R.LNE.TAPS n
    let s1 := ((s.setF k 16 4 (byteAt p 2 / 16)).setF k 20 4 (byteAt p 2 % 16)).setF k 24 4 (byteAt p 3 / 16)
    let l := s1.lane n
    let t := l.train
    let seq := byteAt p 0 / 16
    let r : TapReq := { pre := byteAt p 1 / 64, main := (byteAt p 1 / 16) % 4, post := (byteAt p 1 / 4) % 4 }
    let t1 := { t with far := if seq = t.aseq then t.far else some (seq, r),
                       doneRx := t.doneRx || (byteAt p 1).testBit 1, lastRx := s.dt64 }
    let t2 := if t1.waiting && byteAt p 0 % 16 = t1.seq then
        { t1.answered ((byteAt p 3 / 4) % 4) (s.regF (R.LNE.TRNCFG n) 16 8) (s.regF (R.LNE.LNCFG n) 16 6) with
          settled := s.dt64 }
      else t1
    (s1.setLane n { l with train := t2 }).trainCheck n

/-- An eye measurement over 16 384 symbols completes. One is made only in TRAIN and while no ASEQ is awaited, so that each
figure belongs to one tap setting (R141, R142). -/
def State.eyeDone (s : State) (n eye : Nat) : State :=
  if s.laneState n = 3 && !(s.lane n).train.waiting then
    let s0 := s.reach ((s.lane n).train.settled + (16384 * s.laneFifths n + 4) / 5)
    let s1 := s0.setF (R.LNE.LNSTA n) 12 6 eye
    let l := s1.lane n
    let t := l.train.measured eye (s.regF (R.LNE.LNCFG n) 22 6) (s.regF (R.LNE.TRNCFG n) 16 8) (s.regF (R.LNE.LNCFG n) 16 6)
    s1.setLane n { l with train := { t with settled := s0.dt64 } }
  else s

/-- The exchange fails: LOCKING and TRAIN_FAIL (R143). -/
def State.trainFail (s : State) (n : Nat) : State :=
  if s.laneState n = 3 then
    ((s.laneGoto n 2).irq (0x10 + n) 2).fault Src.TRAIN_FAIL (0x10 + n) n
  else s

/-- TRNTO elapses in TRAIN. -/
def State.trainExpired (s : State) (n : Nat) : State :=
  if s.laneState n = 3 then (s.reach ((s.lane n).train.entered + s.regF (R.LNE.TRNCFG n) 0 16 * 16000)).trainFail n else s

/-- No valid training frame has arrived for 1 ms. -/
def State.trainSilent (s : State) (n : Nat) : State :=
  if s.laneState n = 3 then (s.reach ((s.lane n).train.lastRx + 16000000)).trainFail n else s

/-! ### Control (R133, R145 to R149) -/

/-- A write of RETRAIN (R133). -/
def State.retrain (s : State) (n : Nat) : State :=
  if s.laneState n = 4 then s.laneGoto n 3 else s.irq (0x10 + n) 4

/-- A write of LNCTL.MODE (R149). -/
def State.laneMode (s : State) (n mode : Nat) : State :=
  let st := s.laneState n
  if mode ≠ 0 && !(s.lnRole n = 0 || !s.plan.run) then s.irq (0x10 + n) 4
  else
    let s1 := s.setF (R.LNE.LNCTL n) 1 2 mode
    if mode ≠ 0 then (if st = 0 then s1 else s1.laneGoto n 5)
    else if st = 5 then (s1.laneGoto n 1).laneSettle n else s1

/-- A write of INJGO: the injector starts or restarts (R147). One bit or one burst is over with the line bits it inverts, and
inverts none where the injector does not act: DESIGN CHOICE (log 166); kind 3 goes on until INJ is changed, whenever the
injector acts. -/
def State.injGo (s : State) (n : Nat) : State :=
  let l := s.lane n
  let kind := s.regF (R.LNE.LNCTL n) 8 2
  let b := s.regF (R.LNE.LNCTL n) 16 6
  let ended : List OutFrame := if l.injOn && kind ≠ 3 then [.invert n s.dt64 0 none] else []
  let shot : List OutFrame := if !s.injActs n then [] else match kind with
    | 1 => [.invert n s.dt64 1 none]
    | 2 => [.invert n s.dt64 (if b = 0 then 64 else b) none]
    | _ => []
  (s.setLane n { l with inj := if kind = 3 then some (Nat.max 15 (s.regN (R.LNE.INJINT n)) + 1) else none,
                        injOn := false }).injSync n (ended ++ shot)

/-! ### Code violations and the elastic FIFO (R128 to R131, R151) -/

/-- A code group is received: it is judged at the receiver's running disparity, which goes on through it. A violation is
counted; within a frame K30.7 goes up in its place and the frame is discarded (R126, R128). -/
def State.rxGroup (s : State) (n : Nat) (g : BitVec 10) : State :=
  let l := s.lane n
  let l1 : Lane := { l with rxRd := rdPast g l.rxRd, rxCount := l.rxCount + 1, rxIn := inFrameAfter (specialOf g l.rxRd) l.rxIn }
  if !violates g l.rxRd then s.setLane n l1
  else
    let ms := s.dt64 / 16000000 + 1
    (s.setLane n { l1 with cvMs := if l.cvIn = ms then l.cvMs + 1 else 1, cvIn := ms, viol := (l.rxCount :: l.viol).take 4,
                           drop := l.drop || (l.rxIn && (s.laneState n = 3 || s.laneState n = 4)) }).bump (R.LNE.CVCNT n)

/-- The code groups of a lane that sees its fibre; pattern mode carries none (R145, R148). -/
def State.rxGroups (s : State) (n : Nat) (l : List (BitVec 10)) : State :=
  if !s.fibre n || s.testMode n = 1 then s else l.foldl (fun t g => t.rxGroup n g) s

/-- The fill drifts; a 16-symbol FIFO that overflows or runs empty raises LANE_FIFO, discards the frame in progress and
recentres at the next run of idles (R130, R131). -/
def State.fifoDrift (s : State) (n : Nat) (drift : Int) (inFrame : Bool) : State :=
  let l := s.lane n
  let f := (l.fill : Int) + drift
  let s1 := s.setFill n (if f < 0 then 0 else if 16 < f then 16 else f.toNat)
  s1.when (decide (f < 0) || decide (16 < f)) fun t =>
    let l := t.lane n
    (t.setLane n { l with recentre := true, drop := l.drop || inFrame }).fault Src.LANE_FIFO (0x10 + n) n

/-- A millisecond of DT64 ends: the runs of idles received in it, each with the drift since the one before, have passed the
FIFO; PWR reports the average power; more than CVTH violations in it raise LANE_CODE (R130, R134, R151). Where the receiver
does not see the fibre, in OFF and in near-end loopback, PWR keeps its last figure: DESIGN CHOICE (log 167), and nothing
drifts in the FIFO. -/
def State.laneMs (s : State) (n : Nat) (idles : List (Nat × Int)) (pwr : BitVec 16) : State :=
  let l := s.lane n
  let ms := s.nextMultiple l.msAt 16000000
  let s1 := s.reach (ms * 16000000)
  let s2 := s1.when (s1.fibre n) fun t => idles.foldl (fun u r => (u.fifoDrift n r.2 false).fifoRun n r.1) t
  let s3 := s2.when (s2.fibre n) fun t => t.setReg (R.LNE.PWR n) (wd pwr.toNat)
  (s3.setLane n { s3.lane n with msAt := ms + 1 }).when
    (l.cvIn = ms && Nat.blt (s.regF (R.LNE.LNCFG n) 8 8) l.cvMs) fun t => t.fault Src.LANE_CODE (0x10 + n) n

/-- The elastic FIFO overflows or runs empty under a drift (R131). -/
def State.laneFifo (s : State) (n : Nat) (drift : Int) (inFrame : Bool) : State :=
  if !s.fibre n then s else s.fifoDrift n drift inFrame

/-! ### The checker (R146) -/

/-- Is the checker at work: CHKEN = 1 in TEST? In the other states the line carries no pattern: DESIGN CHOICE (log 136). -/
def State.checking (s : State) (n : Nat) : Bool := s.laneState n = 5 && s.regB (R.LNE.LNCTL n) 6

/-- One received line bit at the checker; BITCNT and ERRCNT count while CHKLOCK = 1 and saturate (R146). -/
def State.checkBit (s : State) (n : Nat) (b : Bool) : State :=
  let l := s.lane n
  let lock := s.regB (R.LNE.LNSTA n) 6
  let r := l.chk.bit (s.regF (R.LNE.LNCTL n) 4 2) lock b
  let s1 := s.setLane n { l with chk := r.1, bitcnt := if lock then Nat.min (2 ^ 48 - 1) (l.bitcnt + 1) else l.bitcnt }
  let s2 := s1.when (lock && r.2.2) fun t => t.bumpAt (R.LNE.ERRCNT n) 0 32
  s2.when (r.2.1 != lock) fun t => (t.setB (R.LNE.LNSTA n) 6 r.2.1).irq (0x10 + n) 3

/-- The line bits that a receiver takes as line bits come: in near-end loopback as many of the lane's own serialiser, in place
of those of the fibre (R148). -/
def State.bitsIn (s : State) (n : Nat) (line : List Bool) : List Bool :=
  if s.testMode n = 2 then (List.range line.length).map fun i => idleBit (s.lane n).rd ((s.lane n).loop + i) else line

/-- CHKEN goes from 0 to 1: the counts are cleared and the checker seeds itself anew, so that CHKLOCK falls (R146). -/
def State.checkStart (s : State) (n : Nat) : State :=
  let s1 := (s.setLane n { s.lane n with bitcnt := 0, chk := {} }).setReg (R.LNE.ERRCNT n) 0
  if s.regB (R.LNE.LNSTA n) 6 then (s1.setB (R.LNE.LNSTA n) 6 false).irq (0x10 + n) 3 else s1

/-- Line bits arrive: in TEST the checker takes them (R146), and far-end loopback retransmits them unchanged (R148). -/
def State.lineBits (s : State) (n : Nat) (line : List Bool) : State :=
  if s.laneState n = 0 then s
  else
    let bits := s.bitsIn n line
    let s0 := s.when (s.testMode n = 2) fun t => t.setLane n { t.lane n with loop := (t.lane n).loop + bits.length }
    let s1 := s0.when (s0.checking n) fun t => bits.foldl (fun u b => u.checkBit n b) t
    s1.when (s1.testMode n = 3) fun t => t.send [.bits n t.dt64 bits]

/-- BITCNTL as it stands. -/
def State.bitcntl (s : State) (n : Nat) : Word := wd (s.lane n).bitcnt

/-- A read of BITCNTL latches BITCNTH for its source, as R89 does for DT64 (R146). -/
def State.bitcntLatch (s : State) (n src : Nat) : State :=
  let l := s.lane n
  (s.setLane n { l with lat := NMap.put 0 l.lat src (l.bitcnt / 2 ^ 32) }).setReg (R.LNE.BITCNTL n) (s.bitcntl n)

end Sys2Proof.Machine
end

