-- ==== Sys2Proof/Machine/Rings.lean ====
section
/-!
DEFINITION. Sys2Proof/Machine/Rings.lean: collector copies and telemetry records, telemetry close, capture streams,
FORCE, and the plan frames: collectors, commands, beacons (R106, R165, R168, R172 to R178, R186, R190).
Readings and choices (notes/assumptions): DESIGN CHOICE 11, 139; DEDUCED 41, 42, 69.
-/
namespace Sys2Proof.Machine

/-! ### Telemetry (R169, R172 to R177) -/

/-- A current from its sign and mantissa field and CEXP (R176). -/
def decodeCurrent (n cexp : Nat) : Int :=
  let m : Int := ((natFld n 0 10 * 2 ^ cexp : Nat) : Int)
  if n.testBit 10 then -m else m

/-- Capacitor voltage of a slot, mV: residual against VPRED, or the escape (R175); none when the slot is rejected. -/
def decodeV (slot : List Byte) (vpred u : Nat) : Option Int :=
  let cvr := byteAt slot 2
  if cvr = 0x80 then
    if byteAt slot 3 / 16 = 1 then some ((50 * leAt slot 11 2 : Nat) : Int) else none
  else if vpred = 0xFFFF then none
  else some ((50 * vpred : Nat) + signedOf 8 cvr * u)

/-- Is a slot FILLED and does it carry the cell's address (R172)? -/
def slotValid (slot : List Byte) (addr : Nat) : Bool := byteAt slot 0 == addr && (byteAt slot 1).testBit 0

/-- Word 9 of a record (R173). -/
def recWord9 (stale esc rev both mism notRanged tie : Bool) (pidx : Nat) : Nat :=
  b2n stale + b2n esc * 2 + b2n rev * 4 + b2n both * 8 + b2n mism * 16 + b2n notRanged * 32 + b2n tie * 64 + pidx * 65536

/-- The words 0 to 8 and 16 to 23 of a record, decoded from a slot. -/
def recWords (slot : List Byte) (v : Int) : List (Nat × Word) :=
  let cexp := byteAt slot 3 % 16
  let cur := leAt slot 4 3
  [(0, wdInt v), (1, wdInt (decodeCurrent (natFld cur 0 11) cexp)), (2, wdInt (decodeCurrent (natFld cur 11 11) cexp)),
   (3, wd (leAt slot 7 4)),
   (4, wd (leAt slot 13 2 % 8192 + byteAt slot 15 * 65536 + byteAt slot 1 * 2 ^ 24)),
   (5, wd (leAt slot 16 2 + (byteAt slot 3 / 16) * 65536)),
   (6, wd (leAt slot 11 2 + byteAt slot 18 * 65536 + byteAt slot 19 * 2 ^ 24)),
   (7, wd (leAt slot 20 4)), (8, wd (leAt slot 24 4))] ++
  (List.range 8).map fun i => (16 + i, wd (leAt slot (32 + 4 * i) 4))

/-- The record of a cell not yet RANGED: every word but byte 3 of word 4 is undefined (R173), a free value. -/
def freeWords (slot : List Byte) (free : Nat) : List (Nat × Word) :=
  let u (i : Nat) : Word := Config.freeWord (free + i)
  [(0, u 0), (1, u 1), (2, u 2), (3, u 3), (4, wd ((u 4).fld 0 24 + byteAt slot 1 * 2 ^ 24)), (5, u 5), (6, u 6), (7, u 7),
   (8, u 8)] ++ (List.range 8).map fun i => (16 + i, u (9 + i))

/-- The telemetry record of a slot is written (R173). -/
def State.writeRecord (s : State) (addr : Nat) (slot : List Byte) (v : Int) (w9 : Nat) : State :=
  let base := recAt (s.regN R.TRG.PIDX) addr
  let nr := s.notRanged addr
  let c : CellRx := NMap.get {} s.cells addr
  let ws := (if nr then freeWords slot s.free else recWords slot v) ++
    [(9, wd w9), (10, wd c.vpred), (11, 0), (12, 0), (13, 0), (14, 0), (15, 0)]
  let bit := 2 ^ (s.regN R.TRG.PIDX % 2)
  { s.csmClaim base 96 with mem := ws.foldl (fun m p => m.writeWord (base + 4 * p.1) p.2) s.mem,
                            cells := NMap.put {} s.cells addr { c with undef := if nr then c.undef ||| bit else c.undef &&& (3 - bit) },
                            free := if nr then s.free + 17 else s.free }

/-- T_cell takes in a slot's used temperature fields; TCELL_HOT when it reaches TCHOT (R537, R538). -/
def State.cellTemp (s : State) (addr : Nat) (slot : List Byte) : State :=
  if !(s.plan.run && s.regB R.MON.TCFG 8 && (s.lifeWord addr).bit 12) then s
  else
    let n := (s.fieldMap (addr / 8) 0).fld 16 2 + 1
    let t := ((List.range n).map fun i => byteAt slot (7 + i)).foldl Nat.max 0
    let best (o : Option (Nat × Nat)) : Option (Nat × Nat) := match o with
      | some p => if p.1 < t then some (t, addr) else some p
      | none => some (t, addr)
    let s1 := { s with mon := { s.mon with cellNow := best s.mon.cellNow, maxCell := best s.mon.maxCell } }
    if Nat.ble (s.regF R.MON.TCHOT 0 8) t && !s.mon.cellHot then
      ({ s1 with mon := { s1.mon with cellHot := true } }.irq 0x04 1).fault Src.TCELL_HOT 0x04 addr 0x28
    else s1

/-- JG0's events from a valid slot (R328), and SRSYNC when the slot reports SAFE (R190); of a cell not yet RANGED only SEEN and
RANGED (R337). -/
def State.slotEvents (s : State) (addr : Nat) (slot : List Byte) : State :=
  let fl := byteAt slot 1
  let nr := s.notRanged addr
  let s0 := if fl.testBit 2 && !nr then s.srsyncAt addr else s
  if !(s.plan.run && s.inMap addr) then s0
  else
    let j := s.inst addr
    let ranged := j.idOk && j.delays && !fl.testBit 4
    let s1 := s0.jigEvent addr 16
    let s2 := if ranged then s1.jigEvent addr 17 else s1
    if nr then s2
    else
      let hf := (s.fieldMap (addr / 8) 1).fld 0 16
      let s3 := if byteAt slot 18 % 4 ≠ 0 then s2.jigEvent addr 1 else s2
      let s4 := if leAt slot 16 2 &&& (hf ||| 1) ≠ 0 then s3.jigEvent addr 2 else s3
      if fl.testBit 2 && s.classOfCell addr ≠ 7 then s4.jigEvent addr 3 else s4

/-- Does a slot's copy in use count in ESCCNT: an escape of a cell RANGED, not rejected? -/
def State.escCounts (s : State) (addr : Nat) : Bool :=
  let c : CellRx := NMap.get {} s.cells addr
  !c.bad && !s.notRanged addr && c.copy.any fun p => byteAt p.bytes 2 == 0x80

/-- ESCCNT counts each slot once: `was` and `now` say whether it counts with the copy replaced and with the copy in use (R172,
R194). -/
def State.escTally (s : State) (ring : Nat) (was now : Bool) : State :=
  let k := R.RNG.ESCCNT ring
  if was = now then s
  else if now then s.bump k
  else s.setF k 0 16 (s.regF k 0 16 - 1)

/-- The raise of DECODE_ERR for a slot's copy that another replaces is withdrawn while it is on its way to Scribe (R193). -/
def State.withdrawDecode (s : State) (addr : Nat) : State :=
  { s with scribe := { s.scribe with inflight := s.scribe.inflight.filter fun r =>
      !(r.src == Src.DECODE_ERR && r.addr == addr / 8 + addr * 256 && r.pidx == s.regN R.TRG.PIDX) } }

/-- The copy of a slot that the head uses: it is decoded into the record, or rejected under R175 (R172, R173). A slot counts,
and is raised, once: as the copy in use says, which may replace one that arrived before it (R193, R194). -/
def State.useCopy (s : State) (addr : Nat) (p : SlotCopy) (mism : Bool) : State :=
  let ring := addr / 8
  let c := NMap.get {} s.cells addr
  let pidx := s.regN R.TRG.PIDX
  let nr := s.notRanged addr
  let esc := byteAt p.bytes 2 == 0x80
  let base := recAt pidx addr
  let wasBad := c.copy.isSome && c.bad
  let was := s.escCounts addr
  let prior := if c.copy.isNone then s.mem.readBytes base 128 else c.prior
  let priorUndef := if c.copy.isNone then c.undef else c.priorUndef
  let put (t : State) (bad : Bool) : State :=
    { t with cells := NMap.put {} t.cells addr { c with copy := some p, bad := bad, tie := false, prior := prior,
                                                        priorUndef := priorUndef, undef := if bad then priorUndef else c.undef,
                                                        flags := if bad then c.flags else byteAt p.bytes 1 } }
  match decodeV p.bytes c.vpred (s.regF (R.RNG.RCTL ring) 0 10), nr with
  | none, false =>
    (((put s true).portBytes base prior).escTally ring was false).when (!wasBad) fun t =>
      t.fault Src.DECODE_ERR (0x30 + ring) (ring + addr * 256) 0x28 4
  | v, _ =>
    let t1 := if wasBad then s.withdrawDecode addr else s
    let t2 := (put t1 false).writeRecord addr p.bytes (v.getD 0) (recWord9 false esc p.rev p.both mism nr false pidx)
    let t3 := if nr then t2 else t2.cellTemp addr p.bytes
    (t3.escTally ring was (esc && !nr)).slotEvents addr p.bytes

/-- Does a copy that has come later go before the copy at hand: an earlier end-of-frame stamp, or the forward one of two
equal stamps (R172)? -/
def SlotCopy.before (a b : SlotCopy) : Bool := Nat.blt a.stamp b.stamp || (a.stamp == b.stamp && !a.rev)

/-- One slot of a valid copy of a collector (R172, R175). -/
def State.slotRx (s : State) (addr : Nat) (rev node : Bool) (stamp : Nat) (slot : List Byte) : State :=
  if !slotValid slot addr || (s.paired && s.role ≠ 4 && !(NMap.get ({} : CellRx) s.cells addr).held) then s
  else
    let ring := addr / 8
    let c := NMap.get {} s.cells addr
    let x : SlotCopy := { bytes := slot, stamp := stamp, rev := rev, node := node }
    match c.copy with
    | none => s.useCopy addr x false
    | some p =>
      if c.tie then s.useCopy addr x false
      else if p.both || p.rev = rev then s
      else
        let mism := p.bytes ≠ slot
        let s1 := if mism then (((s.bump (R.RNG.MISCNT ring)).irq (0x30 + ring) 1).fault Src.COPY_MISMATCH (0x30 + ring)
          (ring + addr * 256) 0x28 4) else s
        if x.before p then s1.useCopy addr { x with both := true } mism
        else
          let pidx := s.regN R.TRG.PIDX
          let w9 := recWord9 false (byteAt p.bytes 2 == 0x80) p.rev true mism (s.notRanged addr) c.tie pidx
          let s2 := { s1 with cells := NMap.put {} s1.cells addr { c with copy := some { p with both := true } } }
          if c.bad then s2 else s2.portWord (recAt pidx addr + 36) (wd w9)

/-- RSTA takes the origin of a valid collector copy (R174); IRQS[0] when the origin it reports, head or node and the node's
position, differs from the last (log 139). -/
def State.originRx (s : State) (ring : Nat) (rev node : Bool) (pos : Nat) : State :=
  let k := R.RNG.RSTA ring
  let nodeBit := if rev then 3 else 2
  let posLo := if rev then 8 else 5
  let p := if node then pos else 0
  let r := NMap.get {} s.rings ring
  let wasHead := NMap.get false r.headOrig (b2n rev)
  let s1 := ((s.setB k (b2n rev) (!node)).setB k nodeBit node).setF k posLo 3 p
  let s2 := { s1 with rings := NMap.put {} s1.rings ring { r with headOrig := NMap.put false r.headOrig (b2n rev) (!node) } }
  let s3 := s2.when (s.regB k nodeBit ≠ node || s.regF k posLo 3 ≠ p) fun t => t.irq (0x30 + ring) 0
  s3.when (node && wasHead) fun t => t.fault Src.RING_BREAK (0x30 + ring) ring 0x28 4

/-- The last copy of a direction was not valid: FOK or ROK clears (R174, R194). -/
def State.copyBad (s : State) (ring : Nat) (rev : Bool) : State := s.setB (R.RNG.RSTA ring) (b2n rev) false

/-- A collector copy arrives: checks, lateness, its valid slots (R44, R157, R172). -/
def State.collectorRx (s : State) (ring : Nat) (rev : Bool) (f : RxFrame) : State :=
  match s.rxTake ring rev f with
  | none => s
  | some (s0, g) =>
    match frameCheck ring rev g with
    | some off => (s0.frameErr ring off).copyBad ring rev
    | none =>
      let pidx := s0.regN R.TRG.PIDX
      let fp := framePidx g.bytes
      let tTC := s0.plan.start + s0.regF R.TRG.TTC 0 20
      if frameType g.bytes ≠ 2 then s0
      else if s0.plan.started && ((fp = pidx && decide ((tTC : Int) < eofStamp g)) || (fp + 1) % 65536 = pidx) then
        ((s0.bump (R.RNG.LATECNT ring)).fault Src.COLL_LATE (0x30 + ring) (ring + b2n rev * 32) 0x28 4).copyBad ring rev
      else if !s0.plan.started || fp ≠ pidx then (s0.bump (R.RNG.HDRCNT ring)).copyBad ring rev
      else
        let n := s0.ringCells ring
        let ts := s0.regF (R.RNG.RCFG ring) 16 8
        let pl := framePayload g.bytes
        let s1 := s0.originRx ring rev (frameOrig g.bytes) (framePos g.bytes)
        (List.range n).foldl (fun t p =>
          t.slotRx (ring * 8 + p) rev (frameOrig g.bytes) (eofStamp g).toNat ((pl.drop (p * ts)).take ts)) s1

/-! ### Telemetry close (R44, R193, R224) -/

/-- A cell's slot at t_TC: stale where no valid copy arrived (R172, R173, R190, R328). -/
def State.closeCell (s : State) (addr : Nat) : State :=
  let ring := addr / 8
  let c := NMap.get {} s.cells addr
  let put (t : State) (k : CellRx) : State := { t with cells := NMap.put {} t.cells addr k }
  let inc (n : Nat) : Nat := if n < 255 then n + 1 else 255
  match (if c.bad then none else c.copy) with
  | some p =>
    let f := p.both || !p.rev
    let r := p.both || p.rev
    (put s { c with stale := 0, ageF := if f then 0 else inc c.ageF, ageR := if r then 0 else inc c.ageR }).setB
      (R.RNG.RSTA ring) (16 + addr % 8) false
  | none =>
    let run := inc c.stale
    let pidx := s.regN R.TRG.PIDX
    let s1 := put s { c with stale := run, ageF := inc c.ageF, ageR := inc c.ageR,
                             srsync := c.srsync || run = s.coastMax ring }
    let w9 := wd (recWord9 true false false false false (s.notRanged addr) false pidx)
    let s1m := s1.portWord (recAt pidx addr + 36) w9
    let s2 := (s1m.setB (R.RNG.RSTA ring) (16 + addr % 8) true).bump (R.RNG.STALECNT ring)
    let s3 := (s2.when (run = 2) fun t => t.fault Src.SLOT_STALE (0x30 + ring) (ring + addr * 256) 0x28).when
      (Nat.ble 2 run) fun t => t.svLinkLost fun _ v => v.dst == addr
    s3.when (run = s.staleMax && s.inMap addr && s.plan.run) fun t => t.jigEvent addr 5

/-- The cell addresses of the loaded ring map. -/
def State.ringAddrs (s : State) : List Nat :=
  ((List.range 32).map fun r => (List.range (s.ringCells r)).map fun p => r * 8 + p).flatten

/-- Telemetry close over every cell, the phase words and the undervoltage check of every arm. -/
def State.telemetryClose (s : State) : State :=
  let arms := List.range (Nat.min s.narm 6)
  let s1 := s.ringAddrs.foldl State.closeCell s
  let s2 := arms.foldl State.phaseArm (arms.foldl State.bootUv s1)
  let below := match s2.mon.cellNow with
    | some p => Nat.blt (p.1 + 4) (s2.regF R.MON.TCHOT 0 8)
    | none => false
  { s2 with mon := { s2.mon with cellHot := s2.mon.cellHot && !below, cellIs := s2.mon.cellNow } }

/-- The slots' copies are forgotten as a period starts. -/
def State.clearCopies (s : State) : State :=
  { s with cells := s.cells.map fun p => (p.1, { p.2 with copy := none, bad := false, tie := false }),
           mon := { s.mon with cellNow := none } }

/-! ### Plan frames -/

/-- Rings of the loaded ring map. -/
def State.ringsInMap (s : State) : List Nat := (List.range 32).filter fun r => Nat.blt 0 (s.ringCells r)

/-- Frames launched at an instant, each on the lane of its ring direction (R116). -/
def State.launch (s : State) (t : Nat) (fs : List (Nat × Bool × List Byte)) : State :=
  s.send (fs.map fun p => s.exlOut p.1 p.2.1 t p.2.2).flatten

/-- The directions of the rings in the map. -/
def State.ringDirs (s : State) : List (Nat × Bool) :=
  (s.ringsInMap.map fun r => [(r, false), (r, true)]).flatten

/-- The collectors of the executing period (R168). -/
def State.collectors (s : State) : List (Nat × Bool × List Byte) :=
  s.ringDirs.map fun d =>
    let len := s.ringCells d.1 * s.regF (R.RNG.RCFG d.1) 16 8
    (d.1, d.2, frameOf (s.header 2 d.1 d.2 len (s.regN R.TRG.PIDX) false) (zeros len))

/-- The beacons of the executing period (R106, R180): full when the index is a multiple of 16. -/
def State.beacons (s : State) : List (Nat × Bool × List Byte) :=
  let pidx := s.regN R.TRG.PIDX
  let t := s.plan.start + s.plan.per - s.regF R.TRG.TCC 0 20
  let pl := if pidx % 16 = 0 then natLe 8 (t + 614) else []
  s.ringDirs.map fun d => (d.1, d.2, frameOf (s.header 3 d.1 d.2 pl.length pidx false) pl)

/-- The slots of one ring framed for period `m` (R160, R165): state, payload, tally. -/
def State.frameRingCmd (s : State) (ring m : Nat) (resync : Bool) : State × List Byte × Tally :=
  let cslot := s.regF (R.RNG.RCFG ring) 8 8
  (List.range (s.ringCells ring)).foldl (fun q p =>
    let r := q.1.frameCell (ring * 8 + p) m cslot resync
    (r.1, q.2.1 ++ r.2.1, q.2.2.add r.2.2)) (s, [], {})

/-- Every ring framed for period `m`: the state, each ring's payload and RESYNC, the counts; RSPEND clears where RESYNC is
sent (R190). -/
def State.frameAll (s : State) (m : Nat) : State × List (Nat × Bool × List Byte) × Tally :=
  let r := s.ringsInMap.foldl (fun (q : State × List (Nat × Bool × List Byte) × Tally) ring =>
    let resync := q.1.regB (R.RNG.RSTA ring) 4
    let a := q.1.frameRingCmd ring m resync
    let t := if resync && s.cmdGoes ring then (a.1.setB (R.RNG.RSTA ring) 4 false).irq (0x30 + ring) 3 else a.1
    (t, q.2.1 ++ [(ring, resync, a.2.1)], q.2.2.add a.2.2)) (s, [], {})
  ({ r.1 with edge := { r.1.edge with frzCells := 0 } }, r.2)

/-- The command frames of the rings framed, in both directions (R165). -/
def State.commands (s : State) (m : Nat) (l : List (Nat × Bool × List Byte)) : List (Nat × Bool × List Byte) :=
  (l.map fun q =>
    let fr (rev : Bool) := (q.1, rev, frameOf (s.header 1 q.1 rev q.2.2.length m q.2.1) q.2.2)
    [fr false, fr true]).flatten

/-- By t_CC every slot as sent stands in its image (R203). -/
def State.writeBackSlots (s : State) (m : Nat) : State :=
  s.ringAddrs.foldl (fun t a => t.portBytes (imageAt m a) (NMap.get {} s.cells a).sent) s

/-! ### Capture streams and FORCE -/

/-- Bytes of the shortest record of a valid capture frame: record header, block header, one block (R186). -/
abbrev capLeast : Nat := 56

/-- CAPWP gives the offset of the next record: CAPB where it stands outside the area, or no record fits before its end (R186). -/
def State.capSettle (s : State) (ring : Nat) : State :=
  let b := s.regN (R.RNG.CAPB ring)
  let wp := s.regN (R.RNG.CAPWP ring)
  if b ≤ wp && wp + capLeast ≤ b + s.regN (R.RNG.CAPL ring) then s else s.setReg (R.RNG.CAPWP ring) (wd b)

/-- A capture record stored circularly (R186). -/
def State.captureRx (s : State) (ring : Nat) (rev : Bool) (f : RxFrame) : State :=
  match s.rxTake ring rev f with
  | none => s
  | some (s0, g) =>
    match frameCheck ring rev g with
    | some off => s0.frameErr ring off
    | none =>
      let pl := framePayload g.bytes
      let b := s0.regN (R.RNG.CAPB ring)
      let l := s0.regN (R.RNG.CAPL ring)
      let body := natLe 2 pl.length ++ [BitVec.ofNat 8 (framePos g.bytes), 0] ++ natLe 4 (bitsOfInt 32 (sofStamp g)) ++ pl
      let rec_ := body ++ zeros ((8 - body.length % 8) % 8)
      if frameType g.bytes ≠ 8 || !s0.regB (R.RNG.RCTL ring) 16 || l < rec_.length then s0
      else
        let wp := s0.regN (R.RNG.CAPWP ring)
        let at_ := if b ≤ wp && wp + rec_.length ≤ b + l then wp else b
        (({ s0 with mem := s0.mem.writeBytes (capBase + at_) rec_ }.setReg (R.RNG.CAPWP ring) (wd (at_ + rec_.length))).capSettle
          ring).irq (0x30 + ring) 4

/-- FORCE[7:0]: SRSYNC for the named positions (R190). -/
def State.forceSrsync (s : State) (ring mask : Nat) : State :=
  ((List.range 8).filter fun p => mask.testBit p).foldl (fun t p => t.srsyncAt (ring * 8 + p)) s

end Sys2Proof.Machine
end

