-- ==== Sys2Proof/Machine/Shift.lean ====
section
/-!
DEFINITION. Sys2Proof/Machine/Shift.lean: clock outputs in the time of their source (R482 to R484), and the instants from
which the block counts cycles or time, moved with a step of DT64 so that what has passed since then stays as it is (R96).
Readings and choices (notes/assumptions): DESIGN CHOICE 5; DEDUCED 78, 105.
-/
namespace Sys2Proof.Machine

/-! ### Clock outputs (R482 to R484) -/

/-- HIGH as used: half of DIV for 0, at most DIV − 1. -/
def clkHigh (div high : Nat) : Nat := if high = 0 then div / 2 else if div ≤ high then div - 1 else high

/-- The first instant from `t` on at which an output with a delay and period rises. -/
def clkRise (t : Nat) (dly : Int) (per : Nat) : Nat := t + ((dly - (t : Int)) % (per : Int)).toNat

/-- The time of a source at an instant of ring time: ru of ring time, or cycles of the source, whose relation to ring time is a
free value. -/
def clkNow (src t : Nat) : Nat := if src = 0 then t else Config.srcCycles src t

/-- Where cycle `i` of the 16 of undefined phase begins: whole cycles from `o` on whose phase is free, later and later up to
the alignment of R483 (R21, R484). -/
def ClkSet.looseCycle (c : ClkSet) (o seed i : Nat) : Nat :=
  let slack := c.start - (o + 16 * c.per)
  o + i * c.per + (List.range (i + 1)).foldl (fun m j => Nat.max m ((Config.freeWord (seed + j)).toNat % (slack + 1))) 0

/-- End of the cycle a setting is in at an instant of its time; the instant itself while it has not risen. -/
def ClkSet.cycleEnd (c : ClkSet) (t : Nat) : Nat :=
  if t ≤ c.start then
    match c.open_ with
    | some (o, seed) => (List.range 16).foldl (fun e i =>
        if c.looseCycle o seed i ≤ t then c.looseCycle o seed i + c.per else e) t
    | none => t
  else c.start + (t - c.start + c.per - 1) / c.per * c.per

/-- A setting has risen by an instant of its time; one that has not leaves the cycle of the setting before it to finish
(R484). -/
def ClkSet.begun (c : ClkSet) (t : Nat) : Bool :=
  Nat.blt c.start t || c.open_.any fun x => Nat.ble (c.looseCycle x.1 x.2 0) t

/-- What finishes of an output as its setting ends at an instant of ring time: the cycle it is in, or that of the setting before
(R484). -/
def ClkOut.ended (o : ClkOut) (t : Nat) : Option ClkSet :=
  match o.cur with
  | some c => if c.begun (clkNow c.src t) then some { c with stop := some (c.cycleEnd (clkNow c.src t)) } else o.prev
  | none => o.prev

/-- The level of a setting at an instant of its time: whole cycles, in the 16 of undefined phase too (R21, R484). -/
def ClkSet.level (c : ClkSet) (t : Nat) : Bool :=
  if c.stop.any fun e => Nat.ble e t then false
  else if t < c.start then
    match c.open_ with
    | some (o, seed) => (List.range 16).any fun i =>
        Nat.ble (c.looseCycle o seed i) t && Nat.blt t (c.looseCycle o seed i + c.high)
    | none => false
  else decide ((t - c.start) % c.per < c.high)

/-! ### A step of DT64 by −e (R96) -/

/-- An instant of DT64 before the step, as the stepped DT64 counts it. -/
def shiftAt (e : Int) (t : Nat) : Nat := ((t : Int) - e).toNat

/-- A setting of SRC 0 as the stepped ring time counts it. -/
def ClkSet.shift (e : Int) (c : ClkSet) : ClkSet :=
  if c.src ≠ 0 then c
  else { c with start := shiftAt e c.start, stop := c.stop.map (shiftAt e), open_ := c.open_.map fun p => (shiftAt e p.1, p.2) }

/-- An output aligned to ring time finishes the cycle it is in and then stays low until its first rising instant of the stepped
ring time (R483, R484: log 105). -/
def ClkOut.shift (e : Int) (now : Nat) (o : ClkOut) : ClkOut :=
  match o.cur with
  | some c =>
    if c.src ≠ 0 then { o with prev := o.prev.map (ClkSet.shift e) }
    else
      let p := (o.ended now).map (ClkSet.shift e)
      let from_ := Nat.max (shiftAt e now) ((p.bind (·.stop)).getD 0)
      { cur := some { c with start := clkRise from_ (c.start : Int) c.per, stop := none, open_ := none }, prev := p }
  | none => { o with prev := o.prev.map (ClkSet.shift e) }

def Land.shift (e : Int) (l : Land) : Land :=
  { l with up := l.up.map (shiftAt e), down := l.down.map (shiftAt e), low := shiftAt e l.low }

def LocalLeg.shift (e : Int) (l : LocalLeg) : LocalLeg :=
  { l with start := shiftAt e l.start, hi := l.hi.shift e, lo := l.lo.shift e,
           blank := l.blank.map fun w => (shiftAt e w.1, shiftAt e w.2) }

/-- The cycles of a chopper: since its turn-on, its duty counter's last count, its last result, and the results under way (R386
to R389). -/
def Chopper.shift (e : Int) (x : Chopper) : Chopper :=
  { x with onAt := shiftAt e x.onAt, aAt := shiftAt e x.aAt, used := shiftAt e x.used, x := x.x.map fun q => (q.1, shiftAt e q.2),
           land := x.land.shift e }

def Local.shift (e : Int) (l : Local) : Local :=
  { l with legs := l.legs.map fun p => (p.1, p.2.shift e), chop := l.chop.map fun p => (p.1, p.2.shift e),
           trips := l.trips.map fun p => (p.1, { p.2 with since := p.2.since.map (shiftAt e) }) }

def Clk.shift (e : Int) (now : Nat) (c : Clk) : Clk :=
  { c with aSince := c.aSince.map (shiftAt e), swAt := c.swAt.map (shiftAt e), outs := c.outs.map fun p => (p.1, p.2.shift e now) }

/-- A lane's training exchange, and the end of its last frame in 1/5 ru. -/
def Lane.shift (e : Int) (l : Lane) : Lane :=
  { l with trainAt := l.trainAt.map (shiftAt e), end5 := shiftAt (5 * e) l.end5,
           train := { l.train with entered := shiftAt e l.train.entered, lastRx := shiftAt e l.train.lastRx,
                                   settled := shiftAt e l.train.settled } }

def Pair.shift (e : Int) (p : Pair) : Pair :=
  { p with edgeAt := shiftAt e p.edgeAt, claimAt := shiftAt e p.claimAt, litAt := p.litAt.map (shiftAt e) }

def Rst.shift (e : Int) (r : Rst) : Rst :=
  { r with low := r.low.map (shiftAt e), drive := shiftAt e r.drive, roseAt := shiftAt e r.roseAt, sysAt := shiftAt e r.sysAt }

def Jig.shift (e : Int) (j : Jig) : Jig :=
  { j with inst := j.inst.map fun p => (p.1, { p.2 with tAt := p.2.tAt.map (shiftAt e), entered := shiftAt e p.2.entered,
                                                        chg := shiftAt e p.2.chg }) }

/-- The safety cycles: the watchdogs and an off-pulse run on; an instant that the stepped DT64 has yet to reach is met again
(R416, R417, R435). -/
def Sft.shift (e : Int) (now : Nat) (x : Sft) : Sft :=
  { x with lastTick := x.lastTick.map (shiftAt e), test := x.test.map fun q => (q.1, shiftAt e q.2),
           image := Nat.min x.image ((shiftAt e now + 8319999) / 8000000),
           tick := Nat.min x.tick ((shiftAt e now + 7999999) / 8000000) }

/-- Cycles and times that run on through a step of DT64 by −e: choppers, lands and their blanking, clocks and clock outputs,
lanes, the safety cycles, the claim interlock, the reset controller, Jig timers, the intervals and the transmitters of the Ethernet ports, and
Scribe's drive that is due. -/
def State.shiftTimes (s : State) (e : Int) : State :=
  { s with loc := s.loc.shift e, clk := s.clk.shift e s.dt64, lanes := s.lanes.map fun p => (p.1, p.2.shift e),
           pair := s.pair.shift e, rst := s.rst.shift e, jig := s.jig.shift e,
           eth := s.eth.map fun p => (p.1, { p.2 with reqAt := p.2.reqAt.map (shiftAt e) }),
           sft := s.sft.shift e s.dt64,
           fq := s.fq.map fun p => (p.1, { p.2 with busy := shiftAt e p.2.busy }),
           scribe := { s.scribe with resetDue := s.scribe.resetDue.map (shiftAt e), freeAt := s.scribe.freeAt.map (shiftAt e) } }

end Sys2Proof.Machine
end

