-- ==== Sys2Proof/Machine/Datum.lean ====
section
/-!
DEFINITION. Sys2Proof/Machine/Datum.lean: ring time and its servo, snapshots, the programmable Class S channels, PPS,
PTP, the Ethernet descriptor rings, Class F queues and Traverse (chapter 03).
Readings and choices (notes/assumptions): DEDUCED 26, 27, 28, 29, 30, 31, 32, 33, 34, 35, 36, 45, 105, 127, 176;
  DESIGN CHOICE 140, 141, 142, 173, 174; PRESUMED 169.
-/
namespace Sys2Proof.Machine

/-! ### Snapshots (R89) -/

/-- A read of SNAPL by an agent latches the pair of that agent. -/
def State.snapL (s : State) (who : Nat) : State :=
  { s with host := { s.host with snap := NMap.put none s.host.snap who (some (wd (s.dt64 / 2 ^ 32), wd s.dt64)) } }

/-- What a read of SNAPH returns to an agent: its latched high word; with no earlier SNAPL read an undefined value. -/
def State.snapH (s : State) (who : Nat) : State × Word :=
  match NMap.get none s.host.snap who with
  | some p => (s, p.1)
  | none => (s.useFree, s.freeWord)

/-! ### Datum (R91 to R99) -/

/-- Datum's page. -/
abbrev dtmPage : Nat := 0x08

/-- Datum enters a state; a change sets IRQS[0]. -/
def State.datumState (s : State) (st : Nat) : State :=
  if s.dstate = st then s else (s.setF R.DTM.DTSTA 0 3 st).irq dtmPage 0

/-- Band limits and gains (R119). -/
def srvb (n : Nat) : Nat := R.DTM.SRVB0 + 8 * n
def srvk (n : Nat) : Nat := R.DTM.SRVK0 + 8 * n

/-- The ±200 ppm and ±2 ppm limits, in 2^-48. -/
abbrev ppm200 : Int := 219902326 * 256
abbrev ppm2 : Int := 2199023 * 256

/-- `z` saturated to ±(2^31 − 1) (OFFS, FOREIGN, POFS, TOFS). -/
def satSym (z : Int) : Int := clampInt (-2147483647) 2147483647 z

/-- The band of an error: the first n with |e| < SRVB[n]; the last where none is. -/
def State.srvBand (s : State) (e : Int) : Nat :=
  if e.natAbs < s.regN (srvb 0) then 0
  else if e.natAbs < s.regN (srvb 1) then 1
  else if e.natAbs < s.regN (srvb 2) then 2
  else 3

/-- One run of the servo on an error (R93); `slew` while Datum corrects by slewing (R95). -/
def State.servo (s : State) (e : Int) (slew : Bool) : State :=
  let d := s.datum
  let k := s.reg (srvk (s.srvBand e))
  let f0 := d.fint + ((k.fld 0 16 : Nat) : Int) * e
  let fint := clampInt (-ppm200) ppm200 f0
  let t0 := fint + ((k.fld 16 16 : Nat) : Int) * e
  let sl : Int := ((Nat.min (s.regN R.DTM.SLEWMAX) 0x00A7C5AC : Nat) : Int) * 256
  let t1 := if slew then clampInt (d.favg - sl) (d.favg + sl) t0 else t0
  let t2 := clampInt (-ppm200) ppm200 t1
  let fadj := d.fadj + clampInt (-ppm2) ppm2 (t2 - d.fadj)
  let hist := (fadj :: d.hist).take 16
  let s1 := ({ s with datum := { d with fint := fint, fadj := fadj, hist := hist } }.setReg R.DTM.FADJ
    (wdInt (freeRound fadj 256)))
  s1.when (fint ≠ f0 || t2 ≠ t1) fun t => (t.irq dtmPage 4).fault Src.SERVO_CLAMP dtmPage

/-- While LOCKED, FAVG is the mean of the last 16 FADJ values (R94). -/
def State.datumAvg (s : State) : State :=
  if s.dstate ≠ 2 then s
  else
    let d := s.datum
    let avg := freeRound (d.hist.foldl (· + ·) 0) d.hist.length
    { s with datum := { d with favg := avg } }.setReg R.DTM.FAVG (wdInt (freeRound avg 256))

/-- The state after an accepted measurement with error `x` (R92). -/
def State.datumJudge (s : State) (x : Int) : State :=
  let st := s.dstate
  let good := if x.natAbs < s.regN (srvb 0) then s.datum.good + 1 else 0
  let s1 := { s with datum := { s.datum with good := good, lastMeas := s.dt64 } }
  if st = 2 then (if s.regN (srvb 1) ≤ x.natAbs then s1.datumState 1 else s1)
  else if st = 1 && Nat.ble 8 good then s1.datumState 2
  else s1.datumState 1

/-- A foreign offset is held, replaced or dropped. -/
def State.setForeign (s : State) (f : Option Int) : State :=
  ({ s with datum := { s.datum with foreign := f } }.setB R.DTM.DTSTA 5 f.isSome).setReg R.DTM.FOREIGN
    (wdInt (satSym (f.getD 0)))

/-- DT40 target of a one-shot channel TS5 + i. -/
def State.tsTarget (s : State) (i : Nat) : Nat := s.regN (R.TRG.TSTGT i) + s.regF (R.TRG.TSCFG i) 8 8 * 2 ^ 32

/-- A programmable channel fires: IRQS, its bit in `firedAt`, and a one-shot one clears EN (R113, R120). -/
def State.tsFire (s : State) (i at_ : Nat) : State :=
  let s1 := { s with plan := { s.plan with firedAt := NMap.ins s.plan.firedAt (5 + i) at_ } }
  (s1.when (s1.regB (R.TRG.TSCFG i) 1) fun t => t.setB (R.TRG.TSCFG i) 0 false).irq 0x09 (5 + i)

/-- An armed one-shot channel whose target is past fires at once after a step (R96). -/
def State.dueAfterStep (s : State) : State :=
  (List.range 11).foldl (fun t i =>
    let c := t.reg (R.TRG.TSCFG i)
    t.when (c.bit 0 && c.bit 1 && reached 40 (t.tsTarget i) t.dt64) fun u => u.tsFire i u.dt64) s

/-- Queued Class F targets that a step made past (R96). -/
def State.fqAfterStep (s : State) : State :=
  { s with fq := s.fq.map fun p => (p.1, { p.2 with q := p.2.q.map fun e =>
      match e.target with
      | some t => { e with past := e.past || reached 40 t s.dt64 }
      | none => e }) }

/-- A start of the frame plan that reached the DTM domain in the cycle of a step is ordered after it: S(0) is timed from the
stepped DT64 (R98, R114). -/
def State.restartAfter (s : State) (cycle : Nat) : State :=
  if s.plan.run && !s.plan.started && s.plan.asked == some cycle then
    { s with plan := { s.plan with start := upTo s.plan.per (s.dt64 + 256000), asked := some s.dt64 } }
  else s

/-- DT64 is stepped by −e (R95, R96). The cycles and times that run since an instant run on: DEDUCED (log 176). -/
def State.stepTime (s : State) (e : Int) : State :=
  let s0 := s.shiftTimes e
  let s1 := { s0 with dt64 := bitsOfInt 64 ((s.dt64 : Int) - e), datum := { s.datum with fint := 0 },
                      meas := { s.meas with ofs := bitsOfInt 64 ((s.meas.ofs : Int) + e) } }
  (((s1.restartAfter s.dt64).irq dtmPage 1).fault Src.TIME_STEP dtmPage).dueAfterStep.fqAfterStep

/-- One accepted measurement e, ru (R92 to R98). In HOLDOVER none is accepted. A start accepted in the same cycle counts as
later than a step (R98). -/
def State.measure (s : State) (e : Int) : State :=
  if s.dstate = 4 then s
  else
    let s0 := s.setReg R.DTM.OFFS (wdInt (satSym e))
    let s1 := if s0.datum.autostep then { s0 with datum := { s0.datum with autostep := false } }.setForeign none else s0
    let lim := s1.regN R.DTM.STEPLIM
    let hold (t : State) (x : Int) : State :=
      (((t.setForeign (some e)).irq dtmPage 2).fault Src.TIME_FOREIGN dtmPage).datumJudge x
    match s1.datum.foreign with
    | some f => if lim < (e - f).natAbs then hold s1 (e - f) else ((s1.servo (e - f) false).datumJudge (e - f)).datumAvg
    | none =>
      if e.natAbs ≤ lim then ((s1.servo e true).datumJudge e).datumAvg
      else if s1.plan.run && !(!s1.plan.started && s1.plan.asked == some s1.dt64) then hold s1 e
      else (s1.stepTime e).datumJudge e

/-- No measurement for GMTO ms: COAST on the FAVG held at entry, GM_LOST (R92, R94). A source that has never delivered a
measurement leaves Datum in FREE, whatever time passes: DESIGN CHOICE (log 141). -/
def State.gmLost (s : State) : State :=
  if s.dstate = 1 || s.dstate = 2 then
    let s1 := s.reach (s.datum.lastMeas + s.regF R.DTM.DTCTL 16 16 * 16000000)
    let s2 := { s1 with datum := { s1.datum with fadj := s1.datum.favg, good := 0 } }
    (((s2.setReg R.DTM.FADJ (wdInt (freeRound s2.datum.fadj 256))).datumState 3).irq dtmPage 3).fault Src.GM_LOST dtmPage
  else s

/-- DTCTL.FCLR: a held foreign offset is cleared while no frame plan runs (R97). -/
def State.foreignClear (s : State) : State :=
  if s.plan.run then s else { s with datum := { s.datum with autostep := false } }.setForeign none

/-- A new source: with SRC = 0 Datum is in FREE (R92). -/
def State.datumSource (s : State) : State :=
  if s.regF R.DTM.DTCTL 0 2 ≠ 0 then s
  else if s.dstate = 4 then { s with datum := { s.datum with left := some 0 } }
  else { s with datum := { s.datum with good := 0 } }.datumState 0

/-- Does the head take measurements from a source (R92, R362)? While a paired head is not ACTIVE its source is the
tie. -/
def State.sourceIs (s : State) (src : Nat) : Bool :=
  s.regF R.DTM.DTCTL 0 2 == src && (!s.regB R.HPR.PCFG 0 || s.regF R.HPR.HSTA 0 3 == 4)

/-- Time valid as frames carry it. -/
def State.setTv (s : State) (b : Bool) : State :=
  { s with datum := { s.datum with tv := b } }.setB R.DTM.DTSTA 3 b

/-- Datum enters HOLDOVER on loss of PLL-T lock (R99). -/
def State.datumHoldover (s : State) : State :=
  if s.dstate = 4 then s
  else ({ s with datum := { s.datum with left := some s.dstate, tvDue := false } }.datumState 4).setTv false

/-- After relock Datum returns to the state it left; time is valid from the next period boundary (R99). With no frame plan
running there is no boundary to wait for, and time is valid at the relock: DESIGN CHOICE (log 140). The count of GMTO begins
anew at the relock: DESIGN CHOICE (log 141). -/
def State.datumRelock (s : State) : State :=
  if s.dstate ≠ 4 then s
  else
    let s1 := { s with datum := { s.datum with left := none, tvDue := true, lastMeas := s.dt64 } }.datumState
      (s.datum.left.getD 0)
    s1.when (!s1.plan.run) fun t => { t with datum := { t.datum with tvDue := false } }.setTv true

/-! ### PPS (R105) -/

/-- The rising edge of PPS_IN stamped at ring time: phase against the nearest whole second. An edge half a second from two
whole seconds counts from the later one, e = −0.5 s: DESIGN CHOICE (log 142). -/
def State.ppsEdge (s : State) (stamp : Nat) : State :=
  if !s.sourceIs 3 then s
  else
    let t := (stamp : Int) - s.regI R.DTM.PPSCORR
    (s.reach stamp).measure ((t + 8000000000) % 16000000000 - 8000000000)

/-! ### Programmable Class S channels (R113, R87) -/

/-- The channel of the kind is periodic, enabled and its offset lies within the period. -/
def State.periodicDue (s : State) (i : Nat) : Bool :=
  s.plan.started && decide (s.regF (R.TRG.TSTGT i) 0 20 < s.plan.per)

/-- Does a converter, a modulator filter or a local bridge name the channel: then it is of the land kind (R88, R112)? -/
def State.landKind (s : State) (k : Nat) : Bool :=
  ((List.range 4).any fun n => (s.regB (R.CNV.CVCFG n) 1 && s.regF (R.CNV.CVCFG n) 28 4 == k) ||
      (s.regB (R.CNV.UCFG n) 16 && s.regF (R.CNV.UCFG n) 20 4 == k)) ||
    (List.range 16).any fun i => s.regB (R.MOD.MDCFG i) 7 && s.regF (R.MOD.MDCFG i) 28 4 == k

/-- A channel acts at its target to 1 ru where it is of the land kind, else in the DTM cycle that has reached it (R88). -/
def State.tsAt (s : State) (k target : Nat) : Nat := if s.landKind k then target else s.dt64

/-- TS5 to TS15 fire: periodic ones once in each period of a running plan, one-shot ones at their target, clearing EN. -/
def State.channelFire (s : State) (k : Nat) : State :=
  if k < 5 || 15 < k then s
  else
    let i := k - 5
    let c := s.reg (R.TRG.TSCFG i)
    if !c.bit 0 then s
    else if c.bit 1 then
      let d := (s.tsTarget i + 2 ^ 40 - s.dt64 % 2 ^ 40) % 2 ^ 40
      if d < 2 ^ 39 then
        let s1 := s.elapse d
        s1.tsFire i (s1.tsAt k ((s.dt64 + d) % 2 ^ 64))
      else s.tsFire i s.dt64
    else
      let tgt := (if c.bit 2 then s.plan.boundary else s.plan.start) + s.regF (R.TRG.TSTGT i) 0 20
      if s.plan.fired.testBit k || !s.periodicDue i || s.passed tgt then s
      else
        let s1 := s.reach tgt
        { s1 with plan := { s1.plan with fired := s1.plan.fired ||| 2 ^ k } }.tsFire i (s1.tsAt k tgt)

/-- The instant at which a channel of Class S last fired in the running plan, as far as it has (R112). -/
def State.firing (s : State) (k : Nat) : Option Nat :=
  if k = 0 then (if s.plan.started then some s.plan.start else none)
  else if k < 4 then
    let at_ := if k = 1 then s.plan.start + s.regF R.TRG.TTC 0 20
      else s.plan.start + s.plan.per - (if k = 2 then s.regF R.TRG.TML 0 20 else s.regF R.TRG.TCC 0 20)
    if s.plan.started && Nat.ble at_ s.dt64 then some at_ else none
  else if k = 4 then (if s.plan.started then some s.plan.boundary else none)
  else NMap.get none (s.plan.firedAt.map fun p => (p.1, some p.2)) k

/-! ### PTP (R102 to R104) -/

/-- Is a port up: enabled, with link? -/
def State.ethUp (s : State) (p : Nat) : Bool := s.regB (R.ETH.ECFG p) 0 && (NMap.get {} s.eth p).link

/-- ENn_TXDIS is high: the port's SFP transmitter is disabled (R581). -/
def State.enTxdis (s : State) (p : Nat) : Bool := !s.regB (R.ETH.ECFG p) 0

/-- The ENn_VCC lands supply the SFP cages from the release of SYS on (R581). -/
def State.enVcc (s : State) : Bool := !s.rst.held.testBit 0

def State.setEth (s : State) (p : Nat) (e : EthPort) : State := { s with eth := NMap.put {} s.eth p e }

/-- The configured master of a port. -/
def State.masterIs (s : State) (p : Nat) (m : PtpMsg) : Bool :=
  s.regN (R.ETH.MIDL p) + s.regN (R.ETH.MIDH p) * 2 ^ 32 == m.mid.toNat && s.regF (R.ETH.MPORT p) 0 16 == m.mport.toNat

/-- An event message is accepted in the port's transport and domain from the master, or from the first master heard with ANYM = 1 (R104). -/
def State.ptpAccept (s : State) (p : Nat) (m : PtpMsg) : Option State :=
  let c := s.reg (R.ETH.ECFG p)
  if !(s.ethUp p && c.bit 2 && c.bit 3 == m.udp && c.fld 8 8 == m.domain.toNat) then none
  else if c.bit 5 && !(NMap.get {} s.eth p).heard then
    let s1 := s.setEth p { NMap.get {} s.eth p with heard := true }
    some ((((s1.setReg (R.ETH.MIDL p) (wd m.mid.toNat)).setReg (R.ETH.MIDH p) (wd (m.mid.toNat / 2 ^ 32))).setReg
      (R.ETH.MPORT p) (wd m.mport.toNat)).irq (0x0A + p) 3)
  else if s.masterIs p m then some s
  else none

/-- EPOCH, seconds (R90). -/
def State.epoch (s : State) : Nat := s.regN R.DTM.EPOCHL + s.regF R.DTM.EPOCHH 0 16 * 2 ^ 32

/-- A PTP time-stamp as ring time, in 1/4096 ru, with a correction field of 2^-16 ns (R90, R103). -/
def State.ptpTime (s : State) (sec ns : Nat) (corr : Int) : Int :=
  (((sec : Int) - s.epoch) * 16000000000 + 16 * (ns : Int)) * 4096 + corr

/-- Receive and transmit stamps of PTP event messages: + 64 ns (R102), in 1/4096 ru. -/
def State.ptpRx (s : State) (p : Nat) (m : PtpMsg) : Int := (rxStamp m.rx m.phase (s.regI (R.ETH.RXCORR p)) + 1024) * 4096
def State.ptpTx (s : State) (p stamp : Nat) : Int := (txStamp stamp (s.regI (R.ETH.TXCORR p)) + 1024) * 4096

/-- A complete Sync of a port: its offset with the latest mean path delay; a measurement where the port is Datum's
source (R104). Before any path delay has been measured, the latest one is the 0 that MPD holds at reset: DESIGN CHOICE
(log 142). -/
def State.ptpOffset (s : State) (p : Nat) (t1 t2 : Int) : State :=
  let e := freeRound (2 * (t2 - t1) - (NMap.get {} s.eth p).mpd) 8192
  let s1 := (s.setEth p { NMap.get {} s.eth p with t12 := some (t1, t2), sync := none }).setReg (R.ETH.POFS p)
    (wdInt (satSym e))
  s1.when (s1.sourceIs (1 + p)) fun t => t.measure e

/-- A Sync arrives. -/
def State.ptpSync (s : State) (p : Nat) (m : PtpMsg) : State :=
  match s.ptpAccept p m with
  | none => s
  | some s0 =>
    let s1 := s0.reach m.rx
    let t2 := s1.ptpRx p m
    if m.twoStep then s1.setEth p { NMap.get {} s1.eth p with sync := some (m.seq.toNat, t2, m.corr) }
    else s1.ptpOffset p (s1.ptpTime m.sec m.ns m.corr) t2

/-- The Follow_Up of a two-step Sync arrives. -/
def State.ptpFollowUp (s : State) (p : Nat) (m : PtpMsg) : State :=
  match s.ptpAccept p m with
  | none => s
  | some s0 =>
    match (NMap.get {} s0.eth p).sync with
    | some (q, t2, corr) => if q = m.seq.toNat then s0.ptpOffset p (s0.ptpTime m.sec m.ns (m.corr + corr)) t2 else s0
    | none => s0

/-- The interval of requests, 2^−DREQ s (R121). DREQ values 8 to 15, beyond the 0 to 7 the field names, are held and used as
written: DESIGN CHOICE (log 173). -/
def State.reqEvery (s : State) (p : Nat) : Nat := 16000000000 / 2 ^ s.regF (R.ETH.ECFG p) 16 4

/-- Time for which a port's transmitter is busy with a frame of some octets, at 1000 Mb/s with its 8 octets of preamble (log
33), ru. -/
def ethTime (octets : Nat) : Nat := 128 * (octets + 8)

/-- Octets of the frame of a Delay_Req or Pdelay_Req, in the lengths IEEE 1588 and Ethernet give it: PRESUMED (log 169). -/
def reqOctets (peer udp : Bool) : Nat := Nat.max 64 (18 + (if udp then 28 else 0) + (if peer then 54 else 44))

/-- The slave sends a Delay_Req or Pdelay_Req in the port's transport, one interval after its last, on a free transmitter, which
it then occupies (R103, R115, R121). -/
def State.ptpReq (s : State) (p stamp : Nat) : State :=
  let e := NMap.get {} s.eth p
  let f := NMap.get {} s.fq (64 + p)
  let due := match e.reqAt with
    | some t => Nat.ble (t + s.reqEvery p) stamp
    | none => true
  if !(s.ethUp p && s.regB (R.ETH.ECFG p) 2) || !due || s.passed stamp || Nat.blt stamp f.busy then s
  else
    let s1 := s.reach stamp
    let q := (e.seq + 1) % 65536
    let peer := s.regB (R.ETH.ECFG p) 4
    let udp := s.regB (R.ETH.ECFG p) 3
    { s1.setEth p { e with seq := q, req := some (q, s1.ptpTx p stamp), reqAt := some stamp } with
      fq := NMap.put {} s1.fq (64 + p) { f with busy := stamp + ethTime (reqOctets peer udp) },
      out := [.ptp p stamp q peer udp] }

/-- The response arrives: the mean path delay (R103). -/
def State.ptpResp (s : State) (p : Nat) (m : PtpMsg) : State :=
  match s.ptpAccept p m with
  | none => s
  | some s0 =>
    let e := NMap.get {} s0.eth p
    match e.req with
    | none => s0
    | some (q, t3) =>
      if q ≠ m.seq.toNat then s0
      else
        let mpd : Option Int :=
          if s0.regB (R.ETH.ECFG p) 4 then some (s0.ptpRx p m - t3 - m.turn * 65536 - m.corr)
          else e.t12.map fun t => (t.2 - t.1) + (s0.ptpTime m.sec m.ns (-m.corr) - t3)
        match mpd with
        | none => s0
        | some v => (s0.setEth p { e with mpd := v, req := none }).setReg (R.ETH.MPD p) (wdInt (freeRound v 8192))

/-! ### Class F queues (R115) -/

/-- An entry joins a queue: late from the start when its target is already past. -/
def State.pushF (s : State) (q : Nat) (e : ClassF) : State :=
  let past := match e.target with
    | some t => reached 40 t s.dt64
    | none => false
  let f := NMap.get {} s.fq q
  { s with fq := NMap.put {} s.fq q { f with q := f.q ++ [{ e with past := past }] } }

/-- Symbol time of a queue in 1/5 ru: an EXL ring, or 8 ns at 1000 Mb/s. -/
def State.queueFifths (s : State) (q : Nat) : Nat := if q < 64 then s.symFifths (q / 2) else 640

/-- Bytes of an entry: as queued, under a header of the period of launch, or read from the buffer of its descriptor when it
launches (R122, R155). -/
def State.fBytes (s : State) (q : Nat) (e : ClassF) : List Byte :=
  match e.desc, e.type with
  | some i, _ =>
    let a := csmBase + s.regN (R.ETH.TXRB (q - 64)) + 16 * i
    s.mem.readBytes (s.mem.readWord a).toNat ((s.mem.readWord (a + 4)).fld 0 14)
  | none, some ty => frameOf (s.header ty (q / 2) (q % 2 = 1) e.bytes.length (s.regN R.TRG.PIDX) false) e.bytes
  | none, none => e.bytes

/-- The entry's launch may not come before this instant: its target, and the present where that is past or none is
given. -/
def State.fFrom (s : State) (e : ClassF) : Nat :=
  match e.target with
  | some g => if e.past || reached 40 g s.dt64 then s.dt64 else s.dt64 + (g + 2 ^ 40 - s.dt64 % 2 ^ 40) % 2 ^ 40
  | none => s.dt64

/-- The instant at which the transmitter of a queue is free, ru rounded up: 2 K28.5 after the last frame on a ring direction
(R129). -/
def State.fFree (s : State) (q : Nat) (f : FQueue) : Nat :=
  if q < 64 then
    s.dirFreeAt (q / 2) (q % 2 = 1)
  else f.busy

/-- May the entry launch at an instant: the first symbol boundary at or after its target, or after the transmitter has become
free, with the transmitter up and R43 kept (R115)? An entry that comes due while its lane is not UP, and is not sent then
(R137), stays in its queue and launches late: DESIGN CHOICE (log 174). -/
def State.mayLaunch (s : State) (q : Nat) (f : FQueue) (e : ClassF) (t len : Nat) : Bool :=
  let from_ := Nat.max (s.fFrom e) (s.fFree q f)
  let up := if q < 64 then s.txUp (q / 2) (q % 2 = 1) else s.ethUp (q - 64)
  Nat.ble from_ t && Nat.blt (5 * (t - from_)) (s.queueFifths q) && up && (q ≥ 64 || s.fitsPlan (q / 2) t len)

/-- The head entry of a queue launches with its start-of-frame symbol stamped at `t` (R115, R122). -/
def State.classF (s : State) (q t : Nat) : State :=
  let f := NMap.get {} s.fq q
  match f.q with
  | [] => s
  | e :: rest =>
    let bytes := s.fBytes q e
    if !s.mayLaunch q f e t bytes.length then s
    else
      let s1 := s.reach t
      let late := match e.target with
        | some g => e.past || Nat.ble (s.queueFifths q) (5 * ((t + 2 ^ 40 - g % 2 ^ 40) % 2 ^ 40))
        | none => false
      let busy := if q < 64 then 0 else t + ethTime bytes.length
      let s2 := { s1 with fq := NMap.put {} s1.fq q { f with q := rest, late := late, busy := busy } }
      let s3 := if q < 64 then s2.send (s2.exlOut (q / 2) (q % 2 = 1) t bytes)
        else
          let p := q - 64
          let ep : EthPort := NMap.get {} s2.eth p
          let ep1 := match e.desc with
            | some i => { ep with txDone := ep.txDone ++ [(i, bitsOfInt 64 (txStamp t (s2.regI (R.ETH.TXCORR p))), late)] }
            | none => ep
          { s2.setEth p ep1 with out := [.eth p t bytes] }
      s3.when (late && !e.own) fun u =>
        if q < 64 then u.fault Src.LAUNCH_LATE (0x30 + q / 2) (q / 2 + (q % 2) * 32) 0x2B 5
        else u.fault Src.LAUNCH_LATE (0x0A + (q - 64)) ((q - 64) * 256) 0x2B 5

/-! ### Ethernet descriptor rings (R121, R122) -/

/-- Owned transmit descriptors from the scan position are queued, each once. -/
def State.txScan (s : State) (p : Nat) : Nat → State
  | 0 => s
  | fuel + 1 =>
    let n := s.regF (R.ETH.TXRN p) 0 8
    let e := NMap.get {} s.eth p
    let i := if e.txNext < n then e.txNext else 0
    let a := csmBase + s.regN (R.ETH.TXRB p) + 16 * i
    let w1 := s.mem.readWord (a + 4)
    if !w1.bit 31 then s
    else
      let target := if w1.bit 30 then some (s.mem.readLE (a + 8) 4 + (s.mem.readWord (a + 12)).fld 0 8 * 2 ^ 32) else none
      let s1 := (s.setEth p { e with txNext := nextIdx n i }).pushF (64 + p) { target := target, desc := some i }
      s1.txScan p fuel

/-- TXKICK: the port scans for owned descriptors. -/
def State.txKick (s : State) (p : Nat) : State :=
  let waiting := ((NMap.get {} s.fq (64 + p)).q.filter fun e => e.desc.isSome).length + (NMap.get {} s.eth p).txDone.length
  if !s.regB (R.ETH.ECFG p) 0 then s else s.txScan p (s.regF (R.ETH.TXRN p) 0 8 - waiting)

/-- Word 1 of a descriptor at write-back. -/
def descBack (w1 : Word) (late ovfl : Bool) : Word :=
  (((w1.setBit 31 false).setBit 29 true).setBit 28 late).setBit 27 ovfl

/-- The oldest launched transmit descriptor is written back. -/
def State.txBack (s : State) (p : Nat) : State :=
  let e := NMap.get {} s.eth p
  match e.txDone with
  | [] => s
  | (i, stamp, late) :: rest =>
    let a := csmBase + s.regN (R.ETH.TXRB p) + 16 * i
    let w1 := descBack (s.mem.readWord (a + 4)) late false
    ((s.portBytes (a + 4) (natLe 4 w1.toNat ++ natLe 8 stamp)).setEth p { e with txDone := rest }).irq (0x0A + p) 0

/-- The big-endian number of two bytes of a frame. -/
def netAt (l : List Byte) (i : Nat) : Nat := byteAt l i * 256 + byteAt l (i + 1)

/-- The payload of an Ethernet frame that is an unfragmented UDP/IPv4 datagram to port 29641 (R427). -/
def rslPayload (l : List Byte) : Option (List Byte) :=
  let u := 14 + byteAt l 14 % 16 * 4
  if netAt l 12 = 0x0800 ∧ byteAt l 14 / 16 = 4 ∧ byteAt l 23 = 17 ∧ netAt l 20 % 0x4000 = 0 ∧ netAt l (u + 2) = 29641
  then some ((l.drop (u + 8)).take (netAt l (u + 4) - 8)) else none

/-- A frame arrives into the next owned receive descriptor; with none it is dropped. -/
def State.ethRx (s : State) (p stamp phase : Nat) (bytes : List Byte) : State :=
  let n := s.regF (R.ETH.RXRN p) 0 8
  let e := NMap.get {} s.eth p
  let i := if e.rxNext < n then e.rxNext else 0
  let a := csmBase + s.regN (R.ETH.RXRB p) + 16 * i
  let w1 := s.mem.readWord (a + 4)
  if !s.ethUp p || n = 0 || !w1.bit 31 then s
  else
    let s1 := s.reach stamp
    let len := w1.fld 0 14
    let st := bitsOfInt 64 (rxStamp stamp phase (s.regI (R.ETH.RXCORR p)))
    let buf := (s.mem.readWord a).toNat
    let w := (descBack w1 false (Nat.blt len bytes.length)).setFld 0 14 (Nat.min len bytes.length)
    (((s1.portBytes buf (bytes.take len)).portBytes (a + 4) (natLe 4 w.toNat ++ natLe 8 st)).setEth p
      { e with rxNext := nextIdx n i }).irq (0x0A + p) 1

/-- The link of a port changes. -/
def State.ethLink (s : State) (p : Nat) (los : Bool) : State :=
  let e := NMap.get {} s.eth p
  let up := s.regB (R.ETH.ECFG p) 0 && !los
  if e.link = up then s else (s.setEth p { e with link := up }).irq (0x0A + p) 2

/-- ECFG has been written: clearing EN takes the link down, and setting it begins to hear masters anew (R104). -/
def State.ethConfig (s : State) (p : Nat) (wasOn : Bool) : State :=
  let on := s.regB (R.ETH.ECFG p) 0
  if on = wasOn then s
  else
    let e := NMap.get {} s.eth p
    let s1 := s.setEth p { e with heard := false, link := false, sync := none, t12 := none, req := none }
    s1.when (!on && e.link) fun t => t.irq (0x0A + p) 2

/-! ### Traverse (R108 to R110, R45) -/

/-- T_RLY = 100 ns (R357). -/
abbrev tRly : Nat := 1600

def State.trv (s : State) (ring : Nat) (rev : Bool) : TravDir := NMap.get {} s.trav (queueOf ring rev)

def State.setTrv (s : State) (ring : Nat) (rev : Bool) (t : TravDir) : State :=
  { s with trav := NMap.put {} s.trav (queueOf ring rev) t }

/-- Launch of a direction's ranging frame at t_CC: directly after the beacon with the 2 idles between, where this head has
launched one, and on a free transmitter (R108, R129, R181). -/
def State.rangingAt (s : State) (ring : Nat) (rev : Bool) : Nat :=
  let beacon := if s.regN R.TRG.PIDX % 16 = 0 then 20 else 12
  Nat.max (if s.active then s.tCC + ((beacon + 4) * s.symFifths ring + 4) / 5 else s.tCC) (s.dirFreeAt ring rev)

/-- The directions whose ranging frames the head launches: those it originates, where R43 leaves room. -/
def State.rangingDirs (s : State) : List (Nat × Bool) :=
  s.ringDirs.filter fun d => s.originates d.2 && s.fitsPlan d.1 (s.rangingAt d.1 d.2) (20 + 8 * s.ringCells d.1)

/-- The ranging frames of the period (R108, R181), directly after the beacons; one round in each millisecond. -/
def State.rangingLaunch (s : State) : State :=
  let ms := s.plan.start / 16000000
  if !(s.plan.started && s.regB R.DTM.TRVCTL 0 && s.onRing && s.travMs ≠ ms + 1) then s
  else
    let s0 := s.reach s.tCC
    let dirs := s0.rangingDirs
    let outs := dirs.map fun d =>
      let pl := natLe 8 (bitsOfInt 64 (txStamp (s0.rangingAt d.1 d.2) 0)) ++ zeros (8 * s0.ringCells d.1)
      s0.exlOut d.1 d.2 (s0.rangingAt d.1 d.2) (frameOf (s0.header 4 d.1 d.2 pl.length (s0.regN R.TRG.PIDX) false) pl)
    let s1 := dirs.foldl (fun t d =>
      if t.txUp d.1 d.2 then t.setTrv d.1 d.2 { t.trv d.1 d.2 with inFlight := (t.trv d.1 d.2).inFlight ++ [t.rangingAt d.1 d.2], ret := none }
      else t) { s0 with travMs := ms + 1 }
    s1.send outs.flatten

/-- The signed difference of two 32-bit stamps. -/
def dt32Diff (a b : Nat) : Int := signedOf 32 ((a + 2 ^ 32 - b % 2 ^ 32) % 2 ^ 32)

/-- The mean of the newest `2^avg` values, or of those there are. -/
def travMean (avg : Nat) (l : List Int) : Int :=
  let m := l.take (2 ^ avg)
  freeRound (m.foldl (· + ·) 0) m.length

/-- The mean of lists, element by element, of `n` elements. -/
def travMeans (avg n : Nat) (l : List (List Int)) : List Int :=
  (List.range n).map fun i => travMean avg (l.map fun x => x.getD i 0)

/-- Twice the delay of segment j of a round (R109): between position j − 1 and position j. The half that ends at a head
whose stamp this head does not hold (R361) is taken equal to the other half. -/
def segTwice (n j : Nat) (f r : RangeRet) : Int :=
  let ent (x : RangeRet) (p : Nat) : Nat × Nat := x.entries.getD p (0, 0)
  let lf := if j = 0 then f.launch % 2 ^ 32 else (ent f (j - 1)).2
  let af : Option Nat := if j = n then f.arrival.map (bitsOfInt 32) else some (ent f j).1
  let lr := if j = n then r.launch % 2 ^ 32 else (ent r j).2
  let ar : Option Nat := if j = 0 then r.arrival.map (bitsOfInt 32) else some (ent r (j - 1)).1
  match af, ar with
  | some a, some b => dt32Diff a lf + dt32Diff b lr
  | some a, none => 2 * dt32Diff a lf
  | none, some b => 2 * dt32Diff b lr
  | none, none => 0

def sumInt (l : List Int) : Int := l.foldl (· + ·) 0

/-- The margin of a ring direction (R45). -/
def State.travMargin (s : State) (ring : Nat) (rev : Bool) : Int :=
  let d : Int := (NMap.get 0 s.plan.planD (queueOf ring rev) : Nat)
  let n := s.ringCells ring
  let per : Int := (s.plan.per : Nat)
  let coll : Int := (s.regF R.TRG.TCL 0 20 : Nat) + d + (s.frameTime ring (12 + n * s.regF (R.RNG.RCFG ring) 16 8) : Nat)
  let cmd : Int := per - (s.regF R.TRG.TML 0 20 : Nat) + d + (s.frameTime ring (12 + n * s.regF (R.RNG.RCFG ring) 8 8) : Nat)
  let m1 : Int := (s.regF R.TRG.TTC 0 20 : Nat) - 3200 - coll
  let m2 : Int := per - (s.regF R.TRG.TCC 0 20 : Nat) - cmd
  let m := if m1 < m2 then m1 else m2
  if s.paired && decide (1280 < m) then 1280 else m

/-- The compare of a direction's path delay with the plan (R45). -/
def State.planMargin (s : State) (ring : Nat) (rev : Bool) : State :=
  let t := s.trv ring rev
  let d := travMean (s.regF R.DTM.TRVCTL 4 3) t.d
  let excess := decide (s.travMargin ring rev < d - (NMap.get 0 s.plan.planD (queueOf ring rev) : Nat))
  (s.setTrv ring rev { t with excess := excess }).when (excess && !t.excess) fun u =>
    u.fault Src.PLAN_MARGIN (0x30 + ring) (ring + b2n rev * 32)

/-- The compare of the sum of a twin ring's excesses (R45). -/
def State.planMarginSum (s : State) (ring : Nat) : State :=
  if !s.paired then s
  else
    let f := s.trv ring false
    let r := s.trv ring true
    let avg := s.regF R.DTM.TRVCTL 4 3
    let df : Int := (NMap.get 0 s.plan.planD (queueOf ring false) : Nat)
    let dr : Int := (NMap.get 0 s.plan.planD (queueOf ring true) : Nat)
    let ex := travMean avg f.d - df + (travMean avg r.d - dr)
    let cmd := s.frameTime ring (12 + s.ringCells ring * s.regF (R.RNG.RCFG ring) 8 8)
    let lim : Int := (s.regF R.TRG.TML 0 20 : Nat) - (s.regF R.TRG.TCC 0 20 : Nat) - df - dr - (tRly : Nat) - (cmd : Nat)
    let excess := decide (lim < ex)
    (s.setTrv ring false { f with overSum := excess }).when (excess && !f.overSum) fun u =>
      u.fault Src.PLAN_MARGIN (0x30 + ring) ring

/-- The residences of a returned frame, by node (R109). -/
def RangeRet.residence (x : RangeRet) (n : Nat) : List Int :=
  (List.range n).map fun p =>
    let e := x.entries.getD p (0, 0)
    dt32Diff e.2 e.1

/-- The head-to-node delays of a ring from the averaged segments and residences (R109). -/
def State.travToNode (s : State) (ring : Nat) : State :=
  let n := s.ringCells ring
  let avg := s.regF R.DTM.TRVCTL 4 3
  let tf := s.trv ring false
  let tr := s.trv ring true
  let sm := travMeans avg (n + 1) tf.seg
  let rf := travMeans avg n tf.res
  let rr := travMeans avg n tr.res
  let toF := (List.range n).map fun j => freeRound (sumInt (sm.take (j + 1)) + 2 * sumInt (rf.take j)) 2
  let toR := (List.range n).map fun j => freeRound (sumInt (sm.drop (j + 1)) + 2 * sumInt (rr.drop (j + 1))) 2
  (s.setTrv ring false { tf with toNode := toF }).setTrv ring true { tr with toNode := toR }

/-- One direction's frame of a round: HOP_SLOW for any residence above 120 ns; at an unpaired head its residences, its path delay
from the head's own stamps and the compare of that with the plan (R45, R109). -/
def State.travOne (s : State) (ring : Nat) (rev : Bool) (x : RangeRet) : State :=
  let t := s.trv ring rev
  let res := x.residence (s.ringCells ring)
  let d := match x.arrival with
    | some a => ((a - (x.launch : Int)) :: t.d).take 16
    | none => t.d
  let s1 := if s.paired then s else s.setTrv ring rev { t with res := (res :: t.res).take 16, d := d }
  let s2 := s1.when (res.any fun r => decide (1920 < r)) fun u => u.fault Src.HOP_SLOW (0x30 + ring) (ring + b2n rev * 32)
  s2.when (!s.paired && x.arrival.isSome) fun u => u.planMargin ring rev

/-- A round has returned in both directions: the segment delays, the head-to-node delays, which the nodes are sent, and the twin
ring's compare. A paired head takes residences and path delays here, each path as the sum of its segments and residences, from
its own frames and the peer's copies together, so that they stand as they are when the copies stop (R45, R109, R361). -/
def State.travRound (s : State) (ring : Nat) (f r : RangeRet) : State :=
  let n := s.ringCells ring
  let tf := s.trv ring false
  let seg := (List.range (n + 1)).map fun j => segTwice n j f r
  let whole (x : RangeRet) : Int := freeRound (sumInt seg + 2 * sumInt (x.residence n)) 2
  let s1 := s.setTrv ring false { tf with seg := (seg :: tf.seg).take 16 }
  let path (u : State) (rev : Bool) (x : RangeRet) : State :=
    let t := u.trv ring rev
    if !u.paired then u
    else (u.setTrv ring rev { t with res := (x.residence n :: t.res).take 16, d := (whole x :: t.d).take 16 }).planMargin ring rev
  let s2 := (path (path s1 false f) true r).travToNode ring
  let s3 := s2.planMarginSum ring
  let ask := ((List.range n).map fun p => (ring * 8 + p, HeadSvc.delay)).filter fun q => !s3.jig.svc.contains q
  if s3.active then { s3 with jig := { s3.jig with svc := s3.jig.svc ++ ask } } else s3

/-- A direction's ranging frame of the round is at hand. -/
def State.travReturn (s : State) (ring : Nat) (rev : Bool) (x : RangeRet) : State :=
  let s1 := (s.setTrv ring rev { s.trv ring rev with lost := 0 }).travOne ring rev x
  let other := (s1.trv ring (!rev)).ret
  let pair := match other with
    | some y => if decide (x.launch < y.launch + 8000000) && decide (y.launch < x.launch + 8000000) then some y else none
    | none => none
  match pair with
  | some y =>
    let s2 := s1.setTrv ring (!rev) { s1.trv ring (!rev) with ret := none }
    if rev then s2.travRound ring y x else s2.travRound ring x y
  | none => s1.setTrv ring rev { s1.trv ring rev with ret := some x }

/-- The entries of a ranging payload. -/
def rangeEntries (n : Nat) (pl : List Byte) : List (Nat × Nat) :=
  (List.range n).map fun p => (leAt pl (8 + 8 * p) 4, leAt pl (12 + 8 * p) 4)

/-- A ranging frame arrives on a ring (R109, R361). -/
def State.rangingReturn (s : State) (ring : Nat) (rev : Bool) (f : RxFrame) : State :=
  match s.rxTake ring rev f with
  | none => s
  | some (s0, g) =>
    match frameCheck ring rev g with
    | some off => s0.frameErr ring off
    | none =>
      let n := s0.ringCells ring
      let pl := framePayload g.bytes
      if frameType g.bytes ≠ 4 || pl.length ≠ 8 + 8 * n then s0
      else
        let x : RangeRet := { launch := leAt pl 0 8, entries := rangeEntries n pl, arrival := some (sofStamp g) }
        let s1 := if s0.paired then { s0 with pair := { s0.pair with rangeFwd := s0.pair.rangeFwd ++
          [(ring, rev, framePidx g.bytes, pl)] } } else s0
        let t := s1.trv ring rev
        if !s1.originates rev then (s1.reach g.sof).travReturn ring rev x
        else
          match t.inFlight.find? fun l => bitsOfInt 64 (txStamp l 0) == x.launch with
          | none => s1
          | some l =>
            if s1.passed (l + 16000000) || Nat.ble (l + 16000000) g.sof then s1
            else ((s1.reach g.sof).setTrv ring rev { t with inFlight := t.inFlight.erase l }).travReturn ring rev x

/-- A ranging frame has not returned within 1 ms of its launch (R110): the oldest one in flight. -/
def State.rangingLost (s : State) (ring : Nat) (rev : Bool) : State :=
  let t := s.trv ring rev
  match t.inFlight with
  | [] => s
  | l :: rest =>
    let s1 := (s.reach (l + 16000000)).setTrv ring rev { t with inFlight := rest, lost := t.lost + 1 }
    s1.when (t.lost + 1 = 3) fun u => u.fault Src.TRAV_FAIL (0x30 + ring) (ring + b2n rev * 32)

end Sys2Proof.Machine
end

