-- ==== Sys2Proof/Machine/Role.lean ====
section
/-!
DEFINITION. Sys2Proof/Machine/Role.lean: changes of a paired head's role (R352, R353).
Readings and choices (notes/assumptions): DEDUCED 37.
-/
namespace Sys2Proof.Machine

/-- The ring lanes of this head whose transmitters may be lit. -/
def State.ringLanes (s : State) : List Nat :=
  (List.range 32).filter fun n => s.lnRole n ≠ 0 && s.laneState n ≠ 0

/-- The ring transmitters go dark after 16 K28.6 each (R136), or are lit. -/
def State.ringLight (s : State) (on : Bool) : State :=
  let ls := s.ringLanes
  let s1 := ls.foldl (fun t n => t.setLane n { t.lane n with lit := on }) s
  if on then s1 else s1.send (ls.map fun n => .dark n s.dt64)

/-- ARMED changes (R359). -/
def State.setArmed (s : State) (b : Bool) : State :=
  if s.regB R.HPR.HSTA 6 = b then s else (s.setB R.HPR.HSTA 6 b).irq 0x88 2

/-- The ring transmitters of a paired head are lit: from STANDBY on, and in LISTEN once its plan has locked (R352). -/
def State.roleLit (s : State) : Bool := Nat.ble 2 s.role || (s.role == 1 && s.pair.litAt.isSome)

/-- No frame plan runs, or the head is paired and not ACTIVE: the first such instant while Scribe's drive of RST_N is due is
kept (R457). -/
def State.resetFree (s : State) : State :=
  if s.scribe.resetDue.isSome && s.scribe.freeAt.isNone && (!s.plan.run || (s.paired && s.role ≠ 4)) then
    { s with scribe := { s.scribe with freeAt := some s.dt64 } }
  else s

/-- The role becomes `r`: CLAIM_OUT toggles in CLAIMING and ACTIVE, the ring transmitters are dark in OFF, after their K28.6
where they were lit, and until the plan is locked in LISTEN, and ARMED belongs to a standby (R352, R353). -/
def State.roleGoto (s : State) (r : Nat) : State :=
  if s.role = r then s
  else
    let s0 := { s with pair := { s.pair with litAt := none } }
    let s1 := (((s0.setF R.HPR.HSTA 0 3 r).setF (R.PSTA 0x88) 16 3 r).setB R.HPR.HSTA 5 (r = 3 || r = 4)).irq 0x88 0
    let s2 := (s1.when (r ≠ 2 && r ≠ 3) fun t => t.setArmed false).resetFree
    if s.roleLit && Nat.blt r 2 then s2.ringLight false
    else if Nat.blt s.role 2 && Nat.ble 2 r then s2.ringLight true
    else s2

/-- The frame plan stops here (R610, R363): TRG goes idle, a held foreign offset is dropped by the next measurement where
AUTOSTEP says so (R97), the local legs, framed as HOLD_OFF from here, keep no carry (R213, R228, R375), and the PLL is OFF
(R243, R269). -/
def State.planHalt (s : State) : State :=
  if !s.plan.run then s
  else
    let p : Plan := { s.plan with run := false, started := false, stopReq := false, stopAcc := false, restart := false,
                                  pastML := false, fired := 0, idx0 := none }
    let s1 := { s with plan := p,
                       datum := { s.datum with autostep := s.datum.foreign.isSome && s.regB R.DTM.DTCTL 4 } }.resetFree
    let s2 := (List.range 12).foldl (fun t k => t.setLeg (0x1000 + k) (legOff (t.leg (0x1000 + k)) t.perNext)) s1
    let s3 := ((s2.setEns 9 false).setIdle 9 true).irq 9 1
    s3.when (natFld s3.jig.lastStk 0 3 ≠ 0) fun t =>
      { t with jig := { t.jig with lastStk := t.jig.lastStk - natFld t.jig.lastStk 0 3 } }.irq 0x71 0

/-- A STOP or TRIP reaction of its own Scribe, in LISTEN, STANDBY or CLAIMING (R353). -/
def State.roleStop (s : State) : State :=
  s.when (s.paired && (s.role = 1 || s.role = 2 || s.role = 3)) fun t => t.roleGoto 0

end Sys2Proof.Machine
end

