-- ==== Sys2Proof/Machine/Scribe.lean ====
section
/-!
DEFINITION. Sys2Proof/Machine/Scribe.lean: recording, severity, escalation, reactions, first-error capture,
acknowledgement and the log (chapter 15).
Readings and choices (notes/assumptions): DEDUCED 101, 102, 103.
-/
namespace Sys2Proof.Machine

/-! ### Severities (R452) -/

/-- The register number and field of a source's severity. -/
def sevKey (src : Nat) : Nat := R.SCR.SEV (src / 8)

/-- The severity programmed for a source. -/
def State.sevOf (s : State) (src : Nat) : Nat := s.regF (sevKey src) (4 * (src % 8)) 3

/-- Is the number one that its owning chapter names (R447)? Its severity field then takes writes. -/
def sourceNamed (src : Nat) : Bool :=
  match keyDef (sevKey src) with
  | some d => d.acc.rwl.testBit (4 * (src % 8))
  | none => false

/-! ### Records (R450) -/

/-- The eight words of a record. -/
def FaultRec.words (r : FaultRec) : List Word :=
  let x := r.raise
  [wd (x.src + Src.classOf x.src * 2 ^ 8 + r.sevp * 2 ^ 12 + r.sevt * 2 ^ 15 + b2n r.esc * 2 ^ 18 + b2n r.first * 2 ^ 19 +
     b2n r.ack * 2 ^ 20 + b2n r.lostb * 2 ^ 21 + r.count * 2 ^ 24),
   wd (x.pidx % 65536 + (x.page % 4096) * 65536), wd x.time, wd (x.time / 2 ^ 32), wd x.addr,
   wd (x.master % 256 + (x.acc % 16) * 256), wd x.detail, wd r.tlast]

def State.logAt (s : State) (i : Nat) : Option FaultRec := NMap.get none s.scribe.log i

def State.setLog (s : State) (i : Nat) (r : FaultRec) : State :=
  { s with scribe := { s.scribe with log := NMap.put none s.scribe.log i (some r) } }

/-- Unacknowledged records: class, page, severity taken; those in the log and those not stored (R460). -/
def State.unacked (s : State) : List (Nat × Nat × Nat) :=
  (s.scribe.log.filterMap fun p => match p.2 with
    | some r => if r.ack then none else some (Src.classOf r.raise.src, r.raise.page, r.sevt)
    | none => none) ++ s.scribe.lost

/-- UNACK (R463). -/
def State.unack (s : State) : Nat :=
  (List.range 16).foldl (fun n c => if s.unacked.any (fun p => p.1 == c) then n + 2 ^ c else n) 0

/-- FLTS of a page: highest severity among its unacknowledged records, and whether there is one (R57). -/
def State.flts (s : State) (page : Nat) : Word :=
  let l := s.unacked.filter fun p => p.2.1 == page
  wd (2 * l.foldl (fun m p => Nat.max m p.2.2) 0 + b2n (!l.isEmpty))

/-- SCR.SSTA. -/
def State.scrSsta (s : State) : Word := wd (s.unacked.foldl (fun m p => Nat.max m p.2.2) 0 + 8 * b2n s.scribe.hold)

/-! ### Reactions (R455 to R457) -/

/-- The trip hold is set, with JG1 event TRIP, where reactions act on the stack (R455, R456). -/
def State.tripHold (s : State) : State :=
  let s1 := s.jigEvent stackInst 0
  if s1.scribe.hold then s1 else { s1 with scribe := { s1.scribe with hold := true, heldAt := none } }.irq 0x98 3

/-- The reaction of a severity taken. -/
def State.react (s : State) (sevt time : Nat) : State :=
  if sevt < 3 then s
  else if sevt = 3 then (if s.active then s.jigEvent stackInst 1 else s.roleStop)
  else
    let s1 := if s.active then s.tripHold else s.roleStop
    if sevt = 5 then
      { s1 with scribe := { s1.scribe with resetDue := some (s1.scribe.resetDue.getD time) } }.resetFree
    else s1

/-- RREC takes the record that took RESET (R457). -/
def State.rrec (s : State) (r : FaultRec) : State :=
  if r.sevt ≠ 5 then s
  else
    let s1 := (List.range 8).foldl (fun t i => t.setReg (R.SCR.RREC i) (r.words.getD i 0)) s
    s1.setB R.SCR.RRECV 0 true

/-! ### Recording (R449, R453, R458, R460) -/

/-- The slot holding the oldest acknowledged record. -/
def oldestAcked (l : NMap (Option FaultRec)) : Option Nat :=
  (l.foldl (fun (b : Option (Nat × Nat)) p => match p.2 with
    | some r => if !r.ack then b else match b with
      | some q => if r.seq < q.2 then some (p.1, r.seq) else b
      | none => some (p.1, r.seq)
    | none => b) none).map (·.1)

/-- A new record is stored at LOGWP, else over the oldest acknowledged one, else it is lost (R460). -/
def State.storeRec (s : State) (r : FaultRec) : State :=
  let wp := s.regF R.SCR.LOGWP 0 8
  let put (t : State) (i : Nat) : State :=
    let u := t.setLog i r
    { u with scribe := { u.scribe with lostb := false } }
  let free := match s.logAt wp with
    | some q => q.ack
    | none => true
  if free then (put s wp).setF R.SCR.LOGWP 0 8 ((wp + 1) % 256)
  else
    match oldestAcked s.scribe.log with
    | some i => put s i
    | none =>
      let gone := s.scribe.lost ++ [(Src.classOf r.raise.src, r.raise.page, r.sevt)]
      ({ s with scribe := { s.scribe with lostb := true, lost := gone } }.bump R.SCR.LOSTCNT).irq 0x98 2

/-- First-error capture of a class (R458). -/
def State.capture1 (s : State) (x : Raise) : State :=
  let c := Src.classOf x.src
  (((s.setReg (R.SCR.FEADDR c) (wd x.addr)).setReg (R.SCR.FEINFO c)
    (wd (x.src + (x.master % 256) * 2 ^ 8 + (x.acc % 16) * 2 ^ 16 + 2 ^ 31))).setReg (R.SCR.FETL c) (wd x.time)).setReg
    (R.SCR.FETH c) (wd (x.time / 2 ^ 32))

/-- The slot of the unacknowledged record of a source. -/
def State.recOf (s : State) (src : Nat) : Option (Nat × FaultRec) :=
  s.scribe.log.findSome? fun p => match p.2 with
    | some r => if !r.ack && r.raise.src == src then some (p.1, r) else none
    | none => none

/-- A 32-bit counter register advanced, saturating. -/
def State.bump32 (s : State) (k : Nat) : State := s.bumpAt k 0 32

/-- A raise reaches Scribe: class counter, record or count, reaction (R449, R452, R453). -/
def State.record (s : State) (x : Raise) : State :=
  let c := Src.classOf x.src
  let s0 := s.bump (R.SCR.CNT c)
  let sevp := s0.sevOf x.src
  if sevp = 0 then s0
  else
    match s0.recOf x.src with
    | some (i, r) =>
      let esc := !r.esc && Nat.blt r.sevp 5
      let r1 := { r with count := satInc 8 r.count, tlast := x.time % 2 ^ 32, esc := r.esc || esc,
                         sevt := if esc then r.sevp + 1 else r.sevt }
      let s1 := s0.setLog i r1
      if esc then (((s1.bump R.SCR.ESCCNT).irq 0x98 1).rrec r1).react r1.sevt s.dt64 else s1
    | none =>
      let first := !s0.unacked.any fun p => p.1 == c
      let esc := !first && Nat.blt sevp 5
      let r : FaultRec := { raise := x, sevp := sevp, sevt := if esc then sevp + 1 else sevp, esc := esc, first := first,
                            ack := false, lostb := s0.scribe.lostb, count := 0, tlast := 0, seq := s0.scribe.seq }
      let s1 := { s0 with scribe := { s0.scribe with seq := s0.scribe.seq + 1 } }
      let s2 := ((s1.storeRec r).bump32 R.SCR.RECCNT).irq 0x98 0
      let s3 := s2.when first fun t => t.capture1 x
      let s4 := s3.when esc fun t => (t.bump R.SCR.ESCCNT).irq 0x98 1
      (s4.rrec r).react r.sevt s.dt64

/-- The raises that may be recorded next: those with the time-stamp of the oldest, of each class the one with the lowest
source number (R454); the order between classes in the log is undefined (R462). -/
def nextRaises : List Raise → List Raise
  | [] => []
  | x :: rest => rest.foldl (fun (l : List Raise) y =>
      let same (z : Raise) : Bool := Src.classOf z.src == Src.classOf y.src
      if y.time ≠ x.time then l
      else if l.any same then l.map fun z => if same z && Nat.blt y.src z.src then y else z
      else l ++ [y]) [x]

/-- The next raise on its way is recorded; between classes with one time-stamp a free value decides. -/
def State.recordNext (s : State) : State :=
  match nextRaises s.scribe.inflight with
  | [] => s
  | [x] => { s with scribe := { s.scribe with inflight := s.scribe.inflight.erase x } }.record x
  | l =>
    let x := l.getD (s.freeWord.toNat % l.length) { src := 0, page := 0, time := 0, pidx := 0 }
    { s.useFree with scribe := { s.scribe with inflight := s.scribe.inflight.erase x } }.record x

/-- A fault raise reaches Scribe. A raise from outside every other command joins the raises on their way first. -/
def State.faultRaise (s : State) (ext : Option ExtRaise) : State :=
  match ext with
  | some e =>
    if sourceNamed e.src.toNat then
      (s.fault e.src.toNat e.page.toNat e.addr.toNat e.master.toNat e.acc.toNat e.detail.toNat).recordNext
    else s.recordNext
  | none => s.recordNext

/-! ### Acknowledgement (R459, R456) -/

/-- The classes of a mask are acknowledged. -/
def State.ackClasses (s : State) (mask : Nat) : State :=
  let of_ (c : Nat) : Bool := mask.testBit c
  let log := s.scribe.log.map fun p => (p.1, p.2.map fun r =>
    if of_ (Src.classOf r.raise.src) then { r with ack := true } else r)
  let s1 := { s with scribe := { s.scribe with log := log, lost := s.scribe.lost.filter fun p => !of_ p.1 } }
  ((List.range 16).filter of_).foldl (fun t c => t.setB (R.SCR.FEINFO c) 31 false) s1

/-- A write of TRCLR: accepted while JG1 is STOPPED and no unacknowledged record has SEVT of TRIP or above (R456). -/
def State.tripClear (s : State) : State :=
  if (s.inst stackInst).st = 0 && !s.unacked.any (fun p => Nat.ble 4 p.2.2) then
    { s with scribe := { s.scribe with hold := false, heldAt := none } }
  else s.irq 0x98 4

/-- A write of SCTL: acknowledgement first (R456). -/
def State.sctlWrite (s : State) (v : Word) : State :=
  (s.when (v.bit 1) fun t => t.ackClasses 0xFFFF).when (v.bit 0) fun t => t.tripClear

/-! ### Reading records (R461) -/

/-- The number of a host source: 0 HSP, 1 EN0, 2 EN1. -/
def srcNo : HSrc → Nat
  | .hsp => 0
  | .en0 => 1
  | .en1 => 2

/-- A read of LREC0 latches the eight words of record LSEL for its source. -/
def State.lrec0 (s : State) (src : HSrc) : State :=
  let ws := match s.logAt (s.regF R.SCR.LSEL 0 8) with
    | some r => r.words
    | none => List.replicate 8 0
  { s with scribe := { s.scribe with lrec := NMap.put [] s.scribe.lrec (srcNo src) ws } }

end Sys2Proof.Machine
end

