-- ==== Sys2Proof/Machine/Local.lean ====
section
/-!
DEFINITION. Sys2Proof/Machine/Local.lean: local legs and their lands, trip inputs, blanking and the LV bus choppers
(chapter 12).
Readings and choices (notes/assumptions): DEDUCED 84, 85, 86, 87, 93, 162.
-/
namespace Sys2Proof.Machine

/-! ### Lands (R370, R371) -/

/-- Is a land high at an instant? -/
def Land.high (l : Land) (t : Nat) : Bool := l.up.any (fun u => Nat.ble u t) && !l.down.any (fun d => Nat.ble d t)

/-- Edge time of a RATE code, ru: 2, 5, 10 or 20 ns (R372). -/
def edgeTime (rate : Nat) : Nat := if rate = 0 then 32 else if rate = 1 then 80 else if rate = 2 then 160 else 320

/-- Instants at which a land's rise and fall start: half the edge time before the 50 % point (R372). -/
def Land.starts (l : Land) : Option Nat × Option Nat := (l.up.map (· - l.edge / 2), l.down.map (· - l.edge / 2))

/-- A land is turned off at an instant: it falls then, or never rises. -/
def Land.fall (l : Land) (t edge : Nat) : Land :=
  match l.up with
  | none => l
  | some u =>
    if l.down.isSome then l
    else if u < t then { l with down := some t, low := t, edge := edge }
    else { l with up := none }

/-- A land is turned on at an instant: it rises then if its partner has been low for the dead time, else the dead time
later (R371). -/
def Land.rise (l partner : Land) (t td edge : Nat) : Land :=
  { l with up := some (if partner.low + td ≤ t then t else t + td), down := none, edge := edge }

/-! ### Legs -/

def State.ll (s : State) (k : Nat) : LocalLeg := NMap.get {} s.loc.legs k

def State.setLl (s : State) (k : Nat) (l : LocalLeg) : State :=
  { s with loc := { s.loc with legs := NMap.put {} s.loc.legs k l } }

/-- Dead time and minimum pulse of a leg, ru (LTIMk). -/
def State.legTd (s : State) (k : Nat) : Nat := Nat.min (s.regF (R.LBR.LTIM k) 0 16) 64000
def State.legTmin (s : State) (k : Nat) : Nat := Nat.min (s.regF (R.LBR.LTIM k) 16 14) 16000

/-- Trip latch of a channel: legs 0 to 11, choppers 12 and 13. -/
def State.latched (s : State) (ch : Nat) : Bool := s.regB R.LBR.TLATCH ch

/-- The legs are held off whatever their entries: no plan runs, the head is not ACTIVE, or it restores its state (R375,
R508). The trip hold and a safety request act on the framing at a t_ML (R436, R456). -/
def State.legsHeld (s : State) : Bool := !s.plan.run || !s.active || s.inRestore

/-- Edge time of a leg's lands (LCFGk.RATE). -/
def State.legEdge (s : State) (k : Nat) : Nat := edgeTime (s.regF (R.LBR.LCFG k) 6 2)

/-- Level of an entry at an offset: none off. -/
def entryLevel (e : Entry) (t : Nat) : Option Bool :=
  match e.mode with
  | 1 => some true
  | 2 => some (if (e.x.filter fun u => Nat.ble u t).length % 2 = 0 then e.lv0 else !e.lv0)
  | 3 => some (decide ((t + 2 * e.hp - e.ph % (2 * e.hp)) % (2 * e.hp) < e.hp))
  | _ => none

/-- The first transition offset of an entry after an offset. -/
def entryNext (e : Entry) (t : Nat) : Option Nat :=
  match e.mode with
  | 2 => e.x.find? fun u => Nat.blt t u
  | 3 =>
    let r := (t + 2 * e.hp - e.ph % (2 * e.hp)) % (2 * e.hp)
    some (t + (if r < e.hp then e.hp - r else 2 * e.hp - r))
  | _ => none

/-- The DTM cycle at or after an instant. -/
def dtmCeil (t : Nat) : Nat := (t + 63) / 64 * 64

/-- The leg takes a condition at an instant: the lands change under dead time (R371). -/
def LocalLeg.drive (l : LocalLeg) (side : Option Bool) (t td edge : Nat) : LocalLeg :=
  if l.side = side then l
  else match side with
    | none => { l with side := none, hi := l.hi.fall t edge, lo := l.lo.fall t edge }
    | some true =>
      let lo := l.lo.fall t edge
      { l with side := side, lo := lo, hi := l.hi.rise lo t td edge }
    | some false =>
      let hi := l.hi.fall t edge
      { l with side := side, hi := hi, lo := l.lo.rise hi t td edge }

/-- A transition, or a turn-on at release from a trip, starts or extends the blanking window (R383). -/
def LocalLeg.blankFrom (l : LocalLeg) (t td blk : Nat) : LocalLeg :=
  if blk = 0 then l
  else
    let a := dtmCeil t
    let b := dtmCeil (t + td + blk)
    match l.blank with
    | some w => if a < w.2 then { l with blank := some (w.1, Nat.max w.2 b) } else { l with blank := some (a, b) }
    | none => { l with blank := some (a, b) }

/-- A leg takes the level of its entry at an offset of its window. -/
def State.legLevel (s : State) (k t : Nat) (release : Bool) : State :=
  let l := s.ll k
  let lv := entryLevel l.loaded t
  let at_ := l.start + t
  let td := s.legTd k
  let starts := l.side ≠ lv && lv.isSome && (l.side.isSome || release)
  let l1 := { l.drive lv at_ td (s.legEdge k) with cur := t }
  s.setLl k (if starts then l1.blankFrom at_ td (Nat.min (s.regN (R.LBR.LBLK k)) 64000) else l1)

/-- R219: the offset up to which the conducting switch is held on as a CARRIER window ends. -/
def State.carrierHold (s : State) (k : Nat) (old new : Entry) (b : Nat) : Nat :=
  let l := s.ll k
  let w := s.legTd k + s.legTmin k
  match l.side with
  | none => 0
  | some lv =>
    let on := ((if lv then l.hi.up else l.lo.up).getD b)
    let endOff := if entryLevel new 0 ≠ some lv then some 0 else entryNext new 0
    let until_ := on + s.legTmin k
    match endOff with
    | some o => if old.mode = 3 && Nat.blt o w && Nat.blt (b + o) until_ then until_ - b else 0
    | none => 0

/-- An output boundary at one leg: a CYCLE latch whose inputs are inactive releases, the shadow register loads, and the
window starts (R375, R380). `b`: DT64 of the boundary; `stop`: the boundary after a plan stop. -/
def State.legBoundary (s : State) (b : Nat) (stop : Bool) (k : Nat) : State :=
  let l := s.ll k
  let ins := (List.range 12).filter fun n => l.by_.testBit n
  let free := ins.all fun n => s.regB (R.TRP.TCFG n) 4 && !s.regB R.TRP.TIN n
  let s1 := if s.latched k && free then (s.setB R.LBR.TLATCH k false).setB (R.PSTA 0x78) (16 + k) false else s
  let held := s1.latched k || stop || s1.legsHeld || !s1.regB (R.LBR.LCFG k) 5
  let e : Entry := if held then {} else l.shadow.headD {}
  let hold := s1.carrierHold k l.loaded e b
  let l1 := { l with loaded := e, shadow := if stop then [] else l.shadow.tail, start := b, len := s1.plan.per, cur := 0, hold := hold,
                     by_ := if s1.latched k then l.by_ else 0, tripped := s1.latched k }
  let s2 := s1.setLl k l1
  if hold = 0 then s2.legLevel k 0 (l.tripped && !s1.latched k) else s2

/-- The output boundary at every leg, and a new window for the trip inputs. -/
def State.localBoundary (s : State) (b : Nat) (stop : Bool) : State :=
  let s1 := (List.range 12).foldl (fun t k => t.legBoundary b stop k) s
  let trips := (List.range 12).foldl (fun m n =>
    let i := NMap.get ({} : TripIn) m n
    NMap.put ({} : TripIn) m n { i with run := if i.acted then i.run + 1 else 0, acted := false }) s1.loc.trips
  { s1 with loc := { s1.loc with trips := trips } }

/-- The offset of a leg's next change inside its window. -/
def State.legNext (s : State) (k : Nat) : Option Nat :=
  let l := s.ll k
  if l.cur < l.hold then some l.hold
  else match entryNext l.loaded l.cur with
    | some t => if t < l.len then some t else none
    | none => none

/-- A local leg's output timer reaches its next transition (R371, R383); a leg whose latch has been cleared resumes at the
next output boundary (R381). -/
def State.legTransition (s : State) (k : Nat) : State :=
  match s.legNext k with
  | none => s
  | some t =>
    if s.latched k || (s.ll k).tripped then s
    else
      let s1 := s.reach ((s.ll k).start + t)
      s1.legLevel k t false

/-! ### Framing (R373, R374) -/

/-- CSM address of a local leg's image. -/
def localImage (m k : Nat) : Nat := csmBase + 0x21000 + (m % 2) * 0x100 + k * 16

/-- The scheduler's parameters of a local leg. -/
def State.localPar (s : State) (k imgP : Nat) (host : Bool) : LegPar :=
  let cfg := s.regAcc (R.LBR.LCFG k)
  let tim := s.regAcc (R.LBR.LTIM k)
  let p := s.perNext
  { w := Nat.min (tim.fld 0 16) 64000 + Nat.min (tim.fld 16 14) 16000, policy := cfg.fld 0 2, bootEn := cfg.bit 2,
    bs := cfg.bit 3, bootHold := s.regAccF R.LBR.LBOOT 0 8, bootWidth := s.regAccF R.LBR.LBOOT 16 16,
    bootOfs := s.regAccF R.LBR.LBOFS 0 20, cmax := s.regAccF R.LBR.LCMAX 0 20, chop := false,
    theta := s.regAccF (R.LBR.LPH k) 0 16, p := p,
    pChk := if host then s.plan.per else if imgP = 0 then p else imgP,
    clamp := host || (decide (imgP ≠ 0) && decide (imgP ≠ p)), full := false }

/-- ADDR of a local leg in EDGE records (R451). -/
def localAddr (k : Nat) : Nat := 7 * 256 + k * 4096

/-- A framed entry joins the shadow register of a leg, behind the one whose output boundary is still due in the executing
period (R46). -/
def State.putLocal (s : State) (k : Nat) (e : Entry) : State :=
  let l := s.ll k
  let passed := s.plan.boundary == s.plan.start + s.regF R.TRG.PHI 0 20
  s.setLl k { l with shadow := if passed then [e] else [l.shadow.headD {}, e] }

/-- One local leg framed for period `m`. Its framed entry goes to the shadow register and the image; held off (EN = 0, its
latch set, the head not ACTIVE), its carries and counts are those of HOLD_OFF (R375, R382). The trip hold or a safety
request frames it HOLD_OFF (R436, R456). -/
def State.frameLocal1 (s : State) (m k : Nat) : State × Tally :=
  let key := 0x1000 + k
  let cfg := s.regAcc (R.LBR.LCFG k)
  let host := cfg.bit 4
  let img := localImage m k
  if s.allSafe then
    ((s.setLeg key (legOff (s.leg key) s.perNext)).putLocal k {} |>.when (!host) fun t => t.portBytes img (entryBytes {}), {})
  else
    let imgP := (s.mem.readWord (img + 12)).fld 0 20
    let n := if host then (s.regAcc (R.LBR.LHE0 k)).toNat + (s.regAcc (R.LBR.LHE1 k)).toNat * 2 ^ 32 +
        (s.regAcc (R.LBR.LHE2 k)).toNat * 2 ^ 64
      else s.mem.readLE img 12
    let raw := if !host && s.edge.frzLegs.testBit k then { e := { mode := 4 }, ne := 0 } else rawEntry n
    let r := schedule (s.localPar k imgP host) (s.leg key) raw
    let t := r.2.2
    let held := !cfg.bit 5 || s.legsHeld || s.latched k
    let s1 := (s.setLeg key (if held then legOff (s.leg key) s.perNext else r.1)).putLocal k (r.1.prev.getD {})
    let s2 := if host then s1 else s1.portBytes img (entryBytes r.2.1)
    (s2, { t with mmc := if host then 0 else t.mmc, serrAt := t.serrAt.map fun _ => localAddr k,
                  csatAt := t.csatAt.map fun _ => localAddr k,
                  mmcAt := if host || t.mmc = 0 then none else some (localAddr k) })

/-- The local legs framed for period `m`; off while the LBR page is disabled or held idle (R65), or the head restores its
state, when nothing is framed (R508). -/
def State.frameLocal (s : State) (m : Nat) : State × Tally :=
  let r := if !s.enabled 0x78 || s.regB (R.PCTL 0x78) 2 || s.inRestore then
      ((List.range 12).foldl (fun t k =>
        (t.setLeg (0x1000 + k) (legOff (t.leg (0x1000 + k)) t.perNext)).putLocal k {}) s, {})
    else (List.range 12).foldl (fun (q : State × Tally) k =>
      let a := q.1.frameLocal1 m k
      (a.1, q.2.add a.2)) (s, {})
  ({ r.1 with edge := { r.1.edge with frzLegs := 0 } }, r.2)

/-! ### Choppers (R386 to R390) -/

def State.chopper (s : State) (c : Nat) : Chopper := NMap.get {} s.loc.chop c

def State.setChopper (s : State) (c : Nat) (x : Chopper) : State :=
  { s with loc := { s.loc with chop := NMap.put {} s.loc.chop c x } }

/-- CHOPc turns on, or off, at an instant, with the edge time of its RATE (R372). -/
def Chopper.turnOn (x : Chopper) (t edge : Nat) : Chopper := { x with on := true, onAt := t, land := x.land.rise {} t 0 edge }
def Chopper.turnOff (x : Chopper) (t edge : Nat) : Chopper := { x with on := false, land := x.land.fall t edge }

/-- Edge time of CHOPc (CHCFGc.RATE). -/
def State.chEdge (s : State) (c : Nat) : Nat := edgeTime (s.regF (R.LBR.CHCFG c) 2 2)

/-- DC and ALIM of a channel (R388). -/
def State.chDc (s : State) (c : Nat) : Nat := s.regF (R.LBR.CHCFG c) 16 5
def State.chLim (s : State) (c : Nat) : Nat := s.regN (R.LBR.CHBURST c) * 250 * (32 - s.chDc c)

/-- A after some DTM cycles. -/
def Chopper.count (x : Chopper) (dc n : Nat) : Nat := if x.on then x.a + n * (32 - dc) else x.a - n * dc

/-- The duty counter brought forward to an instant, at which nothing else happens before. -/
def Chopper.upTo (x : Chopper) (dc t : Nat) : Chopper :=
  { x with a := x.count dc ((t - x.aAt) / 64), aAt := x.aAt + (t - x.aAt) / 64 * 64 }

/-- The instant at which the ceiling switches a channel off: A has reached ALIM, and the minimum on-time has passed. -/
def State.chCeilOff (s : State) (c : Nat) : Option Nat :=
  let x := s.chopper c
  let dc := s.chDc c
  if dc = 0 || !x.on then none
  else
    let need := (s.chLim c - x.a + (32 - dc) - 1) / (32 - dc)
    some (Nat.max (x.aAt + need * 64) (x.onAt + s.regN (R.LBR.CHTMIN c) * 64))

/-- The instant at which the ceiling releases a channel: A has fallen to ALIM / 2. -/
def State.chRelease (s : State) (c : Nat) : Option Nat :=
  let x := s.chopper c
  let dc := s.chDc c
  if !x.ceil || x.on then none
  else if dc = 0 then some x.aAt
  else some (x.aAt + ((2 * x.a - s.chLim c + 2 * dc - 1) / (2 * dc)) * 64)

/-- The ceiling is reached: CHOP_CEIL is raised once. -/
def State.chCeil (s : State) (c : Nat) : State :=
  let x := s.chopper c
  if x.ceil then s
  else ((s.setChopper c { x with ceil := true }).irq 0x78 3).fault Src.CHOP_CEIL 0x78 c

/-- What the ceiling does to a channel up to the present instant. -/
def State.chopSync (s : State) (c : Nat) : State :=
  let dc := s.chDc c
  let now := s.dt64
  let x := s.chopper c
  let lim := s.chLim c
  let s1 : State :=
    if x.on && dc ≠ 0 && Nat.ble lim (x.count dc ((now - x.aAt) / 64)) then
      let t := s.chCeil c
      match s.chCeilOff c with
      | some o => if o ≤ now then t.setChopper c (((t.chopper c).upTo dc o).turnOff o (t.chEdge c)) else t
      | none => t
    else s
  let y := (s1.chopper c).upTo dc now
  let s2 := s1.setChopper c y
  s2.when (y.ceil && !y.on && (dc = 0 || Nat.ble (2 * y.a) lim)) fun t => t.setChopper c { y with ceil := false }

/-- A new result of the source a channel selects, produced with its reference ready, is waiting for the compare. -/
def State.chopFeed (s : State) (sel : Nat) (v : Int) : State :=
  [0, 1].foldl (fun t c => t.when (t.regF (R.LBR.CHCFG c) 8 8 = sel) fun u =>
    u.setChopper c { u.chopper c with x := (u.chopper c).x ++ [(v, u.dt64)] }) s

/-- A new result of the chopper's source acts, in the second DTM cycle after it arrived (R386). -/
def State.chopperResult (s : State) (c : Nat) : State :=
  match (s.chopper c).x with
  | [] => s
  | (v, at_) :: rest =>
    let s0 := (s.setChopper c { s.chopper c with x := rest }).reach (at_ + 128)
    if !s0.regB (R.LBR.CHCFG c) 0 then s0
    else
      let s1 := s0.chopSync c
      let x := { s1.chopper c with used := s1.dt64, nosrc := false }
      let on := s1.regI (R.LBR.CHON c)
      let off := if on ≤ s1.regI (R.LBR.CHOFF c) then on - 1 else s1.regI (R.LBR.CHOFF c)
      if !x.on then
        if on ≤ v && !s1.latched (12 + c) && !x.ceil then
          ((s1.setChopper c (x.turnOn s1.dt64 (s1.chEdge c))).bump (R.LBR.CHCNT c)).irq 0x78 2
        else s1.setChopper c x
      else if v ≤ off && Nat.ble (x.onAt + s1.regN (R.LBR.CHTMIN c) * 64) at_ then
        s1.setChopper c (x.turnOff s1.dt64 (s1.chEdge c))
      else s1.setChopper c x

/-- The ceiling releases a channel (R388). -/
def State.chopRelease (s : State) (c : Nat) : State :=
  let s1 := s.chopSync c
  match s1.chRelease c with
  | some t => (s1.reach t).chopSync c
  | none => s1

/-- The minimum on-time ends; a ceiling switch-off that is due acts (R387). -/
def State.chtminExpiry (s : State) (c : Nat) : State :=
  let x := s.chopper c
  if !x.on then s else (s.reach (x.onAt + s.regN (R.LBR.CHTMIN c) * 64)).chopSync c

/-- No result has been used for 64 µs (R389). -/
def State.chopSrc (s : State) (c : Nat) : State :=
  let x := s.chopper c
  if !s.regB (R.LBR.CHCFG c) 0 || x.nosrc then s
  else
    let s1 := (s.reach (x.used + 1024000)).chopSync c
    (((s1.setChopper c { (s1.chopper c).turnOff s1.dt64 (s1.chEdge c) with nosrc := true }).irq 0x78 5).fault Src.CHOP_SRC 0x78 c)

/-- CHCFG has been written: EN = 0 turns the channel off; EN from 0 to 1 starts its 64 µs. -/
def State.chopConfig (s : State) (c : Nat) (wasOn : Bool) : State :=
  let s1 := s.chopSync c
  let x := s1.chopper c
  let en := s1.regB (R.LBR.CHCFG c) 0
  if !en then s1.setChopper c { x.turnOff s1.dt64 (s1.chEdge c) with x := [] }
  else if wasOn then s1 else s1.setChopper c { x with used := s1.dt64, nosrc := false, x := [] }

/-- CHSTA (R394). Where ALIM is 0 no value of FILL is stated: a free value. -/
def State.chsta (s0 : State) (c : Nat) : Word :=
  let s := s0.chopSync c
  let x := s.chopper c
  let lim := s.chLim c
  let fill := if lim = 0 then s.freeWord.fld 0 16 else Nat.min 0xFFFF (x.a * 65536 / lim)
  wd (b2n (x.land.high s.dt64) + b2n x.ceil * 2 + b2n x.nosrc * 4 + b2n (s.latched (12 + c)) * 8 + fill * 65536)

/-! ### Trips (R377 to R385) -/

/-- Is a leg in blanking in the present DTM cycle? -/
def State.blanked (s : State) (k : Nat) : Bool := (s.ll k).blank.any fun w => Nat.ble w.1 s.dt64 && Nat.blt s.dt64 w.2

/-- The latch of a channel is set by some inputs, and the channel is switched off in the next DTM cycle, a chopper with the
legs; A counts that cycle (R378, R388). -/
def State.setLatch (s : State) (ch ins : Nat) : State :=
  let s1 := s.setB R.LBR.TLATCH ch true
  let t := s.dt64 + 64
  if ch < 12 then
    let l := s1.ll ch
    (s1.setLl ch { l.drive none t 0 (s1.legEdge ch) with by_ := l.by_ ||| ins, mark := 0, tripped := true, blank := none }).setB (R.PSTA 0x78)
      (16 + ch) true
  else
    let s2 := s1.chopSync (ch - 12)
    let x := (s2.chopper (ch - 12)).upTo (s2.chDc (ch - 12)) t
    s2.setChopper (ch - 12) { x.turnOff t (s2.chEdge (ch - 12)) with by_ := x.by_ ||| ins }

/-- The inputs of a mask that map a channel. -/
def State.mapping (s : State) (ins ch : Nat) : Nat :=
  (List.range 12).foldl (fun m n => if ins.testBit n && s.regB (R.TRP.TMAP n) ch then m + 2 ^ n else m) 0

/-- Does an input's act raise LB_TRIPn (R380)? In CYCLE mode: it has acted in CYCN consecutive windows, once a window. -/
def State.tripRaises (s : State) (n : Nat) : Bool :=
  let i := NMap.get ({} : TripIn) s.loc.trips n
  !s.regB (R.TRP.TCFG n) 4 || (!i.acted && Nat.ble (Nat.max 1 (s.regF (R.TRP.TCFG n) 8 8)) (i.run + 1))

/-- The trips of one DTM cycle: inputs that have become active, and blanking windows that end (R378, R384, R385). -/
def State.tripCycle (s : State) (ins : Nat) : State :=
  let active := s.regN R.TRP.TIN
  -- legs whose window ends with a pending mark
  let ending := (List.range 12).filter fun k => (s.ll k).mark ≠ 0 && !s.blanked k
  let due := ending.filter fun k => (s.ll k).mark &&& active ≠ 0
  let dropped := ending.filter fun k => (s.ll k).mark &&& active = 0
  let s1 := dropped.foldl (fun t k =>
    ((t.setLl k { t.ll k with mark := 0 }).bump R.LBR.MASKCNT).fault Src.MASKED_TRIP 0x78 k) s
  -- what each channel's new inputs are, and whether it is masked
  let hit (k : Nat) : Nat := s.mapping ins k
  let masked := (List.range 12).filter fun k => hit k ≠ 0 && s.blanked k && !s.latched k
  let s2 := masked.foldl (fun t k =>
    let l := t.ll k
    (t.setLl k { l with mark := l.mark ||| hit k }).irq 0x78 1) s1
  let set_ := (List.range 14).filter fun ch => (hit ch ≠ 0 && !masked.contains ch) || due.contains ch
  let by_ (ch : Nat) : Nat := hit ch ||| (if due.contains ch then (s.ll ch).mark &&& active else 0)
  let fresh := set_.filter fun ch => !s.latched ch
  let acted := set_.foldl (fun m ch => m ||| by_ ch) 0
  let s3 := set_.foldl (fun t ch => t.setLatch ch (by_ ch)) s2
  if acted = 0 then s3
  else
    let ns := (List.range 12).filter fun n => acted.testBit n
    let s4 := ns.foldl (fun t n => (t.setB R.TRP.TACT n true).irq 0x79 n) s3
    let s5 := (s4.bumpBy R.LBR.TRIPCNT fresh.length).when (!fresh.isEmpty) fun t => t.irq 0x78 0
    let detail := (fresh.foldl (fun m ch => m + 2 ^ ch) 0) + acted * 2 ^ 14 + b2n (Nat.blt 1 fresh.length) * 2 ^ 26 +
      b2n (!(due.filter fun k => fresh.contains k).isEmpty) * 2 ^ 27
    let s6 := match ns.find? s.tripRaises with
      | some n =>
        if fresh.isEmpty then s5
        else (((s5.setReg R.TRP.TLAST (wd detail)).setReg R.TRP.TLASTT (wd s5.dt64)).fault (Src.LB_TRIP0 + n) 0x79 detail 0 0
          detail).when (Nat.blt 1 fresh.length) fun t => t.irq 0x79 12
      | none => s5
    let trips := ns.foldl (fun m n => NMap.put ({} : TripIn) m n { NMap.get ({} : TripIn) m n with acted := true }) s6.loc.trips
    { s6 with loc := { s6.loc with trips := trips } }

/-- Filter time of an input: 5 × 2^FILT DTM cycles (R377). -/
def State.filterTime (s : State) (n : Nat) : Nat := 320 * 2 ^ s.regF (R.TRP.TCFG n) 0 3

/-- The filtered levels of some inputs change: no earlier than a filter time after each one's last change, since the input
held its new level throughout (R377). -/
def State.filterChange (s : State) (ns : List Nat) : State :=
  let due := ns.foldl (fun (b : Option Nat) n => match (NMap.get ({} : TripIn) s.loc.trips n).since with
    | some t => some (Nat.max (b.getD 0) (t + s.filterTime n))
    | none => b) none
  let s1 := match due with
    | some t => s.reach t
    | none => s
  { s1 with loc := { s1.loc with trips := ns.foldl (fun m n =>
      NMap.put ({} : TripIn) m n { NMap.get ({} : TripIn) m n with since := some s1.dt64 }) s1.loc.trips } }

/-- Active levels of inputs in one DTM cycle (R378): those not active so far; the enabled ones act. -/
def State.tripLevels (s : State) (mask : Nat) : State :=
  let new := (List.range 12).filter fun n => mask.testBit n && !s.regB R.TRP.TIN n
  let s1 := new.foldl (fun t n => t.setB R.TRP.TIN n true) s
  let en := (new.filter fun n => s.regB (R.TRP.TCFG n) 5).foldl (fun m n => m + 2 ^ n) 0
  s1.tripCycle en

/-- Filtered levels of inputs become active in one DTM cycle (R377, R378). -/
def State.tripActive (s : State) (mask : Nat) : State :=
  (s.filterChange ((List.range 12).filter fun n => mask.testBit n && !s.regB R.TRP.TIN n)).tripLevels mask

/-- An input's level is inactive: chopper latches set by CYCLE-mode inputs that are all inactive release (R380). -/
def State.tripRelease (s : State) (n : Nat) : State :=
  let s1 := s.setB R.TRP.TIN n false
  [12, 13].foldl (fun t ch =>
    let x := t.chopper (ch - 12)
    let ins := (List.range 12).filter fun i => x.by_.testBit i
    if t.latched ch && ins.all (fun i => t.regB (R.TRP.TCFG i) 4 && !t.regB R.TRP.TIN i) then
      (t.setB R.LBR.TLATCH ch false).setChopper (ch - 12) { x with by_ := 0 }
    else t) s1

/-- A filtered level becomes inactive (R377, R380). -/
def State.tripInactive (s : State) (n : Nat) : State :=
  ((if s.regB R.TRP.TIN n then s.filterChange [n] else s)).tripRelease n

/-- TCFG has been written: where POL has changed, the filtered level that was active is inactive and the reverse (R377):
DEDUCED (log 162). -/
def State.trapConfig (s : State) (n : Nat) (pol : Bool) : State :=
  if s.regB (R.TRP.TCFG n) 3 = pol then s
  else if s.regB R.TRP.TIN n then s.tripRelease n else s.tripLevels (2 ^ n)

/-- A blanking window ends (R384). -/
def State.blankingEnd (s : State) (k : Nat) : State :=
  match (s.ll k).blank with
  | none => s
  | some w =>
    let s1 := (s.reach w.2).tripCycle 0
    s1.setLl k { s1.ll k with blank := none }

/-- A write of TLATCH (R381). -/
def State.tlatchClear (s : State) (v : Word) : State :=
  (List.range 14).foldl (fun t ch =>
    if !v.bit ch || !t.latched ch then t
    else if t.mapping (t.regN R.TRP.TIN) ch ≠ 0 then t.irq 0x78 4
    else
      let t1 := t.setB R.LBR.TLATCH ch false
      if ch < 12 then (t1.setLl ch { t1.ll ch with by_ := 0 }).setB (R.PSTA 0x78) (16 + ch) false
      else t1.setChopper (ch - 12) { t1.chopper (ch - 12) with by_ := 0 }) s

/-! ### Registers computed on read (R394) -/

def State.lout (s : State) : Word :=
  let bit (l : Land) : Nat := b2n (l.high s.dt64)
  wd ((List.range 12).foldl (fun m k => m + bit (s.ll k).hi * 2 ^ (2 * k) + bit (s.ll k).lo * 2 ^ (2 * k + 1))
    (bit ((s.chopSync 0).chopper 0).land * 2 ^ 24 + bit ((s.chopSync 1).chopper 1).land * 2 ^ 25))

def State.tmaskd (s : State) : Word := wd ((List.range 12).foldl (fun m k => m + b2n ((s.ll k).mark ≠ 0) * 2 ^ k) 0)

/-- LCVAL, LBCVAL and LLSTA of the leg LSEL names. -/
def State.lselLeg (s : State) : Nat := Nat.min (s.regF R.LBR.LSEL 0 4) 11
def State.lcval (s : State) : Word :=
  if s.regF (R.LBR.LCFG s.lselLeg) 0 2 = 2 then wdInt (s.leg (0x1000 + s.lselLeg)).carry else 0
def State.lbcval (s : State) : Word := wdInt (s.leg (0x1000 + s.lselLeg)).bcarry
def State.llsta (s : State) : Word :=
  wd ((lstaOf (s.leg (0x1000 + s.lselLeg))).toNat + b2n (s.latched s.lselLeg) * 2 ^ 13 + b2n ((s.ll s.lselLeg).mark ≠ 0) * 2 ^ 14)

end Sys2Proof.Machine
end

