-- ==== Sys2Proof/Machine/Pair.lean ====
section
/-!
DEFINITION. Sys2Proof/Machine/Pair.lean: head pairing: roles, the claim interlock, relay, substitution and comparison,
tie frames, plan lock, takeover, yield and handover (chapter 11).
Readings and choices (notes/assumptions): DEDUCED 45, 78, 79, 80, 82, 129, 170, 171; DESIGN CHOICE 172.
-/
namespace Sys2Proof.Machine

/-- HPR's page. -/
abbrev hprPage : Nat := 0x88

def State.setPair (s : State) (p : Pair) : State := { s with pair := p }

/-! ### Roles (R352, R353) -/

/-- Every local leg is off from here (R367). -/
def State.legsDrop (s : State) : State :=
  (List.range 12).foldl (fun t k =>
    let l := t.ll k
    t.setLl k { l.drive none t.dt64 0 (t.legEdge k) with loaded := {}, hold := 0 }) s

/-- A role change; a head that leaves ACTIVE holds its local legs low. -/
def State.roleTo (s : State) (r : Nat) : State :=
  if s.role = 4 && r ≠ 4 then s.legsDrop.roleGoto r else s.roleGoto r

/-- RSPEND on every ring of the map (R190). -/
def State.resyncAll (s : State) : State := s.ringsInMap.foldl (fun t k => t.setB (R.RNG.RSTA k) 4 true) s

/-- The head enters CLAIMING (R353): CLAIM_OUT runs and the contest window starts. -/
def State.claimEnter (s : State) (init : Bool) : State :=
  (s.setPair { s.pair with claimAt := s.dt64, from_ := s.role, init := init }).roleTo 3

/-- A standby with a standing claim request claims when it may (R353). -/
def State.tryClaim (s : State) : State :=
  s.when (s.paired && s.role = 2 && s.pair.request && s.regB R.HPR.PCFG 1 && !s.regB R.HPR.HSTA 4) fun t =>
    t.claimEnter false

/-- The head enters ACTIVE (R367): RSPEND on every ring; by claim, TAKEOVER, and where it was not
ARMED a cold start of the program set. -/
def State.enterActive (s : State) : State :=
  let byClaim := !s.pair.init
  let armed := s.regB R.HPR.HSTA 6
  let s1 := (s.roleTo 4).resyncAll
  let s2 := s1.setPair { s1.pair with lost := false, request := false, handover := false, jig := [], quiet := 0, init := false,
                                      rlyRx := false, relock := false }
  let s3 := { s2 with pset := { s2.pset with cold := byClaim && !armed },
                      cells := s2.cells.map fun (p : Nat × CellRx) => (p.1, { p.2 with held := true }) }
  (s3.datumSource).when byClaim fun t => (t.bump R.HPR.TKCNT).fault Src.TAKEOVER hprPage

/-- HCMD HANDOVER: accepted by an ACTIVE head whose peer's last tie beacon shows an ARMED standby (R366). -/
def State.handover (s : State) : State :=
  if s.paired && s.role = 4 && s.regF R.HPR.PEER 0 3 = 2 && s.regB R.HPR.PEER 3 then
    s.setPair { s.pair with handover := true }
  else s.irq hprPage 5

/-- HCMD LEAVE: to OFF. -/
def State.leave (s : State) : State := if s.paired && s.role ≠ 0 then s.roleTo 0 else s

/-- HCMD JOIN: from OFF to LISTEN. -/
def State.join (s : State) : State := if s.paired && s.role = 0 then s.roleTo 1 else s

/-! ### The claim interlock (R354, R355) -/

/-- Length of the block: 400 SFB cycles, or 800 at head B after a lost contest. -/
def State.blockCycles (s : State) : Nat := if s.hid = 1 && s.pair.lost then 800 else 400

/-- The level of CLAIM_OUT at an instant: a 1 MHz square wave from the entry to CLAIMING on, high first, that changes every 50
SFB cycles; low in any other role and at reset (R354). -/
def State.claimOut (s : State) (t : Nat) : Bool := !s.rst.clamp && s.regB R.HPR.HSTA 5 && (t - s.pair.claimAt) / 8000 % 2 = 0

/-- A CLAIMING head loses its contest: the role it came from. From OFF, which a claim of INIT came from, TRG.PCTL.EN = 1 takes it
on to LISTEN, as it is blocked now (R353, R355): DEDUCED (log 170). -/
def State.contestLost (s : State) : State :=
  let s0 := s.roleTo s.pair.from_
  let s1 := s0.setPair { s0.pair with lost := true, init := false }
  let s2 := s1.when (s1.role = 0 && s1.enabled 9 && !s1.regB (R.PCTL 9) 2) fun t => t.roleTo 1
  (((s2.bump R.HPR.CONCNT).irq hprPage 3).fault Src.CLAIM_CONTEST hprPage)

/-- An edge on CLAIM_IN. -/
def State.claimEdge (s : State) : State :=
  let s1 := (s.setPair { s.pair with edgeAt := s.dt64 }).setB R.HPR.HSTA 4 true
  s1.when (s1.paired && s1.role = 3) State.contestLost

/-- The watchdog reaches the end of the block. -/
def State.blockEnd (s : State) : State :=
  if !s.regB R.HPR.HSTA 4 then s
  else ((s.reach (s.pair.edgeAt + s.blockCycles * 160)).setB R.HPR.HSTA 4 false).tryClaim

/-- 100 SFB cycles pass in CLAIMING with no edge: ACTIVE. -/
def State.contestWon (s : State) : State :=
  if s.paired && s.role = 3 then (s.reach (s.pair.claimAt + 16000)).enterActive else s

/-! ### Instants and beacons of the period -/

/-- The peer's tie beacon of the executing period has arrived. -/
def State.beaconNow (s : State) : Option TieBeacon := s.pair.beacon.filter fun b => b.pidx == s.nextPidx

/-- The head holds a valid command copy of the active for the next period on some ring. -/
def State.copyNow (s : State) : Bool :=
  s.pair.copies.any fun p => match p.2 with
    | some c => c.1 == s.nextPidx
    | none => false

/-- The active's last tie beacon carried HOVR (R365). -/
def State.handsOver (s : State) : Bool := s.pair.beacon.any fun b => b.role == 4 && b.hovr

/-- At t_CC + 200 ns: a standby without an active copy or tie beacon has a claim request (R365). -/
def State.claimRequest (s : State) : State :=
  if s.paired && s.role = 2 && s.plan.started then
    let s1 := s.reach (s.tCC + 3200)
    let quiet := !s1.copyNow && !(s1.beaconNow.any fun b => b.role == 4)
    if quiet || s1.handsOver || s1.pair.request then (s1.setPair { s1.pair with request := true }).tryClaim else s1
  else s

/-- Is the executing period quiet for the yield: no relayed copy while the peer's beacon showed STANDBY (R366)? -/
def State.quietNow (s : State) : Bool := !s.pair.rlyRx && s.beaconNow.any fun b => b.role == 2

/-- At t_CC + 200 ns of the second quiet period an ACTIVE head yields (R366). -/
def State.pairYield (s : State) : State :=
  if s.paired && s.role = 4 && s.plan.started && s.regB R.HPR.PCFG 4 && s.quietNow && Nat.ble 1 s.pair.quiet then
    ((s.reach (s.tCC + 3200)).roleTo 0).fault Src.PAIR_YIELD hprPage
  else s

/-! ### Relay, substitution and comparison (R357 to R359) -/

/-- The relay and the comparison run in the executing period: one period's is the page's operation, which EN and SSTOP end or
begin with a period (R65, R369). -/
def State.hprRuns (s : State) : Bool := s.pair.runs

/-- A period begins: it relays and compares where the page is enabled and not stopped (R65, R369). -/
def State.hprBegin (s : State) : State :=
  if s.paired then s.setPair { s.pair with runs := s.enabled hprPage && !s.regB (R.PCTL hprPage) 2 } else s

/-- The header of a relayed or substituted copy: DIR inverted, HID the standby, RELAY 1. -/
def relayHeader (h : List Byte) (hid : Nat) : List Byte :=
  let b0 := byteAt h 0
  let b6 := byteAt h 6
  let b1 := if b0.testBit 3 then b0 - 8 else b0 + 8
  let b2 := if b1.testBit 1 then b1 - 2 else b1
  [BitVec.ofNat 8 (b2 + 2 * hid), h.getD 1 0] ++ (h.drop 2).take 4 ++
    [BitVec.ofNat 8 (if b6.testBit 5 then b6 else b6 + 32), h.getD 7 0]

/-- Do checks 1 to 3 of R157 pass? -/
def wireOk (r : RxFrame) : Bool :=
  r.intact && Nat.ble 12 r.bytes.length && Nat.ble r.bytes.length 1024 &&
    crc32 (r.bytes.take (r.bytes.length - 4)) == leAt r.bytes (r.bytes.length - 4) 4

/-- The first payload byte in which two payloads differ. -/
def firstDiff (a b : List Byte) : Option Nat :=
  (List.range (Nat.max a.length b.length)).find? fun i => a[i]? ≠ b[i]?

/-- The head's own framed command frame of a ring: RESYNC and payload. -/
def State.ownFrame (s : State) (ring : Nat) : Bool × List Byte := NMap.get (false, []) s.pair.own ring

/-- A valid copy of the active is held for the next period and, while the head's plan has started, compared with the head's own
frame (R359, R360). It ends a claim request, but not one whose HOVR the active's last tie beacon still carries (R365). -/
def State.takeCopy (s : State) (ring : Nat) (f : List Byte) : State :=
  let pl := framePayload f
  let p := s.pair
  let d := if framePidx f ≠ s.nextPidx then some 0 else firstDiff pl (s.ownFrame ring).2
  let diff := match p.diff, d with
    | none, some i => if s.role = 2 && s.plan.started then some (ring, i) else none
    | x, _ => x
  s.setPair { p with copies := NMap.put none p.copies ring (some (framePidx f, pl)), diff := diff,
                     request := p.request && s.handsOver }

/-- A command frame that the standby has launched on a ring carried the full-state requests that its own framing had made:
RESYNC where `resync`, SRSYNC of the slots that carry it in both payloads (R190: log 171). -/
def State.syncSent (s : State) (ring : Nat) (resync : Bool) (pl : List Byte) : State :=
  let own := s.ownFrame ring
  let cs := s.regF (R.RNG.RCFG ring) 8 8
  let s1 := s.when (resync && own.1 && s.regB (R.RNG.RSTA ring) 4) fun t =>
    (t.setB (R.RNG.RSTA ring) 4 false).irq (0x30 + ring) 3
  (List.range (s.ringCells ring)).foldl (fun t p =>
    let both := (byteAt pl (p * cs + 1)).testBit 2 && (byteAt own.2 (p * cs + 1)).testBit 2
    t.when both fun u =>
      { u with cells := NMap.put {} u.cells (ring * 8 + p) { NMap.get ({} : CellRx) u.cells (ring * 8 + p) with srsync := false } }) s1

/-- A command copy of the active arrives (R357): relayed in its window by a standby, held where it is valid. -/
def State.activeCopy (s : State) (ring : Nat) (f : RxFrame) : State :=
  if !s.paired || s.role = 4 || s.role = 0 then s
  else
    let rev := !s.ownDir
    match s.rxTake ring rev f with
    | none => s
    | some (s0, g) =>
      if frameType g.bytes ≠ 1 then s0
      else
        let at_ : Int := (s0.relayAt ring : Nat)
        let inWin := decide (at_ - 12800 ≤ sofStamp g) && decide (sofStamp g ≤ at_ - 320)
        let relays := s0.role = 2 && s0.plan.started && s0.hprRuns
        let s1 : State :=
          if !relays then s0
          else if !inWin then s0.bump R.HPR.RLYLATE
          else
            let body := relayHeader g.bytes s0.hid ++ framePayload g.bytes
            let out := match s0.txLane ring s0.ownDir with
              | some n => if !s0.laneUp n then [] else
                  if wireOk g then [OutFrame.exl n (s0.relayAt ring) (body ++ natLe 4 (crc32 body))]
                  else [OutFrame.cut n (s0.relayAt ring) body]
              | none => []
            let t := s0.setPair { s0.pair with relayed := s0.pair.relayed ||| 2 ^ ring }
            (t.send out).when (!out.isEmpty && wireOk g) fun u =>
              u.syncSent ring ((byteAt g.bytes 6).testBit 4) (framePayload g.bytes)
        match frameCheck ring rev g with
        | some off => s1.frameErr ring off
        | none => s1.takeCopy ring g.bytes

/-- At R_k without an active copy in the window: an ARMED standby substitutes its own frame (R358). -/
def State.relaySubst (s : State) (ring : Nat) : State :=
  let own := s.ownFrame ring
  if s.paired && s.role = 2 && s.plan.started && !s.inRestore && s.hprRuns && !s.pair.relayed.testBit ring && !s.pair.subst.testBit ring &&
      s.regB R.HPR.PCFG 3 && s.regB R.HPR.HSTA 6 && s.beaconNow.any (fun b => b.role == 4) && !own.2.isEmpty then
    let s1 := s.reach (s.relayAt ring)
    let h := relayHeader (s1.header 1 ring (!s1.ownDir) own.2.length s1.nextPidx own.1) s1.hid
    let out := s1.exlOut ring s1.ownDir (s1.relayAt ring) (frameOf h own.2)
    let s2 := ((s1.setPair { s1.pair with subst := s1.pair.subst ||| 2 ^ ring }).send out).when (!out.isEmpty) fun t =>
      t.syncSent ring own.1 own.2
    (s2.setB R.HPR.SUBMAP ring true).fault Src.RELAY_SUBST hprPage ring
  else s

/-- Is the executing period compared (R359)? -/
def State.compared (s : State) : Bool :=
  s.role = 2 && s.hprRuns && s.regB R.HPR.HSTA 9 && s.beaconNow.any fun b => b.role == 4 && wd b.digest == s.reg R.HPR.DIGEST

/-- A difference of a compared period is counted, recorded and clears ARMED; an ARMED standby raises TWIN_DIVERGE. -/
def State.twinDiff (s : State) : State :=
  match s.pair.diff with
  | none => s
  | some (ring, i) =>
    if s.pair.diffDone || !s.compared then s
    else
      let s1 := (s.setPair { s.pair with diffDone := true, cmpBad := true }).bump R.HPR.DIVCNT
      if s1.regB R.HPR.HSTA 6 then
        (((((s1.setReg R.HPR.DIVPIDX (wd s1.nextPidx)).setReg R.HPR.DIVPOS (wd (ring + i * 65536))).irq hprPage 1).fault
          Src.TWIN_DIVERGE hprPage ring).setArmed false)
      else s1

/-- Words 0 to 10 of a record as the digest takes them. The words that R173 leaves undefined for a cell not RANGED count as 0,
so that they reach no frame and no decision (R18, R173): DESIGN CHOICE (log 172). -/
def State.digestBytes (s : State) (addr : Nat) : List Byte :=
  let pidx := s.regN R.TRG.PIDX
  let b := s.mem.readBytes (recAt pidx addr) 44
  if (NMap.get ({} : CellRx) s.cells addr).undef.testBit (pidx % 2) then
    zeros 19 ++ (b.drop 19).take 1 ++ zeros 16 ++ b.drop 36
  else b

/-- The digest of the period: CRC-32 over words 0 to 10 of every record, ascending (R359). -/
def State.digestNow (s : State) : State :=
  if !s.paired then s
  else s.setReg R.HPR.DIGEST (wd (crc32 ((s.ringAddrs.map s.digestBytes).flatten)))

/-- VPRED of a cell in the period of index `idx` from the active's copy of its ring (R360). -/
def State.heldCell (s : State) (idx addr : Nat) : State :=
  let ring := addr / 8
  let c := NMap.get ({} : CellRx) s.cells addr
  let cs := s.regF (R.RNG.RCFG ring) 8 8
  let c1 := match NMap.get none s.pair.copies ring with
    | some (i, pl) =>
      if i = idx then { c with held := true, vpred := leAt pl ((addr % 8) * cs + 6) 2 } else { c with held := false }
    | none => { c with held := false }
  { s with cells := NMap.put {} s.cells addr c1 }

/-- The slots of the period of index `idx` are judged by the active's copies held for it; those of an ACTIVE head by what it sent
itself (R360). -/
def State.heldCells (s : State) (idx : Nat) : State :=
  if s.role = 4 then { s with cells := s.cells.map fun (q : Nat × CellRx) => (q.1, { q.2 with held := true }) }
  else s.ringAddrs.foldl (fun t a => t.heldCell idx a) s

/-- What a paired head settles as its plan starts: the copies held for the first period, and a comparison that begins anew (R359,
R360). -/
def State.pairStart (s : State) (idx : Nat) : State :=
  if !s.paired then s
  else
    let t := (s.heldCells idx).hprBegin
    t.setPair { t.pair with diff := none, diffDone := false, copies := [], relayed := 0, subst := 0, rlyRx := false,
                            slotsTx := false, jigSent := false }

/-- What a paired head settles as a period ends: the comparison, ARMED, the quiet count, the copies of the next period. A period
in another role than STANDBY is not compared, and keeps ARMED out of reach (R359). -/
def State.pairPeriodEnd (s : State) : State :=
  if !s.paired then s
  else
    let s1 := s.twinDiff
    let p := s1.pair
    let s2 : State :=
      if s1.role ≠ 2 then s1.setPair { p with cmpBad := true }
      else if s1.compared then
        let t := s1.bumpAt R.HPR.CMPCNT 0 32
        if p.diff.isSome then t
        else
          let t1 := t.setPair { p with cmpRun := p.cmpRun + 1 }
          t1.when (p.cmpRun + 1 = 16 && !p.cmpBad && !p.joined) fun u => u.setArmed true
      else ((s1.setPair { p with cmpBad := true }).bump R.HPR.SKPCNT).setArmed false
    let quiet := if s2.role = 4 && s2.quietNow then s2.pair.quiet + 1 else 0
    let missed := if s2.beaconNow.isSome then 0 else s2.pair.missed + 1
    let s3 := s2.heldCells s2.nextPidx
    let q := s3.pair
    ((s3.setReg R.HPR.RLYMAP (wd q.relayed)).setReg R.HPR.SUBMAP (wd q.subst)).setPair
      { q with quiet := quiet, missed := missed, relayed := 0, subst := 0, diff := none, diffDone := false, rlyRx := false,
               copies := [], slotsTx := false, jigSent := false }

/-! ### Tie frames (R349, R350) -/

def State.tieUp (s : State) : Bool := s.laneUp s.tieLane

/-- A frame for the tie. -/
def State.tieFrame (s : State) (type ring : Nat) (rev : Bool) (pidx : Nat) (pl : List Byte) : List Byte :=
  frameOf (s.header type ring rev pl.length pidx false) pl

def State.tieOut (s : State) (launch : Nat) (f : List Byte) : List OutFrame :=
  if s.tieUp then [.exl s.tieLane launch f] else []

/-- A frame that arrives on the tie, where it passes R157 as R350 changes it; a frame being discarded ends here (R128). -/
def State.tieRx (s : State) (type : Nat) (r : RxFrame) : State × Option RxFrame :=
  let n := s.tieLane
  let l := s.lane n
  let s1 := if l.drop then s.setLane n { l with drop := false } else s
  let g := { r with intact := r.intact && !l.drop }
  if !s.paired || !s.laneUp n then (s, none)
  else if (frameCheck (frameRing g.bytes) (frameRev g.bytes) g).isSome || frameType g.bytes ≠ type then (s1, none)
  else (s1, some g)

/-- TIEUP follows the tie lane (R369 IRQS[4]); the tie leaving UP is a case of TIE_LOST (R368). -/
def State.tieSync (s : State) : State :=
  if !s.paired || s.regB R.HPR.HSTA 7 = s.tieUp then s
  else
    let s1 := (s.setB R.HPR.HSTA 7 s.tieUp).irq hprPage 4
    s1.setPair { s1.pair with tieDown := !s.tieUp }

/-- The tie beacon of the period, launched at t_ML (R350). -/
def State.tieBeacon (s : State) (hovr : Bool) : List OutFrame :=
  if !s.paired || !(s.role = 2 || s.role = 4) then []
  else
    let pl := natLe 8 (s.tML + 614) ++ natLe 4 (s.regN R.HPR.DIGEST) ++ natLe 3 s.perNext ++
      [BitVec.ofNat 8 (s.role + b2n (s.regB R.HPR.HSTA 6) * 8 + b2n hovr * 16)]
    s.tieOut s.tML (s.tieFrame 3 0 false s.nextPidx pl)

/-- A tie beacon's payload. -/
def parseBeacon (f : List Byte) : TieBeacon :=
  let p := framePayload f
  { pidx := framePidx f, dt64 := leAt p 0 8, digest := leAt p 8 4, per := leAt p 12 3 % 2 ^ 20, role := byteAt p 15 % 8,
    armed := (byteAt p 15).testBit 3, hovr := (byteAt p 15).testBit 4 }

/-- Is Datum LOCKED to the tie (TLOCK)? -/
def State.tieLock (s : State) : Bool := s.paired && s.role ≠ 4 && s.dstate = 2

/-- Every mapped ring lane of this head is UP. -/
def State.ringLanesUp (s : State) : Bool := s.ringDirs.all fun d => match s.txLane d.1 d.2 with
  | some n => s.laneUp n
  | none => true

/-- A LISTEN head with its plan locked and every ring lane UP enters STANDBY (R353). -/
def State.listenCheck (s : State) : State :=
  s.when (s.paired && s.role = 1 && s.regB R.HPR.HSTA 9 && s.ringLanesUp) fun t => t.roleTo 2

/-- 100 ms after its ring lanes were lit a LISTEN head enters STANDBY. -/
def State.listenTimeout (s : State) : State :=
  match s.pair.litAt with
  | some t => if s.paired && s.role = 1 then (s.reach (t + 1600000000)).roleTo 2 else s
  | none => s

/-- The frame plan is locked to the active's beacon: S(n+2) and index n+2 (R363). -/
def State.planLock (s : State) (b : TieBeacon) : State :=
  let s0 := s.planHalt
  let at_ := (b.dt64 + 2 ^ 64 - 614 + s0.regF R.TRG.TML 0 20 + b.per) % 2 ^ 64
  let p : Plan := { s0.plan with run := true, started := false, start := at_, per := s0.regF R.TRG.PER 0 20,
                                 idx0 := some ((b.pidx + 1) % 65536) }
  let joined := match s0.pair.jig with
    | [] => false
    | j => byteAt j 256 % 64 ≠ 0
  let s1 := (({ s0 with plan := p }.setEns 9 true).setIdle 9 false).setB R.HPR.HSTA 9 true
  let lit := s1.role = 1 && s1.pair.litAt.isNone
  let s2 := s1.setPair { s1.pair with relock := false, joined := joined, cmpRun := 0, cmpBad := false,
                                      litAt := if lit then some s1.dt64 else s1.pair.litAt }
  s2.when lit fun t => t.ringLight true

/-- Does a beacon of the active agree with the head's own plan (R363)? -/
def State.planAgrees (s : State) (b : TieBeacon) : Bool :=
  let at_ := (b.dt64 + 2 ^ 64 - 614 + s.regF R.TRG.TML 0 20) % 2 ^ 64
  if s.plan.started then at_ == (s.plan.start + s.plan.per) % 2 ^ 64 && b.pidx == s.nextPidx
  else s.plan.start == at_ && s.plan.idx0 == some b.pidx

/-- A tie beacon of the peer arrives (R359, R363, R365, R369). -/
def State.tieBeaconRx (s : State) (r : RxFrame) : State :=
  match s.tieRx 3 r with
  | (s0, none) => s0
  | (s0, some g) =>
    if (framePayload g.bytes).length ≠ 16 then s0
    else
      let b := parseBeacon g.bytes
      let act := b.role = 4
      let s1 := (s0.setReg R.HPR.PEER (wd (b.role + b2n b.armed * 8 + b2n b.hovr * 16 + b.pidx * 65536))).tieSync
      let s2 := s1.setPair { s1.pair with beacon := some b, tieLost := false,
                                          request := if act then b.hovr && s1.role = 2 else s1.pair.request }
      let s3 : State :=
        if !act || s2.role = 4 then s2
        else if s2.regB R.HPR.HSTA 9 && s2.plan.run then
          if s2.planAgrees b then s2
          else
            let t := (s2.planHalt.setB R.HPR.HSTA 9 false).setArmed false
            t.setPair { t.pair with relock := true }
        else if s2.tieLock && (s2.role = 1 || s2.pair.relock) then s2.planLock b
        else s2
      s3.listenCheck.tryClaim

/-- The tie has left UP, or three periods have passed without the peer's beacon while both plans run (R368). -/
def State.tieLostNow (s : State) : State :=
  let s0 := s.tieSync
  if s0.paired && (s0.pair.tieDown ||
      (!s0.pair.tieLost && s0.plan.started && s0.pair.beacon.isSome && Nat.ble 3 s0.pair.missed)) then
    ((s0.setPair { s0.pair with tieLost := true, tieDown := false, cmpBad := true }).setArmed false).fault Src.TIE_LOST hprPage
  else s0

/-- The longest slot of the rings in the map. -/
def State.longSlot (s : State) : Nat := (s.ringsInMap.map fun r => s.regF (R.RNG.RCFG r) 16 8).foldl Nat.max 0

/-- The frames of the plan that the head may launch on the tie in the executing period and the next, with the most bytes they
have: the slots at t_XL and the beacon at t_ML (R350). -/
def State.tiePlan (s : State) : List (Nat × Nat) :=
  if !(s.plan.started && (s.role = 2 || s.role = 4)) then []
  else
    let l := [(s.plan.start + s.regF R.HPR.TXL 0 20, 12 + s.regF R.HPR.TIEN 0 5 * s.longSlot), (s.tML, 28)]
    l ++ l.map fun p => (p.1 + s.plan.per, p.2)

/-- The earliest instant from `t` on at which a frame of `len` bytes outside the plan may start on the tie: its transmitter is
free, and becomes free again before the next frame of the plan, or the frame comes after that one (R129: log 45). -/
def State.tieFree (s : State) (t len : Nat) : Nat :=
  let n := s.tieLane
  let b := s.laneFifths n
  s.tiePlan.foldl (fun u p =>
    if Nat.ble (5 * u + (len + 4) * b) (5 * p.1) || Nat.blt p.1 u then u else (5 * p.1 + (p.2 + 4) * b + 4) / 5)
    (Nat.max (Nat.max t s.dt64) (s.laneFreeAt n))

/-- The Jig state frame of the ACTIVE head, after its tie beacon, once a period (R350). -/
def State.jigTx (s : State) (launch : Nat) : State :=
  if s.paired && s.role = 4 && s.plan.started && s.plan.pastML && !s.pair.jigSent then
    let pl := (List.range 256).map (fun j => if s.inMap j then BitVec.ofNat 8 ((s.inst j).st % 64) else (0 : Byte)) ++
      [BitVec.ofNat 8 ((s.inst stackInst).st % 64), 0, 0, 0]
    let at_ := s.tieFree launch 272
    let s1 := s.reach at_
    (s1.setPair { s1.pair with jigSent := true }).send (s1.tieOut at_ (s1.tieFrame 1 0 false s1.nextPidx pl))
  else s

/-- A Jig state frame arrives. -/
def State.jigRx (s : State) (r : RxFrame) : State :=
  match s.tieRx 1 r with
  | (s0, none) => s0
  | (s0, some g) =>
    let pl := framePayload g.bytes
    if pl.length ≠ 260 || s0.role = 4 then s0 else s0.setPair { s0.pair with jig := pl.take 257 }

/-- Slots taken from a copy that a cell node originated, at S(n) + t_XL (R360). -/
def State.tieSlotsTx (s : State) : State :=
  if !(s.paired && s.plan.started && (s.role = 2 || s.role = 4)) || s.pair.slotsTx then s
  else
    let at_ := s.plan.start + s.regF R.HPR.TXL 0 20
    let s1 := (s.reach at_).setPair { s.pair with slotsTx := true }
    let all := (s1.ringAddrs.mergeSort).filterMap fun a => match (NMap.get ({} : CellRx) s1.cells a).copy with
      | some c => if c.node then some c.bytes else none
      | none => none
    let n := s1.regF R.HPR.TIEN 0 5
    let pl := (all.take n).flatten
    let s2 := s1.bumpBy R.HPR.TIEDROP (all.length - n)
    if pl.isEmpty then s2 else s2.send (s2.tieOut at_ (s2.tieFrame 2 0 false (s2.regN R.TRG.PIDX) pl))

/-- The slots of a tie slots payload: each has the length of its ring's slots. -/
def State.tieSlots (s : State) : Nat → List Byte → List (Nat × List Byte)
  | 0, _ => []
  | n + 1, pl =>
    match pl with
    | [] => []
    | a :: _ =>
      let len := s.regF (R.RNG.RCFG (a.toNat / 8)) 16 8
      if len = 0 || pl.length < len then [] else (a.toNat, pl.take len) :: s.tieSlots n (pl.drop len)

/-- A shared slot fills a cell that has no valid slot of its own (R360). -/
def State.tieSlot (s : State) (stamp : Nat) (a : Nat) (slot : List Byte) : State :=
  let c := NMap.get ({} : CellRx) s.cells a
  if c.copy.isSome || !s.ringAddrs.contains a then s
  else
    let s1 := s.slotRx a (!s.ownDir) true stamp slot
    let c1 := NMap.get ({} : CellRx) s1.cells a
    if c1.copy.isNone then s1
    else
      let k := recAt (s1.regN R.TRG.PIDX) a + 36
      { s1 with cells := NMap.put {} s1.cells a { c1 with tie := true } }.portWord k ((s1.mem.readWord k).setBit 6 true)

def State.tieSlotsRx (s : State) (r : RxFrame) : State :=
  match s.tieRx 2 r with
  | (s0, none) => s0
  | (s0, some g) =>
    if !s0.plan.started || framePidx g.bytes ≠ s0.regN R.TRG.PIDX ||
        decide (((s0.plan.start + s0.regF R.TRG.TTC 0 20 : Nat) : Int) < eofStamp g) then s0
    else (s0.tieSlots 32 (framePayload g.bytes)).foldl (fun t q => t.tieSlot (eofStamp g).toNat q.1 q.2) s0

/-! ### Tie ranging and ranging copies (R361, R362) -/

/-- A head that is not ACTIVE launches a tie ranging frame, once every millisecond. -/
def State.tieRangeTx (s : State) (launch : Nat) : State :=
  let at_ := s.tieFree launch 28
  let ms := at_ / 16000000 + 1
  if !s.paired || s.role = 4 || !s.tieUp || Nat.ble ms s.pair.tieMs then s
  else
    let s1 := s.reach at_
    let t1 := bitsOfInt 64 (txStamp at_ 0)
    let s2 := s1.setPair { s1.pair with tieRange := some t1, tieMs := ms }
    s2.send (s2.tieOut at_ (s2.tieFrame 4 0 false (s2.regN R.TRG.PIDX) (natLe 8 t1 ++ zeros 8)))

/-- The ACTIVE head writes arrival and echo launch into the entry and returns the frame. -/
def State.tieRangeEcho (s : State) (r : RxFrame) (launch : Nat) : State :=
  match s.tieRx 4 r with
  | (s0, none) => s0
  | (s0, some g) =>
    if s0.role ≠ 4 || (framePayload g.bytes).length ≠ 16 then s0
    else
      let at_ := s0.tieFree (if launch < g.eof then g.eof else Nat.min launch (g.sof + 160000)) 28
      let s1 := s0.reach at_
      let pl := (framePayload g.bytes).take 8 ++ natLe 4 (bitsOfInt 32 (sofStamp g)) ++ natLe 4 (bitsOfInt 32 (txStamp at_ 0))
      s1.send (s1.tieOut at_ (s1.tieFrame 4 0 false (framePidx g.bytes) pl))

/-- The returned frame yields e = ((t1 − t2) + (t4 − t3)) / 2; where the sum is odd the spec states no rounding. -/
def State.tieRangeRx (s : State) (r : RxFrame) : State :=
  match s.tieRx 4 r with
  | (s0, none) => s0
  | (s0, some g) =>
    let pl := framePayload g.bytes
    match s0.pair.tieRange with
    | none => s0
    | some t1 =>
      if s0.role = 4 || pl.length ≠ 16 || leAt pl 0 8 ≠ t1 then s0
      else
        let t4 := bitsOfInt 32 (sofStamp g)
        let e := freeRound (dt32Diff (t1 % 2 ^ 32) (leAt pl 8 4) + dt32Diff t4 (leAt pl 12 4)) 2
        let s1 := (s0.reach g.sof).setPair { s0.pair with tieRange := none }
        let s2 := s1.setReg R.HPR.TOFS (wdInt (satSym e))
        let s3 := if s2.role = 2 && Nat.blt (s2.regN R.DTM.STEPLIM) e.natAbs then
            ((s2.planHalt.setB R.HPR.HSTA 9 false).roleTo 1)
          else s2
        s3.measure e

/-- The oldest received ring ranging frame goes to the peer. -/
def State.rangeCopyTx (s : State) (launch : Nat) : State :=
  if !s.paired then s
  else match s.pair.rangeFwd with
    | [] => s
    | (ring, rev, pidx, pl) :: rest =>
      let at_ := s.tieFree launch (12 + pl.length)
      let s1 := (s.reach at_).setPair { s.pair with rangeFwd := rest }
      s1.send (s1.tieOut at_ (s1.tieFrame 5 ring rev pidx pl))

/-- A ranging copy from the peer (R361). -/
def State.rangeCopyRx (s : State) (r : RxFrame) : State :=
  match s.tieRx 5 r with
  | (s0, none) => s0
  | (s0, some g) =>
    let ring := frameRing g.bytes
    let n := s0.ringCells ring
    let pl := framePayload g.bytes
    if pl.length ≠ 8 + 8 * n || n = 0 then s0
    else s0.travReturn ring (frameRev g.bytes) { launch := leAt pl 0 8, entries := rangeEntries n pl, arrival := none }

/-- A command copy relayed by the standby arrives at the ACTIVE head (R366). -/
def State.relayedCopy (s : State) (ring : Nat) (f : RxFrame) : State :=
  if !s.paired || s.role ≠ 4 then s
  else
    let rev := !s.ownDir
    match s.rxTake ring rev f with
    | none => s
    | some (s0, g) =>
      match frameCheck ring rev g with
      | some off => s0.frameErr ring off
      | none =>
        if frameType g.bytes = 1 && frameRelay g.bytes && framePidx g.bytes = s0.nextPidx &&
            decide (eofStamp g ≤ ((s0.tCC + 3200 : Nat) : Int)) then
          s0.setPair { s0.pair with rlyRx := true }
        else s0

end Sys2Proof.Machine
end

