-- ==== Sys2Proof/Machine/Clocks.lean ====
section
/-!
DEFINITION. Sys2Proof/Machine/Clocks.lean: references, PLLs, clock monitors and clock outputs (chapter 16).
Readings and choices (notes/assumptions): DEDUCED 104, 105; DESIGN CHOICE 175, 188.
-/
namespace Sys2Proof.Machine

abbrev clkPage : Nat := 0x02

/-! ### CKSTA (R486) -/

def State.ckB (s : State) (i : Nat) : Bool := s.regB R.CLK.CKSTA i
def State.setCk (s : State) (i : Nat) (b : Bool) : State := s.setB R.CLK.CKSTA i b

/-- REFACT: 0 MEMS, 1 REFIN, 2 SFB. -/
def State.refAct (s : State) : Nat := s.regF R.CLK.CKSTA 0 2

/-- MEMSOK or REFINOK. -/
def refOkBit (src : Nat) : Nat := if src = 0 then 17 else 16

/-- A reference becomes usable or not; the SFB watch runs while either is (R481). -/
def State.setRefOk (s : State) (src : Nat) (ok : Bool) : State :=
  let s1 := s.setCk (refOkBit src) ok
  s1.setCk 7 (s1.ckB 16 || s1.ckB 17)

/-! ### Loss of lock (R353, R474, R477) -/

/-- An ACTIVE head whose PLL-A or PLL-T loses lock goes to OFF (R353). -/
def State.clockRole (s : State) : State := s.when (s.paired && s.role = 4) fun t => t.roleTo 0

/-- SYS and ENG run on SFB. -/
def State.loseA (s : State) : State :=
  let s1 := ((s.setCk 2 false).setCk 4 true).bumpAt R.CLK.LOLCNT 0 16
  ({ s1 with clk := { s1.clk with aSince := none } }.irq clkPage 0).clockRole

/-- PLL-T in holdover, and Datum in HOLDOVER. -/
def State.loseT (s : State) : State :=
  (((((s.setCk 3 false).setCk 5 true).bumpAt R.CLK.LOLCNT 16 16).irq clkPage 1).datumHoldover).clockRole

/-- PLL-A loses lock (R474). -/
def State.clkALol (s : State) : State := if s.ckB 2 then s.loseA.fault Src.CLK_A_LOL clkPage 0 else s

/-- PLL-T loses lock (R477). -/
def State.clkTLol (s : State) : State := if s.ckB 3 then s.loseT.fault Src.CLK_T_LOL clkPage 2 else s

/-- A PLL achieves lock (R470); a PLL-T in holdover regains it by its own step. -/
def State.pllLock (s : State) (t : Bool) : State :=
  if s.refAct = 2 then s
  else if t then (if s.ckB 3 || s.ckB 5 then s else (s.setCk 3 true).irq clkPage 1)
  else if s.ckB 2 then s
  else { (s.setCk 2 true).irq clkPage 0 with clk := { s.clk with aSince := some s.dt64 } }

/-- SYS and ENG switch back to PLL-A, locked for 1 ms without a break, with ARET = 1: in the ENG cycle in which TS2 is
recognised, or at once when no frame plan runs (R475). -/
def State.pllAReturn (s : State) : State :=
  match s.clk.aSince with
  | some t =>
    if !s.ckB 4 || !s.ckB 2 || !s.regB R.CLK.CKCFG 5 then s
    else if !s.plan.run then (s.reach (t + 16000000)).setCk 4 false
    else if s.clk.ts2 = some s.engCycle && s.passed (t + 16000000) then s.setCk 4 false
    else s
  | none => s

/-- PLL-T regains lock (R478): Datum returns to its former state, and DT64 is not stepped. -/
def State.pllTRelock (s : State) : State :=
  if s.ckB 5 && s.refAct ≠ 2 then (((s.setCk 5 false).setCk 3 true).irq clkPage 1).datumRelock else s

/-- HRATIO = f_DTM / f_SFB over the last 1 ms, while PLL-T is locked (R477). -/
def State.hratioMeasure (s : State) (q : Word) : State :=
  if s.ckB 3 then s.setReg R.CLK.HRATIO q else s

/-! ### References (R465 to R467) -/

/-- The source in use changes. -/
def State.refGoto (s : State) (src : Nat) : State :=
  let old := s.refAct
  let s0 := { s with clk := { s.clk with swAt := some s.dt64 } }
  let s1 := ((((s0.setF R.CLK.CKSTA 0 2 src).setF (R.PSTA clkPage) 16 2 src).bump R.CLK.REFSWCNT).irq clkPage 2)
  if src = 2 then ((s1.when (s1.ckB 2) State.loseA).when (s1.ckB 3) State.loseT).fault Src.CLK_REF_LOST clkPage 0x20
  else s1.when (old ≠ 2) fun t => t.fault Src.CLK_REF_SWITCH clkPage (src * 16)

/-- CKSTA as read: while the PLLs may still relock to a new source, for at most 100 µs from a switch, SWITCHING is a free
value (R466, R486). -/
def State.cksta (s : State) : State × Word :=
  if s.clk.swAt.any fun t => Nat.blt ((s.dt64 + 2 ^ 64 - t) % 2 ^ 64) 1600000 then
    (s.useFree, (s.reg R.CLK.CKSTA).setBit 6 (s.freeWord.bit 0))
  else (s, s.reg R.CLK.CKSTA)

/-- Sources cease to be usable: bit 0 of `lost` MEMS, bit 1 REFIN (R465). Where the source in use is one of them, the next usable
one of the chain primary, other, SFB takes its place, and never one higher in the chain; the other is skipped with FBEN = 0
(R466, R467). -/
def State.refSwitch (s : State) (lost : Nat) : State :=
  let cur := s.refAct
  let s1 := [0, 1].foldl (fun (t : State) src => t.when (lost.testBit src) fun u => u.setRefOk src false) s
  if cur = 2 || !lost.testBit cur then s1
  else
    let other := 1 - cur
    let prim := s.regF R.CLK.CKCFG 0 1
    if s1.ckB (refOkBit other) && cur = prim && s.regB R.CLK.CKCFG 4 then s1.refGoto other else s1.refGoto 2

/-- REFRET: back to the primary, while it is usable and no frame plan runs (R467). -/
def State.refRet (s : State) : State :=
  let prim := s.regF R.CLK.CKCFG 0 1
  if s.plan.run || !s.ckB (refOkBit prim) then s.irq clkPage 4
  else if s.refAct = prim then s else s.refGoto prim

/-- The monitor finds MEMS or REFIN usable (R465). -/
def State.refUsable (s : State) (refin : Bool) : State := s.setRefOk (b2n refin) true

/-! ### Monitors (R480, R481) -/

/-- The domain codes of R485 that a monitor watches. -/
def watched (d : Nat) : Bool := d == 0 || d == 1 || d == 2 || d == 3 || d == 5

/-- A domain clock ceases to be good. One of a domain that is still in reset has not started: its count of good cycles only
restarts (R497, R514), and nothing is raised. -/
def State.clkMissing (s : State) (d : Nat) : State :=
  if watched d && s.ckB (8 + d) then
    ((s.setCk (8 + d) false).irq clkPage 3).when (!s.rst.held.testBit d) fun t => t.fault Src.CLK_MISSING clkPage d
  else s

/-- A domain clock is good. -/
def State.clkGood (s : State) (d : Nat) : State :=
  if watched d && !s.ckB (8 + d) then (s.setCk (8 + d) true).irq clkPage 3 else s

/-- The SFB watch has measured SFB; outside 90 to 110 MHz it raises CLK_SFB. -/
def State.clkSfb (s : State) (khz : Word) : State :=
  if !s.ckB 7 then s
  else (s.setReg R.CLK.SFBFRQ khz).when (Nat.blt khz.toNat 90000 || Nat.blt 110000 khz.toNat) fun t =>
    t.fault Src.CLK_SFB clkPage 7

/-! ### Clock outputs (R482 to R484) -/

/-- A clock output's registers have been written (R484): `old` are EN, DIV, HIGH, DLY and SRC before. DLY and the alignment of
R483 are those of SRC 0; an output of another source counts whole cycles of it (R482). A write of SRC while the output is
enabled, of which R484 does not speak, ends the setting and starts one of the new source, as EN would: DESIGN CHOICE (log
175). -/
def State.clkoWrite (s : State) (n : Nat) (old : Bool × Nat × Nat × Word × Nat) : State :=
  let en := s.regB (R.CLK.CLKOCFG n) 0
  let src := s.regF (R.CLK.CLKOCFG n) 1 2
  let div := s.regN (R.CLK.CLKODIV n)
  let high := clkHigh div (s.regN (R.CLK.CLKOHI n))
  let unit := if src = 0 then 64 else 1
  let now := clkNow src s.dt64
  let o : ClkOut := NMap.get {} s.clk.outs n
  let put (x : ClkOut) : State := { s with clk := { s.clk with outs := NMap.put {} s.clk.outs n x } }
  let ended := o.ended s.dt64
  let from_ : Nat := Nat.max now (match ended with
    | some c => if c.src = src then c.stop.getD 0 else 0
    | none => 0)
  let rise (t : Nat) : Nat := if src = 0 then clkRise t (s.regI (R.CLK.CLKODLY n)) (div * 64) else t
  let fresh (t : Nat) (open_ : Option (Nat × Nat)) : ClkSet :=
    { src := src, start := rise t, per := div * unit, high := high * unit, open_ := open_ }
  if !en then put { cur := none, prev := ended }
  else if !old.1 || old.2.2.2.2 ≠ src then put { cur := some (fresh from_ none), prev := ended }
  else if old.2.1 ≠ div || old.2.2.1 ≠ s.regN (R.CLK.CLKOHI n) then
    if src = 0 then
      { put { cur := some (fresh (from_ + 16 * div * 64) (some (from_, s.free))), prev := ended } with free := s.free + 16 }
    else put { cur := some (fresh from_ none), prev := ended }
  else if src = 0 && old.2.2.2.1 ≠ s.reg (R.CLK.CLKODLY n) then put { cur := some (fresh from_ none), prev := ended }
  else s

/-- The level of CLKOn at an instant of ring time: low while the clamps hold (R499). -/
def State.clkoLevel (s : State) (n t : Nat) : Bool :=
  let o : ClkOut := NMap.get {} s.clk.outs n
  !s.rst.clamp && (o.prev.any (fun c => c.level (clkNow c.src t)) || o.cur.any fun c => c.level (clkNow c.src t))

end Sys2Proof.Machine
end

