-- ==== Sys2Proof/Machine/Operands.lean ====
section
/-!
DEFINITION. Sys2Proof/Machine/Operands.lean: the fields, the operand forms, sources, destinations and costs of the
Plane instruction set (R298 to R312).
-/
namespace Sys2Proof.Machine

/-! ### Fields (R301) -/

def insPred (w : Word) : Nat := w.fld 28 4
def insOp (w : Word) : Nat := w.fld 22 6
def insRd (w : Word) : Nat := w.fld 18 4
def insRa (w : Word) : Nat := w.fld 14 4
def insRb (w : Word) : Nat := w.fld 10 4
def insX (w : Word) : Nat := w.fld 0 10
def insImm14 (w : Word) : Int := signedOf 14 (w.fld 0 14)
def insImm16 (w : Word) : Nat := w.fld 0 16
def insImm10 (w : Word) : Int := signedOf 10 (w.fld 4 10)
def insPd (w : Word) : Nat := w.fld 20 2
def insPa (w : Word) : Nat := w.fld 18 2
def insPb (w : Word) : Nat := w.fld 16 2
def insCond (w : Word) : Nat := w.fld 0 3
def insTgt (w : Word) : Nat := w.fld 0 13
def insCh (w : Word) : Nat := w.fld 0 5
def insMask (w : Word) : Nat := w.fld 0 4
def insAd (w : Word) : Nat := w.fld 20 2
def insAb (w : Word) : Nat := w.fld 18 2
def insAs (w : Word) : Nat := w.fld 8 2

/-- Is a PRED code one of R302? -/
def predValid (p : Nat) : Bool := p == 0 || (Nat.ble 4 p && Nat.blt p 12)

/-- The predicate condition of an instruction (R300, R302). -/
def predTrue (w : Word) (p : BitVec 4) : Bool :=
  let c := insPred w
  if c = 0 then true
  else if c < 8 then p.toNat.testBit (c % 4)
  else !p.toNat.testBit (c % 4)

/-- The opcode a slot executes: the encodings of R303 execute as NOP (0x00). -/
def slotOp (mSlot : Bool) (w : Word) : Nat :=
  let op := insOp w
  if !predValid (insPred w) then 0
  else if mSlot then (if Nat.ble 0x30 op && Nat.blt op 0x3E then op else 0)
  else if Nat.blt op 0x25 && !(op == 0x22 && Nat.blt 16 (insCh w)) then op
  else 0

/-! ### Registers -/

def EngRegs.gr (r : EngRegs) (i : Nat) : Word := NMap.get 0 r.g i
def EngRegs.ac (r : EngRegs) (i : Nat) : BitVec 48 := NMap.get 0 r.a i
def EngRegs.setG (r : EngRegs) (i : Nat) (v : Word) : EngRegs := { r with g := NMap.put 0 r.g i v }
def EngRegs.setA (r : EngRegs) (i : Nat) (v : BitVec 48) : EngRegs := { r with a := NMap.put 0 r.a i v }
def EngRegs.setP (r : EngRegs) (i : Nat) (b : Bool) : EngRegs :=
  { r with p := if b then r.p ||| BitVec.ofNat 4 (2 ^ i) else r.p &&& ~~~ BitVec.ofNat 4 (2 ^ i) }

/-- The shift count of SHL, SHR and SHRL (R304). -/
def shiftCount (w : Word) (r : EngRegs) : Nat := if (insX w).testBit 9 then insX w % 32 else (r.gr (insRb w)).toNat % 32

/-- The byte address of a load or store, before it is taken modulo the memory's size (R305). -/
def insAddr (w : Word) (r : EngRegs) : Nat := bitsOfInt 32 ((r.gr (insRa w)).toInt + 4 * insImm14 w) / 4 * 4

/-- A half of a register, read as signed (A16 and B16 of R307). -/
def half16 (w : Word) (high : Bool) : Int := signedOf 16 (w.fld (if high then 16 else 0) 16)

def opA16 (w : Word) (r : EngRegs) : Int := half16 (r.gr (insRa w)) ((insX w).testBit 1)
def opB16 (w : Word) (r : EngRegs) : Int := half16 (r.gr (insRb w)) ((insX w).testBit 0)

/-! ### Sources and destinations, from the encoding alone (R311) -/

/-- General registers an instruction reads. -/
def srcG (op : Nat) (w : Word) : List Nat :=
  let rd := insRd w
  let ra := insRa w
  let rb := insRb w
  match op with
  | 0x01 | 0x02 | 0x03 | 0x04 | 0x07 | 0x08 | 0x09 | 0x0A | 0x0B => [ra, rb]
  | 0x05 | 0x06 | 0x0F => [ra]
  | 0x0C | 0x0D | 0x0E => if (insX w).testBit 9 then [ra] else [ra, rb]
  | 0x10 => [rd, ra, rb]
  | 0x11 | 0x12 => [ra]
  | 0x14 => [rd]
  | 0x15 => [ra, rb]
  | 0x16 => [ra]
  | 0x18 => [ra]
  | 0x19 => [rd, ra]
  | 0x1A | 0x1C => [ra]
  | 0x1B | 0x1D => [rd, ra]
  | 0x20 => [15]
  | 0x21 => [rd]
  | 0x30 | 0x31 | 0x32 | 0x33 | 0x34 => [ra, rb]
  | 0x35 => [ra]
  | 0x39 | 0x3B | 0x3C => [ra]
  | 0x3A | 0x3D => [ra, rb]
  | _ => []

/-- Accumulators an instruction reads. -/
def srcA (op : Nat) (w : Word) : List Nat :=
  match op with
  | 0x31 | 0x32 | 0x34 | 0x38 => [insAd w]
  | 0x36 => [insAs w]
  | 0x37 => [insAd w, insAb w]
  | _ => []

/-- The general register an instruction writes. -/
def dstG (op : Nat) (w : Word) : Option Nat :=
  if Nat.ble 0x01 op && Nat.ble op 0x14 then some (insRd w)
  else match op with
  | 0x18 | 0x19 | 0x1A | 0x1C | 0x21 | 0x24 => some (insRd w)
  | 0x1F => some 15
  | 0x36 | 0x39 | 0x3A | 0x3B | 0x3C | 0x3D => some (insRd w)
  | _ => none

/-- The accumulator an instruction writes. -/
def dstA (op : Nat) (w : Word) : Option Nat :=
  if (Nat.ble 0x30 op && Nat.ble op 0x35) || op == 0x37 || op == 0x38 then some (insAd w) else none

/-! ### Costs (R310) -/

/-- Cycles of the MAC unit an M-slot instruction occupies, which are also the cycles until its result is usable. -/
def macCycles (op : Nat) : Nat :=
  match op with
  | 0x39 => 2
  | 0x3A => 4
  | 0x3B | 0x3C => 3
  | 0x3D => 18
  | _ => 1

/-- Is the instruction a branch that may be taken: BR, CALL, RET, DBNZ? -/
def isBranch (op : Nat) : Bool := Nat.ble 0x1E op && Nat.ble op 0x21

/-- The Tenon cost of an instruction, SFB cycles (R310, R313). -/
def tenonCost (op : Nat) (taken : Bool) : Nat :=
  if op = 0 then 0
  else if isBranch op then (if taken then 2 else 1)
  else if op = 0x1C then 2
  else if op < 0x30 then 1
  else if op ≤ 0x34 then 4
  else if op ≤ 0x38 then 2
  else if op = 0x39 then 8
  else if op = 0x3A then 20
  else if op = 0x3D then 40
  else 14

end Sys2Proof.Machine
end

