-- ==== Sys2Proof/Machine/Flags.lean ====
section
/-!
DEFINITION. Sys2Proof/Machine/Flags.lean: saturation and the sticky flags, conditions, predicate logic, and the results
of the Plane instructions with the flags each sets (R284, R285, R304, R307, R308).
Readings and choices (notes/assumptions): DEDUCED 61, 62.
-/
namespace Sys2Proof.Machine

/-! ### Sticky flags: bit 0 SV, 1 OV, 2 DZ, 3 AE (R285, R295) -/

abbrev fSV : Nat := 1
abbrev fOV : Nat := 2
abbrev fDZ : Nat := 4
abbrev fAE : Nat := 8

/-- sat32: the nearest 32-bit value, with SV when it acts (R304). -/
def sat32f (z : Int) : Word × Nat := (wdInt (sat32 z), if sat32 z = z then 0 else fSV)

def sat48 (z : Int) : Int := clampInt (-140737488355328) 140737488355327 z

/-- sat48: the nearest accumulator value, with OV when it acts (R307). -/
def sat48f (z : Int) : BitVec 48 × Nat := (BitVec.ofInt 48 (sat48 z), if sat48 z = z then 0 else fOV)

/-! ### Conditions and predicate logic (R302) -/

/-- COND between two registers. -/
def condHolds (c : Nat) (a b : Word) : Bool :=
  match c with
  | 0 => a == b
  | 1 => a != b
  | 2 => decide (a.toInt < b.toInt)
  | 3 => decide (a.toInt ≤ b.toInt)
  | 4 => decide (b.toInt < a.toInt)
  | 5 => decide (b.toInt ≤ a.toInt)
  | 6 => decide (a.toNat < b.toNat)
  | _ => decide (b.toNat ≤ a.toNat)

/-- LOP of two predicates. -/
def lopVal (l : Nat) (a b : Bool) : Bool :=
  match l with
  | 0 => a && b
  | 1 => a || b
  | 2 => a != b
  | 3 => a && !b
  | 4 => true
  | 5 => false
  | 6 => a
  | _ => !a

/-! ### A-slot results (R304) -/

/-- NORM: bits below bit 31 that equal bit 31, counted downward until the first that differs. -/
def normCount (w : Word) : Nat := (List.range 31).takeWhile (fun i => w.bit (30 - i) == w.bit 31) |>.length

/-- Least bit and width of EXTR and INS, cut at bit 31. -/
def fieldOf (w : Word) : Nat × Nat :=
  let lsb := natFld (insX w) 5 5
  (lsb, Nat.min (insX w % 32 + 1) (32 - lsb))

def b32 (z : Int) : Word := wdInt z

/-- The value an ALU instruction writes to its register, and the flags it sets. -/
def aluVal (op : Nat) (w : Word) (r : EngRegs) (flags : Nat) : Word × Nat :=
  let d := r.gr (insRd w)
  let a := r.gr (insRa w)
  let b := r.gr (insRb w)
  let n := shiftCount w r
  match op with
  | 0x01 => sat32f (a.toInt + b.toInt)
  | 0x02 => sat32f (a.toInt - b.toInt)
  | 0x03 => (a + b, 0)
  | 0x04 => (a - b, 0)
  | 0x05 => sat32f (if a.toInt < 0 then -a.toInt else a.toInt)
  | 0x06 => sat32f (-a.toInt)
  | 0x07 => (if a.toInt ≤ b.toInt then a else b, 0)
  | 0x08 => (if a.toInt ≤ b.toInt then b else a, 0)
  | 0x09 => (a &&& b, 0)
  | 0x0A => (a ||| b, 0)
  | 0x0B => (a ^^^ b, 0)
  | 0x0C => sat32f (a.toInt * ((2 ^ n : Nat) : Int))
  | 0x0D =>
    if (insX w).testBit 8 && Nat.ble 1 n then (b32 ((a.toInt + ((2 ^ (n - 1) : Nat) : Int)) / ((2 ^ n : Nat) : Int)), 0)
    else (b32 (a.toInt / ((2 ^ n : Nat) : Int)), 0)
  | 0x0E => (wd (a.toNat / 2 ^ n), 0)
  | 0x0F => (wd (normCount a), 0)
  | 0x10 =>
    let m := if d.toInt ≤ a.toInt then a else d
    (if m.toInt ≤ b.toInt then m else b, 0)
  | 0x11 => sat32f (a.toInt + insImm14 w)
  | 0x12 => (b32 (a.toInt + insImm14 w), 0)
  | 0x13 => (b32 (signedOf 16 (insImm16 w)), 0)
  | 0x14 => (d.setFld 16 16 (insImm16 w), 0)
  | 0x18 =>
    let f := fieldOf w
    let v := a.fld f.1 f.2
    (if (insRb w).testBit 3 then b32 (signedOf f.2 v) else wd v, 0)
  | 0x19 =>
    let f := fieldOf w
    (d.setFld f.1 f.2 a.toNat, 0)
  | 0x24 => (wd (flags % 16 + r.p.toNat * 16), 0)
  | _ => (0, 0)

/-! ### M-slot results (R307) -/

/-- DIV: the quotient truncated toward zero, exact (R307). -/
def divVal (a b : Int) (sh : Nat) : Word × Nat :=
  if b = 0 then (if a = 0 then 0 else if 0 < a then 0x7FFFFFFF else 0x80000000, fDZ)
  else sat32f (Int.tdiv (a * ((2 ^ sh : Nat) : Int)) b)

/-- EXT: an accumulator rounded and saturated into a register. -/
def extVal (acc : Int) (x : Nat) : Word × Nat :=
  let sh := Nat.min (x % 64) 47
  let h : Int := if sh = 0 then 0 else ((2 ^ (sh - 1) : Nat) : Int)
  sat32f ((acc + h) / ((2 ^ sh : Nat) : Int))

/-- ASH: an accumulator shifted by n, held within −16 to +16. -/
def ashVal (acc : Int) (x : Nat) : BitVec 48 × Nat :=
  let n := clampInt (-16) 16 (signedOf 6 (x % 64))
  if 0 ≤ n then sat48f (acc * ((2 ^ n.toNat : Nat) : Int))
  else
    let k := (-n).toNat
    sat48f ((acc + ((2 ^ (k - 1) : Nat) : Int)) / ((2 ^ k : Nat) : Int))

/-- The accumulator an M-slot instruction writes, and the flags it sets. -/
def macVal (op : Nat) (w : Word) (r : EngRegs) : BitVec 48 × Nat :=
  let ad := (r.ac (insAd w)).toInt
  let a := (r.gr (insRa w)).toInt
  match op with
  | 0x30 => sat48f (opA16 w r * opB16 w r)
  | 0x31 => sat48f (ad + opA16 w r * opB16 w r)
  | 0x32 => sat48f (ad - opA16 w r * opB16 w r)
  | 0x33 => sat48f (a * opB16 w r)
  | 0x34 => sat48f (ad + a * opB16 w r)
  | 0x35 => sat48f (a * ((2 ^ Nat.min (insX w % 32) 16 : Nat) : Int))
  | 0x37 =>
    let ab := (r.ac (insAb w)).toInt
    sat48f (if (insX w).testBit 0 then ad - ab else ad + ab)
  | _ => ashVal ad (insX w)

/-! ### Approximating instructions (R308, R309) -/

/-- The value in `lo .. hi` that the device delivers for the operands: a fixed function, left open within the bound. -/
def pickIn (op : Nat) (a b : Word) (lo hi : Int) : Int :=
  if hi < lo then lo else lo + ((Config.approxPick op a b % ((hi - lo).toNat + 1) : Nat) : Int)

/-- Integer square root, floor, over `bits` result bits. -/
def isqrtFrom (n : Nat) : Nat → Nat → Nat
  | 0, r => r
  | b + 1, r =>
    let t := r + 2 ^ b
    isqrtFrom n b (if t * t ≤ n then t else r)

def isqrt (n : Nat) : Nat := isqrtFrom n 48 0

/-- Ceiling of a quotient by a positive divisor. -/
def ceilDiv (n : Int) (d : Int) : Int := -((-n) / d)

/-- RECIP of a Q2.30 operand, in Q8.24: within 2^-14 of 1 / x relative; exact for powers of two. -/
def recipVal (x : Word) : Word × Nat :=
  let v := x.toInt
  let m := v.natAbs
  if v = 0 then (0x7FFFFFFF, fDZ)
  else if m < 2 ^ 24 then (if 0 < v then 0x7FFFFFFF else 0x80000000, fAE)
  else
    let pow := (List.range 8).any fun i => m == 2 ^ (24 + i)
    let t : Int := ((2 ^ 54 : Nat) : Int)
    let e : Int := ((2 ^ 40 : Nat) : Int)
    let q := if pow then t / (m : Int) else pickIn 0x3B x 0 (ceilDiv (t - e) (m : Int)) ((t + e) / (m : Int))
    (wdInt (if 0 < v then q else -q), 0)

/-- RSQRT of a positive Q2.30 operand, in Q8.24: within 2^-13 of 1 / √x relative; exact for powers of four. None: the
result is undefined. -/
def rsqrtVal (x : Word) : Option Word × Nat :=
  let v := x.toInt
  let m := v.natAbs
  if v < 0 then (none, fAE)
  else if v = 0 then (some 0x7FFFFFFF, fDZ)
  else if m < 2 ^ 18 then (some 0x7FFFFFFF, fAE)
  else
    let pow := (List.range 7).any fun i => m == 2 ^ (18 + 2 * i)
    let lo2 := (2 ^ 52 * (8191 * 8191) + m - 1) / m
    let hi2 := (2 ^ 52 * (8193 * 8193)) / m
    let lo := isqrt lo2
    let lo1 : Nat := if lo * lo < lo2 then lo + 1 else lo
    let q : Int := if pow then ((isqrt (2 ^ 78 / m) : Nat) : Int)
      else pickIn 0x3C x 0 (lo1 : Int) ((isqrt hi2 : Nat) : Int)
    (some (wdInt q), 0)

/-- sin of an angle in the first quadrant, as a 2^-48 fraction: a series of odd powers; the angle is a count of 2^-32
turn up to 2^30. -/
def sinQuad (a : Nat) : Int :=
  let x : Int := ((a * 1768559438007110 / 2 ^ 32 : Nat) : Int)
  let x2 := x * x / ((2 ^ 48 : Nat) : Int)
  let s := [17, 15, 13, 11, 9, 7, 5, 3].foldl (fun (acc : Int) k =>
    ((2 ^ 48 : Nat) : Int) - x2 * acc / ((2 ^ 48 : Nat) : Int) / ((k * (k - 1) : Nat) : Int)) ((2 ^ 48 : Nat) : Int)
  x * s / ((2 ^ 48 : Nat) : Int)

/-- sin of any angle, as a 2^-48 fraction. -/
def sinTurn (a : Nat) : Int :=
  let b := a % 2 ^ 32
  let q := b / 2 ^ 30
  let f := b % 2 ^ 30
  match q with
  | 0 => sinQuad f
  | 1 => sinQuad (2 ^ 30 - f)
  | 2 => -sinQuad f
  | _ => -sinQuad (2 ^ 30 - f)

/-- One Q1.15 component: within 2 steps of its exact value, less the error bound of `sinTurn` (2^-38), at most ±1 as
0x7FFF or 0x8001; exact on the axes. -/
def trigComp (op : Nat) (a : Word) (which : Word) (ang : Nat) : Nat :=
  let s := sinTurn ang
  if ang % 2 ^ 30 = 0 then
    let q := ang % 2 ^ 32 / 2 ^ 30
    if q = 1 then 0x7FFF else if q = 3 then 0x8001 else 0
  else
    let u : Int := ((2 ^ 33 : Nat) : Int)
    let err : Int := 1024
    let lo := clampInt (-32768) 32767 (ceilDiv (s - 2 * u + err) u)
    let hi := clampInt (-32768) 32767 ((s + 2 * u - err) / u)
    bitsOfInt 16 (pickIn op a which lo hi)

/-- SINCOS: cos in the high half, sin in the low half (R307, R308). -/
def sincosVal (a : Word) : Word :=
  wd (trigComp 0x39 a 1 (a.toNat + 2 ^ 30) * 65536 + trigComp 0x39 a 0 a.toNat)

/-- The angle of a point of the first quadrant, in 2^-30 turn, rounded down, by bisection. -/
def atanFrom (x y : Int) : Nat → Nat → Nat
  | 0, t => t
  | b + 1, t =>
    let u := t + 2 ^ b
    atanFrom x y b (if sinTurn (u * 4) * x ≤ sinTurn (u * 4 + 2 ^ 30) * y then u else t)

/-- ATAN2 of (x, y) in Q1.15 turns, within 3 steps of 2^-15 turn, less the error bound of `atanFrom` (2 × 2^-30 turn)
(R308). -/
def atan2Val (y x : Word) : Word × Nat :=
  let xi := x.toInt
  let yi := y.toInt
  if xi = 0 && yi = 0 then (0, fAE)
  else if yi = 0 then (if 0 < xi then 0 else b32 (-0x4000), 0)
  else if xi = 0 then (if 0 < yi then 0x2000 else b32 (-0x2000), 0)
  else
    let t := atanFrom (xi.natAbs : Nat) (yi.natAbs : Nat) 28 0
    let ang : Int := match decide (0 < xi), decide (0 < yi) with
      | true, true => (t : Int)
      | false, true => 536870912 - (t : Int)
      | false, false => 536870912 + (t : Int)
      | true, false => -(t : Int)
    let k := pickIn 0x3A y x (ceilDiv (ang - 98302) 32768) ((ang + 98302) / 32768)
    (b32 (signedOf 15 (bitsOfInt 15 k)), 0)

/-- The register an M-slot instruction writes (none: undefined), and the flags it sets. -/
def mRegVal (op : Nat) (w : Word) (r : EngRegs) : Option Word × Nat :=
  let a := r.gr (insRa w)
  let b := r.gr (insRb w)
  match op with
  | 0x36 =>
    let v := extVal (r.ac (insAs w)).toInt (insX w)
    (some v.1, v.2)
  | 0x39 => (some (sincosVal a), 0)
  | 0x3A =>
    let v := atan2Val a b
    (some v.1, v.2)
  | 0x3B =>
    let v := recipVal a
    (some v.1, v.2)
  | 0x3C => rsqrtVal a
  | _ =>
    let v := divVal a.toInt b.toInt (insX w % 32)
    (some v.1, v.2)

end Sys2Proof.Machine
end

