-- ==== Sys2Proof/Machine/Meas.lean ====
section
/-!
DEFINITION. Sys2Proof/Machine/Meas.lean: internal converters, modulator inputs and clocks, references, urgent
requests and the result mirror (chapter 13).
Readings and choices (notes/assumptions): DEDUCED 88, 90, 91, 92, 183; DESIGN CHOICE 89, 182.
-/
namespace Sys2Proof.Machine

/-- Page numbers of CNV and MOD. -/
abbrev cnvPage : Nat := 0x80
abbrev modPage : Nat := 0x81

/-! ### The CNV clock -/

/-- Time of the CNV clock. -/
def State.lam (s : State) : Nat := (s.dt64 + s.meas.ofs) % 2 ^ 64

/-- DT64 brought forward to an instant of the CNV clock. -/
def State.reachLam (s : State) (t : Nat) : State := s.reach ((t + 2 ^ 64 - s.meas.ofs) % 2 ^ 64)

/-- An instant of ring time on the CNV clock. -/
def State.toLam (s : State) (t : Nat) : Nat := (t + s.meas.ofs) % 2 ^ 64

/-- First f_mod edge at or after an instant: f_mod is 20 MHz, 800 ru (R396). -/
def fmodEdge (t : Nat) : Nat := upTo 800 t

/-! ### Results (R400, R403, R410, R411) -/

/-- A bit of a stream as it is read: +1 or −1 (R400). -/
def bitLevel (b : Bool) : Int := if b then 1 else -1

/-- The sums over `d` neighbouring values of a list, newest first: one integrate-and-comb section of a sinc filter. -/
def boxcar (d : Nat) : List Int → List Int
  | [] => []
  | x :: xs => ((x :: xs).take d).foldl (· + ·) 0 :: boxcar d xs

/-- Bits a filter of order K, decimation D and notch length NL takes before its first result (R401). -/
def filterSpan (ord dec nl : Nat) : Nat := ord * dec + (nl - 1) * dec

/-- The sum of the last NL outputs of the sinc filter of order K and decimation D over a stream, newest bit first:
the sinc^K response is K boxcars of D bits one after another, and the outputs stand D bits apart (R400). -/
def filterSum (ord dec nl : Nat) (bits : List Bool) : Int :=
  let ys := (List.range ord).foldl (fun zs _ => boxcar dec zs) (bits.map bitLevel)
  (List.range nl).foldl (fun z j => z + ys.getD (j * dec) 0) 0

/-- The bits of a stretch of a stream as a command brings them, oldest first; a stretch that stops short goes on with
0 bits: DESIGN CHOICE (log 89). -/
def fitBits (n : Nat) (bits : List Bool) : List Bool := (bits ++ List.replicate n false).take n

/-- `z / d` rounded half away from zero, clamped to 24 bits: value and OVR (R400). -/
def filterValue (acc : Int) (d : Nat) : Int × Bool :=
  let x := roundAway (8388608 * acc) d
  let c := clampInt (-8388608) 8388607 x
  (c, decide (c ≠ x))

/-- The scale D^K × NL of a filter (R400). -/
def filterScale (ord dec nl : Nat) : Nat := dec ^ ord * nl

/-- Key of the result register a selector names (R411). -/
def selKey (sel : Nat) : Option Nat :=
  if sel < 0x20 then some (R.CNV.RES 0 + 0x20 * (sel / 8) + 4 * (sel % 8))
  else if sel < 0x24 then some (R.CNV.URES (sel - 0x20))
  else if 0x40 ≤ sel && sel < 0x50 then some (R.MOD.MDRES (sel - 0x40))
  else none

/-- The word a result leaves: value, REFOK, OVR, and CNT one more than the word had. -/
def resultWord (old : Word) (x : Int) (refok ovr : Bool) : Word :=
  wd (bitsOfInt 24 x + b2n refok * 2 ^ 24 + b2n ovr * 2 ^ 25 + ((old.fld 28 4 + 1) % 16) * 2 ^ 28)

/-- A result of a source, of the bits its filter weighs, newest first: its register, its mirror word, the overrange
count and the choppers that take it. -/
def State.putResult (s : State) (sel ord dec nl : Nat) (bits : List Bool) (ovrKey : Nat) (refok : Bool) : State :=
  match selKey sel with
  | none => s
  | some k =>
    let v := filterValue (filterSum ord dec nl bits) (filterScale ord dec nl)
    let w := resultWord (s.reg k) v.1 refok v.2
    let s1 := (s.setReg k w).when v.2 fun t => t.bump ovrKey
    let s2 := { s1 with mem := s1.mem.writeWord (csmBase + 0x34000 + 4 * sel) w }
    s2.when refok fun t => t.chopFeed sel v.1

/-- The converter whose result a selector names. -/
def selConv (sel : Nat) : Option Nat :=
  if sel < 0x20 then some (sel / 8) else if sel < 0x24 then some (sel - 0x20) else none

/-- A result word as read: while its converter's REF_RDY is 0 its value field is undefined, a free value (R403). -/
def State.resultRead (s : State) (sel : Nat) (w : Word) : State × Word :=
  match selConv sel with
  | some n =>
    if s.regB (R.CNV.CVSTA n) 0 then (s, w) else (s.useFree, w.setFld 0 24 (s.freeWord.fld 0 24))
  | none => (s, w)


/-- A CSM word as read. -/
def State.csmRead (s : State) (off : Nat) : State × Word :=
  let w := s.mem.readWord (csmBase + off)
  if inMirror off && (selKey ((off - 0x34000) / 4)).isSome then s.resultRead ((off - 0x34000) / 4) w else (s, w)

/-! ### Converters (R397 to R405) -/

def State.conv (s : State) (n : Nat) : Conv := NMap.get {} s.meas.conv n

def State.setConv (s : State) (n : Nat) (c : Conv) : State :=
  { s with meas := { s.meas with conv := NMap.put {} s.meas.conv n c } }

/-- Settling time of a converter, ru: (K × D + (NL − 1) × D) × 800 (R401). -/
def State.convSettle (s : State) (n : Nat) : Nat :=
  let k := R.CNV.CVCFG n
  filterSpan (s.regF k 2 3) (s.regF k 5 11) (s.regF k 16 8 + 1) * 800

/-- The bits a conversion weighs, of those its command brings: all it converts (R397, R401). -/
def State.convBits (s : State) (n : Nat) (bits : List Bool) : List Bool :=
  let k := R.CNV.CVCFG n
  (fitBits (filterSpan (s.regF k 2 3) (s.regF k 5 11) (s.regF k 16 8 + 1)) bits).reverse

/-- A result of a converter (R400, R410). -/
def State.convResult (s : State) (n sel : Nat) (bits : List Bool) : State :=
  let k := R.CNV.CVCFG n
  s.putResult sel (s.regF k 2 3) (s.regF k 5 11) (s.regF k 16 8 + 1) (s.convBits n bits) R.CNV.OVRCNT (s.conv n).refOk

/-- May conversions start: the page enabled and not held idle (R65)? -/
def State.cnvOn (s : State) : Bool := s.enabled cnvPage && !s.regB (R.PCTL cnvPage) 2

/-- CVSTA shows what a converter does (R414). -/
def State.convShow (s : State) (n : Nat) : State :=
  let c := s.conv n
  let k := R.CNV.CVSTA n
  (((s.setB k 1 c.busy).setB k 2 (c.busy && c.urg)).setB k 3 c.wait).setF k 4 3 c.slot

/-- A conversion starts at an instant: the mux takes the slot's inputs and the filter restarts (R397). -/
def State.convBegin (s : State) (n slot at_ : Nat) (urg : Bool) : State :=
  let c := s.conv n
  let ins := if urg then s.regF (R.CNV.UCFG n) 0 13 else s.regN (R.CNV.SLOT 0 + 0x20 * n + 4 * slot)
  (s.setConv n { c with start := at_, busy := true, urg := urg, slot := if urg then c.slot else slot, wait := false, fired := none,
                        inputs := ins, refOk := s.regB (R.CNV.CVSTA n) 0 }).convShow n

/-- The converter starts slot 0: at once in FREE mode, at the next firing in TRIG mode (R397, R399). -/
def State.convStart (s : State) (n : Nat) : State :=
  let c := s.conv n
  if !s.cnvOn || !s.regB (R.CNV.CVCFG n) 0 || c.busy then s
  else if s.regB (R.CNV.CVCFG n) 1 then (s.setConv n { c with wait := true }).convShow n
  else s.convBegin n 0 (fmodEdge s.lam) false

/-- After a conversion of the sequence has ended at an instant: the next slot, or waiting, or idle. -/
def State.convNext (s : State) (n at_ : Nat) : State :=
  let c := s.conv n
  let last := Nat.ble (s.regF (R.CNV.CVCFG n) 24 3) c.slot
  if !s.cnvOn then (s.setConv n { c with busy := false }).convShow n
  else if !last then s.convBegin n (c.slot + 1) at_ false
  else if s.regB (R.CNV.CVCFG n) 1 then (s.setConv n { c with busy := false, wait := true }).convShow n
  else s.convBegin n 0 at_ false

/-- Must a running conversion give way to the waiting urgent request: its first f_mod edge comes no later than the end,
and the request did not come in the last CNV cycle (R404, R405)? -/
def urgentFirst (c : Conv) (end_ : Nat) : Bool :=
  match c.req with
  | some r => Nat.ble (fmodEdge r) end_ && Nat.blt (r + 200) end_
  | none => false

/-- A conversion of the sequence ends and writes its result, of the bits its modulator gave (R397, R401). -/
def State.conversionDone (s : State) (n : Nat) (bits : List Bool) : State :=
  let c := s.conv n
  let end_ := c.start + s.convSettle n
  if !c.busy || c.urg || urgentFirst c end_ then s
  else ((s.reachLam end_).convResult n (8 * n + c.slot) bits).convNext n end_

/-- A firing of TSCH, where the channel has last fired at that target (R112, R397, R398, R405). -/
def State.sequenceTrigger (s : State) (n target : Nat) : State :=
  let c := s.conv n
  let k := R.CNV.CVCFG n
  if !s.regB k 0 || !s.regB k 1 || !s.cnvOn || s.firing (s.regF k 28 4) ≠ some target then s
  else
    let s1 := s.reach target
    if c.wait && c.req.isSome then s1.setConv n { c with held := true }
    else if c.wait then
      let t := s1.toLam target
      let e := fmodEdge t
      let s2 := s1.convBegin n 0 e false
      (s2.setConv n { s2.conv n with fired := some t }).setF (R.CNV.CVSTA n) 16 10 (e - t)
    else if c.urg && !c.resume then s1.setConv n { c with held := true }
    else ((s1.bump R.CNV.SOVCNT).irq cnvPage 4).fault Src.CNV_OVERRUN cnvPage n

/-- Did the sequence begin at a firing in this very CNV cycle (R405)? -/
def State.firedNow (s : State) (c : Conv) : Bool := c.busy && !c.urg && c.fired.any fun t => t / 200 == s.lam / 200

/-- An urgent request reaches the CNV domain (R404, R405). One in the CNV cycle of the firing that began the sequence comes
first: the firing is held, whichever of the two came in front in the queue. -/
def State.urgentReq (s : State) (n : Nat) : State :=
  let c := s.conv n
  if !s.regB (R.CNV.CVCFG n) 0 || !s.cnvOn then s
  else if c.busy && c.urg then ((s.bump R.CNV.UDRCNT).irq cnvPage 5).fault Src.CNV_URG_LOST cnvPage n
  else if c.req.isSome then s
  else if s.firedNow c then (s.setConv n { c with req := some s.lam, busy := false, wait := true, held := true }).convShow n
  else s.setConv n { c with req := some s.lam }

def State.ugo (s : State) (mask : Nat) : State :=
  ((List.range 4).filter fun n => mask.testBit n).foldl State.urgentReq s

/-- UCFGn.TSCH fires: in the present DTM cycle (R112, R404). -/
def State.urgentTrigger (s : State) (n : Nat) : State :=
  let k := R.CNV.UCFG n
  if s.regB k 16 && (s.firing (s.regF k 20 4)).any fun t => !s.passed t then s.urgentReq n else s

/-- At the next f_mod edge the urgent conversion starts, aborting the one running (R404); one that would start at that
very edge is only put off, and none is aborted (R405, first row). A request taken before EN = 0 or SSTOP = 1 of the CNV
page is the page's operation in progress and still runs (R65): DESIGN CHOICE (log 182). -/
def State.urgentStart (s : State) (n : Nat) : State :=
  let c := s.conv n
  match c.req with
  | none => s
  | some r =>
    let e := fmodEdge r
    let s1 := (s.reachLam e).when (c.busy && Nat.blt c.start e) fun t => t.bump R.CNV.ABTCNT
    (s1.setConv n { c with req := none, resume := c.busy }).convBegin n 0 e true

/-- The urgent conversion ends (R404, R405). A sequence that a held firing starts has no stated offset after its
target: a free value. -/
def State.urgentDone (s : State) (n : Nat) (bits : List Bool) : State :=
  let c := s.conv n
  if !c.busy || !c.urg then s
  else
    let end_ := c.start + s.convSettle n
    let s1 := (s.reachLam end_).convResult n (0x20 + n) bits
    let s2 := (s1.irq cnvPage n).setConv n { c with busy := false, urg := false, resume := false, held := false }
    if !s2.cnvOn then s2.convShow n
    else if c.resume then s2.convBegin n c.slot end_ false
    else if c.held then ((s2.convBegin n 0 end_ false).setF (R.CNV.CVSTA n) 16 10 (s2.freeWord.fld 0 10)).useFree
    else (s2.setConv n { s2.conv n with wait := true }).convShow n

/-- REF_RDY of a converter and its copy in PSTA.BLK (R402, R414). -/
def State.setRef (s : State) (n : Nat) (b : Bool) : State :=
  (s.setB (R.CNV.CVSTA n) 0 b).setB (R.PSTA cnvPage) (16 + n) b

/-- The delays of R402, ru: 200 µs, 100 µs, 20 µs. -/
def refDelay (sel : Nat) : Nat := if sel = 1 then 1600000 else if sel = 2 then 320000 else 3200000

/-- REF_RDY goes to 0 at once and its delay starts. -/
def State.refStart (s : State) (n : Nat) : State :=
  let c := s.conv n
  (s.setConv n { c with refAt := some (s.lam + refDelay (s.regF (R.CNV.CVREF n) 0 2)), refOk := false }).setRef n false

/-- The reference delay has passed. -/
def State.refReady (s : State) (n : Nat) : State :=
  let c := s.conv n
  match c.refAt with
  | none => s
  | some t => (((s.reachLam t).setConv n { c with refAt := none }).setRef n true).irq cnvPage 6

/-- A write of CVREFn: 3 is held as 0; a new value restarts the delay (R402). -/
def State.cvrefWrite (s : State) (n : Nat) (v : Word) : State :=
  let x := if v.fld 0 2 = 3 then 0 else v.fld 0 2
  if s.regF (R.CNV.CVREF n) 0 2 = x then s else (s.setReg (R.CNV.CVREF n) (wd x)).refStart n

/-- ORD and DEC as held (R400). -/
def ordHeld (n : Nat) : Nat := if n = 0 then 1 else if 5 < n then 5 else n
def decHeld (n : Nat) : Nat := clampNat 16 1024 n

/-- A write of CVCFGn (R399). -/
def State.cvcfgWrite (s : State) (n : Nat) (v : Word) : State :=
  let k := R.CNV.CVCFG n
  if s.regB k 0 then
    let s1 := s.irq cnvPage 7
    if v.bit 0 then s1
    else
      let c := s1.conv n
      ((s1.setB k 0 false).setConv n { c with busy := false, urg := false, req := none, resume := false, wait := false,
                                              held := false }).convShow n
  else
    let w := ((v &&& 0xF7FFFFFF).setFld 2 3 (ordHeld (v.fld 2 3))).setFld 5 11 (decHeld (v.fld 5 11))
    let s1 := s.setReg k w
    if v.bit 0 then (s1.refStart n).convStart n else s1

/-- The CNV page is enabled or let go: enabled converters that stand still start. -/
def State.cnvGo (s : State) : State :=
  (List.range 4).foldl (fun t n => if (t.conv n).wait then t else t.convStart n) s

/-! ### Modulator clocks and inputs (R406 to R409) -/

def State.modIn (s : State) (i : Nat) : ModIn := NMap.get {} s.meas.mods i

def State.setMod (s : State) (i : Nat) (m : ModIn) : State :=
  { s with meas := { s.meas with mods := NMap.put {} s.meas.mods i m } }

/-- First rising edge of a running clock. -/
def State.mclkAt (s : State) (k : Nat) : Option Nat := NMap.get none s.meas.mclk k

/-- Period of MCLKk, ru. -/
def State.mclkT (s : State) (k : Nat) : Nat := s.regF (R.MOD.MCLKCFG k) 4 5 * 200

/-- The clock of an input and the first sampling edge of that clock, while it runs (R407). -/
def State.modEdge0 (s : State) (i : Nat) : Option Nat :=
  let k := s.regF (R.MOD.MDCFG i) 2 2
  (s.mclkAt k).map fun a =>
    if s.regB (R.MOD.MDCFG i) 1 then a + s.regF (R.MOD.MCLKCFG k) 4 5 / 2 * 200 else a

def State.modT (s : State) (i : Nat) : Nat := s.mclkT (s.regF (R.MOD.MDCFG i) 2 2)

/-- First sampling edge of an input at or after an instant. -/
def State.modEdge (s : State) (i t : Nat) : Option Nat :=
  (s.modEdge0 i).map fun a => if t ≤ a then a else a + upTo (s.modT i) (t - a)

/-- Is an input producing results (RUN, PSTA.BLK)? -/
def State.setRun (s : State) (i : Nat) (b : Bool) : State :=
  (s.setB (R.MOD.MDSTA i) 0 b).setB (R.PSTA modPage) (16 + i) b

/-- The filter of an input restarts at the first sampling edge at or after an instant: no bit before it counts (R401). -/
def State.modRestart (s : State) (i t : Nat) : State :=
  let s1 := match s.modEdge i t with
    | some e => s.setMod i { base := some e }
    | none => s.setMod i { paused := some 0 }
  (s1.setRun i false).setB (R.MOD.MDSTA i) 2 false

/-- Settling time of an input, ru. -/
def State.modSettle (s : State) (i : Nat) : Nat :=
  let k := R.MOD.MDCFG i
  filterSpan (s.regF k 4 3) (s.regF k 8 11) (s.regF k 19 8 + 1) * s.modT i

/-- The bits the filter of an input weighs, newest first, once the stretch sampled since its last result, or since it
restarted, has come in (R400, R407). -/
def State.modBits (s : State) (i : Nat) (bits : List Bool) : List Bool :=
  let m := s.modIn i
  let k := R.MOD.MDCFG i
  let span := filterSpan (s.regF k 4 3) (s.regF k 8 11) (s.regF k 19 8 + 1)
  ((fitBits (if m.n = 0 then span else s.regF k 8 11) bits).reverse ++ m.bits).take span

/-- A decimation instant at which an input produces a result: the command brings the levels of MDAT at the sampling edges
since the last one (R401, R407). -/
def State.modResult (s : State) (i : Nat) (bits : List Bool) : State :=
  let m := s.modIn i
  let k := R.MOD.MDCFG i
  match m.base with
  | none => s
  | some b =>
    if !s.regB k 0 || s.regB R.MOD.MDSTUCK i || (s.modEdge0 i).isNone then s
    else
      let t := b + ((s.modSettle i + m.n * (s.regF k 8 11 * s.modT i) : Nat) : Int)
      let bs := s.modBits i bits
      let s1 := (s.reachLam t.toNat).putResult (0x40 + i) (s.regF k 4 3) (s.regF k 8 11) (s.regF k 19 8 + 1) bs R.MOD.OVRCNT true
      (s1.setMod i { m with n := m.n + 1, bits := bs }).setRun i true

/-- A firing of the alignment channel, where it has last fired at that target (R112, R408). A stuck input takes the offset
and has then had its firing, and starts when its level changes (R409): DEDUCED (log 183). -/
def State.modAlign (s : State) (i target : Nat) : State :=
  let m := s.modIn i
  let k := R.MOD.MDCFG i
  if !s.regB k 0 || !s.regB k 7 || s.firing (s.regF k 28 4) ≠ some target then s
  else
    let s1 := s.reach target
    let t := s1.toLam target
    match s1.modEdge i t with
    | none => if m.wait then (s1.modRestart i t).setB (R.MOD.MDSTA i) 2 true else s1
    | some e =>
      let s2 := (s1.setF (R.MOD.MDSTA i) 16 12 (e - t))
      if s.regB R.MOD.MDSTUCK i then (s2.setMod i { m with wait := false }).setB (R.MOD.MDSTA i) 2 true
      else match m.base with
      | none => (s2.modRestart i t).setB (R.MOD.MDSTA i) 2 true
      | some b =>
        if ((e : Int) - b) % ((s.regF k 8 11 * s.modT i : Nat) : Int) = 0 then s2.setB (R.MOD.MDSTA i) 2 true
        else (((s2.modRestart i t).bump R.MOD.ALNCNT).irq modPage 1).fault Src.MOD_ALIGN modPage i

/-- 256 equal samples (R409). -/
def State.modStuck (s : State) (i : Nat) : State :=
  if !s.regB (R.MOD.MDCFG i) 0 || s.regB R.MOD.MDSTUCK i || (s.modEdge0 i).isNone then s
  else
    let s1 := (s.setMod i { s.modIn i with base := none, paused := none, n := 0, bits := [] }).setRun i false
    (((((s1.setB R.MOD.MDSTUCK i true).setB (R.MOD.MDSTA i) 1 true).setB (R.MOD.MDSTA i) 2 false).irq modPage 0).fault
      Src.MOD_STUCK modPage i)

/-- The level of a stuck input changes: its filter restarts, or still waits for its first firing (R408, R409). -/
def State.modUnstuck (s : State) (i : Nat) : State :=
  if !s.regB R.MOD.MDSTUCK i then s
  else
    let s1 := (s.setB R.MOD.MDSTUCK i false).setB (R.MOD.MDSTA i) 1 false
    if (s.modIn i).wait then s1 else s1.modRestart i s.lam

/-- A write of MDCFGi (R415). -/
def State.mdcfgWrite (s : State) (i : Nat) (v : Word) : State :=
  let k := R.MOD.MDCFG i
  if s.regB k 0 then
    let s1 := s.irq modPage 2
    if v.bit 0 then s1
    else (((s1.setB k 0 false).setMod i {}).setRun i false).setB (R.MOD.MDSTA i) 2 false
  else
    let w := ((v &&& 0xF7FFFFFF).setFld 4 3 (ordHeld (v.fld 4 3))).setFld 8 11 (decHeld (v.fld 8 11))
    let s1 := s.setReg k w
    if !v.bit 0 then s1
    else if v.bit 7 then (s1.setMod i { wait := true }).setRun i false
    else s1.modRestart i s.lam

/-- Does a modulator clock run: its EN, with the MOD page enabled and not held idle (R406, R415)? -/
def State.mclkWanted (s : State) (k : Nat) : Bool :=
  s.enabled modPage && !s.regB (R.PCTL modPage) 2 && s.regB (R.MOD.MCLKCFG k) 0

/-- End of the last cycle of a stopped MCLK. -/
def State.mclkOver (s : State) (k : Nat) : Nat := NMap.get 0 s.meas.mclkEnd k

/-- Has every cycle of an MCLK ended (R406, R415)? -/
def State.mclkStands (s : State) (k : Nat) : Bool := (s.mclkAt k).isNone && Nat.ble (s.mclkOver k) s.lam

/-- A modulator clock starts with a full high phase at the next CNV cycle, no earlier than the end of a cycle in progress, or
stops low after the cycle in progress; the filters on it go on with the edges they take; an input whose clock is stopped
produces no results (R407). -/
def State.mclkSync (s : State) (k : Nat) : State :=
  let mine := (List.range 16).filter fun i => s.regF (R.MOD.MDCFG i) 2 2 = k && s.regB (R.MOD.MDCFG i) 0
  let T := s.mclkT k
  match s.mclkAt k, s.mclkWanted k with
  | none, true =>
    let s1 := { s with meas := { s.meas with mclk := NMap.put none s.meas.mclk k (some (Nat.max (upTo 200 s.lam) (s.mclkOver k))) } }
    mine.foldl (fun t i =>
      let m := t.modIn i
      match m.paused, t.modEdge0 i with
      | some p, some e => t.setMod i { m with base := some ((e : Int) - ((p * T : Nat) : Int)), paused := none }
      | _, _ => t) s1
  | some a, false =>
    let stop := if s.lam ≤ a then a else a + upTo T (s.lam - a)
    let s1 := mine.foldl (fun t i =>
      let m := t.modIn i
      (match m.base with
      | some b => t.setMod i { m with base := none, paused := some (((stop : Int) - b + (T : Int) - 1) / (T : Int)).toNat }
      | none => t).setRun i false) s
    { s1 with meas := { s1.meas with mclk := NMap.put none s1.meas.mclk k none,
                                     mclkEnd := if s.lam ≤ a then s1.meas.mclkEnd else NMap.put 0 s1.meas.mclkEnd k stop } }
  | _, _ => s

/-- The level of MCLKk at an instant of CNV time: high for floor(DIV / 2) CNV cycles from each rising edge, the last cycle of a
stopped clock included; low otherwise and while the clamps hold (R406, R499). -/
def State.mclkLevel (s : State) (k t : Nat) : Bool :=
  let T := s.mclkT k
  let high := s.regF (R.MOD.MCLKCFG k) 4 5 / 2 * 200
  let ends := s.mclkOver k
  !s.rst.clamp && ((s.mclkAt k).any (fun a => Nat.ble a t && Nat.blt ((t - a) % T) high) ||
    (Nat.blt t ends && Nat.ble ends (t + T) && Nat.blt (t + T - ends) high))

/-- A write of MCLKCFGk: DIV is held within 4 to 16; while EN = 1 a write of DIV is ignored and sets REFUSED (R406). -/
def State.mclkcfgWrite (s : State) (k : Nat) (v : Word) : State :=
  let key := R.MOD.MCLKCFG k
  let div := clampNat 4 16 (v.fld 4 5)
  let s1 := if s.regB key 0 then s.irq modPage 2 else s.setF key 4 5 div
  (s1.setB key 0 (v.bit 0)).mclkSync k

end Sys2Proof.Machine
end

