-- ==== Sys2Proof/Machine/Pmc.lean ====
section
/-!
DEFINITION. Sys2Proof/Machine/Pmc.lean: the performance counters of PE0 to PE7 (chapter 20).
Readings and choices (notes/assumptions): DEDUCED 126; DESIGN CHOICE 186.
-/
namespace Sys2Proof.Machine

/-! ### Event numbers (R551) -/

abbrev evCYC : Nat := 0
abbrev evWIN : Nat := 1
abbrev evBUNDLE : Nat := 2
abbrev evRETA : Nat := 7
abbrev evRETM : Nat := 8
abbrev evRETNOP : Nat := 9
abbrev evPRED : Nat := 10
abbrev evSQ : Nat := 11
abbrev evWAIT : Nat := 12
abbrev evHOME : Nat := 13
abbrev evOFF : Nat := 14
abbrev evCSM : Nat := 15
abbrev evMAC : Nat := 16
abbrev evWRITE : Nat := 17
abbrev evSLACK : Nat := 18
abbrev evTAKEN : Nat := 19

/-- The sum counter of a slot class: SL_RET, SL_WST, SL_FS, SL_BS (R551). -/
def slotSum (ev : Nat) : Nat := if ev < 10 then 3 else if ev < 12 then 4 else if ev < 15 then 5 else 6

def State.pmcGet (s : State) (n e : Nat) : Nat := NMap.get 0 s.pmc.ctr (n * 32 + e)

/-- Counter e of engine n advances by k; Mortise and Tenon have no counters. A value past 2^48 − 1 stands until the
counter's overflow is taken. -/
def State.pmcAdd (s : State) (n e k : Nat) : State :=
  if 8 ≤ n || k = 0 then s
  else { s with pmc := { s.pmc with ctr := NMap.put 0 s.pmc.ctr (n * 32 + e) (s.pmcGet n e + k) } }

/-- k slots of a class, with the sum counter that holds the class (R552). -/
def State.pmcSlots (s : State) (n ev k : Nat) : State := (s.pmcAdd n ev k).pmcAdd n (slotSum ev) k

/-- k cycles of which both slots fall into one class. -/
def State.pmcCycles (s : State) (n ev k : Nat) : State := (s.pmcAdd n evCYC k).pmcSlots n ev (2 * k)

/-! ### Overflow and samples (R554 to R556) -/

/-- An engine's cycle of the last counted slots. -/
def State.engNow (s : State) (n : Nat) : Nat := (NMap.get ({} : Eng) s.eng n).acct - 1

/-- Samples waiting in order of cycle and counter number. -/
def dueInsert (x : SampleDue) : List SampleDue → List SampleDue
  | [] => [x]
  | y :: t => if x.at_ < y.at_ || (x.at_ = y.at_ && x.ctr < y.ctr) then x :: y :: t else y :: dueInsert x t

/-- A counter that has passed 2^48 − 1 takes its preset plus the part beyond; OVF, IRQS and a sample follow (R554). The
cycle of the overflow lies before the last counted one by the part beyond, at one a cycle for CYC and WIN and at two for a
slot counter. -/
def State.pmcOverflow (s : State) (n e : Nat) : State :=
  let v := s.pmcGet n e
  if v < 2 ^ 48 then s
  else
    let k := n * 32 + e
    let p := s.pmc
    let ctr := NMap.put 0 p.ctr k (NMap.get 0 p.preset k + (v - 2 ^ 48))
    let ovf := NMap.put 0 p.ovf n (NMap.get 0 p.ovf n ||| 2 ^ e)
    let at_ := s.engNow n - (v - 2 ^ 48) / (if e < 2 then 1 else 2)
    let x : SampleDue :=
      { eng := n, ctr := e, at_ := at_, pidx := s.regN R.TRG.PIDX, since := Nat.min 0xFFFF (at_ - s.ts1Cycle) }
    let due := if (NMap.get 0 p.smpen n).testBit e then dueInsert x p.due else p.due
    let s1 := { s with pmc := { p with ctr := ctr, ovf := ovf, due := due } }
    s1.when ((NMap.get 0 p.oven n).testBit e) fun t => t.irq 0xA8 n

/-- The words of a sample (R556). -/
def sampleWords (pc ctr pidx since : Nat) : Word × Word := (wd (pc % 65536 + (ctr % 32) * 65536), wd (pidx % 65536 + since * 65536))

/-- The oldest sample due of an engine is recorded: the PC of the last bundle issued at or before cycle k + 3; a full FIFO drops
it (R555, R556). Where the engine has issued no bundle by then the spec gives no PC: a free value, DESIGN CHOICE (log 186). -/
def State.pcSample (s : State) (n : Nat) : State :=
  match s.pmc.due.find? fun x => x.eng == n with
  | none => s
  | some x =>
    let s0 := { s with pmc := { s.pmc with due := s.pmc.due.erase x } }
    let q := NMap.get [] s0.pmc.smp n
    if 16 ≤ q.length then
      { s0 with pmc := { s0.pmc with lost := NMap.put 0 s0.pmc.lost n (satInc 16 (NMap.get 0 s0.pmc.lost n)) } }.irq 0xA8 8
    else
      let hit := (NMap.get ({} : Eng) s0.eng n).last.find? fun p => Nat.ble p.1 (x.at_ + 3)
      let pc := match hit with
        | some p => p.2
        | none => s0.freeWord.toNat % 65536
      let s1 := { s0 with pmc := { s0.pmc with smp := NMap.put [] s0.pmc.smp n (q ++ [sampleWords pc x.ctr x.pidx x.since]) } }
      let s2 := if hit.isNone then s1.useFree else s1
      s2.pmcAdd n 31 1

/-- SMPOP: the oldest sample of the engine ESEL names is removed. -/
def State.smpPop (s : State) : State :=
  let n := s.regF R.PMC.ESEL 0 3
  { s with pmc := { s.pmc with smp := NMap.put [] s.pmc.smp n ((NMap.get [] s.pmc.smp n).drop 1) } }

/-! ### Snapshots, presets, reads (R553, R557, R559) -/

/-- A counter as it reads: past 2^48 − 1 it has taken its preset and the part beyond (R554). -/
def State.pmcShown (s : State) (n e : Nat) : Nat :=
  let v := s.pmcGet n e
  (if v < 2 ^ 48 then v else NMap.get 0 s.pmc.preset (n * 32 + e) + (v - 2 ^ 48)) % 2 ^ 48

/-- All 32 counters of an engine are copied in one ENG cycle. -/
def State.pmcSnap (s : State) (n : Nat) : State :=
  let snap := (List.range 32).foldl (fun m e => NMap.put 0 m (n * 32 + e) (s.pmcShown n e)) s.pmc.snap
  let p := s.pmc
  { s with pmc := { p with snap := snap, snPidx := NMap.put 0 p.snPidx n (s.regN R.TRG.PIDX),
                           snSeq := NMap.put 0 p.snSeq n ((NMap.get 0 p.snSeq n + 1) % 65536) } }.irq 0xA8 9

/-- A write of PRELe by a source. -/
def State.prelWrite (s : State) (src e : Nat) (v : Word) : State :=
  let n := s.regF R.PMC.ESEL 0 3
  { s with pmc := { s.pmc with prel := NMap.put 0 s.pmc.prel (src * 256 + n * 32 + e) v.toNat } }

/-- A write of PREHe by a source sets the counter and its preset (R553). -/
def State.prehWrite (s : State) (src e hi : Nat) : State :=
  let n := s.regF R.PMC.ESEL 0 3
  let v := (hi % 65536) * 2 ^ 32 + NMap.get 0 s.pmc.prel (src * 256 + n * 32 + e)
  let p := s.pmc
  { s with pmc := { p with ctr := NMap.put 0 p.ctr (n * 32 + e) v, preset := NMap.put 0 p.preset (n * 32 + e) v,
                           setAt := NMap.put none p.setAt (n * 32 + e) (some s.dt64) } }

/-- Was the counter's preset written at the present DT64? A read may then fall in the SYS cycle of that write. -/
def State.presetNow (s : State) (n e : Nat) : Bool := NMap.get none s.pmc.setAt (n * 32 + e) == some s.dt64

/-- A read of CNTLe by a source: the counter of the engine that ESEL names, latched; in the SYS cycle of a write to its
preset a free value (R553, R559). -/
def State.cntlRead (s : State) (src e : Nat) : State × Word :=
  let n := s.regF R.PMC.ESEL 0 3
  let v := s.pmcShown n e
  let latched (t : State) (hi : Nat) : State := { t with pmc := { t.pmc with lat := NMap.put 0 t.pmc.lat src hi } }
  if s.presetNow n e then (latched { s with free := s.free + 2 } ((Config.freeWord (s.free + 1)).toNat % 65536), s.freeWord)
  else (latched s (v / 2 ^ 32), wd v)

end Sys2Proof.Machine
end

