-- ==== Sys2Proof/Machine/Engines.lean ====
section
/-!
DEFINITION. Sys2Proof/Machine/Engines.lean: engine states, memories, the CSM crossbar, release latches, channel
recognition, overrun, PE7 as shadow and spare (chapter 08).
Readings and choices (notes/assumptions): DEDUCED 56, 59, 60, 63, 64, 65, 66, 185; DESIGN CHOICE 179.
-/
namespace Sys2Proof.Machine

/-! ### Engines and their pages (R270, R295) -/


/-- ESTA.STATE: 0 DISABLED, 1 HOME, 2 RUNNING, 3 WAITING, 4 HALTED, 5 RETIRED. -/
def State.engState (s : State) (n : Nat) : Nat := s.regF (R.PE.ESTA (engPage n)) 0 3

/-- The channel of the WAIT in progress: 16 is the safety-cycle tick. -/
def State.engCh (s : State) (n : Nat) : Nat :=
  if s.regB (R.PE.ESTA (engPage n)) 8 then 16 else s.regF (R.PE.ESTA (engPage n)) 4 4

/-- The engine's state changes; ESTA, PSTA.BLK, IDLE and ENS follow. -/
def State.setEst (s : State) (n st ch : Nat) : State :=
  let p := engPage n
  let v := st + (if st = 1 || st = 3 then (ch % 16) * 16 + (if ch = 16 then 256 else 0) else 0)
  (((s.setReg (R.PE.ESTA p) (wd v)).setF (R.PSTA p) 16 3 st).setIdle p (st ≠ 2 && st ≠ 3)).setEns p
    (st ≠ 0 && st ≠ 5 && (st ≠ 4 || s.enabled p))

def State.pcOf (s : State) (n : Nat) : Nat := s.regF (R.PE.PC (engPage n)) 0 16

def State.setPc (s : State) (n a : Nat) : State := s.setF (R.PE.PC (engPage n)) 0 16 a

/-- ENTRY, 8-byte aligned. -/
def State.entryOf (s : State) (n : Nat) : Nat := s.regF (R.PE.ENTRY (engPage n)) 0 16 / 8 * 8

/-- Sticky flags in FLAGS; any flag set sets IRQS.FLAG (R286). -/
def State.flagsOf (s : State) (n : Nat) : Nat := s.regF (R.PE.FLAGS (engPage n)) 0 4

def State.setFlags (s : State) (n fclr fset : Nat) : State :=
  let f := s.flagsOf n
  let k := f - (f &&& fclr)
  (s.setF (R.PE.FLAGS (engPage n)) 0 4 (k ||| fset)).when (fset ≠ 0) fun t => t.irq (engPage n) 1

/-! ### Memories (R53, R271, R305) -/

/-- The bundle word at a byte address of instruction memory. -/
def State.imemWord (s : State) (n a : Nat) : Word := s.mem.readWord (engBase n + a % 0x10000)

/-- The byte at an address of data memory, if stored since the last reset of the engine. -/
def dmemByte : Memory → Nat → Option Byte
  | [], _ => none
  | (a, v) :: t, k => if a = k then some v else dmemByte t k

def dmemAddr (n off : Nat) : Nat := engBase n + 0x40000 + off % 0x20000

/-- A data memory word; none: its content is undefined (R271). -/
def State.dmemWord (s : State) (n off : Nat) : Option Word :=
  let a := dmemAddr n off
  match dmemByte s.dmem a, dmemByte s.dmem (a + 1), dmemByte s.dmem (a + 2), dmemByte s.dmem (a + 3) with
  | some b0, some b1, some b2, some b3 => some (wd (leNat [b0, b1, b2, b3]))
  | _, _, _, _ => none

/-- A data memory word is stored. -/
def State.dmemStore (s : State) (n off : Nat) (v : Word) : State :=
  let a := dmemAddr n off
  { s with dmem := (List.range 4).foldl (fun m i => NMap.ins m (a + i) (BitVec.ofNat 8 (v.fld (8 * i) 8))) s.dmem }

/-- Data memory addresses of engine `n` in `dmem`. -/
def inDmem (n a : Nat) : Bool := Nat.ble (engBase n + 0x40000) a && Nat.blt a (engBase n + 0x60000)

/-- The data memory of one engine is copied over another's. -/
def State.dmemCopy (s : State) (src dst : Nat) : State :=
  let keep := s.dmem.filter fun p => !inDmem dst p.1
  let moved := (s.dmem.filter fun p => inDmem src p.1).map fun p => (p.1 - engBase src + engBase dst, p.2)
  { s with dmem := moved.foldl (fun m p => NMap.ins m p.1 p.2) keep }

/-- The instruction memory of one engine is copied over another's. -/
def State.imemCopy (s : State) (src dst : Nat) : State :=
  let inI (n a : Nat) : Bool := Nat.ble (engBase n) a && Nat.blt a (engBase n + 0x10000)
  let keep := s.mem.filter fun p => !inI dst p.1
  let moved := (s.mem.filter fun p => inI src p.1).map fun p => (p.1 - engBase src + engBase dst, p.2)
  { s with mem := moved.foldl (fun m p => Memory.write m p.1 p.2) keep }

/-! ### PE7: shadow (R287 to R289) -/


/-- SHSTA bits: COPYING 0, ARMED 1, DIVERGED 2, REFUSED 3. -/
def State.shBit (s : State) (i : Nat) : Bool := s.regB (R.PE.SHSTA 0x67) i
def State.setSh (s : State) (i : Nat) (b : Bool) : State := s.setB (R.PE.SHSTA 0x67) i b

/-- PE7 stands in HOME at ENTRY; a halted PE7 leaves HALTED by its EN alone (R271). -/
def State.pe7Home (s : State) : State :=
  let s1 := s.setEng 7 { s.engine 7 with half := none, pend := [] }
  if s.engState 7 = 4 then s1 else (s1.setPc 7 (s.entryOf 7)).setEst 7 1 1

/-- The first difference: SHADOW_MISMATCH; the comparison stops and PE7 stays in HOME until REARM. -/
def State.shadowFail (s : State) (addr : Option Nat) : State :=
  let a : Word := match addr with
    | some x => wd (x % 0x80000)
    | none => wd (s.freeWord.toNat % 0x80000)
  let s1 := if addr.isNone then s.useFree else s
  let s2 := (((s1.setSh 2 true).setSh 1 false).setF (R.PE.SHSTA 0x67) 16 16 s.shadow7.idx).setReg (R.PE.SHADDR 0x67) a
  let s3 := (s2.irq 0x67 2).fault Src.SHADOW_MISMATCH 0x67 0x7000000
  ({ s3 with shadow7 := { s3.shadow7 with live := false, tgt := [], own := [] } }).pe7Home

/-- A store of TARGET or of PE7 joins the comparison of the period. -/
def State.shadowStore (s : State) (own : Bool) (addr : Nat) (v : Word) : State :=
  let h := s.shadow7
  if !h.live then s
  else
    let tgt := if own then h.tgt else h.tgt ++ [(addr, v)]
    let mine := if own then h.own ++ [(addr, v)] else h.own
    match tgt, mine with
    | x :: t, y :: u =>
      if x = y then { s with shadow7 := { h with tgt := t, own := u, idx := h.idx + 1 } }
      else s.shadowFail (some x.1)
    | _, _ => { s with shadow7 := { h with tgt := tgt, own := mine } }

/-- A home wait of TARGET or of PE7: when both have ended, the period is compared. -/
def State.shadowHome (s : State) (own : Bool) (c : Nat) : State :=
  let h := s.shadow7
  if !h.live then s
  else
    let h1 := if own then { h with homeS := some c } else { h with homeT := some c }
    let s1 := { s with shadow7 := h1 }
    match h1.homeT, h1.homeS with
    | some a, some b =>
      if a = b && h1.tgt.isEmpty && h1.own.isEmpty then
        ({ s1 with shadow7 := { h1 with live := false } }).bumpAt (R.PE.SHPER 0x67) 0 32
      else s1.shadowFail (h1.tgt.head?.map (·.1))
    | _, _ => s1

/-! ### M-slot results (R310) -/

/-- One result is written, with its flags. -/
def State.mWrite (s : State) (n : Nat) (x : MPend) : State :=
  let e := s.engine n
  let r := match x.dst with
    | .g i v => e.r.setG i v
    | .a i v => e.r.setA i v
  ((s.setEng n { e with r := r }).setFlags n 0 x.flags).when (x.flags ≠ 0) fun t => t.pmcAdd n 27 1

/-- The results usable at cycle `c` are written. -/
def State.mFlush (s : State) (n c : Nat) : State :=
  let e := s.engine n
  let ready := e.pend.filter fun x => Nat.ble x.due c
  ready.foldl (fun t x => t.mWrite n x) (s.setEng n { e with pend := e.pend.filter fun x => !Nat.ble x.due c })

/-- The latency of the oldest result ends. -/
def State.macResult (s : State) (n : Nat) : State :=
  match (s.engine n).pend with
  | [] => s
  | x :: _ => s.mFlush n x.due

/-! ### The CSM crossbar (R273 to R275) -/

/-- A CSM word is stored by an engine. -/
def State.csmWrite (s : State) (off : Nat) (v : Word) : State :=
  if inMirror off then s else { s with mem := s.mem.writeWord (csmBase + off) v }

/-- One access takes place: a load delivers its word at the end of its cycle, after the results usable by then (R310), a
store writes it; PE7's stores in SHADOW are not written. -/
def State.csmAct (s : State) (n : Nat) (x : CsmAcc) : State :=
  let s0 := if x.store then s else s.mFlush n x.due
  let e := s0.engine n
  let s1 := s0.setEng n { e with acc := e.acc.drop 1 }
  if x.store then (if n = 7 && s.pe7Mode = 1 then s1 else s1.csmWrite x.addr x.val)
  else if x.got then s1.setEng n { s1.engine n with r := (s1.engine n).r.setG x.rd x.val }
  else
    let v := s1.csmRead x.addr
    v.1.setEng n { v.1.engine n with r := (v.1.engine n).r.setG x.rd v.2 }

/-- The engine whose oldest access comes first. -/
def State.csmFirst (s : State) : Option (Nat × CsmAcc) :=
  (List.range 9).foldl (fun (b : Option (Nat × CsmAcc)) n =>
    match (s.engine n).acc with
    | [] => b
    | x :: _ => match b with
      | some (m, y) => if s.csmKey n x < s.csmKey m y then some (n, x) else b
      | none => some (n, x)) none

/-- Every access with a key below `lim` takes place, in order. -/
def State.csmRun (s : State) (lim : Nat) : Nat → State
  | 0 => s
  | fuel + 1 =>
    match s.csmFirst with
    | some (n, x) => if s.csmKey n x < lim then (s.csmAct n x).csmRun lim fuel else s
    | none => s

/-- Every access of a cycle before `c` takes place. -/
def State.csmBefore (s : State) (c : Nat) : State :=
  s.csmRun (c * 64) ((List.range 9).foldl (fun k n => k + (s.engine n).acc.length) 0)

/-- The engine's oldest load delivers its word at the end of its cycle; accesses of earlier cycles come first. -/
def State.ldcDeliver (s : State) (n : Nat) : State :=
  match (s.engine n).acc.find? fun x => !x.store with
  | some x => s.csmRun (x.due * 64 + 32) ((List.range 9).foldl (fun k m => k + (s.engine m).acc.length) 0)
  | none => s

/-- The engine's oldest store writes its word, with every coincident store in port order. -/
def State.stcWrite (s : State) (n : Nat) : State :=
  match (s.engine n).acc.find? fun x => x.store with
  | some x => s.csmBefore (x.due + 1)
  | none => s

/-! ### Slot accounting of suspended cycles (R552) -/

/-- The class of an engine's cycles in a state; a running engine without a bundle counts its cycles squashed. -/
def stateClass (st : Nat) : Nat := if st = 1 then evHOME else if st = 3 then evWAIT else if st = 2 then evSQ else evOFF

/-- The cycles of an engine before `c` that are not yet counted. -/
def State.acctTo (s : State) (n c : Nat) : State :=
  let e := s.engine n
  if c ≤ e.acct then s else (s.pmcCycles n (stateClass (s.engState n)) (c - e.acct)).setEng n { e with acct := c }

/-- The cycles of the compute window before `c` that are not yet counted: WIN, and the slots of those in HOME: SLACK (R551). -/
def State.winTo (s : State) (n c : Nat) : State :=
  let e := s.engine n
  if !e.inWin || c ≤ e.winAt then s
  else
    let home := if s.engState n = 1 then 2 * (c - Nat.max e.winAt (e.homeAt + 1)) else 0
    ((s.pmcAdd n evWIN (c - e.winAt)).pmcAdd n evSLACK home).setEng n { e with winAt := c }

/-- The ENG cycle of a recognition `d` cycles after the last: no earlier than the last bundle issued. -/
def State.recogCycle (s : State) (d : Nat) : Nat :=
  (List.range 9).foldl (fun c n => match (s.engine n).last with
    | p :: _ => Nat.max c p.1
    | [] => c) (s.engCycle + d)

/-- An engine's counters are brought up to the present ENG cycle; those of a running engine stand at its last bundle. -/
def State.pmcSync (s : State) (n : Nat) : State :=
  let c := s.recogCycle 0
  if s.engState n = 2 then s.winTo n (s.engine n).acct else (s.winTo n c).acctTo n c

/-- The counters of the engine that ESEL names are brought up to date. -/
def State.pmcSel (s : State) : State := s.pmcSync (s.regF R.PMC.ESEL 0 3)

/-- A write of SNAP: a snapshot of each engine named. -/
def State.pmcSnapMask (s : State) (mask : Nat) : State :=
  ((List.range 8).filter fun n => mask.testBit n).foldl (fun t n => (t.pmcSync n).pmcSnap n) s

/-! ### Enabling, parking and halting (R271, R280) -/

/-- The engine enters HOME with its program counter at ENTRY; its first release is the next TS1, for Mortise and Tenon
too, since R291 exempts them from R281 and R282 alone (R280; log entry 60). -/
def State.engHome (s : State) (n : Nat) : State :=
  let e := s.engine n
  let l := if e.latch.testBit 1 then e.latch - 2 else e.latch
  ((s.setEng n { e with latch := l, half := none, offArm := false }).setPc n (s.entryOf n)).setEst n 1 1

/-- After a home wait or an overrun: HOME, or DISABLED when EN is 0. -/
def State.engPark (s : State) (n ch : Nat) : State :=
  if s.enabled (engPage n) || (n = 7 && s.pe7Mode = 1) then
    (if ch = 16 then (s.setEst n 3 ch).setIdle (engPage n) true else s.setEst n 1 ch)
  else s.setEst n 0 0

/-- A write of the engine's PCTL.EN (R271, R280, R290). -/
def State.engEnable (s : State) (n : Nat) (en : Bool) : State :=
  let st := s.engState n
  let e := s.engine n
  if st = 5 then s
  else if en then (if st = 0 || (st = 4 && e.offArm) then (s.acctTo n s.engCycle).engHome n else s)
  else if st = 4 then (s.setEng n { e with offArm := true }).setEns (engPage n) false
  else if st = 1 then ((s.winTo n s.engCycle).acctTo n s.engCycle).setEst n 0 0
  else s

/-- An error in a memory row: the row is to be logged when it is uncorrectable, or the second corrected one within 1 s
(R343). Row key: memory × 2^20 + row. -/
def State.rowError (s : State) (key : Nat) (ue : Bool) : State :=
  let t := NMap.get 0 s.spare.ecc key
  let again := t ≠ 0 && Nat.blt ((s.dt64 + 2 ^ 64 + 1 - t) % 2 ^ 64) 16000000000
  { s with spare := { s.spare with
      ecc := if ue then s.spare.ecc else NMap.put 0 s.spare.ecc key (s.dt64 + 1),
      failing := if (ue || again) && !s.spare.failing.contains key then s.spare.failing ++ [key] else s.spare.failing } }

/-- A memory error of an engine: corrected and counted, or HALTED at once (R271). `off`: window offset. -/
def State.engEcc (s : State) (n off : Nat) (ue : Bool) : State :=
  let p := engPage n
  let s1 := ((s.bumpAt (R.PE.ECCCNT p) (if ue then 16 else 0) 16).setReg (R.PE.ECCADR p)
    (wd (off % 0x100000 + (if ue then 2 ^ 31 else 0)))).irq p 3
  let row := if off < 0x40000 then off % 0x10000 / 256 else off % 0x20000 / 256
  let s2 := (s1.rowError ((2 * n + (if off < 0x40000 then 0 else 1)) * 2 ^ 20 + row) ue).fault
    (if ue then Src.ENG_ECC_UE else Src.ENG_ECC_CE) p (off % 0x100000 + n * 0x1000000) (0x10 + n) 1
  s2.when ue fun t => (t.setEng n { t.engine n with half := none, offArm := false }).setEst n 4 0

/-! ### Output sets (R280, R282) -/

/-- The output set of cells as a mask over cell addresses. -/
def State.osetMask (s : State) (n : Nat) : Nat :=
  (List.range 8).foldl (fun m j => m ||| s.regN (osetKey n j) * 2 ^ (32 * j)) 0

/-! ### Overrun (R281, R282, R314) -/

/-- A one-cycle result of a bundle issued in cycle `c` is taken back, with its flags: its instruction still occupied the MAC
unit (R314). -/
def State.mUndo (s : State) (n c : Nat) : State :=
  match (s.engine n).undo with
  | some x =>
    if x.due ≠ c then s
    else
      let r := match x.dst with
        | .g i v => (s.engine n).r.setG i v
        | .a i v => (s.engine n).r.setA i v
      ((s.setEng n { s.engine n with r := r, undo := none }).setF (R.PE.FLAGS (engPage n)) 0 4 (x.flags % 16)).setB
        (R.IRQS (engPage n)) 1 (x.flags.testBit 4)
  | none => s

/-- An engine is abandoned in cycle `c`: its stream stops, results not yet usable are dropped, CSM accesses complete. -/
def State.engAbandon (s : State) (n c : Nat) : State :=
  let s0 := (s.mFlush n c).mUndo n c
  let e := s0.engine n
  let s1 := s0.setEng n { e with half := none, pend := [], macFree := 0, useL := [], useM := [], useA := [], nextAt := c + 1 }
  (s1.setPc n (s.entryOf n)).setReg (R.PE.CYCLAST (engPage n)) (wd 0xFFFF)

/-- A Plane engine without its home wait in the cycle in which TS2 is recognised: counted, with the index of the period
its schedules were for (R36, R281); PE7 in SHADOW raises nothing further (R289). -/
def State.engOverrun (s : State) (n c : Nat) : State :=
  let p := engPage n
  let pc := s.pcOf n
  let s1 := (s.acctTo n c).pmcCycles n evSQ 1
  let s2 := (s1.setEng n { s1.engine n with acct := Nat.max (c + 1) (s1.engine n).acct }).engAbandon n c
  let s3 := ((((s2.bump (R.PE.OVCNT p)).setReg (R.PE.OVPC p) (wd pc)).setReg (R.PE.OVPIDX p) (wd s.nextPidx)).irq p
    0).pmcAdd n 29 1
  let s4 := { s3 with edge := { s3.edge with frzCells := s3.edge.frzCells ||| s.osetMask n,
                                             frzLegs := s3.edge.frzLegs ||| s.regF (R.PE.OSETLB p) 0 12 } }
  (s4.engPark n 1).when (n ≠ 7 || s.pe7Mode ≠ 1) fun t => t.fault Src.PE_OVERRUN p (pc + n * 0x1000000)

/-! ### Channel recognition (R276 to R278) -/

/-- A firing sets the release latch of every engine; TS1 clears the others. -/
def latchAfter (k l : Nat) : Nat := if k = 1 then 2 else l ||| 2 ^ k

/-- An engine resumes in cycle `c` from its WAIT on channel k. -/
def State.engResume (s : State) (n k c : Nat) : State :=
  let e := s.engine n
  let l := if e.latch.testBit k then e.latch - 2 ^ k else e.latch
  let home := decide (k = 1) || (k = 16 && Nat.ble 8 n)
  let e1 := { e with latch := l, nextAt := c, acct := Nat.max e.acct c, rel := if home then c else e.rel,
                     inWin := home || e.inWin, winAt := if home then c else e.winAt }
  ((s.setEng n e1).pmcAdd n 28 1).setEst n 2 0

/-- May an engine in HOME be released at TS1? Not under SSTOP, and PE7 in SHADOW only while ARMED and with TARGET
(R280, R288). -/
def State.mayRelease (s : State) (n : Nat) : Bool :=
  !s.regB (R.PCTL (engPage n)) 2 && (n ≠ 7 || s.pe7Mode ≠ 1 || (s.shBit 1 && s.shadow7.live))

/-- The firing of channel k at one engine, in cycle `c`. -/
def State.engChannel (s : State) (k c n : Nat) : State :=
  let s0 := if n = 9 then s else (s.mFlush n c).when (s.engState n ≠ 2) fun t => t.acctTo n c
  let e := s0.engine n
  let s1 := s0.setEng n { e with latch := latchAfter k e.latch, inWin := if k = 1 then false else e.inWin }
  let cyc := if n = 9 then e.nextAt else c
  let st := s1.engState n
  if (st = 1 || st = 3) && s1.engCh n = k then
    if st = 1 && !s1.mayRelease n then s1.setEng n { s1.engine n with latch := 0 } else s1.engResume n k cyc
  else s1

/-- What TS2 decides for a Plane engine: overrun, its window counts, its automatic snapshot (R281, R551, R557). -/
def State.engTs2 (s : State) (c n : Nat) : State :=
  let st := s.engState n
  let s0 := s.winTo n (c + 1)
  let s1 := s0.setEng n { s0.engine n with inWin := false }
  let s2 := if st = 2 || st = 3 then s1.engOverrun n c else s1.acctTo n (c + 1)
  s2.when (s2.regB R.PMC.CTL n) fun t => t.pmcSnap n

/-- TS2 for a shadow pair: a period in which both overran is not compared; one in which either has not issued its home
wait, by an overrun or a halt, differs (R289). The data copy starts when TARGET is in HOME (R288). -/
def State.shadowTs2 (s : State) (overT overS : Bool) : State :=
  let h := s.shadow7
  let s1 := if h.live then
      (if overT && overS then { s with shadow7 := { h with live := false, tgt := [], own := [] } }
       else s.shadowFail (h.tgt.head?.map (·.1)))
    else s
  if s1.pe7Mode = 1 && s1.shadow7.waiting && s1.engState s1.pe7Target = 1 then
    { s1 with shadow7 := { s1.shadow7 with waiting := false } }.setSh 0 true
  else s1

/-- TS1 for PE7 in SHADOW: a copy still running is abandoned; an armed pair starts a period (R288, R289). -/
def State.shadowTs1 (s : State) : State :=
  if s.pe7Mode ≠ 1 then s
  else
    let s1 := if s.shBit 0 then (s.setSh 0 false).setSh 3 true else s
    { s1 with shadow7 := { s1.shadow7 with live := s1.shBit 1 && s1.engState s1.pe7Target = 1 && s1.mayRelease s1.pe7Target,
                                           tgt := [], own := [], idx := 0, homeT := none, homeS := none } }

/-- A Class S firing reaches the engines (R276, R277). -/
def State.channelRecognised (s : State) (k d : Nat) : State :=
  let c := s.recogCycle d
  let s0 := { s.csmBefore c with engCycle := c, ts1Cycle := if k = 1 then c else s.ts1Cycle }
  let s1 := if k = 1 then
      (List.range 8).foldl (fun t n => t.pmcAdd n 30 1) s0.shadowTs1
    else s0
  let s2 := (List.range 10).foldl (fun t n => t.engChannel k c n) s1
  if k = 2 then
    let s2 := { s2 with clk := { s2.clk with ts2 := some c } }
    let run (n : Nat) : Bool := s2.engState n == 2 || s2.engState n == 3
    let overT := run s2.pe7Target
    let overS := run 7
    ((List.range 8).foldl (fun t n => t.engTs2 c n) s2).shadowTs2 overT overS
  else s2

/-! ### PE7 modes (R287 to R290) -/

/-- A fresh copy of TARGET for SHADOW: instruction memory and ENTRY at once, data memory from TS2. -/
def State.shadowStart (s : State) : State :=
  let t := s.pe7Target
  let s1 := (s.imemCopy t 7).setReg (R.PE.ENTRY 0x67) (s.reg (R.PE.ENTRY (engPage t)))
  (({ s1 with shadow7 := { waiting := true } }.setReg (R.PE.SHSTA 0x67) 0).setReg (R.PE.SHADDR 0x67) 0).pe7Home

/-- Is a write of PECFG in force? Not while PE7's EN = 1. -/
def State.pe7Open (s : State) : Bool := !s.enabled 0x67

/-- The output sets and OSETLB move from one engine to another. -/
def State.moveOset (s : State) (src dst : Nat) : State :=
  let s1 := (List.range 8).foldl (fun t j => (t.setReg (osetKey dst j) (t.reg (osetKey src j))).setReg (osetKey src j) 0) s
  (s1.setReg (R.PE.OSETLB (engPage dst)) (s1.reg (R.PE.OSETLB (engPage src)))).setReg (R.PE.OSETLB (engPage src)) 0

/-- MODE = FREE: accepted while no plan runs; from REPLACE it returns TARGET to DISABLED with its output sets, and from
SHADOW PE7 stops comparing. -/
def State.pe7Free (s : State) (target : Nat) : State :=
  let old := s.pe7Mode
  if s.plan.run then s
  else
    let t0 := s.pe7Target
    let s1 := if old = 2 then ((s.moveOset 7 t0).setEst t0 0 0) else s
    let s2 := if old = 1 then
        let u := ({ s1 with shadow7 := {} }.setSh 0 false).setSh 1 false
        u.when (u.engState 7 ≠ 4) fun v => v.setEst 7 0 0
      else s1
    { (s2.setF (R.PE.PECFG 0x67) 0 2 0).setF (R.PE.PECFG 0x67) 8 3 target with
      spare := if old = 2 then { s2.spare with engine := none } else s2.spare }

/-- MODE = SHADOW: PE7 copies TARGET. -/
def State.pe7Shadow (s : State) (target : Nat) : State :=
  let s0 := if s.pe7Mode = 2 then s.pe7Free s.pe7Target else s
  if s0.pe7Mode = 2 then s0
  else ((s0.setF (R.PE.PECFG 0x67) 0 2 1).setF (R.PE.PECFG 0x67) 8 3 target).shadowStart

/-- MODE = REPLACE: accepted while no plan runs; TARGET retires and PE7 takes its memories and output sets, its
pair of SHADOW ended (R290). -/
def State.pe7Replace (s : State) (target : Nat) : State :=
  if s.plan.run then s.setSh 3 true
  else
    let s0 := if s.pe7Mode = 0 then s else s.pe7Free s.pe7Target
    let s1 := ((s0.setF (R.PE.PECFG 0x67) 0 2 2).setF (R.PE.PECFG 0x67) 8 3 target)
    let s2 := ((s1.imemCopy target 7).dmemCopy target 7).setReg (R.PE.ENTRY 0x67) (s1.reg (R.PE.ENTRY (engPage target)))
    let s3 := (s2.moveOset target 7).setEst target 5 0
    ({ s3 with spare := { s3.spare with engine := some target }, shadow7 := {} }.setSh 3 false).setSh 2 false

/-- The data copy of SHADOW ends: ARMED, COPYDONE, and PE7 waits for TS1 with TARGET (R288). -/
def State.shadowDone (s : State) : State :=
  if s.pe7Mode = 1 && s.shBit 0 then
    let t := ((((s.dmemCopy s.pe7Target 7).setSh 0 false).setSh 1 true).irq 0x67 4).pe7Home
    { t with shadow7 := { t.shadow7 with copied := true } }
  else s

/-- SHCTL.REARM starts a new copy in SHADOW. -/
def State.shadowRearm (s : State) : State := if s.pe7Mode = 1 then s.shadowStart else s

/-- A host write to TARGET's data memory reaches both memories from the end of the copy (R288). No host access writes the
connection table in Mortise's data memory: a write there changes nothing (R430), DEDUCED (log 185). -/
def State.dmemHost (s : State) (n off : Nat) (v : Word) : State :=
  if n = 8 ∧ 0x1E000 ≤ off ∧ off < 0x1EA00 then s else
  let s1 := s.dmemStore n off v
  if s.pe7Mode = 1 && s.shadow7.copied && n = s.pe7Target then s1.dmemStore 7 off v else s1

end Sys2Proof.Machine
end

