-- ==== Sys2Proof/Machine/Isa.lean ====
section
/-!
DEFINITION. Sys2Proof/Machine/Isa.lean: a bundle's A slot and M slot at an engine, with holds, cycle costs and slot
accounting (R298 to R312, R552).
Readings and choices (notes/assumptions): DEDUCED 57, 58, 62, 66.
-/
namespace Sys2Proof.Machine

/-! ### Holds (R311) -/

/-- Largest "usable from" cycle over registers. -/
def maxUse (m : NMap Nat) (l : List Nat) : Nat := l.foldl (fun c r => Nat.max c (NMap.get 0 m r)) 0

/-- The cycles at which the CSM, MAC and WRITE holds of a bundle end. -/
def holdEnds (e : Eng) (opA opM : Nat) (wa wm : Word) : Nat × Nat × Nat :=
  let sg := srcG opA wa ++ srcG opM wm
  let sa := srcA opA wa ++ srcA opM wm
  let dg := (dstG opA wa).toList ++ (dstG opM wm).toList
  let da := (dstA opA wa).toList ++ (dstA opM wm).toList
  let unit := if opM = 0 then 0 else e.macFree
  (maxUse e.useL sg, Nat.max unit (Nat.max (maxUse e.useM sg) (maxUse e.useA sa)), Nat.max (maxUse e.useM dg) (maxUse e.useA da))

/-- The cycle in which a bundle issues; Tenon has no holds. -/
def issueCycle (n : Nat) (e : Eng) (h : Nat × Nat × Nat) : Nat :=
  if n = 9 then e.nextAt else Nat.max e.nextAt (Nat.max h.1 (Nat.max h.2.1 h.2.2))

/-- The held cycles before issue are counted: CSM first, then MAC, then WRITE. -/
def State.acctHolds (s : State) (n : Nat) (h : Nat × Nat × Nat) (c : Nat) : State :=
  let e := s.engine n
  let t0 := e.acct
  let t1 := Nat.max t0 (Nat.min c h.1)
  let t2 := Nat.max t1 (Nat.min c h.2.1)
  let t3 := Nat.max t2 c
  (((s.pmcCycles n evCSM (t1 - t0)).pmcCycles n evMAC (t2 - t1)).pmcCycles n evWRITE (t3 - t2)).setEng n { e with acct := t3 }

/-- The class of a slot of an issued bundle (R552). -/
def slotClass (op : Nat) (w : Word) (p : BitVec 4) (ret : Nat) : Nat :=
  if predValid (insPred w) && !predTrue w p then evPRED else if op = 0 then evRETNOP else ret

/-- The counter of an executed instruction beyond its slot, if it has one (R551). -/
def opEvent (op : Nat) : Option Nat :=
  if op = 0x1A then some 20 else if op = 0x1B then some 21 else if op = 0x1C then some 22 else if op = 0x1D then some 23
  else if Nat.ble 0x30 op && Nat.ble op 0x34 then some 24
  else if Nat.ble 0x39 op && Nat.ble op 0x3C then some 25
  else if op = 0x3D then some 26 else none

def State.countOp (s : State) (n op : Nat) : State :=
  match opEvent op with
  | some e => s.pmcAdd n e 1
  | none => s

/-! ### The A slot (R304 to R306) -/

/-- A general register of an engine is written. -/
def State.putG (s : State) (n i : Nat) (v : Word) : State :=
  s.setEng n { s.engine n with r := (s.engine n).r.setG i v }

/-- The half bundle left by the A slot. -/
def State.setHalf (s : State) (n : Nat) (h : Option Half) : State := s.setEng n { s.engine n with half := h }

/-- Does a branch leave its path, and where to (R304)? -/
def branchTo (op : Nat) (w : Word) (r : EngRegs) : Option Nat :=
  match op with
  | 0x1E | 0x1F => some (8 * insTgt w)
  | 0x20 => some ((r.gr 15).toNat % 65536 / 8 * 8)
  | 0x21 => if r.gr (insRd w) - 1 ≠ 0 then some (8 * insTgt w) else none
  | _ => none

/-- Tenon's LDC and STC address the 32 KiB exchange memory (R293, R305). -/
def sxmSize : Nat := 0x8000

/-- The register, predicate and memory effects of an A-slot instruction that executes, issued in cycle `c`. -/
def State.aEffect (s : State) (n op : Nat) (w : Word) (r : EngRegs) (c : Nat) : State :=
  let a := insAddr w r
  if op = 0x15 then
    s.setEng n { s.engine n with r := (s.engine n).r.setP (insPd w) (condHolds (insCond w) (r.gr (insRa w)) (r.gr (insRb w))) }
  else if op = 0x16 then
    let v := condHolds (insCond w) (r.gr (insRa w)) (wdInt (insImm10 w))
    s.setEng n { s.engine n with r := (s.engine n).r.setP (insPd w) v }
  else if op = 0x17 then
    let v := lopVal (insCond w) (r.p.toNat.testBit (insPa w)) (r.p.toNat.testBit (insPb w))
    s.setEng n { s.engine n with r := (s.engine n).r.setP (insPd w) v }
  else if op = 0x1A then
    match s.dmemWord n (a % 0x20000) with
    | some v => s.putG n (insRd w) v
    | none => (s.putG n (insRd w) s.freeWord).useFree
  else if op = 0x1B then s.dmemStore n (a % 0x20000) (r.gr (insRd w))
  else if op = 0x1C then
    if n = 9 then s.putG n (insRd w) (s.sxm.readWord (a % sxmSize))
    else s.setEng n { s.engine n with acc := (s.engine n).acc ++
      [{ due := c + 3, store := false, addr := a % 0x80000, rd := insRd w, val := 0 }] }
  else if op = 0x1D then
    if n = 9 then { s with sxm := s.sxm.writeWord (a % sxmSize) (r.gr (insRd w)) }
    else
      let x : CsmAcc := { due := c + 3, store := true, addr := a % 0x80000, rd := 0, val := r.gr (insRd w) }
      let s1 := s.setEng n { s.engine n with acc := (s.engine n).acc ++ [x] }
      if s.pe7Mode = 1 && (n = 7 || n = s.pe7Target) then s1.shadowStore (n == 7) x.addr x.val else s1
  else if op = 0x1F then s.putG n 15 (wd ((s.pcOf n + 8) % 65536))
  else if op = 0x21 then s.putG n (insRd w) (r.gr (insRd w) - 1)
  else if op = 0x23 then s.setFlags n (insMask w) 0
  else if (Nat.ble 1 op && Nat.ble op 0x14) || op = 0x18 || op = 0x19 || op = 0x24 then
    let v := aluVal op w r (s.flagsOf n)
    ((s.putG n (insRd w) v.1).setFlags n 0 v.2).when (v.2 ≠ 0) fun t => t.pmcAdd n 27 1
  else s

/-- The A-slot instruction of the bundle at the program counter executes: the bundle issues in the first cycle without a
hold, and the state its M slot reads is kept (R299). -/
def State.aSlot (s : State) (n : Nat) : State :=
  let pc := s.pcOf n
  let wa := s.imemWord n pc
  let wm := s.imemWord n (pc + 4)
  let op := slotOp false wa
  let h := holdEnds (s.engine n) op (slotOp true wm) wa wm
  let c := issueCycle n (s.engine n) h
  let s0 := if n = 9 then s else ((s.csmBefore c).mFlush n c).acctHolds n h c
  let r := (s0.engine n).r
  let on := predTrue wa r.p
  let s1 := if op = 0x1C && n ≠ 9 then
      s0.setEng n { s0.engine n with useL := NMap.put 0 (s0.engine n).useL (insRd wa) (c + 4) }
    else s0
  let s2 := if on then (s1.aEffect n op wa r c).countOp n op else s1
  let jump := if on then branchTo op wa r else none
  let half : Half := { old := r, at_ := c, jump := jump, wait := if on && op = 0x22 then some (insCh wa) else none,
                       aw := if on then dstG op wa else none, cost := tenonCost op (on && jump.isSome) }
  ((s2.pmcAdd n evCYC 1).pmcAdd n evBUNDLE 1).pmcSlots n (slotClass op wa r.p evRETA) 1 |>.setHalf n (some half)

/-! ### The M slot and the end of the bundle (R306, R307, R310) -/

/-- A home wait has been issued in a bundle that ends at `next`: CYCLAST and CYCMAX, HOME or DISABLED (R278, R295). -/
def State.homeWait (s : State) (n ch c next : Nat) : State :=
  let p := engPage n
  let e := s.engine n
  let k := Nat.min (next - e.rel) 0xFFFE
  let s1 := (s.setEng n { e with homeAt := c }).setReg (R.PE.CYCLAST p) (wd k)
  let s2 := s1.when (s1.regN (R.PE.CYCMAX p) < k) fun t => t.setReg (R.PE.CYCMAX p) (wd k)
  let s3 := s2.engPark n ch
  if s.pe7Mode = 1 && (n = 7 || n = s.pe7Target) then s3.shadowHome (n == 7) c else s3

/-- The bundle ends: program counter, next issue, suspension; a WAIT whose latch is set resumes at once, the home wait too
(R276, R298, R306). -/
def State.endBundle (s : State) (n : Nat) (h : Half) (cost : Nat) : State :=
  let pc := s.pcOf n
  let c := h.at_
  let next := if n = 9 then c + Nat.max 1 (h.cost + cost) else if h.jump.isSome then c + 2 else c + 1
  let e := s.engine n
  let s1 := s.setEng n { e with half := none, nextAt := next, acct := Nat.max e.acct (c + 1), last := ((c, pc) :: e.last).take 8 }
  let s2 := s1.when (h.jump.isSome && n ≠ 9) fun t =>
    ((t.pmcAdd n evTAKEN 1).pmcCycles n evSQ 1).setEng n { t.engine n with acct := c + 2 }
  let s3 := s2.setPc n (h.jump.getD ((pc + 8) % 65536))
  match h.wait with
  | none => s3
  | some ch =>
    if ch = 1 || (ch = 16 && Nat.ble 8 n) then
      let s4 := s3.homeWait n ch c next
      if ch = 1 && s4.engState n = 1 && (s4.engine n).latch.testBit 1 && s4.mayRelease n then s4.engResume n 1 next else s4
    else
      let s4 := s3.setEst n 3 ch
      if ch < 16 && (s4.engine n).latch.testBit ch then (s4.engResume n ch next) else s4

/-- The result of an M-slot instruction goes to its destination when its latency ends; a register both slots write is
undefined (R299). -/
def State.mDeliver (s : State) (n : Nat) (h : Half) (op : Nat) (dst : MDst) (flags : Nat) : State :=
  let x : MPend := { due := h.at_ + macCycles op, dst := dst, flags := flags }
  if n = 9 then s.mWrite n x
  else if macCycles op = 1 then
    let e := s.engine n
    let old : MDst := match dst with
      | .g i _ => .g i (e.r.gr i)
      | .a i _ => .a i (e.r.ac i)
    let p := engPage n
    (s.setEng n { e with undo := some { due := h.at_, dst := old, flags := s.flagsOf n + 16 * b2n (s.regB (R.IRQS p) 1) } }).mWrite n x
  else s.setEng n { s.engine n with pend := (s.engine n).pend ++ [x] }

/-- A load of the bundle issued in cycle `c` whose register the M slot writes too delivers an undefined word (R299). -/
def State.spoilLoad (s : State) (n rd c : Nat) : State :=
  let e := s.engine n
  s.setEng n { e with acc := e.acc.map fun x =>
    if !x.store && x.rd = rd && x.due = c + 3 then { x with got := true, val := s.freeWord } else x }

/-- The M-slot instruction of the bundle executes on the state before the bundle, and the bundle ends. -/
def State.mSlot (s : State) (n : Nat) (h : Half) : State :=
  let w := s.imemWord n (s.pcOf n + 4)
  let op := slotOp true w
  let on := predTrue w h.old.p
  let t := h.at_ + macCycles op
  let e := s.engine n
  let s1 := if op = 0 || n = 9 then s
    else
      let useM := match dstG op w with
        | some r => NMap.put 0 e.useM r t
        | none => e.useM
      let useA := match dstA op w with
        | some r => NMap.put 0 e.useA r t
        | none => e.useA
      s.setEng n { e with macFree := t, useM := useM, useA := useA }
  let s2 := if op = 0 || !on then s1
    else match dstA op w with
      | some r =>
        let v := macVal op w h.old
        s1.mDeliver n h op (.a r v.1) v.2
      | none =>
        let v := mRegVal op w h.old
        match v.1, h.aw == some (insRd w) with
        | some x, false => s1.mDeliver n h op (.g (insRd w) x) v.2
        | _, _ => ((s1.spoilLoad n (insRd w) h.at_).mDeliver n h op (.g (insRd w) s1.freeWord) v.2).useFree
  let s3 := if on then s2.countOp n op else s2
  (s3.pmcSlots n (slotClass op w h.old.p evRETM) 1).endBundle n h (tenonCost op false)

/-! ### The commands -/

/-- An engine executes the instruction of the opcode in its next slot, where that is the one it holds there. -/
def State.insCmd (s : State) (n op : Nat) : State :=
  if s.engState n ≠ 2 then s
  else
    let pc := s.pcOf n
    match (s.engine n).half with
    | none => if slotOp false (s.imemWord n pc) = op then s.aSlot n else s
    | some h => if slotOp true (s.imemWord n (pc + 4)) = op then s.mSlot n h else s

/-- LD, with a memory error on the word read: 1 corrected, 2 or 3 uncorrectable (R271). -/
def State.ldCmd (s : State) (n upset : Nat) : State :=
  let w := s.imemWord n (s.pcOf n)
  let hit := s.engState n = 2 && (s.engine n).half.isNone && slotOp false w = 0x1A && predTrue w (s.engine n).r.p
  let s1 := s.insCmd n 0x1A
  if !hit || upset = 0 then s1
  else
    let r := match (s1.engine n).half with
      | some h => h.old
      | none => {}
    s1.engEcc n (0x40000 + insAddr w r % 0x20000) (Nat.ble 2 upset)

end Sys2Proof.Machine
end

