-- ==== Sys2Proof/Machine/Monitors.lean ====
section
/-!
DEFINITION. Sys2Proof/Machine/Monitors.lean: die sensors, rails, the thermal throttle, compensation, ageing margin and
the supply monitor (chapter 19, R490).
Readings and choices (notes/assumptions): DEDUCED 122, 123, 124, 125; DESIGN CHOICE 191.
-/
namespace Sys2Proof.Machine

abbrev monPage : Nat := 0x04
abbrev pwrPage : Nat := 0x03

/-! ### Die temperature (R533, R534, R538, R544) -/

/-- Sorted insertion. -/
def insertInt (x : Int) : List Int → List Int
  | [] => [x]
  | y :: t => if x ≤ y then x :: y :: t else y :: insertInt x t

/-- Twice the median of six readings. -/
def median2 (l : List Int) : Int :=
  let m := l.foldr insertInt []
  m.getD 2 0 + m.getD 3 0

/-- A sensor's reading: excluded at its tenth consecutive deviation of more than 20 °C from the median. -/
def State.sensor (s : State) (i : Nat) (r med2 : Int) : State :=
  let dev := Nat.blt 320 (2 * r - med2).natAbs
  let n := if dev then NMap.get 0 s.mon.dev i + 1 else 0
  let s1 := { s with mon := { s.mon with dev := NMap.put 0 s.mon.dev i (Nat.min n 10) } }
  if n = 10 && !s.regB R.MON.TSTA (8 + i) then
    (((s1.setB R.MON.TSTA (8 + i) true).setB (R.PSTA monPage) (16 + i) true).irq monPage 2).fault Src.TSENS_FAULT monPage i
  else s1

/-- The sensors that count: named in TMASK and not excluded. -/
def State.sensorsIn (s : State) : List Nat :=
  (List.range 6).filter fun i => s.regB R.MON.TCFG i && !s.regB R.MON.TSTA (8 + i)

/-- T_cell stands at or above TCHOT; it takes no part while no plan runs and while CELLEN = 0 (R537, R538). -/
def State.cellHotNow (s : State) : Bool :=
  s.plan.run && s.regB R.MON.TCFG 8 && s.mon.cellIs.any fun c => Nat.ble (s.regF R.MON.TCHOT 0 8) c.1

/-- TSTA as it reads: HOT is of the die, as held, or of a cell (R549). -/
def State.monTsta (s : State) : Word := (s.reg R.MON.TSTA).setBit 2 (s.regB R.MON.TSTA 2 || s.cellHotNow)

/-- T_die has been formed: TDIE_HOT and its re-arming, the maxima, the critical trip. `held`: no sensor remains. -/
def State.dieTemp (s : State) (t : Int) (held : Bool) : State :=
  let thot := signedOf 16 (s.regF R.MON.THOT 0 16)
  let hot := decide (thot ≤ t)
  let s1 := s.setReg R.MON.TDIE (wd (bitsOfInt 16 t))
  let tmax := signedOf 16 (s1.regF R.MON.TMAX 0 16)
  let s2 := if tmax < t then s1.setReg R.MON.TMAX (wd (bitsOfInt 16 t)) else s1
  let best := match s2.mon.maxDie with
    | some m => if m < t then t else m
    | none => t
  let s3 := { s2 with mon := { s2.mon with maxDie := some best,
                                           dieHot := hot || (s2.mon.dieHot && !decide (t < thot - 40)) } }.setB R.MON.TSTA 2 hot
  let s4 := s3.when (hot && !s.mon.dieHot) fun u => (u.irq monPage 1).fault Src.TDIE_HOT monPage
  let crit := decide (1080 ≤ t) && !held
  let s5 := s4.setB R.MON.TSTA 3 crit
  if !crit then s5
  else s5.tripHold.when (!s.regB R.MON.TSTA 3) fun u => u.fault Src.TDIE_CRIT monPage

/-- Each 250 µs the six sensors measure; exclusion comes first (R533, R534, R550). -/
def State.tempMeasure (s : State) (readings : List (BitVec 16)) : State :=
  let r := (List.range 6).map fun i => (readings.getD i 0).toInt
  let s1 := (List.range 6).foldl (fun t i => t.setReg (R.MON.TSENS i) (wd (readings.getD i 0).toNat)) s
  let s2 := (List.range 6).foldl (fun t i => t.sensor i (r.getD i 0) (median2 r)) s1
  match s2.sensorsIn with
  | [] => s2.dieTemp (signedOf 16 (s2.regF R.MON.THOT 0 16)) true
  | i :: rest => s2.dieTemp (rest.foldl (fun m j => if m < r.getD j 0 then r.getD j 0 else m) (r.getD i 0)) false

/-! ### Rails (R535) -/

/-- MSTEP: steps in use (R547). -/
def State.mstep (s : State) : Nat := s.mon.mstep.getD Config.mbase.toNat

/-- Nominal of a rail, mV, and its window in percent. -/
def State.railNominal (s : State) (r : Nat) : Nat × Nat :=
  match r with
  | 0 => (800, 5)
  | 1 => (850 + 10 * s.mstep, 5)
  | 2 => (900, 5)
  | 3 => (900, 5)
  | 4 => (1800, 5)
  | 5 => (3300, 5)
  | 6 => (3300, 3)
  | _ => (2500, 5)

/-- A rail outside its window for 2 µs. -/
def State.railExcursion (s : State) (r : Nat) (high : Bool) : State :=
  (((s.setB R.PWR.PWSTA 0 false).bump R.MON.RAILCNT).irq monPage 3).fault (if high then Src.RAIL_OV else Src.RAIL_UV)
    monPage r

/-- Each 100 µs every rail is measured; RAILOK is 1 while all lie within their windows. -/
def State.railMeasure (s : State) (mv : List (BitVec 16)) : State :=
  let v (i : Nat) : Nat := (mv.getD i 0).toNat
  let s1 := (List.range 8).foldl (fun t i => t.setReg (R.MON.RAIL i) (wd (v i))) s
  let ok (i : Nat) : Bool :=
    let n := s.railNominal i
    Nat.ble (100 * (v i - n.1) + 100 * (n.1 - v i)) (n.1 * n.2)
  s1.setB R.PWR.PWSTA 0 ((List.range 8).all ok)

/-! ### The throttle (R539, R540) -/

/-- The value of derating curve i (2 die, 3 cell): at least 0; 32 767 when absent. -/
def State.derateCurve (s : State) (i x : Nat) : Nat :=
  if s.regN (R.JG.CVN 2) ≤ i then 32767 else (curveValue s.mem (s.curveAt 1 i) x).toNat

/-- While MON is disabled n is held at 32 (R540). -/
def State.derateHold (s : State) : State :=
  if s.enabled monPage then s
  else ((({ s with mon := { s.mon with up := 0 } }.setF R.MON.TLIM 0 6 32).setB R.MON.TSTA 0 false).when
    (s.regF R.MON.TLIM 0 6 ≠ 32) fun t => t.irq monPage 0)

/-- The evaluation at the end of interval `k`. -/
def State.derateAt (s : State) (k : Nat) : State :=
  let x : Mon := { s.mon with interval := k }
  let yd := match x.maxDie with
    | some t => s.derateCurve 2 (t + 512).toNat
    | none => 32767
  let yc := match x.maxCell with
    | some c => s.derateCurve 3 (192 + 4 * c.1)
    | none => 32767
  let nt := 32 * Nat.min yd yc / 32767
  let n := s.regF R.MON.TLIM 0 6
  let cell := match x.maxCell with
    | some c => wd (c.1 + 256 * c.2)
    | none => 0
  let s1 := ({ s with mon := { x with maxDie := none, maxCell := none } }.setReg R.MON.TCELL cell).setF R.MON.TLIM 8 6 nt
  if !s1.enabled monPage then s1.derateHold
  else
    let up := if n < nt then x.up + 1 else 0
    let n1 := if nt < n then n - 1 else if up = 4 then n + 1 else n
    let s2 := ({ s1 with mon := { s1.mon with up := if up = 4 then 0 else up } }.setF R.MON.TLIM 0 6 n1).setB R.MON.TSTA 0
      (n1 < 32)
    let s3 := s2.when (n1 ≠ n) fun t => t.irq monPage 0
    s3.when (n = 32 && n1 < 32) fun t => t.fault Src.THERM_DERATE monPage

/-- The end of a 100 ms interval: the target from the interval's highest temperatures, and one move of n. -/
def State.derate (s : State) : State :=
  let k := s.nextMultiple (s.mon.interval + 1) 1600000000
  (s.reach (k * 1600000000)).derateAt k

/-! ### Compensation (R545) -/

/-- A correction moves toward its target by at most `lim`. -/
def moveBy (old target lim : Int) : Int := old + clampInt (-lim) lim (target - old)

/-- The correction of a fused table of 33 points at a TS5 reading, by linear interpolation. The rule states neither the rounding
nor a value outside the points: both are free, DESIGN CHOICE (log 191). -/
def fusedAt (point : Nat → Int × Int) (beyond : Int → Int) (x : Int) : Int :=
  match (List.range 32).find? fun i => decide ((point i).1 ≤ x) && decide (x ≤ (point (i + 1)).1) with
  | some i =>
    let a := point i
    let b := point (i + 1)
    a.2 + freeRound ((b.2 - a.2) * (x - a.1)) (Nat.max 1 (b.1 - a.1).toNat)
  | none => beyond x

/-- Each 1 ms both corrections follow TS5, unless it is excluded. -/
def State.compensate (s : State) : State :=
  if s.regB R.MON.TSTA 13 then s.setB R.MON.TSTA 4 true
  else
    let t := signedOf 16 (s.regF (R.MON.TSENS 5) 0 16)
    (((s.setB R.MON.TSTA 4 false).setReg R.MON.MEMSCOR
      (wdInt (moveBy (s.regI R.MON.MEMSCOR) (fusedAt Config.memsPoint Config.memsBeyond t) 50))).setReg R.MON.VREFCOR
        (wdInt (moveBy (s.regI R.MON.VREFCOR) (fusedAt Config.refPoint Config.refBeyond t) 20)))

/-! ### Ageing margin (R546, R547) -/

/-- MSTEP changes: ENG_MARGIN. -/
def State.setMstep (s : State) (m : Nat) : State :=
  ({ s with mon := { s.mon with mstep := some m, low := 0, high := 0 } }.irq monPage 4).fault Src.ENG_MARGIN monPage m

/-- MSTEP as it reads. -/
def State.mstepWord (s : State) : Word := wd (s.mstep + Config.mbase.toNat * 256)

/-- Each 10 ms the ring oscillators are measured and the guard is formed. -/
def State.proMeasure (s : State) (khz : List (BitVec 32)) : State :=
  let f (q : Nat) : Nat := (khz.getD q 0).toNat
  let p (q : Nat) : Nat := (Config.promin q).toNat
  let below (num den : Nat) : Bool := (List.range 4).any fun q => Nat.blt (f q * den) (p q * num)
  let above : Bool := (List.range 4).all fun q => Nat.blt (p q * 108) (f q * 100)
  let g : Nat := (List.range 4).foldl (fun m q =>
    Nat.min m (freeRound ((f q * 4096 : Nat) : Int) (Nat.max 1 (p q))).toNat) 65535
  let s1 := ((List.range 4).foldl (fun t q => t.setReg (R.MON.PRO q) (wd (f q))) s).setReg R.MON.GUARD (wd g)
  let low := if below 103 100 then s.mon.low + 1 else 0
  let high := if above then s.mon.high + 1 else 0
  let m := s.mstep
  let aged := decide (m = 8) && below 101 100
  let s2 := { s1 with mon := { s1.mon with low := low, high := high, aged := aged } }
  let s3 := s2.when (aged && !s.mon.aged) fun t => t.fault Src.ENG_AGED monPage
  if Nat.ble 100 low && m < 8 then s3.setMstep (m + 1)
  else if Nat.ble 6000 high && !s.plan.run && Config.mbase.toNat < m then s3.setMstep (m - 1)
  else s3

/-! ### Supply (R490) -/

/-- Each 100 µs VIN is measured, to 10 mV; ten measurements in a row raise VIN_WARN or VIN_HIGH (R490, R511). -/
def State.vinMeasure (s : State) (mv : Nat) : State :=
  let v := mv / 10 * 10
  let lo := if v < s.regF R.PWR.VWARN 0 16 then Nat.min 10 (s.mon.vinLow + 1) else 0
  let hi := if 5500 < v then Nat.min 10 (s.mon.vinHigh + 1) else 0
  let s1 := { s.setReg R.PWR.VIN (wd v) with mon := { s.mon with vinLow := lo, vinHigh := hi } }
  let s2 := (s1.setReg R.PWR.VMIN (wd (Nat.min v (s.regF R.PWR.VMIN 0 16)))).setReg R.PWR.VMAX
    (wd (Nat.max v (s.regF R.PWR.VMAX 0 16)))
  let s3 := (s2.setB R.PWR.PWSTA 1 (lo = 10)).setB R.PWR.PWSTA 2 (hi = 10)
  let s4 := s3.when (lo = 10 && s.mon.vinLow ≠ 10) fun t => (t.irq pwrPage 0).fault Src.VIN_WARN pwrPage
  s4.when (hi = 10 && s.mon.vinHigh ≠ 10) fun t => (t.irq pwrPage 1).fault Src.VIN_HIGH pwrPage

end Sys2Proof.Machine
end

