-- ==== Sys2Proof/Machine/Plan.lean ====
section
/-!
DEFINITION. Sys2Proof/Machine/Plan.lean: commits, the frame plan's start, stop and events, and the capture of the stack's
loops (chapters 01 to 03, R61 to R65, R112 to R116, R266, R267, R610).
Readings and choices (notes/assumptions): DEDUCED 24, 25, 55, 72, 81, 83.
-/
namespace Sys2Proof.Machine

/-! ### Commits (R13, R48, R50, R61 to R64) -/

/-- Page of a register key. -/
def pageOf (k : Nat) : Nat := k / 0x1000

/-- The shadow values of a page. -/
def State.shadowOf (s : State) (page : Nat) : List (Nat × Word) :=
  s.shadow.filterMap fun p => if pageOf p.1 = page then p.2.map fun w => (p.1, w) else none

/-- A shadow write (R13, R62). -/
def State.putShadow (s : State) (k : Nat) (v : Word) : State := { s with shadow := NMap.put none s.shadow k (some v) }

/-- A Jig page's TBANK is accepted only when the bank may come into use (R344); otherwise REFUSED is set for it. -/
def State.acceptBank (s : State) (eng : Nat) : State :=
  let k := R.JG.TBANK (1 + eng)
  match NMap.get none s.shadow k with
  | none => s
  | some v =>
    if s.bankTakes eng (v.fld 0 2) then s
    else { s with shadow := NMap.put none s.shadow k none }.setB (R.JG.TBSTA (1 + eng)) (4 + v.fld 0 2) true

/-- A commit of a page is accepted: each shadow value is copied (R61, R62). A TRG commit whose P lies outside the loaded
plan's range is refused at a t_ML (R50). -/
def State.acceptPage (s : State) (page : Nat) (tick : Bool) : State :=
  let s0 := s.setCpend page false
  let per := match NMap.get none s0.shadow R.TRG.PER with
    | some v => v.fld 0 20
    | none => s0.regF R.TRG.PER 0 20
  if tick && page = 9 && (Nat.blt per (s0.regN R.TRG.PMIN) || Nat.blt (s0.regN R.TRG.PMAX) per) then
    s0.fault Src.PLAN_RANGE 9
  else
    let s1 := if page = 0x51 then s0.acceptBank 0 else if page = 0x52 then s0.acceptBank 1 else s0
    let l := s1.shadowOf page
    { s1 with accepted := l.foldl (fun m p => NMap.put none m p.1 (some p.2)) s1.accepted,
              shadow := l.foldl (fun m p => NMap.put none m p.1 none) s1.shadow }

/-- Capture starts with an injection, as a commit that sets INJCFG.RUN takes effect (R266, R267); it stops when it is full. -/
def State.injCommit (s : State) (old : Bool) : State :=
  let new := s.regB R.STK.INJCFG 6
  if new && !old then
    if s.regN R.STK.CAPL = 0 then s
    else
      let s1 := (s.setReg R.STK.CAPSTA 1).setReg R.STK.CAPWP (wd (s.regN R.STK.CAPB + 16))
      { s1 with capt := {} }
  else s

/-- The bank in use of a Jig engine has changed (R344, R347). -/
def State.bankApplied (s : State) (k : Nat) (old : Word) : State :=
  [0, 1].foldl (fun t e => t.when (k = R.JG.TBANK (1 + e) && s.reg k ≠ old) fun u => u.irq (0x51 + e) 1) s

/-- Accepted values take effect (R48, R64): those of the pages a test names. -/
def State.applyAccepted (s : State) (p : Nat → Bool) : State :=
  let l := s.accepted.filterMap fun q => if p (pageOf q.1) then q.2.map fun w => (q.1, w) else none
  let run := s.regB R.STK.INJCFG 6
  let s1 := l.foldl (fun t q =>
    ({ t.setReg q.1 q.2 with accepted := NMap.put none t.accepted q.1 none }.policyApplied q.1).bankApplied q.1 (t.reg q.1)) s
  s1.injCommit run

/-- The pages with a pending commit. -/
def State.cpendPages (s : State) : List Nat :=
  (Block.pages.map fun b => (List.range b.2.2.1).map fun i => b.2.1 + i).flatten.filter fun p => s.regB (R.PSTA p) 1

/-- A write of PCTL.COMMIT = 1 (R61, R63). -/
def State.commitReq (s : State) (page : Nat) : State := s.setCpend page true

/-- While no plan runs a pending commit is accepted and takes effect at once (R64). -/
def State.commitIdle (s : State) (page : Nat) : State :=
  if s.plan.run || !s.regB (R.PSTA page) 1 then s else (s.acceptPage page false).applyAccepted fun p => p == page

/-! ### Start and stop (R114, R610) -/

/-- The start of the frame plan is judged: refused, or S(0) is set, timed from an instant (R114, R353, R610). -/
def State.judgeStart (s : State) (from_ : Nat) : State :=
  let per := s.regF R.TRG.PER 0 20
  if !s.plan.loaded || Nat.blt per (s.regN R.TRG.PMIN) || Nat.blt (s.regN R.TRG.PMAX) per then
    ((s.setB (R.PCTL 9) 0 false).irq 9 2).fault Src.PLAN_RANGE 9
  else
    let begin_ (t : State) : State :=
      let p : Plan := { t.plan with run := true, started := false, start := upTo per (from_ + 256000), per := per,
                                    stopReq := false, stopAcc := false, restart := false, idx0 := none, asked := some t.dt64 }
      (({ t with plan := p }.setEns 9 true).setIdle 9 false)
    if !s.paired || s.role = 4 then begin_ s
    else if s.role = 0 then
      if s.regB R.HPR.PCFG 2 && !s.regB R.HPR.HSTA 4 then begin_ (s.claimEnter true) else s.roleTo 1
    else s

/-- A write of TRG.PCTL (R63, R114, R610): EN and SSTOP are taken, a commit first. -/
def State.trgPctl (s : State) (v : Word) : State :=
  let s1 := (s.setB (R.PCTL 9) 0 (v.bit 0)).setB (R.PCTL 9) 2 (v.bit 2)
  let s2 := if !v.bit 1 then s1 else if s1.plan.run then s1.commitReq 9 else (s1.commitReq 9).commitIdle 9
  let want := v.bit 0 && !v.bit 2
  if s2.plan.run then
    let p := s2.plan
    { s2 with plan := if p.stopAcc then { p with restart := want } else { p with stopReq := !want } }
  else if want then s2.judgeStart s2.dt64 else s2

/-- Time-valid returns at a period boundary after relock (R99). -/
def State.tvBoundary (s : State) : State :=
  if s.datum.tvDue then { s with datum := { s.datum with tvDue := false } }.setTv true else s

/-- The program set's keeping as a plan starts: cleared, but for the injection, which only R266 starts and ends (log 154). -/
def CalState.restart (p : CalState) : CalState :=
  { inj := p.inj, injRun := p.injRun, injDone := p.injDone, injAbort := p.injAbort, injCnt := p.injCnt }

/-- Ring time reaches S(0) (R114, R189, R190, R336). -/
def State.planStart (s : State) : State :=
  if !s.plan.run || s.plan.started then s
  else
    let s0 := s.reach s.plan.start
    let idx := match s0.plan.idx0 with
      | some i => i
      | none => if s0.plan.ran then (s0.regN R.TRG.PIDX + 1) % 65536 else 0
    let p : Plan := { s0.plan with started := true, per := s0.regF R.TRG.PER 0 20, pastML := false, fired := 0, ran := true,
                                   idx0 := none }
    let s1 := (({ s0 with plan := p, pset := s0.pset.restart, mon := { s0.mon with cellIs := none } }.setReg
      R.TRG.PIDX (wd idx)).setReg R.TRG.PSTART (wd s0.plan.start)).irq 9 0
    s1.tvBoundary.jigRestart.resyncAll.clearCopies.pairStart idx

/-- Ring time reaches S(n+1): committed values take effect; the plan goes on, or stops where a stop was accepted
(R35, R36, R48, R49, R610). -/
def State.periodStart (s : State) : State :=
  if !s.plan.started then s
  else
    let at_ := s.plan.start + s.plan.per
    let s1 := ((s.reach at_).pairPeriodEnd.applyAccepted fun _ => true).tvBoundary
    if s1.plan.stopAcc then
      let again := s1.plan.restart
      let s2 := s1.planHalt
      let s3 := { s2 with plan := { s2.plan with start := at_, lastBoundary := some (at_ + s2.regF R.TRG.PHI 0 20) } }
      if again then s3.judgeStart at_ else s3
    else
      let p : Plan := { s1.plan with start := at_, per := s1.regF R.TRG.PER 0 20, pastML := false, fired := 0 }
      let s2 := { s1 with plan := p }
      ((s2.setReg R.TRG.PIDX (wd s2.nextPidx)).setReg R.TRG.PSTART (wd at_)).clearCopies.hprBegin.listenCheck

/-- TS4 at S(n) + φ_out: the shadow registers load and the windows of the local legs start; after a stop, the legs go off
at the output boundary that the stop left due, whatever a new start has set meanwhile (R46, R375, R610). -/
def State.outputBoundary (s : State) : State :=
  match s.plan.lastBoundary with
  | some b =>
    let s1 := s.reach b
    { s1 with plan := { s1.plan with boundary := b, lastBoundary := none } }.localBoundary b true
  | none =>
    let b := s.plan.start + s.regF R.TRG.PHI 0 20
    if s.plan.started && s.plan.boundary ≠ b then
      let s1 := s.reach b
      { s1 with plan := { s1.plan with boundary := b } }.localBoundary b false
    else s

/-! ### The events of a period -/

/-- The collectors of every ring at S(n) + t_CL (R168). -/
def State.collectorLaunch (s : State) : State :=
  if !s.plan.started then s
  else
    let t := s.plan.start + s.regF R.TRG.TCL 0 20
    let s1 := s.reach t
    s1.launch t s1.collectors

/-- TS1 at t_TC (R44). -/
def State.closeTelemetry (s : State) : State :=
  if !s.plan.started then s else (s.reach (s.plan.start + s.regF R.TRG.TTC 0 20)).telemetryClose.digestNow

/-- One capture set is copied at t_ML (R267). -/
def State.captureSet (s : State) : State :=
  if !s.regB R.STK.CAPSTA 0 then s
  else
    let dec := Nat.max 1 (s.regF R.STK.CAPDEC 0 8)
    if s.capt.sets ≠ 0 && s.capt.cnt + 1 < dec then { s with capt := { s.capt with cnt := s.capt.cnt + 1 } }
    else
      let b := s.regN R.STK.CAPB
      let end_ := b + s.regN R.STK.CAPL
      let wp := s.regN R.STK.CAPWP
      let full (t : State) : State := ((t.setB R.STK.CAPSTA 0 false).setB R.STK.CAPSTA 2 true).irq 0x71 4
      if end_ < wp + 16 then full s
      else
        let set_ := s.mem.readBytes (csmBase + 0x33000) 16
        let n := s.capt.sets + 1
        let t0 := s.plan.start
        let m1 := s.mem.writeBytes (capBase + wp) set_
        let m2 := if s.capt.sets = 0 then (m1.writeLE (capBase + b) 8 t0).writeWord (capBase + b + 8) (s.reg R.STK.CAPSEL) else m1
        let m3 := m2.writeWord (capBase + b + 12) (wd (s.regF R.STK.CAPDEC 0 8 + (n % 65536) * 65536))
        let s1 := { s with mem := m3, capt := { cnt := 0, sets := n } }.setReg R.STK.CAPWP (wd (wp + 16))
        let s2 := if s.capt.sets = 0 then
            ((s1.setReg R.STK.CAPT0L (wd t0)).setReg R.STK.CAPT0H (wd (t0 / 2 ^ 32))).setB R.STK.CAPSTA 1 true
          else s1
        if end_ < wp + 32 then full s2 else s2

/-- A stop requested is accepted at a t_ML tick (R610). -/
def State.acceptStop (s : State) : State :=
  if s.plan.stopReq then { s with plan := { s.plan with stopReq := false, stopAcc := true } } else s

/-- Does the framing frame nothing: from the start of a core reset until its restore completes (R508)? -/
def State.framesNothing (s : State) : Bool := s.inRestore

/-- Every ring and local leg is framed for the next period (R204, R374), and a trip hold takes effect at its output
boundary (R457). -/
def State.frameNext (s : State) (m : Nat) : State × List (Nat × Bool × List Byte) :=
  let a : State × List (Nat × Bool × List Byte) × Tally :=
    if s.framesNothing then ({ s with edge := { s.edge with frzCells := 0 } }, [], {}) else s.frameAll m
  let b := a.1.frameLocal m
  let s1 := b.1.edgeTally (a.2.2.add b.2) m
  let s2 := s1.when (s1.scribe.hold && s1.scribe.heldAt.isNone) fun t =>
    { t with scribe := { t.scribe with heldAt := some (t.plan.start + t.plan.per + t.regF R.TRG.PHI 0 20) } }
  (s2.setPair { s2.pair with own := a.2.1.foldl (fun o q => NMap.put (false, []) o q.1 q.2) [] }, a.2.1)

/-- The head that holds authority launches its commands, and every paired one its tie beacon. An ACTIVE head that has launched no
command copy goes OFF, by the row above that of the handover (R116, R350, R353, R366). -/
def State.launchNext (s : State) (m : Nat) (fs : List (Nat × Bool × List Byte)) : State :=
  let s1 := if s.active then s.launch s.tML (s.commands m fs) else { s with out := [] }
  let none_ := s1.paired && s1.role = 4 && s1.out.isEmpty
  let hov := s1.paired && s1.role = 4 && s1.pair.handover && !none_
  let s2 := s1.also fun t => t.send (t.tieBeacon hov)
  if none_ then s2.also fun t => t.roleTo 0
  else if hov then
    let t := s2.roleTo 2
    t.setPair { t.pair with handover := false, cmpBad := true }
  else s2

/-- t_ML: compute closes, a stop and the commits are accepted, every ring and local leg is framed, and the head that holds
authority launches its commands (R48, R116, R204, R350, R353, R366, R374). -/
def State.commandLaunch (s : State) : State :=
  if !s.plan.started || s.plan.pastML then s
  else
    let s0 := { s with plan := { s.plan with pastML := true } }.reach s.tML
    let s1 := s0.cpendPages.foldl (fun t p => t.acceptPage p true) s0.acceptStop
    let s2 := s1.stackWatch.captureSet
    let m := s2.nextPidx
    let f := s2.frameNext m
    f.1.launchNext m f.2

/-- By t_CC the slots as sent stand in their images (R203). -/
def State.slotWriteBack (s : State) : State :=
  if s.plan.started && s.plan.pastML && !s.framesNothing then s.writeBackSlots s.nextPidx else s

/-- TS3 at t_CC: beacons, the P_thermal write, JG1's pass (R106, R112, R318, R542). -/
def State.commandClose (s : State) (cycles : Nat) : State :=
  if !s.plan.started then s
  else
    let s1 := s.reach s.tCC
    let s2 := if s1.active then s1.launch s.tCC s1.beacons else s1
    let s3 := s2.thermWrite.jg1Pass cycles
    { s3 with jig := { s3.jig with jg0Due := true } }

/-! ### Block control (R65) -/

/-- Operations that end at once: blocks with nothing running. -/
def State.goIdle (s : State) (page : Nat) : State :=
  let s1 := s.setIdle page true
  if s.enabled page then s1 else s1.setEns page false

end Sys2Proof.Machine
end

