-- ==== Sys2Proof/Machine/Sec.lean ====
section
/-!
DEFINITION. Sys2Proof/Machine/Sec.lean: identity, owner slots, image-set checks, flash updates and attestation
(chapter 18).
Readings and choices (notes/assumptions): DESIGN CHOICE 9, 190, 192; DEDUCED 111, 118, 119, 120, 121.
-/
namespace Sys2Proof.Config

/-- The bytes of the spare record in flash, whose layout is not given (R341, R526). -/
opaque spareBytes : Machine.SpareRec → List Byte

end Sys2Proof.Config

namespace Sys2Proof.Machine

abbrev secPage : Nat := 0xA0

/-- Size of an image slot in flash; slot t starts at t times it (R523). -/
abbrev slotSize : Nat := 0xC00000

/-! ### Fuses and page values (R518, R532) -/

def State.slot (s : State) (t : Nat) : Slot := NMap.get {} s.sec.slots t

def State.setSlot (s : State) (t : Nat) (x : Slot) : State :=
  { s with sec := { s.sec with slots := NMap.put {} s.sec.slots t x } }

/-- Slot states, 2 bits each. -/
def State.slotBits (s : State) : Nat := (List.range 4).foldl (fun n t => n + (s.slot t).st * 4 ^ t) 0

/-- KEYOK. -/
def State.keyOk (s : State) : Bool := s.regB R.SEC.SSTA 8

/-- SSTA and SVNS as they read; SVNS holds the SVN in use. -/
def State.secSsta (s : State) : Word := wd (s.slotBits + 256 * b2n s.keyOk)
def State.svns (s : State) : Word := wd (s.sec.floor + s.regF R.SEC.SVNS 8 8 * 256)

/-- Word i of AUTHN. -/
def State.authn (s : State) (i : Nat) : Word := Config.freeWord (s.sec.authnAt + i)

/-- A new AUTHN is drawn (R520). -/
def State.drawAuthn (s : State) : State := { s with sec := { s.sec with authnAt := s.free }, free := s.free + 4 }

/-- The key self-test at a release of the SFB blocks (R517). -/
def State.keyTest (s : State) (ok : Bool) : State :=
  ((s.setB R.SEC.SSTA 8 ok).setB (R.PSTA secPage) 16 ok).when (!ok) fun t => t.fault Src.KEY_FAULT secPage

/-! ### Slot commands (R519, R520, R524) -/

/-- A slot command is accepted while WLCK is open, no frame plan runs and none is busy. -/
def State.okOpen (s : State) : Bool :=
  s.regB (R.WLCK secPage) 0 && !s.plan.run && !s.regB R.SEC.OKSTA 0

/-- Bytes of OKBUF. -/
def State.okBytes (s : State) (a n : Nat) : List Byte :=
  ((((List.range 64).map fun i => natLe 4 (s.regN (R.SEC.OKBUF i))).flatten).drop a).take n

/-- Is a command authorised (R520)? -/
def State.okAuth (s : State) (op t a : Nat) : Bool :=
  let pub := s.okBytes 32 64
  let msg := natLe 8 Config.devsn.toNat ++ [BitVec.ofNat 8 op, BitVec.ofNat 8 t] ++ s.okBytes 0 32 ++
    ((List.range 4).map fun i => natLe 4 (s.authn i).toNat).flatten
  sha256 pub == (s.slot a).hash && ecdsaVerify pub msg (s.okBytes 96 64)

/-- OKSTA: RESULT, not busy, and IRQS.1. -/
def State.okEnd (s : State) (result : Nat) : State := (s.setReg R.SEC.OKSTA (wd (result * 2))).irq secPage 1

/-- A slot command: op 1 PROGRAM, 2 REVOKE. -/
def State.okCmd (s : State) (op : Nat) (v : Word) : State :=
  let t := v.fld 0 2
  let a := v.fld 8 2
  let hash := s.okBytes 0 32
  let start : State :=
    { s.setReg R.SEC.OKSTA 1 with sec := { s.sec with cmd := some (op, t, hash) } }
  if !s.okOpen then
    (if s.regB R.SEC.OKSTA 0 then s else s.setF R.SEC.OKSTA 1 3 3).irq secPage 3
  else if (s.slot t).st ≠ (if op = 1 then 0 else 1) then s.okEnd 1
  else if op = 1 && s.slotBits = 0 then start
  else if (s.slot a).st ≠ 1 || a = t then s.okEnd 1
  else if s.okAuth op t a then start
  else ((s.okEnd 2).drawAuthn).fault Src.AUTH_FAIL secPage

/-- Fuse programming completes, or a fuse fails: the slot is then SPOILED where its hash was being blown (R518, R519). -/
def State.fuseDone (s : State) (error : Bool) : State :=
  match s.sec.cmd with
  | none => s
  | some (op, t, hash) =>
    let x := s.slot t
    let y : Slot := if op = 1 then (if error then { st := 3 } else { st := 1, hash := hash })
      else if error then x else { x with st := 2 }
    let s1 := { s with sec := { s.sec with cmd := none } }.setSlot t y
    ((s1.okEnd (if error then 4 else 0)).drawAuthn).when (!error) fun u => u.fault Src.OWNER_SLOT secPage t

/-- The floor key (R524). -/
def State.floorKey (s : State) : State :=
  if !s.okOpen then s.irq secPage 3
  else
    let svn := s.regF R.SEC.SVNS 8 8
    if svn ≤ s.sec.floor then s
    else { s.setB R.SEC.OKSTA 0 true with sec := { s.sec with raise := some svn } }

/-- The thermometer fuses are blown. -/
def State.floorDone (s : State) : State :=
  match s.sec.raise with
  | none => s
  | some v => ({ s with sec := { s.sec with floor := v, raise := none } }.setB R.SEC.OKSTA 0 false).irq secPage 1

/-- A reset in an update of a flash slot leaves the slot to be rejected: its LENGTH no longer holds (R525): DESIGN CHOICE (log
190). -/
def State.updateLoss (s : State) : State :=
  match s.sec.update with
  | some u => { s with flash := memPut s.flash (u.slot * slotSize + 4) (List.replicate 4 0) }
  | none => s

/-- Fuses half blown at a supply loss: the slot stays EMPTY or is SPOILED, and the floor stands between (R519); an update of a
flash slot is lost. -/
def State.fuseLoss (s0 : State) : State :=
  let s := s0.updateLoss
  let s1 := match s.sec.cmd with
    | some (1, t, _) => (s.setSlot t { st := if s.freeWord.toNat.testBit 0 then 3 else 0 }).useFree
    | some (_, t, _) => (if s.freeWord.toNat.testBit 0 then s.setSlot t { s.slot t with st := 2 } else s).useFree
    | none => s
  let s2 := match s1.sec.raise with
    | some v =>
      let f := s1.sec.floor
      { s1.useFree with sec := { s1.sec with floor := f + s1.freeWord.toNat % (v - f + 1) } }
    | none => s1
  { s2 with sec := { s2.sec with cmd := none, raise := none } }

/-! ### Image sets (R521, R522) -/

/-- A section of an image set. -/
structure Section where
  type : Nat
  target : Nat
  off : Nat
  len : Nat
  hash : List Byte
  deriving DecidableEq, Repr

/-- A little-endian field of an image set. -/
def imgLe (m : Memory) (base off n : Nat) : Nat := leNat (m.slice (base + off) n)

/-- The sections named in SECTAB. -/
def sections (m : Memory) (base : Nat) : List Section :=
  (List.range (imgLe m base 14 2)).map fun i =>
    let e := m.slice (base + 80 + 48 * i) 48
    { type := leAt e 0 2, target := leAt e 4 4, off := leAt e 8 4, len := leAt e 12 4, hash := e.drop 16 }

/-- Length of the signed part of the manifest. -/
def signedLen (m : Memory) (base : Nat) : Nat := 80 + 48 * imgLe m base 14 2

/-- IMGH: the hash of the manifest with SIG. -/
def imgHash (m : Memory) (base : Nat) : List Byte := sha256 (m.slice base (signedLen m base + 64))

/-- Is a section's TYPE and TARGET defined? -/
def sectionDefined (x : Section) : Bool :=
  match x.type with
  | 1 | 2 => Nat.blt x.target 10
  | 3 | 6 => x.target == 0
  | 4 => Nat.ble (x.target + x.len) 0x100000
  | 5 => Nat.ble (x.target + x.len) 0x8000
  | _ => false

/-- Does a section name a memory that a later one names too? -/
def sectionTwice : List Section → Bool
  | [] => false
  | x :: t => (x.type < 3 && t.any fun y => y.type == x.type && y.target == x.target) || sectionTwice t

/-- The first failing check of R522, 0 with none. -/
def State.verify (s : State) (m : Memory) (base : Nat) : Nat :=
  let len := imgLe m base 4 4
  let nsec := imgLe m base 14 2
  let oslot := imgLe m base 13 1
  let rangeOk := imgLe m base 0 4 == 1 && Nat.ble len slotSize && Nat.ble 1 nsec && Nat.ble nsec 64 && Nat.ble oslot 3 &&
    Nat.ble (signedLen m base + 64) len
  if !rangeOk then 1
  else
    let secs := sections m base
    if secs.any fun x => Nat.blt len (x.off + x.len) then 1
    else if (s.slot oslot).st ≠ 1 then 2
    else if sha256 (m.slice (base + 16) 64) ≠ (s.slot oslot).hash then 3
    else if !ecdsaVerify (m.slice (base + 16) 64) (m.slice base (signedLen m base)) (m.slice (base + signedLen m base) 64)
    then 4
    else if imgLe m base 12 1 < s.sec.floor then 5
    else if secs.any (fun x => !sectionDefined x) || sectionTwice secs then 6
    else 0

/-- Do the hashes of sections hold? -/
def hashesOk (m : Memory) (base : Nat) (l : List Section) : Bool :=
  l.all fun x => sha256 (m.slice (base + x.off) x.len) == x.hash

/-! ### Flash updates (R525) -/

/-- FUCTL.FUSTART: the update slot's erase begins. -/
def State.fuStart (s : State) (v : Word) : State :=
  if s.regB R.SEC.FUSTA 0 then s.irq secPage 3
  else
    let src := s.regF R.RST.BSTA 5 2
    let slot := if src < 2 && (s.regB R.RST.BSTA 4 || s.restoring) then 1 - src else v.fld 2 1
    { (s.setReg R.SEC.FUSTA 1).setReg R.SEC.FUCNT 0 with sec := { s.sec with update := some { slot := slot, stage := 1 } } }

/-- The erase completes. -/
def State.eraseDone (s : State) : State :=
  match s.sec.update with
  | some u =>
    if u.stage ≠ 1 then s
    else { s.setB R.SEC.FUSTA 0 false with flash := memClear s.flash (u.slot * slotSize) slotSize,
                                           sec := { s.sec with update := some { u with stage := 2 } } }
  | none => s

/-- Words of a burst go into the update slot. -/
def State.fuWrite (s : State) (ws : List Word) : State :=
  match s.sec.update with
  | some u =>
    if u.stage ≠ 2 then s
    else
      let n := s.regN R.SEC.FUCNT
      let fit := (ws.take 512).take (slotSize / 4 - n)
      { s.setReg R.SEC.FUCNT (wd (n + fit.length)) with
        flash := memPut s.flash (u.slot * slotSize + 4 * n) ((fit.map fun w => natLe 4 w.toNat).flatten) }
  | none => s

/-- FUCTL.FUEND: the check begins. -/
def State.fuEnd (s : State) : State :=
  match s.sec.update with
  | some u =>
    if u.stage ≠ 2 then s
    else { s.setB R.SEC.FUSTA 0 true with sec := { s.sec with update := some { u with stage := 3 } } }
  | none => s

/-- The written slot has been checked under codes 1 to 7. -/
def State.updateDone (s : State) : State :=
  match s.sec.update with
  | some u =>
    if u.stage ≠ 3 then s
    else
      let base := u.slot * slotSize
      let c := s.verify s.flash base
      let code := if c ≠ 0 then c else if hashesOk s.flash base (sections s.flash base) then 0 else 7
      let s1 := { s with sec := { s.sec with update := none } }.irq secPage 2
      if code = 0 then s1.setReg R.SEC.FUSTA 2
      else (s1.setReg R.SEC.FUSTA (wd (4 + code * 16))).fault Src.FLASH_UPD_REJ secPage code
  | none => s

/-! ### Attestation (R526, R527) -/

/-- ATTCTL.ATTGO: the nonce is latched and the report begins, or it is refused while busy. -/
def State.attGo (s : State) : State :=
  if s.regB R.SEC.ATTSTA 0 then s.irq secPage 3
  else
    let nonce := (List.range 8).map fun i => s.reg (R.SEC.ANONCE i)
    { s.setReg R.SEC.ATTSTA 1 with sec := { s.sec with attest := some { nonce := nonce, dt64 := s.dt64 } } }

/-- A host write to a word of table or engine memory during a report: MODW, and the word may have been read before
(R527). -/
def State.attTouch (s : State) (a : Nat) : State :=
  match s.sec.attest with
  | none => s
  | some t =>
    let read := s.freeWord.toNat.testBit 0 && (NMap.get none t.before a).isNone
    let t1 := { t with modw := true, before := if read then NMap.put none t.before a (some (s.mem.readWord a)) else t.before }
    { s.useFree with sec := { s.sec with attest := some t1 } }

/-- The hash of a memory range as the unit read it. -/
def Attest.hash (t : Attest) (m : Memory) (parts : List (Nat × Nat)) : List Byte :=
  let m1 := t.before.foldl (fun x p => match p.2 with
    | some w => x.writeWord p.1 w
    | none => x) m
  sha256 ((parts.map fun p => m1.slice p.1 p.2).flatten)

/-- Bytes 0 to 191 of the report. -/
def State.report (s : State) (t : Attest) : List Byte :=
  [1, 0, 1, 0] ++ natLe 8 Config.devsn.toNat ++ (t.nonce.map fun w => natLe 4 w.toNat).flatten ++
    ((List.range 8).map fun i => natLe 4 (s.regN (R.SEC.IMGH i))).flatten ++
    t.hash s.mem ((List.range 10).map fun n => (engBase n, 0x10000)) ++ t.hash s.mem [(tblBase, 0x100000)] ++
    natLe 4 (s.regN R.SEC.CFGCTR) ++
    [BitVec.ofNat 8 (s.regF R.SEC.SVNS 8 8), BitVec.ofNat 8 s.sec.floor, BitVec.ofNat 8 s.sec.oslot,
     BitVec.ofNat 8 s.slotBits] ++ natLe 8 t.dt64 ++
    natLe 4 (s.regF R.RST.RLAST 16 16 + s.regF R.RST.BSTA 5 2 * 2 ^ 16 + b2n t.modw * 2 ^ 18) ++
    sha256 (Config.spareBytes s.spare)

/-- The report is ready, or with a failed key there is none (R517). -/
def State.attDone (s : State) : State :=
  match s.sec.attest with
  | none => s
  | some t =>
    let s1 := { s with sec := { s.sec with attest := none } }.irq secPage 0
    if !s.keyOk then s1.setReg R.SEC.ATTSTA 8
    else
      let body := s.report t
      let rep := body ++ ecdsaSign Config.identityKey.toNat body
      ((List.range 64).foldl (fun u i => u.setReg (R.SEC.ATTREP i) (wd (leNat ((rep.drop (4 * i)).take 4)))) s1).setReg
        R.SEC.ATTSTA (wd (2 + 4 * b2n t.modw))

/-! ### The certificate (R515, R532) -/

/-- The device certificate: DEVSN as its subject serial number, the identity public key as its subject key, in DER a bit string
of the uncompressed point, at most 2 048 bytes (R515). -/
def certificate : List Byte :=
  (Config.certHead ++ Config.certSerial Config.devsn ++ Config.certMid ++ [0x03, 0x42, 0x00, 0x04] ++
    ecdsaPublic Config.identityKey.toNat ++ Config.certTail).take 2048

/-- The word CERTD reads. -/
def State.certd (s : State) : Word :=
  let a := s.regF R.SEC.CERTA 2 9 * 4
  wd (leAt certificate a 4)

/-- A read of CERTD advances CERTA. -/
def State.certdRead (s : State) : State := s.setF R.SEC.CERTA 2 9 (s.regF R.SEC.CERTA 2 9 + 1)

end Sys2Proof.Machine
end

