-- ==== Sys2Proof/Machine/Sft.lean ====
section
/-!
DEFINITION. Sys2Proof/Machine/Sft.lean: the safety channels: images, ticks, compare and apply points, RSL PDUs, SIO
outputs, readback and off-pulse tests (chapter 14).
Readings and choices (notes/assumptions): DEDUCED 54, 60, 94, 95, 96, 97, 99, 100, 159; PRESUMED 98; DESIGN
  CHOICE 158, 184.
-/
namespace Sys2Proof.Machine

abbrev sftPage : Nat := 0x90
abbrev sioPage : Nat := 0x91

/-! ### The safety cycle (R417) -/

/-- 500 µs, the distance of the ticks, in ru. -/
abbrev tickRu : Nat := 8000000

/-- T(k). -/
def tickAt (k : Nat) : Nat := k * tickRu

/-- The compare point of cycle k, T(k) + 450 µs. -/
def compareAt (k : Nat) : Nat := tickAt k + 7200000

/-- The apply point of cycle k, T(k) + 470 µs. -/
def applyAt (k : Nat) : Nat := tickAt k + 7520000

/-- The first cycle whose tick is not in the past, and not before `done`. -/
def State.nextCycle (s : State) (done : Nat) : Nat := Nat.max done ((s.dt64 + tickRu - 1) / tickRu)

/-- The first cycle whose image instant is not in the past, and that has no image yet. -/
def State.nextImage (s : State) : Nat := Nat.max s.sft.image ((s.dt64 + 320000 + tickRu - 1) / tickRu)

/-- Do cycles run: SFT enabled and not stopped (R65, R443)? -/
def State.sftRuns (s : State) : Bool := s.enabled sftPage && !s.regB (R.PCTL sftPage) 2

/-! ### Outputs (R431, R432) -/

/-- FREQ: HREQ, or GRIDREQ where GPMAP names the path. -/
def State.freq (s : State) : Nat :=
  s.regF R.SIO.HREQ 0 4 ||| (if s.regB R.SIO.SOUT 16 then s.regF R.SIO.SCFG 4 4 else 0)

/-- The role permits the outputs: STANDBY, ACTIVE or unpaired. -/
def State.sioRole (s : State) : Bool := !s.paired || s.role = 2 || s.role = 4

/-- Word of the off-pulse test table. -/
def State.testWord (s : State) (e : Nat) : Word := s.sxm.readWord (0x7000 + 4 * e)

/-- The pulse of a test, ru. -/
def State.testWidth (s : State) (e : Nat) : Nat := 16000 * clampNat 50 400 ((s.testWord e).fld 4 9)

/-- The test whose off-pulse is under way (R435). -/
def State.pulse (s : State) : Option Nat :=
  match s.sft.test with
  | some (e, at_) => if s.dt64 < at_ + s.testWidth e then some e else none
  | none => none

/-- The land an off-pulse drives low: path + 4 for SIO_B, plus one; 0 with none. -/
def State.testLand (s : State) : Nat :=
  match s.pulse with
  | some e => (s.testWord e).fld 0 2 + 4 * (s.testWord e).fld 2 1 + 1
  | none => 0

/-- An off-pulse under way is lost where PERMIT of its path has fallen or a latch is set (R445). -/
def State.pulseLost (s : State) : State :=
  match s.pulse with
  | some e =>
    let p := (s.testWord e).fld 0 2
    let x := s.sft
    s.when (x.divA || x.divB || x.tickA || x.tickB || !x.permA.testBit p || !x.permB.testBit p) fun t =>
      { t with sft := { t.sft with testLost := true } }
  | none => s

/-- SIO_A (or SIO_B) as driven (R431). -/
def State.sioOut (s : State) (b : Bool) : Nat :=
  let perm := if b then s.sft.permB else s.sft.permA
  let latched := if b then s.sft.divB || s.sft.tickB else s.sft.divA || s.sft.tickA
  if latched || s.rst.clamp || !s.sioRole || !s.enabled sftPage then 0
  else (List.range 4).foldl (fun n p =>
    if s.regB R.SIO.SCFG p && perm.testBit p && s.freq.testBit p && !s.regB R.SIO.SLATCH p && s.testLand ≠ p + 4 * b2n b + 1
    then n + 2 ^ p else n) 0

/-- Is path p energised: both lands high (R433)? -/
def State.energised (s : State) (p : Nat) : Bool := (s.sioOut false).testBit p && (s.sioOut true).testBit p

/-- SOUT as it reads. -/
def State.sout (s : State) : Word :=
  wd (s.sioOut false + s.sioOut true * 16 + s.sft.sird * 256 + s.freq * 4096 + b2n (s.regB R.SIO.SOUT 16) * 65536)

/-- An output logic asserts or drops its SSAFE request (R436). -/
def State.setSsafe (s : State) (a b : Bool) : State :=
  let v := b2n a + 2 * b2n b
  if s.ssafe = v then s
  else
    let s1 := { s with ssafe := v }
    s1.when ((s.ssafe ≠ 0) ≠ (v ≠ 0)) fun t => t.irq sftPage 4

/-- SSTA as it reads (R443). -/
def State.sftSsta (s : State) : Word :=
  (s.reg R.SFT.SSTA) ||| wd (b2n (s.sft.divA || s.sft.divB) + 2 * b2n s.sft.tickA + 4 * b2n s.sft.tickB +
    32 * b2n (s.ssafe ≠ 0))

/-- PCTL.EN of SFT is written: 0 asserts both SSAFE requests and holds the lands low; 1 keeps them so until the first
equal record is applied (R443). -/
def State.sftEnable (s : State) (en : Bool) : State :=
  if en then s
  else ({ s with sft := { s.sft with permA := 0, permB := 0, test := none, tests := [] } }.setB R.SIO.TSTA 3 false).setSsafe true true

/-! ### The connection table (R430) -/

def State.connWord (s : State) (j w : Nat) : Word := s.sxm.readWord (0x6000 + 16 * j + 4 * w)

/-- TRANS of a connection: 0 off. -/
def State.connTrans (s : State) (j : Nat) : Nat := (s.connWord j 1).fld 24 3

def State.conn (s : State) (j : Nat) : Conn := NMap.get {} s.sft.conns j

def State.setConn (s : State) (j : Nat) (c : Conn) : State :=
  { s with sft := { s.sft with conns := NMap.put {} s.sft.conns j c } }

/-- The connection whose CID and DIRB a PDU of the peer names (R422). -/
def State.connOf (s : State) (pdu : List Byte) : Option Nat :=
  if (byteAt pdu 8).testBit 2 then
    (List.range 160).find? fun j => s.connTrans j ≠ 0 && (s.connWord j 0).toNat == leAt pdu 0 4
  else none

/-! ### PDUs received (R422, R425 to R427) -/

/-- Does a PDU's SCV check (R426)? -/
def scvOk (pdu : List Byte) : Bool :=
  let n := 12 + byteAt pdu 9 % 32
  pdu.length == n + 4 && crc32c (pdu.take n) == leAt pdu n 4

/-- COPYWIN, ru. -/
def State.copyWin (s : State) : Nat := 16000 * clampNat 1 250 (s.regF R.SFT.SCTL 0 8)

/-- A copy is discarded (R422). -/
def State.sftDiscard (s : State) (n : Nat) : State :=
  s.bumpBy R.SFT.DISCNT n

/-- A copy that passed its frame's checks at DT64 is held for an image, or discarded. -/
def State.pduCopy (s : State) (pdu : List Byte) (path : Nat) : State :=
  if !s.enabled sftPage then s
  else match s.connOf pdu with
  | none => s.sftDiscard 1
  | some j =>
    let s1 := if scvOk pdu then s else (s.bumpAt R.SFT.SCVCNT 0 16).bumpAt R.SFT.SCVCNT 16 16
    let c := s1.conn j
    let seq := leAt pdu 4 2
    match c.waiting.find? fun p => p.seq == seq with
    | some p =>
      if p.second.isSome then s1.sftDiscard 1
      else s1.setConn j { c with waiting := c.waiting.map fun (q : PduIn) =>
        if q.seq = seq then { q with second := some (pdu, s1.dt64) } else q }
    | none =>
      if c.late.contains seq then (s1.setConn j { c with late := c.late.filter (· ≠ seq) }).sftDiscard 1
      else s1.setConn j { c with waiting := c.waiting ++ [{ seq := seq, pdu := pdu, at_ := s1.dt64, path := path }] }

/-- A STANDBY head relays a safety PDU frame into the opposite direction of its ring, unless it is a relay itself (R427). -/
def State.pduRelay (s : State) (ring : Nat) (rev : Bool) (f : List Byte) : State :=
  if s.paired && s.role = 2 && !frameRelay f then
    let body := relayHeader (f.take 8) s.hid ++ framePayload f
    s.pushF (queueOf ring (!rev)) { target := none, bytes := body ++ natLe 4 (crc32 body), own := true }
  else s

/-- A safety PDU copy arrives (R157, R187, R422, R427). -/
def State.rslRx (s : State) (rx : PduRx) : State :=
  match rx with
  | .eth p at_ pdu => if s.ethUp p.val then (s.reach at_).pduCopy pdu p.val else s
  | .ring r rev f =>
    match s.rxTake r.val rev f with
    | none => s
    | some (s0, g) =>
      match frameCheck r.val rev g with
      | some off => s0.frameErr r.val off
      | none =>
        if frameType g.bytes ≠ 7 then s0
        else ((s0.reach g.eof).pduRelay r.val rev g.bytes).pduCopy (framePayload g.bytes) (b2n rev)

/-! ### Input images (R421, R422) -/

/-- The instant at which a PDU is complete: its second copy, or COPYWIN after its first. -/
def PduIn.done (p : PduIn) (win : Nat) : Nat :=
  match p.second with
  | some q => Nat.min q.2 (p.at_ + win)
  | none => p.at_ + win

/-- The PDU a connection takes into the image of I: the first to complete. -/
def takePdu (l : List PduIn) (win at_ : Nat) : Option PduIn :=
  (l.filter fun p => Nat.ble (p.done win) at_).foldl (fun (b : Option PduIn) p => match b with
    | some q => if p.done win < q.done win then some p else some q
    | none => some p) none

/-- `n` words of bytes, zero beyond their end. -/
def wordsOf (l : List Byte) (n : Nat) : List Word := (List.range n).map fun i => wd (leAt l (4 * i) 4)

/-- The 20 image words of a connection. -/
def connImage (p : Option PduIn) (ack : Bool) (disc : Nat) : List Word :=
  let flags := b2n ack * 16 + (Nat.min disc 255) * 256
  match p with
  | none => List.replicate 16 0 ++ [wd flags, 0, 0, 0]
  | some q =>
    let two := match q.second with
      | some c => c.1
      | none => []
    let ok2 := q.second.isSome && scvOk two
    wordsOf (q.pdu.take 32) 8 ++ wordsOf (two.take 32) 8 ++
      [wd (1 + b2n q.second.isSome * 2 + b2n (scvOk q.pdu) * 4 + b2n ok2 * 8 + flags + q.path * 32), wd q.at_,
       match q.second with
       | some c => wd c.2
       | none => 0, 0]

/-- The SEQs whose second copies are still to come once the PDUs `l` have entered an image or been discarded; one that lies half
the numbers of SEQ behind the newest is over: DESIGN CHOICE (log 184). -/
def Conn.lateWith (c : Conn) (newest : Nat) (l : List PduIn) : List Nat :=
  (c.late ++ (l.filter fun p => p.second.isNone).map (·.seq)).filter fun q => decide ((newest + 65536 - q) % 65536 < 32768)

/-- A connection at I(k): its words of the image, and what is left of it. -/
def State.connTake (s : State) (j : Nat) : State × List Word :=
  let c := s.conn j
  let win := s.copyWin
  match takePdu c.waiting win s.dt64 with
  | none => ((if c.ack then s.setConn j { c with ack := false } else s), connImage none c.ack 0)
  | some p =>
    let rest := c.waiting.filter fun q => q.seq ≠ p.seq
    let gone := rest.filter fun q => Nat.ble (q.done win) s.dt64
    let copies := gone.foldl (fun n q => n + (if q.second.isSome then 2 else 1)) 0
    let s1 := s.setConn j { c with waiting := rest.filter fun q => !Nat.ble (q.done win) s.dt64, ack := false,
                                   late := c.lateWith p.seq (p :: gone) }
    let s2 := s1.bumpBy R.SFT.RXCNT (if p.second.isSome then 2 else 1)
    (s2.sftDiscard copies, connImage (some p) c.ack copies)

/-- The words 0 to 15 of image k. -/
def State.imageHead (s : State) (k : Nat) : List Word :=
  let x := s.sft
  let e : Nat := match x.test with
    | some t => t.1
    | none => s.regF R.SIO.TSTA 8 4 % 8
  [wd k, wd s.dt64,
   wd (x.sird + s.regF R.SIO.SLATCH 0 4 * 16 + s.sioOut false * 256 + s.sioOut true * 4096 + b2n x.test.isSome * 65536 +
     e * 2 ^ 17 + b2n (x.passed.testBit e) * 2 ^ 20 + (if s.paired then s.role else 4) * 2 ^ 28),
   wd (s.freq + b2n (s.regB R.SIO.SOUT 16) * 16),
   wd (b2n (x.equalA && x.equalB) + 2 * b2n x.absA + 4 * b2n x.absB)] ++ List.replicate 11 0

/-- Offset of Mortise's image in device addresses, and of the record from an image base. -/
abbrev mortImage : Nat := 0x60858000
abbrev recOfs : Nat := 0x4000

/-- At I(k): input image k goes into both channels and word 0 of both records is cleared (R417, R421, R423). No cycle begins
while the SFT is stopped or disabled; one that has begun is the page's operation and runs to its apply point (R65, R443). -/
def State.imageInstant (s : State) (sird : Nat) : State :=
  let k := s.nextImage
  if !s.sftRuns then s
  else
    let s0 := s.reach (tickAt k - 320000)
    let s1 := { s0 with sft := { s0.sft with sird := sird, image := k + 1 } }.setIdle sftPage false
    let q := (List.range 160).foldl (fun (q : State × List Word) j =>
      let r := q.1.connTake j
      (r.1, q.2 ++ r.2)) (s1, s1.imageHead k)
    let ws := q.2 ++ List.replicate 880 0
    let bytes := (ws.map fun w => natLe 4 w.toNat).flatten ++ zeros 4
    { q.1 with dmem := memSplice q.1.dmem mortImage bytes, sxm := memPut q.1.sxm 0 bytes }

/-! ### The tick (R417, R420, R435) -/

/-- A channel waiting on the tick resumes. -/
def State.tickEngine (s : State) (n c : Nat) : State :=
  let s0 := if n = 9 then s else (s.mFlush n c).when (s.engState n ≠ 2) fun t => t.acctTo n c
  let st := s0.engState n
  if (st = 1 || st = 3) && s0.engCh n = 16 && !s0.regB (R.PCTL (engPage n)) 2 then
    s0.engResume n 16 (if n = 9 then (s0.engine 9).nextAt else c)
  else s0

/-- The off-pulse tests that are due in cycle k wait from here (R435). -/
def State.testsDue (s : State) (k : Nat) : State :=
  (List.range 8).foldl (fun t e =>
    let w := t.testWord e
    let n := 2000 * w.fld 16 16
    if w.bit 3 && n ≠ 0 && (k + n * 250 - 250 * e) % n = 0 && (NMap.get none t.sft.tests e).isNone then
      { t with sft := { t.sft with tests := NMap.put none t.sft.tests e (some { due := k }) } }
    else t) s

/-- T(k): both channels leave WAIT 16, in ENG cycle `d` after the last recognition. -/
def State.safetyTick (s : State) (d : Nat) : State :=
  let k := s.nextCycle s.sft.tick
  if !s.sftRuns && s.sft.image ≠ k + 1 then s
  else
    let s0 := s.reach (tickAt k)
    let c := s0.recogCycle d
    let s1 := { s0.csmBefore c with engCycle := c }
    let s2 := (s1.tickEngine 8 c).tickEngine 9 c
    let x := s2.sft
    { s2 with sft := { x with tick := k + 1, lastTick := some s2.dt64, compared := Nat.min x.compared k,
                              applied := Nat.min x.applied k } }.testsDue k

/-- How long a tick watchdog runs, ru: A counts 300 000 SYS cycles, five times as long while SYS is on SFB (R474); B counts
60 000 SFB cycles, SFB taken at 100 MHz: PRESUMED (log 98). -/
def State.tickWait (s : State) (b : Bool) : Nat := if !b && s.regB R.CLK.CKSTA 4 then 48000000 else 9600000

/-- A tick watchdog expires without a tick (R416, R420). -/
def State.tickLost (s : State) (b : Bool) : State :=
  match s.sft.lastTick with
  | none => s
  | some last =>
    if !s.enabled sftPage then s
    else
      let s0 := s.reach (last + s.tickWait b)
      let x := s0.sft
      let s1 := { s0 with sft := if b then { x with tickB := true, permB := 0 } else { x with tickA := true, permA := 0 } }
      ((s1.pulseLost.setSsafe (!b || s1.ssafe.testBit 0) (b || s1.ssafe.testBit 1)).irq sftPage 1).fault Src.TICK_LOST sftPage

/-! ### The shipped safety programs (R423, R428, R429)

Readings and choices (notes/assumptions): DESIGN CHOICE 158; DEDUCED 159. -/

/-- Bytes `i` to `i + n` of an image as a number. -/
abbrev imgAt (img : List Byte) (i n : Nat) : Nat := leAt img i n

/-- Does a channel only track a connection: a cell connection of a STANDBY head, whose PDUs the ACTIVE head originates (R427)? -/
def tracks (img : List Byte) (w1 : Word) : Bool := w1.fld 24 3 == 1 && natFld (imgAt img 8 4) 28 3 == 2

/-- How a channel takes the PDU of a connection in its image (R428): what it keeps, with the fault of this image. `w0`, `w1`,
`w3`: the table's words. A connection it only tracks goes on at the SEQ after the last that the peer has accepted (R427): DEDUCED
(log 159). -/
def safeTake (img : List Byte) (iAt j : Nat) (w0 w1 w3 : Word) (c : SafeConn) : SafeConn :=
  let b := 0x40 + 80 * j
  let st := imgAt img (b + 0x40) 4
  let c2 := natFld st 1 1 = 1
  let p := (img.drop b).take 32
  let seq := leAt p 4 2
  let flags := byteAt p 8
  let acked := c.ack || natFld st 4 1 = 1
  let c0 : SafeConn := { c with ack := acked && c.st = 2 }
  let fail (f : Nat) : SafeConn := { c0 with st := 2, fault := f, run := false }
  let at_ := iAt - (imgAt img 4 4 + 2 ^ 32 - imgAt img (b + 0x44) 4) % 2 ^ 32
  let take_ : SafeConn := { c0 with st := 1, ref := seq, last := at_, run := flags.testBit 0, ack := false,
                                     seq := if tracks img w1 then (leAt p 6 2 + 1) % 65536 else c0.seq }
  let c1 :=
    if natFld st 0 1 = 0 then c0
    else if natFld st 2 1 = 0 || (c2 && natFld st 3 1 = 0) then fail 1
    else if leAt p 0 4 ≠ w0.toNat || !flags.testBit 2 || byteAt p 9 % 32 ≠ w3.fld 24 5 then fail 2
    else if c2 && p ≠ (img.drop (b + 32)).take 32 then fail 4
    else if flags.testBit 1 && (c0.st = 0 || (c0.st = 2 && c0.ack)) then take_
    else if c0.st = 1 && seq = (c0.ref + 1) % 65536 then take_
    else if c0.st = 1 && seq = c0.ref then c0
    else fail 3
  if c1.st = 1 && Nat.blt (16000000 * w1.fld 0 16) (iAt - c1.last) then { c1 with st := 2, fault := 5, run := false } else c1

/-- The body of a connection's PDU of cycle k and whether it is sent (R423, R425, R428). -/
def safeBody (k j : Nat) (w0 w1 w3 : Word) (c : SafeConn) : List Byte × Bool :=
  let n := Nat.min (w3.fld 24 5) 16
  let send := w1.fld 24 3 ≠ 0 && k % Nat.max 1 (w1.fld 16 8) = 0
  let new := c.st = 0 || (c.st = 2 && c.ack)
  let body := natLe 4 w0.toNat ++ natLe 2 c.seq ++ natLe 2 c.ref ++
    natLe 1 (b2n (c.st ≠ 2 && Config.safeRun k j) + 2 * b2n new) ++ natLe 1 n ++ zeros 2 ++
    (if c.st = 2 then zeros n
     else ((List.range 4).map fun w => natLe 4 (Config.safeData k j w).toNat).flatten.take n)
  (body ++ zeros (28 - body.length) ++ natLe 4 (b2n send), send)

/-- The result record of a channel in cycle k from its image and what it keeps, by `table`, its copy of the connection
table (R423, R428, R429). -/
def safeRecord (img : List Byte) (k : Nat) (table : Nat → Nat → Word) (m : NMap SafeConn) : NMap SafeConn × List Byte :=
  let iAt := tickAt k - 320000
  let conns := (List.range 160).map fun j => safeTake img iAt j (table j 0) (table j 1) (table j 3) (NMap.get {} m j)
  let runs (j : Nat) : Bool := let c := conns.getD j {}; c.st = 1 && c.run
  let permit := (List.range 4).foldl (fun n p =>
    if (List.range 160).all (fun j => !(table j 1).bit (28 + p) || runs j) && natFld (imgAt img 8 4) (4 + p) 1 = 0
    then n + 2 ^ p else n) 0
  let ssafe := (List.range 160).any fun j => (table j 1).bit 27 && !runs j
  let bodies := conns.zipIdx.map fun q => safeBody k q.2 (table q.2 0) (table q.2 1) (table q.2 3) q.1
  let rec_ := natLe 4 (2 ^ 31 + k % 65536) ++ natLe 4 (permit + 256 * b2n ssafe) ++
    (conns.map fun c => natLe 1 (c.st + 4 * c.fault)).flatten ++ zeros (0x100 - 0xA8) ++ (bodies.map (·.1)).flatten
  let next := (conns.zip bodies).zipIdx.map fun q =>
    let c := q.1.1
    { c with seq := if q.1.2.2 && !tracks img (table q.2 1) then (c.seq + 1) % 65536 else c.seq }
  (next.zipIdx.foldl (fun a q => NMap.put {} a q.2 q.1) m, rec_)

/-- Has a channel taken the tick of the cycle and ended it: enabled, and waiting on the tick again? -/
def State.ended (s : State) (n : Nat) : Bool := s.enabled (engPage n) && s.engState n = 3 && s.engCh n = 16

/-- The records of cycle k as the shipped programs have written them by the end of their cycle (R423). -/
def State.safePrograms (s : State) (k : Nat) : State :=
  if !s.shipped.safety then s
  else
    let s1 := s.when (s.ended 8) fun t =>
      let img := (optBytes (t.dmem.filter fun p => Nat.ble mortImage p.1) mortImage 0x4000).map fun b => b.getD 0
      let tab (j w : Nat) : Word := ((t.dmemWord 8 (0x1E000 + 16 * j + 4 * w)).getD 0)
      let r := safeRecord img k tab t.sft.progA
      { t with dmem := memSplice t.dmem (mortImage + recOfs) r.2, sft := { t.sft with progA := r.1 } }
    s1.when (s1.ended 9) fun t =>
      let r := safeRecord (t.sxm.slice 0 0x4000) k t.connWord t.sft.progB
      { t with sxm := memPut t.sxm recOfs r.2, sft := { t.sft with progB := r.1 } }

/-! ### The compare point (R418, R424) -/

/-- Bytes compared of a record. -/
abbrev recLen : Nat := 0x1500

/-- Channel A's record; a byte nothing has stored since the engine's reset is undefined (R271): a free value. -/
def State.recA (s : State) : List Byte :=
  let base := mortImage + recOfs
  ((List.range recLen).zip (optBytes (s.dmem.filter fun p => Nat.ble base p.1) base recLen)).map fun p =>
    p.2.getD (BitVec.ofNat 8 (Config.freeWord (s.free + p.1)).toNat)

/-- Channel B's record. -/
def State.recB (s : State) : List Byte :=
  s.sxm.slice recOfs recLen

/-- Has a channel failed to issue WAIT 16? One in HOME has not issued it either (R418, R612). -/
def State.overran (s : State) (n : Nat) : Bool :=
  s.engState n == 1 || s.engState n == 2 || (s.engState n == 3 && s.engCh n != 16)

/-- The SFT abandons an overrunning channel's stream in cycle `c` (R418, R314). -/
def State.chanOverrun (s : State) (n c : Nat) : State :=
  ((((s.acctTo n c).engAbandon n c).setEst n 1 1).irq (engPage n) 0).when (!s.enabled (engPage n)) fun t => t.setEst n 0 0

/-- What a comparator finds in the records it reads: A absent, B absent, the first byte that differs (R424). -/
structure Judged where
  absA : Bool
  absB : Bool
  diff : Option Nat
  deriving DecidableEq, Repr

/-- The records are present and equal. -/
def Judged.equal (j : Judged) : Bool := !j.absA && !j.absB && j.diff.isNone

/-- A comparator reads both records; `oA`, `oB`: Mortise, Tenon overran. -/
def State.judge (s : State) (oA oB : Bool) : Judged :=
  let a := s.recA
  let b := s.recB
  { absA := oA || !(byteAt a 3).testBit 7, absB := oB || !(byteAt b 3).testBit 7, diff := firstDiff a b }

/-- The comparator of channel B, or of A. Each reads the records itself, an undefined byte as its own free value. -/
def State.judgeOf (s : State) (b oA oB : Bool) : Judged :=
  (if b then { s with free := s.free + recLen } else s).judge oA oB

/-- The records of cycle k are compared, by each comparator for its own output logic (R424, R445). -/
def State.compareRecords (s : State) (k : Nat) (oA oB : Bool) : State :=
  let jA := s.judgeOf false oA oB
  let jB := s.judgeOf true oA oB
  let j := if jA.equal then jB else jA
  let s1 := (s.setReg R.SFT.SCYC (wd k)).setReg R.SFT.SSTA (wd (8 * b2n oA + 16 * b2n oB + (k % 65536) * 65536))
  let s2 := { s1 with sft := { s1.sft with compared := k + 1, equalA := jA.equal, equalB := jB.equal, absA := j.absA, absB := j.absB },
                      free := s1.free + 2 * recLen }
  if j.equal then s2
  else
    let x := s2.sft
    let s3 := { s2 with sft := { x with
      divA := x.divA || !jA.equal, divB := x.divB || !jB.equal, permA := if jA.equal then x.permA else 0,
      permB := if jB.equal then x.permB else 0 } }
    let s4 := s3.pulseLost.setSsafe (!jA.equal || s.ssafe.testBit 0) (!jB.equal || s.ssafe.testBit 1)
    (((s4.setReg R.SFT.DIVADR (wd (j.diff.getD 0 + b2n j.absB * 2 ^ 30 + b2n j.absA * 2 ^ 31))).bump R.SFT.DIVCNT).irq
      sftPage 0).fault Src.SAFE_DIVERGE sftPage

/-- C(k): both records are compared. -/
def State.comparePoint (s : State) (d : Nat) : State :=
  let x := s.sft
  if x.tick = 0 || Nat.ble x.tick x.compared then s
  else
    let k := x.tick - 1
    let s0 := s.reach (compareAt k)
    let c := s0.recogCycle d
    let oA := s0.overran 8
    let oB := s0.overran 9
    let s1 := { s0.csmBefore c with engCycle := c }
    let s2 := (s1.when oA fun t => t.chanOverrun 8 c).when oB fun t => t.chanOverrun 9 (s1.engine 9).nextAt
    (s2.when (oA || oB) fun t => (t.irq sftPage 2).fault Src.SAFE_OVERRUN sftPage).safePrograms k
      |>.compareRecords k oA oB

/-! ### The apply point (R426, R427, R431) -/

/-- The PDU of connection j from the records' bodies, where SEND is set: A's body and the SCV of B's unit over B's. -/
def pduOf (a b : List Byte) (j : Nat) : Option (List Byte) :=
  let ba := (a.drop (0x100 + 32 * j)).take 32
  let bb := (b.drop (0x100 + 32 * j)).take 32
  if (byteAt ba 28).testBit 0 then
    let n := 12 + Nat.min (byteAt ba 9 % 32) 16
    some (ba.take n ++ natLe 4 (crc32c (bb.take n)))
  else none

/-- One connection's PDU is launched. -/
def State.pduSend (s : State) (k j : Nat) (pdu : List Byte) : State :=
  let w3 := s.connWord j 3
  let ip := (s.connWord j 2).toNat
  let at_ := applyAt k
  let datagrams (ps : List Nat) : State :=
    { s with out := s.out ++ ps.map fun p => OutFrame.udp p at_ ip (w3.fld 0 16) pdu }.bump R.SFT.TXCNT
  match s.connTrans j with
  | 1 =>
    if !s.active then s
    else
      let ring := w3.fld 16 8 / 8
      let push (t : State) (rev : Bool) : State := t.pushF (queueOf ring rev)
        { target := some (at_ % 2 ^ 40), own := true,
          type := some 7, bytes := pdu }
      (push (push s false) true).bump R.SFT.TXCNT
  | 2 => datagrams [0]
  | 3 => datagrams [1]
  | 4 => datagrams [0, 1]
  | _ => s

/-- The state byte of a connection as its record is applied: RSL_CONN where it enters FAIL (R428, R442). -/
def State.connApply (s : State) (j v : Nat) : State :=
  let c := s.conn j
  if c.state = v then s
  else
    let s1 := (s.setConn j { c with state := v }).irq sftPage 3
    s1.when (v % 4 = 2 && c.state % 4 ≠ 2) fun t => t.fault Src.RSL_CONN sftPage j

/-- The PDUs that the records of cycle k hold, sent. -/
def State.pduSends (s : State) (k : Nat) (a b : List Byte) : State :=
  (List.range 160).foldl (fun t j => match pduOf a b j with
    | some p => t.pduSend k j p
    | none => t) s

/-- What the output logics apply of cycle k, each whose comparator found the records equal; with EN = 0 they stay safe (R443). -/
def State.applyRecords (s : State) (k : Nat) : State :=
  let x := s.sft
  let a := s.recA
  let b := s.recB
  let okA := x.equalA && !x.divA && !x.tickA && s.enabled sftPage
  let okB := x.equalB && !x.divB && !x.tickB && s.enabled sftPage
  let s1 := { s with sft := { x with permA := if okA then byteAt a 4 % 16 else 0,
                                     permB := if okB then byteAt b 4 % 16 else 0 } }.pulseLost
  let s2 := s1.setSsafe (!okA || (byteAt a 5).testBit 0) (!okB || (byteAt b 5).testBit 0)
  if !okA && !okB then s2
  else
    let s3 := (List.range 160).foldl (fun t j => t.connApply j (byteAt a (8 + j))) s2
    if okA && okB && s3.sioRole then s3.pduSends k a b else s3

/-- A(k): each output logic whose latches are clear applies an equal record, and its PDUs are launched. -/
def State.applyPoint (s : State) : State :=
  let x := s.sft
  if x.compared = 0 || Nat.ble x.compared x.applied then s
  else
    let k := x.compared - 1
    let s0 := (s.reach (applyAt k)).goIdle sftPage
    let s1 := { s0 with sft := { s0.sft with applied := k + 1 }, out := [] }
    if x.equalA || x.equalB then s1.applyRecords k else s1

/-! ### Acknowledgement and the latches (R424, R428, R434) -/

/-- CACK: the next image of a connection in FAIL carries ACK. -/
def State.cack (s : State) (j : Nat) : State :=
  let c := s.conn j
  if j < 160 && c.state % 4 = 2 then s.setConn j { c with ack := true } else s

/-- SCTL.DCLR: the DIV and TICK latches clear while no frame plan runs; otherwise REFUSED. -/
def State.dclr (s : State) : State :=
  if s.plan.run then s.irq sftPage 5
  else { s with sft := { s.sft with divA := false, divB := false, tickA := false, tickB := false } }

/-- The latch of a path is set in both output logics. -/
def State.pathLatch (s : State) (p : Nat) : State := (s.setB R.SIO.SLATCH p true).irq sioPage 0

/-- The filtered SIRD has disagreed with the drive for `since` ru, outside a test: the path latch sets when that is longer
than RBT (R434). -/
def State.sioRb (s : State) (p sird since : Nat) : State :=
  let s1 := { s with sft := { s.sft with sird := sird } }
  let tested := match s.sft.test with
    | some (e, _) => (s.testWord e).fld 0 2 == p
    | none => false
  if tested || sird.testBit p = s.energised p || s.regB R.SIO.SLATCH p || Nat.ble since (16000000 * s.regF R.SIO.RBTIM 0 16) then s1
  else (s1.pathLatch p).fault Src.SIO_RB sioPage (p * 256)

/-- A write to SLATCH: a path's latch clears while its SIRD is low; otherwise it stays and REFUSED is set. -/
def State.slatchClear (s : State) (v : Word) (sird : Nat) : State :=
  let s1 := { s with sft := { s.sft with sird := sird } }
  (List.range 4).foldl (fun t p =>
    if v.bit p && t.regB R.SIO.SLATCH p then
      (if sird.testBit p then t.irq sioPage 3 else t.setB R.SIO.SLATCH p false)
    else t) s1

/-! ### Off-pulse tests (R435) -/

/-- The waiting entry that may run: the lowest, when its path is energised. -/
def State.testReady (s : State) : Option Nat :=
  match (List.range 8).find? fun e => (NMap.get none s.sft.tests e).isSome with
  | some e => if s.energised ((s.testWord e).fld 0 2) then some e else none
  | none => none

/-- T(k) + 30 µs: a due test drives its output low. -/
def State.offPulseStart (s : State) : State :=
  if !s.enabled sftPage || s.sft.tick = 0 || s.sft.test.isSome then s
  else
    let at_ := tickAt (s.sft.tick - 1) + 480000
    match s.testReady with
    | none => s
    | some e =>
      if at_ < s.dt64 then s
      else
        let s1 := s.reach at_
        ({ s1 with sft := { s1.sft with test := some (e, at_), testLost := false } }.setF R.SIO.TSTA 0 3 e).setB R.SIO.TSTA 3 true

/-- An off-pulse has ended: SIRD read low during it or not, and high again `back` ru after its end or not at all (R435).
With PERMIT lost or a latch set during the pulse the test is discarded (R445). -/
def State.offPulseEnd (s : State) (low : Bool) (back : Option Nat) (sird : Nat) : State :=
  match s.sft.test with
  | none => s
  | some (e, at_) =>
    let p := (s.testWord e).fld 0 2
    let x := s.sft
    let rec_ := 16000 * s.regF R.SIO.RBTIM 16 16
    let s0 := s.reach (at_ + s.testWidth e + Nat.min (back.getD rec_) rec_)
    let s1 := { s0 with sft := { x with test := none, sird := sird, tests := NMap.put none x.tests e none } }.setB
      R.SIO.TSTA 3 false
    if x.testLost then s1
    else
      let ok := low && back.any fun d => Nat.ble d rec_
      let s2 := (s1.setF R.SIO.TSTA 8 4 e).setB R.SIO.TSTA 12 ok
      if ok then
        ((({ s2 with sft := { s2.sft with passed := s2.sft.passed ||| 2 ^ e } }.bump R.SIO.TDONE).setReg (R.SIO.TLAST e)
          (wd (at_ / tickRu))).irq sioPage 2)
      else
        let q := s2.sft.passed - (s2.sft.passed &&& 2 ^ e)
        ((({ s2 with sft := { s2.sft with passed := q } }.bump R.SIO.TFAIL).irq sioPage 1).pathLatch p).fault
          Src.SIO_TEST_FAIL sioPage (p * 256)

/-- A test has waited for twice its interval. -/
def State.testOverdue (s : State) (e : Nat) : State :=
  match NMap.get none s.sft.tests e with
  | none => s
  | some w =>
    if w.raised then s
    else
      let s1 := s.reach (tickAt w.due + 2 * 16000000000 * (s.testWord e).fld 16 16)
      ({ s1 with sft := { s1.sft with tests := NMap.put none s1.sft.tests e (some { w with raised := true }) } }.irq sioPage
        4).fault Src.SIO_TEST_DUE sioPage ((s.testWord e).fld 0 2 * 256)

/-! ### SXM by the host (R443) -/

/-- The word SXMD reads. -/
def State.sxmd (s : State) : Word := s.sxm.readWord (s.regF R.SFT.SXMA 2 13 * 4)

/-- A read of SXMD advances SXMA. -/
def State.sxmdRead (s : State) : State := s.setF R.SFT.SXMA 2 13 (s.regF R.SFT.SXMA 2 13 + 1)

end Sys2Proof.Machine
end

