-- ==== Sys2Proof/Machine/RegWrite.lean ====
section
/-!
DEFINITION. Sys2Proof/Machine/RegWrite.lean: writes of registers under the access codes of R13, the write lock (R58), the
values that registers hold in place of the ones written, the blocks' control by PCTL (R57, R65), and the effect of a
write on the block that owns the register.
Readings and choices (notes/assumptions): DEDUCED 13, 21, 38, 144, 168; PRESUMED 22; DESIGN CHOICE 136, 137.
-/
namespace Sys2Proof.Machine

/-! ### The lock (R58) -/

/-- A lock violation: VIOLC, saturating at 255, and IRQS.LOCKV. -/
def State.lockViol (s : State) (page : Nat) : State := (s.bumpAt (R.WLCK page) 8 8).irq page 31

/-- WLCK.OPEN. -/
def State.lockOpen (s : State) (page : Nat) : Bool := s.regB (R.WLCK page) 0

/-- The open key opens the lock and clears VIOLC; any other value closes it. -/
def State.wlckWrite (s : State) (page : Nat) (v : Word) : State :=
  if v = 0x5A5A then s.setReg (R.WLCK page) 1 else s.setB (R.WLCK page) 0 false

/-! ### Values held in place of those written -/

/-- A field above `hi` or below `lo` is held at the nearer limit. -/
def holdIn (v : Word) (lo len a b : Nat) : Word := v.setFld lo len (clampNat a b (v.fld lo len))

/-- A field written `x` is held as `y`. -/
def holdAs (v : Word) (lo len x y : Nat) : Word := if v.fld lo len = x then v.setFld lo len y else v

/-- Every severity field above 5 is held as 5 (R452). -/
def heldSev (v : Word) : Word := (List.range 8).foldl (fun w i => holdIn w (4 * i) 3 0 5) v

/-- What a register holds after a write of `v` (the owning pages' tables). -/
def heldAs (page off : Nat) (v : Word) : Word :=
  match blockOf page with
  | some .dtm =>
    if off = 0x124 then (if Nat.blt 0xA7C5AC v.toNat then 0xA7C5AC else v)
    else if off = 0x134 then holdIn v 4 3 0 4 else v
  | some .trg => if off = 0x100 then holdIn v 0 20 80000 800000 else v
  | some .lne => if off = 0x10C then (if Nat.blt v.toNat 15 then 15 else v) else v
  | some .rng => if off = 0x104 then holdIn v 0 10 16 1000 else v
  | some .edg =>
    if Nat.ble 0x140 off && Nat.blt off 0x1A0 then
      (if off % 16 = 0 then holdAs v 0 2 3 0 else if off % 16 = 4 then holdAs v 0 8 0 1 else v)
    else v
  | some .stk => if off = 0x140 then holdAs v 24 8 0 1 else v
  | some .cls =>
    if off = 0x100 then holdAs v 0 8 0 1 else if Nat.ble 0x120 off && Nat.blt off 0x138 then holdIn v 0 6 0 48 else v
  | some .lbr =>
    if off = 0x10C then holdAs v 0 8 0 1
    else if off = 0x118 then holdIn v 0 4 0 11
    else if Nat.ble 0x140 off && Nat.blt off 0x200 && off % 16 = 0 then holdAs v 0 2 3 0 else v
  | some .trp => if Nat.ble 0x100 off && off < 0x160 && off % 8 = 0 then holdAs (holdAs v 8 8 0 1) 0 3 7 6 else v
  | some .sft => if off = 0x100 then holdIn v 0 8 1 250 else if off = 0x114 then holdIn v 0 8 0 159 else v
  | some .scr => if Nat.ble 0x400 off then heldSev v else v
  | some .clk =>
    if off = 0x100 then holdAs v 2 2 3 2
    else if off = 0x104 then holdIn v 0 4 0 10
    else if Nat.ble 0x140 off && Nat.blt off 0x180 && off % 16 = 0 then holdAs v 1 2 3 0
    else if Nat.ble 0x140 off && Nat.blt off 0x180 && off % 16 = 4 then holdIn v 0 28 2 250000000 else v
  | some .pwr => if off = 0x104 then holdIn v 0 16 2600 5500 else v
  | some .mon => if off = 0x10C then holdIn v 0 8 2 200 else v
  | _ => v

/-! ### Access codes (R13) -/

/-- A write to a register with no further effect: RW and W1C fields, RWL fields while the lock is open or `loader` writes,
RWS fields into the shadow copy. -/
def State.maskWrite (s : State) (page off : Nat) (loader : Bool) (v : Word) : State :=
  match regDef page off with
  | none => s
  | some d =>
    let k := page * 0x1000 + off
    let w := heldAs page off v
    let open_ := loader || s.lockOpen page
    let m := wd (d.acc.rw ||| (if open_ then d.acc.rwl else 0) ||| (if loader then d.acc.rws else 0))
    let s1 := if d.acc.rwl ≠ 0 && !open_ then s.lockViol page else s
    let old := s1.reg k
    let s2 := s1.setReg k (((old &&& ~~~ m) ||| (w &&& m)) &&& ~~~ (v &&& wd d.acc.w1c))
    if d.acc.rws ≠ 0 && !loader then s2.putShadow k (w &&& wd d.acc.rws) else s2

/-- Registers written only while no frame plan runs; a write at another time counts as a lock violation (R150, R194,
R295, R369). -/
def idleOnly (page off : Nat) : Bool :=
  match blockOf page with
  | some .lne => off == 0x104
  | some .rng => off == 0x104
  | some .hpr => off == 0x100
  | some .pe => off == 0x104 || (Nat.ble 0x114 off && Nat.ble off 0x124) || Nat.ble 0x160 off
  | some .mrt => off == 0x104
  | some .tnn => off == 0x104
  | _ => false

/-! ### PCTL (R57, R65) -/

/-- Is the current operation of a block running that is not over when the command that began it is? -/
def State.opRuns (s : State) (page : Nat) : Bool :=
  match blockOf page with
  | some .cnv => (List.range 4).any fun n => (s.conv n).busy
  | some .mod => (List.range 4).any fun k => !s.mclkStands k
  | some .hpr => s.plan.started && s.pair.runs
  | some .sft => !s.regB (R.PSTA page) 2
  | _ => false

/-- Blocks whose PSTA.ENS and IDLE follow their own state. -/
def ownIdle (page : Nat) : Bool :=
  page == 9 || (Nat.ble 0x10 page && Nat.blt page 0x30) || (Nat.ble 0x60 page && Nat.blt page 0x6A)

/-- Is a block stopped or disabled by its PCTL? -/
def State.stopped (s : State) (page : Nat) : Bool := !s.enabled page || s.regB (R.PCTL page) 2

/-- A lane's EN: OFF after 16 K28.6 where its transmitter was lit, or out of OFF (R133, R136). LOS and LOL stand through OFF,
whose receiver is ignored, so a lane enabled again with LOS = 0 goes straight on to LOCKING: DESIGN CHOICE (log 137). The
lane's page names no operation, so SSTOP = 1 stops the lane at once as EN = 0 does, with ENS kept (R65: log 144). A lane
enabled with a MODE other than 0 that was accepted in OFF goes on to TEST, by the row of R133 above that of EN; R149 judges
a MODE at its write only: DEDUCED (log 168). -/
def State.laneEnable (s : State) (n : Nat) : State :=
  let st := s.laneState n
  if s.stopped (0x10 + n) then
    (if st = 0 then s else s.together [fun t => if (t.lane n).lit then t.send [.dark n t.dt64] else t,
      fun t => t.laneGoto n 0]).setEns (0x10 + n) (s.enabled (0x10 + n))
  else if st ≠ 0 then s
  else if s.regF (R.LNE.LNCTL n) 1 2 ≠ 0 then s.laneGoto n 5
  else (s.laneGoto n 1).laneSettle n

/-- What a block does as EN and SSTOP of its PCTL stand, `was` being EN before. -/
def State.blockControl (s : State) (page : Nat) : State :=
  let s1 := match blockOf page with
    | some .lne => s.laneEnable (page - 0x10)
    | some .pe => s.engEnable (page - 0x60) (s.enabled page)
    | some .mrt => s.engEnable 8 (s.enabled page)
    | some .tnn => s.engEnable 9 (s.enabled page)
    | some .mon => s.derateHold
    | some .cnv => if s.stopped page then s else s.cnvGo
    | some .mod => (List.range 4).foldl (fun t k => t.mclkSync k) s
    | some .sft => s.sftEnable (s.enabled page)
    | _ => s
  if ownIdle page then s1
  else (s1.setEns page (s1.enabled page || s1.opRuns page)).setIdle page (!s1.opRuns page)

/-- A write of PCTL. -/
def State.pctlWrite (s : State) (page : Nat) (v : Word) : State :=
  if page = 9 then s.trgPctl v
  else
    let s1 := ((s.setB (R.PCTL page) 0 (v.bit 0)).setB (R.PCTL page) 2 (v.bit 2)).blockControl page
    if v.bit 1 then s1.commitReq page else s1

/-- A write of PCTL.EN alone. -/
def State.pctlEn (s : State) (page : Nat) (en : Bool) : State :=
  s.pctlWrite page (wd (b2n en + 4 * s.regF (R.PCTL page) 2 1))

/-- A write of PCTL.SSTOP alone. -/
def State.pctlSstop (s : State) (page : Nat) (on : Bool) : State :=
  s.pctlWrite page (wd (s.regF (R.PCTL page) 0 1 + 4 * b2n on))

/-- A stopped or disabled block has finished its operation: PSTA.IDLE is set, and ENS clears with EN = 0. -/
def State.blockIdle (s : State) (page : Nat) : State :=
  if (blockOf page).isNone || ownIdle page || !s.stopped page then s
  else if s.opRuns page then s
  else s.goIdle page

/-! ### Writes that act on the block -/

/-- A write of LNCTL: MODE under R149, RETRAIN, INJGO; CHKEN from 0 to 1 clears the counts (R146), and a change of INJ
ends an injection in rate mode (R147). A RETRAIN written with a MODE that takes the lane from UP to TEST is overruled by it
(R133). What CHKLOCK shows when CHKEN is cleared or the lane leaves TEST is left as it stands: DESIGN CHOICE (log 136). -/
def State.lnctlWrite (s : State) (n : Nat) (v : Word) : State :=
  let k := R.LNE.LNCTL n
  let old := s.reg k
  let s1 := s.maskWrite (0x10 + n) 0x108 false (v.setFld 1 2 (old.fld 1 2))
  let s2 := s1.when (v.bit 6 && !old.bit 6) fun t => t.checkStart n
  let s3 := s2.when (v.fld 8 2 ≠ old.fld 8 2) fun t => t.setLane n { t.lane n with inj := none }
  s3.together [fun t => t.injSync n [],
    fun t => if v.fld 1 2 ≠ 0 || old.fld 1 2 ≠ 0 then t.laneMode n (v.fld 1 2) else t,
    fun t => t.when (v.bit 0 && !(s.laneState n = 4 && t.laneState n = 5)) fun u => u.retrain n,
    fun t => t.when (v.bit 10) fun u => u.injGo n]

/-- A write of LNMAP while no plan runs; the head records a ring move in the spare record, and a lane that carries a ring
has its rate (R125, R150, R341). -/
def State.lnmapWrite (s : State) (n : Nat) (v : Word) : State :=
  let s1 := s.maskWrite (0x10 + n) 0x104 false v
  let w := s1.reg (R.LNE.LNMAP n)
  if w = s.reg (R.LNE.LNMAP n) then s1
  else { s1 with spare := { s1.spare with moves := NMap.put none s1.spare.moves n (some w) } }.rateSync n

/-- A write of LNCFG: RATE is taken on a spare lane with EN = 0 only (R125). -/
def State.lncfgWrite (s : State) (n : Nat) (v : Word) : State :=
  let free := s.lnRole n = 0 && !s.isTie n && !s.enabled (0x10 + n)
  s.maskWrite (0x10 + n) 0x100 false (if free then v else v.setBit 0 (s.regB (R.LNE.LNCFG n) 0))

/-- A write of PE7's PECFG: in force while PE7's EN = 0 and the lock is open (R287 to R290). -/
def State.pecfgMode (s : State) (mode tgt : Nat) : State :=
  if !s.lockOpen 0x67 || !s.pe7Open then s.lockViol 0x67
  else
    let target := if tgt = 7 then 0 else tgt
    match mode with
    | 1 => s.pe7Shadow target
    | 2 => s.pe7Replace target
    | _ => s.pe7Free target

def State.pecfgWrite (s : State) (v : Word) : State := s.pecfgMode (v.fld 0 2) (v.fld 8 3)

/-- A write of HPR.PCFG: with PEN = 0 the role is OFF. The ring transmitters of a head that becomes paired go dark, as those of OFF
are, and of one that is so no longer are lit (R132, R352, R353); the tie lane has its rate (R349). -/
def State.pcfgWrite (s : State) (v : Word) : State :=
  let s1 := s.maskWrite 0x88 0x100 false v
  let s2 := if s1.paired then (if s.paired then s1 else s1.ringLight false)
    else (s1.roleTo 0).when s.paired fun t => t.ringLight true
  s2.rateSync s2.tieLane

/-- A write of a register of a clock output (R484). -/
def State.clkoSet (s : State) (off : Nat) (v : Word) : State :=
  let n := (off - 0x140) / 16
  let c := R.CLK.CLKOCFG n
  let old := (s.regB c 0, s.regN (R.CLK.CLKODIV n), s.regN (R.CLK.CLKOHI n), s.reg (R.CLK.CLKODLY n), s.regF c 1 2)
  (s.maskWrite 0x02 off false v).clkoWrite n old

/-- A write of CKSSC: above PLANSS while a plan is loaded it is ignored (R472). -/
def State.cksscWrite (s : State) (v : Word) : State :=
  if s.lockOpen 0x02 && s.plan.loaded && Nat.blt (s.regN R.CLK.PLANSS) (v.fld 0 4) then s.irq 0x02 4
  else s.maskWrite 0x02 0x104 false v

/-- A bit word of the engine ESEL names. -/
def State.pmcBank (s : State) (m : NMap Nat) (v : Word) : NMap Nat := NMap.put 0 m (s.regF R.PMC.ESEL 0 3) v.toNat

/-- A write to the PMC page from 0x10C onward, by source (R553, R559). -/
def State.pmcWrite (s : State) (src off : Nat) (v : Word) : State :=
  let p := s.pmc
  let n := s.regF R.PMC.ESEL 0 3
  if off = 0x10C then { s with pmc := { p with oven := s.pmcBank p.oven v } }
  else if off = 0x110 then { s with pmc := { p with smpen := s.pmcBank p.smpen v } }
  else if off = 0x114 then
    { s with pmc := { p with ovf := s.pmcBank p.ovf (wd (NMap.get 0 p.ovf n) &&& ~~~ v) } }
  else if off = 0x128 then s.when (v.bit 0) State.smpPop
  else if Nat.ble 0x300 off && Nat.blt off 0x400 then
    (if off % 8 = 0 then s.prelWrite src ((off - 0x300) / 8) v else s.pmcSel.prehWrite src ((off - 0x300) / 8) (v.fld 0 16))
  else s

/-- Key of a register the write of which its block takes itself; the write of any other only sets fields. `src` numbers
the host source. -/
def State.blockWrite (s : State) (src page off : Nat) (v : Word) : State :=
  let plain := s.maskWrite page off false v
  match blockOf page with
  | some .dtm =>
    if off = 0x100 then (plain.when (v.bit 5) State.foreignClear).datumSource
    else if (off = 0x128 || off = 0x12C) && s.plan.run then s.when (!s.lockOpen page) fun t => t.lockViol page
    else plain
  | some .eth =>
    let p := page - 0x0A
    if off = 0x100 then plain.ethConfig p (s.regB (R.ETH.ECFG p) 0)
    else if off = 0x13C then s.when (v.bit 0) fun t => t.txKick p else plain
  | some .lne =>
    if off = 0x100 then s.lncfgWrite (page - 0x10) v
    else if off = 0x104 then s.lnmapWrite (page - 0x10) v else if off = 0x108 then s.lnctlWrite (page - 0x10) v else plain
  | some .rng =>
    let r := page - 0x30
    if off = 0x10C then (s.forceSrsync r (v.fld 0 8)).when (v.bit 8) fun t => t.rspend r
    else if off = 0x134 || off = 0x138 then plain.capSettle r
    else if off = 0x148 then s.when (v.bit 0) fun t => t.svKick r else plain
  | some .cls =>
    if off = 0x104 then s.cellCommand (v.fld 0 8) (v.fld 8 3) else if off = 0x180 then s.retclr (v.fld 0 8) else plain
  | some .jg =>
    if off = 0x108 then s.tbld (page - 0x51) (v.fld 0 2)
    else if off = 0x144 && page = 0x52 then s.stackCommand (v.fld 0 2) else plain
  | some .pe =>
    if page = 0x67 && off = 0x100 then s.pecfgWrite v
    else if page = 0x67 && off = 0x150 then s.when (v.bit 0) State.shadowRearm else plain
  | some .edg => if off = 0x108 then plain.cselWritten else plain
  | some .stk => if Nat.ble 0x160 off && Nat.ble off 0x16C && s.regB R.STK.CAPSTA 0 then s else plain
  | some .lbr =>
    if off = 0x100 then s.tlatchClear v
    else if Nat.ble 0x300 off then
      let c := (off - 0x300) / 32
      let t := (s.chopSync c).maskWrite page off false v
      if off % 32 = 0 then t.chopConfig c (s.regB (R.LBR.CHCFG c) 0) else t
    else plain
  | some .trp =>
    if Nat.ble 0x100 off && Nat.blt off 0x160 && off % 8 = 0 then
      plain.trapConfig ((off - 0x100) / 8) (s.regB (page * 0x1000 + off) 3)
    else plain
  | some .cnv =>
    if off = 0x100 then s.ugo (v.fld 0 4)
    else if Nat.ble 0x140 off && Nat.blt off 0x180 then
      let n := (off - 0x140) / 16
      if off % 16 = 0 then s.cvcfgWrite n v else if off % 16 = 4 then s.cvrefWrite n v else plain
    else plain
  | some .mod =>
    if off < 0x110 && off % 4 = 0 && Nat.ble 0x100 off then s.mclkcfgWrite ((off - 0x100) / 4) v
    else if Nat.ble 0x140 off && Nat.blt off 0x1C0 && off % 8 = 0 then s.mdcfgWrite ((off - 0x140) / 8) v
    else plain
  | some .hpr =>
    if off = 0x100 then s.pcfgWrite v
    else if off = 0x108 then (match v.fld 0 2 with
      | 1 => s.handover
      | 2 => s.leave
      | 3 => s.join
      | _ => s)
    else plain
  | some .sft =>
    if off = 0x100 then plain.when (v.bit 8) State.dclr else if off = 0x110 then s.cack (v.fld 0 8) else plain
  | some .sio => if off = 0x10C then s.slatchClear v s.sft.sird else plain
  | some .scr =>
    if off = 0x100 then s.sctlWrite v else if off = 0x104 then s.ackClasses (v.fld 0 16) else plain
  | some .clk =>
    if off = 0x104 then s.cksscWrite v
    else if off = 0x110 then s.when (v.bit 0) State.refRet
    else if Nat.ble 0x140 off && Nat.blt off 0x180 then s.clkoSet off v else plain
  | some .sec =>
    if off = 0x160 then s.when (v.bit 0) State.attGo
    else if off = 0x180 then (match v.fld 16 2 with
      | 1 => s.okCmd 1 v
      | 2 => s.okCmd 2 v
      | _ => s)
    else if off = 0x188 then s.when (v = 0xF10E) State.floorKey
    else if off = 0x1A0 then
      (s.when (v.bit 0) fun t => t.fuStart v).when (v.bit 1) State.fuEnd
    else plain
  | some .pmc =>
    if off = 0x108 then s.pmcSnapMask (v.fld 0 8) else if Nat.ble 0x10C off then s.pmcWrite src off v else plain
  | _ => plain

/-- A host write to a register of a page outside RST (R13, R57, R58). While the stack program set runs, TS5 is its own
(R232). -/
def State.regWrite (s : State) (src page off : Nat) (v : Word) : State :=
  if (regDef page off).isNone then s
  else if off = 0x01C then s.wlckWrite page v
  else if off = 0x004 then s.pctlWrite page v
  else if idleOnly page off && s.plan.run then s.lockViol page
  else if page = 9 && (off = 0x140 || off = 0x144) && s.shipped.stack && s.plan.run then s
  else s.blockWrite src page off v

end Sys2Proof.Machine
end

