-- ==== Sys2Proof/Machine/Shipped.lean ====
section
/-!
DEFINITION. Sys2Proof/Machine/Shipped.lean: the shipped state tables of JG0 and JG1 (R325, R335, R339).
Readings and choices (notes/assumptions): DEDUCED 54.
-/
namespace Sys2Proof.Machine

/-- Rows of a state table: from each of some states, on each of some events, the guard, next state, action, and time limit
(count and unit). -/
structure TableRow where
  from_ : List Nat
  on : List Nat
  guard : Nat := 0
  next : Nat
  action : Nat := 0
  count : Nat := 0
  unit : Nat := 0
  deriving DecidableEq, Repr

/-- The entry of a row (R321). -/
def TableRow.entry (r : TableRow) : Word :=
  wd (r.next + r.action * 2 ^ 6 + r.guard * 2 ^ 14 + r.count * 2 ^ 18 + r.unit * 2 ^ 30)

/-- The entry of a state and an event: 0x3F where no row names them. -/
def rowEntry (rows : List TableRow) (st e : Nat) : Word :=
  match rows.find? fun r => r.from_.contains st && r.on.contains e with
  | some r => r.entry
  | none => 0x3F

/-- The 64 descriptors from the classes of the defined states and those that may rest (R321). -/
def tableDescs (classes rest : List Nat) : List Word :=
  (List.range 64).map fun i => match classes[i]? with
    | some c => wd (c + 16 * b2n (rest.contains i) + 128)
    | none => 0

/-- The bytes of a bank (R321). -/
def tableBytes (classes rest : List Nat) (rows : List TableRow) : List Byte :=
  ((tableDescs classes rest ++ ((List.range 64).map fun st => (List.range 32).map fun e => rowEntry rows st e).flatten).map
    fun w => natLe 4 w.toNat).flatten

/-- Classes of the cell states ABSENT to RETIRED, and the states with REST (R325). -/
abbrev cellClasses : List Nat := [0, 0, 0, 1, 2, 3, 4, 5, 6, 1, 7, 0]
abbrev cellRest : List Nat := [0, 3, 5, 7, 9, 10, 11]

/-- The shipped JG0 table (R335). -/
def cellRows : List TableRow := [
  { from_ := [0], on := [16], next := 1, action := 1, count := 50, unit := 1 },
  { from_ := [1], on := [17], next := 2, action := 2, count := 50, unit := 1 },
  { from_ := [1], on := [6], next := 10, action := 5 },
  { from_ := [1, 2], on := [7], next := 0 },
  { from_ := [2], on := [18], next := 3 },
  { from_ := [2], on := [19], next := 10, action := 5 },
  { from_ := [3], on := [15, 11], guard := 1, next := 4, action := 3, count := 5, unit := 3 },
  { from_ := [4], on := [20], next := 5 },
  { from_ := [4], on := [7], next := 10, action := 5 },
  { from_ := [5], on := [22], next := 6, count := 400 },
  { from_ := [5], on := [8], guard := 2, next := 6, count := 400 },
  { from_ := [6], on := [21], next := 7 },
  { from_ := [6], on := [7], next := 10, action := 5 },
  { from_ := [7], on := [9], guard := 2, next := 8, count := 400 },
  { from_ := [8], on := [21, 7], next := 5, action := 4 },
  { from_ := [6, 7, 8, 5, 4, 3], on := [10, 3], next := 9, action := 4 },
  { from_ := [6, 7, 8, 5, 4, 3], on := [0, 1, 2], next := 10, action := 5 },
  { from_ := [1, 2, 3, 4, 5, 6, 7, 8, 9], on := [4, 5], next := 0, action := 4 },
  { from_ := [6, 7, 8], on := [14], next := 5, action := 4 },
  { from_ := [9, 10], on := [13], next := 1, action := 1, count := 50, unit := 1 },
  { from_ := [9, 10], on := [12], next := 11, action := 6 }]

/-- The states of JG1 with REST, and its shipped table (R339). -/
abbrev stackRest : List Nat := [0, 4, 8]
def stackRows : List TableRow := [
  { from_ := [0, 8], on := [4], guard := 5, next := 1, action := 0x10, count := 10, unit := 3 },
  { from_ := [8], on := [7], guard := 4, next := 1, action := 0x10, count := 10, unit := 3 },
  { from_ := [8], on := [3], next := 0 },
  { from_ := [1], on := [8], next := 2, action := 0x12, count := 2, unit := 3 },
  { from_ := [2], on := [9], next := 3, count := 1, unit := 3 },
  { from_ := [3], on := [10], next := 4, action := 0x14 },
  { from_ := [4], on := [5], next := 5, count := 10, unit := 3 },
  { from_ := [5], on := [6], next := 4 },
  { from_ := [5], on := [2, 7], next := 7, action := 0x13, count := 1, unit := 3 },
  { from_ := [1, 2, 3, 4, 5], on := [1, 3], next := 6, action := 0x13, count := 1, unit := 3 },
  { from_ := [1, 2, 3], on := [7], next := 6, action := 0x13, count := 1, unit := 3 },
  { from_ := [6], on := [11, 7], next := 0, action := 0x11 },
  { from_ := [7], on := [11], next := 8, action := 0x11, count := 5, unit := 3 },
  { from_ := [7], on := [7], next := 0, action := 0x11 },
  { from_ := [1, 2, 3, 4, 5, 6, 7, 8], on := [0], next := 0, action := 0x11 }]

/-- The bank of a Jig engine as shipped. -/
def shippedBank (eng : Nat) : List Byte :=
  if eng = 0 then tableBytes cellClasses cellRest cellRows else tableBytes (List.replicate 9 0) stackRest stackRows

/-- The shipped tables stand in the banks in use (R335, R339). -/
def State.shipTables (s : State) : State :=
  { s with mem := memPut (memPut s.mem (s.bankInUse 0) (shippedBank 0)) (s.bankInUse 1) (shippedBank 1) }

end Sys2Proof.Machine
end

