-- ==== Sys2Proof/Machine/Boot.lean ====
section
/-!
DEFINITION. Sys2Proof/Machine/Boot.lean: supply and lock-out, RST_N and the reset levels, the release of the domains, the
image loader and the restore (chapter 17).
Readings and choices (notes/assumptions): DESIGN CHOICE 7, 10; DEDUCED 74, 75, 106, 107, 108, 109, 110, 111,
  113, 114, 115, 116, 117, 189; PRESUMED 112.
-/
namespace Sys2Proof.Machine

abbrev rstPage : Nat := 0x01

/-! ### What each reset level leaves (R16, R495, R496) -/

/-- A register file after a reset of a level: registers it does not restore keep their values. -/
def keptRegs (l : Level) (extra : Nat → Bool) (m : NMap Word) : NMap Word :=
  m.filter fun p => !restoredBy l p.1 || extra p.1

/-- The fuses of the SEC unit, which no reset changes. -/
def State.fused (s : State) : Sec := { slots := s.sec.slots, floor := s.sec.floor }

/-- Power-on reset: everything but flash, fuses, and the BROWN latch. -/
def State.powerOnReset (s : State) : State :=
  let s1 := s.fuseLoss
  let fresh : State := { State.reset with
    flash := s1.flash, spare := s1.spare, sec := s1.fused, free := s1.free, pending := s1.pending,
    rst := { powered := s1.rst.powered, brown := s1.rst.brown, por := true, porDrive := s1.rst.powered, ext := s1.rst.ext } }
  let s2 := if s1.rst.brown then (fresh.setReg R.RST.RCAUSE 3).setReg R.RST.RLAST 0x33 else fresh
  s2.drawAuthn

/-- System reset: level P registers, DT64, the PLLs, the reference in use, the frequency word and flash stay (R495,
R496). -/
def State.systemReset (s : State) : State :=
  let s1 := s.fuseLoss
  let keep (k : Nat) : Bool := k == R.CLK.CKSTA || k == R.DTM.FADJ
  let r := s1.rst
  let fresh : State := { State.reset with
    dt64 := s1.dt64, regs := keptRegs .S keep s1.regs, flash := s1.flash, spare := s1.spare, sec := s1.fused,
    clk := { s1.clk with outs := [], swAt := none, ts2 := none }, datum := { fadj := s1.datum.fadj },
    meas := { ofs := s1.meas.ofs }, mon := { mstep := s1.mon.mstep },
    free := s1.free, pending := s1.pending,
    rst := { r with level := 2, held := 0xAF, clamp := true, cold := s1.dtmOff, late := false, streaming := false, stream := [] } }
  (fresh.setF (R.PSTA clkPage) 16 2 s1.refAct).drawAuthn

/-- Core reset: engines, release latches and Level C registers; the legs are held off until the restore completes, which follows
where the first configured state had been reached (R495, R508, R510). A loader under way before it restarts at ENGINES (R514); one
in HOSTWAIT or NOIMAGE has loaded nothing to restart from and stays there: DEDUCED (log 189). A standby frames nothing until the
restore completes, so that it does not stay ARMED (R359). -/
def State.coreReset (s : State) : State :=
  let was := s.regB R.RST.BSTA 4 || s.restoring
  let loading := !was && !s.rst.held.testBit 0 && s.regF R.RST.BSTA 0 4 = 0
  let live (m : NMap (Option Word)) : NMap (Option Word) := m.filter fun p => !restoredBy .C p.1
  let s1 : State := { s with
    regs := keptRegs .C (fun _ => false) s.regs, shadow := live s.shadow, accepted := live s.accepted,
    eng := [], dmem := [], shadow7 := {}, pmc := {}, engCycle := 0, ts1Cycle := 0,
    clk := { s.clk with ts2 := none }, restoring := was,
    jig := { inst := [] }, pset := {}, pair := { s.pair with own := [], cmpBad := true },
    sft := { s.sft with progA := [], progB := [] }, rst := { s.rst with level := 1 } }
  let s2 := ((s1.jigRestart.legsDrop).setArmed false).setB R.RST.BSTA 4 false
  s2.when loading fun t => t.setF R.RST.BSTA 0 4 5

/-! ### Time of the reset controller (R493, R498) -/

/-- The reset controller's time. -/
def State.rstNow (s : State) : Nat := s.dt64 + s.rst.clock

/-- An instant of the reset controller's time is reached. Until DT64 starts only that time goes on. -/
def State.rstReach (s : State) (t : Nat) : State :=
  if s.dtmOff then { s with rst := { s.rst with clock := Nat.max s.rst.clock (t - s.dt64) } } else s.reach (t - s.rst.clock)

/-- A time of the reset controller passes. -/
def State.rstElapse (s : State) (d : Nat) : State :=
  if s.dtmOff then { s with rst := { s.rst with clock := s.rst.clock + d } } else s.elapse d

/-! ### Supply (R488, R489) -/

/-- The lock-out asserts power-on reset, and BROWN is set. -/
def State.vinAssert (s : State) : State :=
  if !s.rst.powered || s.rst.por then s else { s with rst := { s.rst with brown := true } }.powerOnReset

/-- The lock-out releases power-on reset; the device goes on driving RST_N until its rails and SFB are good. -/
def State.vinRelease (s : State) : State :=
  if s.rst.powered && s.rst.por then { s with rst := { s.rst with por := false, porAt := s.rstNow } } else s

/-- VIN rises to 1.0 V: the power-on domain starts. -/
def State.domainStart (s : State) : State :=
  if s.rst.powered then s else { s with rst := { s.rst with powered := true } }.powerOnReset

/-- VIN falls below 1.0 V: BROWN clears, and nothing drives RST_N (R499). -/
def State.domainLoss (s : State) : State :=
  if !s.rst.powered then s else { s with rst := { s.rst with powered := false, brown := false } }.powerOnReset

/-! ### RST_N (R491 to R494, R514) -/

/-- Low times at which a core and a system reset start, ru. -/
abbrev coreAfter : Nat := 16000
abbrev sysAfter : Nat := 1600000

/-- Is the land low, or the device without its supply? -/
def State.rstLow (s : State) : Bool := !s.rst.powered || s.rst.porDrive || s.rst.low.isSome

/-- RST_N goes low where it was high. -/
def State.rstFall (s : State) : State :=
  if s.rstLow then s else { s with rst := { s.rst with low := some s.rstNow, cause := 0, level := 0, drive := 0 } }

/-- An external agent pulls RST_N low. -/
def State.extFall (s : State) : State :=
  let s1 := s.rstFall
  { s1 with rst := { s1.rst with ext := true } }

/-- An internal requester sets its cause bit and drives RST_N low for `d` ru; during a pulse its drive lengthens it only
when it would end later. -/
def State.rstDrive (s : State) (bit d : Nat) : State :=
  let s1 := (s.setB R.RST.RCAUSE bit true).rstFall
  { s1 with rst := { s1.rst with cause := s1.rst.cause ||| 2 ^ bit, drive := Nat.max s1.rst.drive (s1.rstNow + d) } }

/-- The host's keys (R510): accepted while the lock is open. -/
def State.rcmd (s : State) (bit d : Nat) : State :=
  if s.lockOpen rstPage then s.rstDrive bit d else s.lockViol rstPage

/-- Is RST_N still held low at an instant? -/
def State.lowAt (s : State) (t : Nat) : Bool := s.rst.ext || s.rst.silent || Nat.ble t s.rst.drive

/-- 1 µs after the falling edge. -/
def State.coreStart (s : State) : State :=
  match s.rst.low with
  | some t => if s.rst.level = 0 && s.lowAt (t + coreAfter) then (s.rstReach (t + coreAfter)).coreReset else s
  | none => s

/-- 100 µs after the falling edge. -/
def State.sysStart (s : State) : State :=
  match s.rst.low with
  | some t =>
    if Nat.blt s.rst.level 2 && s.lowAt (t + sysAfter) then ((s.coreStart).rstReach (t + sysAfter)).systemReset else s
  | none => s

/-- SFB is silent: the SFB watch holds RST_N low while it runs (R481). -/
def State.sfbSilent (s : State) : State :=
  if !s.ckB 7 then s
  else
    let s1 := s.rstDrive 5 0
    { s1 with rst := { s1.rst with silent := true } }

/-- RST_N rises: at the end of the device's own drive, or at `t` of the reset controller's time when another agent or the SFB
watch lets it go. The pulse is classified by its width (R492), and RLAST and RWIDTH report it. The drive of power-on reset ends
1.0 ms after the lock-out's release, or later when the rails and SFB are good (R500). -/
def State.rstRise (s : State) (t : Nat) : State :=
  if s.rst.por then s
  else if s.rst.porDrive then
    if s.rst.held.testBit 7 || !s.regB R.PWR.PWSTA 0 then s
    else
      let s1 := s.rstReach (s.rst.porAt + 16000000)
      { s1 with rst := { s1.rst with porDrive := false, low := none, ext := false, roseAt := s1.rstNow } }
  else
    match s.rst.low with
    | none => s
    | some a =>
      let at_ := if s.rst.ext || s.rst.silent then Nat.max (Nat.max t s.rst.drive) a else s.rst.drive
      let w := at_ - a
      let pick := s.freeWord.toNat.testBit 0
      let s0 := if Nat.ble 8000 w && Nat.blt w coreAfter then s.useFree else s
      let s1 := if Nat.ble sysAfter w then s0.sysStart
        else if Nat.ble coreAfter w then s0.coreStart
        else if Nat.ble 8000 w && pick then (s0.rstReach at_).coreReset else s0
      let s2 := s1.rstReach at_
      let lv := s2.rst.level
      let ext := if s.rst.ext && lv ≠ 0 then 2 ^ (1 + lv) else 0
      let cause := s2.rst.cause ||| ext
      let s3 := s2.setReg R.RST.RWIDTH (wd (Nat.min (w / 160) 0xFFFFFFFF))
      let s4 := if lv = 0 then s3 else
        (s3.setReg R.RST.RCAUSE (s3.reg R.RST.RCAUSE ||| wd cause)).setReg R.RST.RLAST
          (wd (lv + cause * 16 + (s3.regF R.RST.RLAST 16 16 + 1) % 65536 * 65536))
      { s4 with rst := { s4.rst with low := none, ext := false, silent := false, drive := 0, cause := 0, level := 0,
                                     roseAt := at_ } }

/-- Scribe's drive for a RESET record, at the earliest of R457; `n`: 25 000 SFB cycles in ru. -/
def State.scribeReset (s : State) (n : Nat) : State :=
  match s.scribe.resetDue with
  | none => s
  | some t =>
    let last := t + clampNat 3883200 4123200 n
    let early := match s.scribe.freeAt with
      | some f => Nat.min last (Nat.max f (t + 320000))
      | none => last
    let at_ := match s.scribe.heldAt with
      | some b => Nat.min early (b + 16000)
      | none => early
    let s1 := s.reach at_
    { s1 with scribe := { s1.scribe with resetDue := none, freeAt := none } }.rstDrive 4 8000000

/-! ### Release of the domains (R497, R498, R517, R582) -/

/-- Is a domain held in reset? -/
def State.domHeld (s : State) (d : Nat) : Bool := s.rst.held.testBit d

/-- The watched domains by code. -/
abbrev domains : List Nat := [0, 1, 2, 3, 5]

/-- The SFB blocks leave reset: straps are sampled and the identity key is tested. After power-on they do so while the device
still drives RST_N (R500). -/
def State.releaseSfb (s : State) (headId bootsel keyOk : Bool) : State :=
  if !s.rst.powered || s.rst.por || s.rst.low.isSome || !s.domHeld 7 then s
  else
    let s1 := { s with rst := { s.rst with held := s.rst.held - 128, bootsel := bootsel } }
    ((s1.setB R.HPR.HSTA 3 headId).setB R.RST.BSTA 8 bootsel).keyTest keyOk

/-- SYS to HST leave reset together once all their clocks are good, or 10 ms after the rise of RST_N those whose clocks
are good; the others stay in reset, recorded as CLK_MISSING, until their clocks are good. -/
def State.releaseSys (s : State) : State :=
  let due := domains.filter s.domHeld
  let good := due.filter fun d => s.ckB (8 + d)
  let bad := due.filter fun d => !s.ckB (8 + d)
  if s.rstLow || s.domHeld 7 || good.isEmpty || !(bad.isEmpty || s.rst.late) then s
  else
    let first := s.domHeld 0
    let s1 := { s with rst := { s.rst with held := bad.foldl (fun n d => n + 2 ^ d) 0 } }
    let s2 := if good.contains 2 && s1.rst.cold then { s1 with dt64 := 0, rst := { s1.rst with cold := false } } else s1
    let s3 := if first && good.contains 0 then { s2 with rst := { s2.rst with sysAt := s2.rstNow } } else s2
    (if first then bad.foldl (fun t d => t.fault Src.CLK_MISSING clkPage d) s3 else s3).setReg R.RST.DOMRST (wd s3.rst.held)

/-- 10 ms after the rise of RST_N: at power-on a PLL that has not locked gives its domains their fallback clock. -/
def State.pllTimeout (s : State) : State :=
  if s.rstLow || s.rst.late || s.domHeld 7 || !s.domHeld 0 then s
  else
    let s0 := s.rstReach (s.rst.roseAt + 160000000)
    let s1 := { s0 with rst := { s0.rst with late := true } }
    let s2 := s1.when (s1.rst.cold && !s1.ckB 2 && !s1.ckB 4) fun t => t.loseA.fault Src.CLK_A_LOL clkPage 0
    s2.when (s2.rst.cold && !s2.ckB 3 && !s2.ckB 5) fun t => t.loseT.fault Src.CLK_T_LOL clkPage 2

/-! ### Loader: memories and sources (R501, R502, R523) -/

/-- BSTA.STAGE. -/
def State.stage (s : State) : Nat := s.regF R.RST.BSTA 0 4
def State.setStage (s : State) (n : Nat) : State := s.setF R.RST.BSTA 0 4 n
/-- BSTA.CFGD. -/
def State.cfgd (s : State) : Bool := s.regB R.RST.BSTA 4

/-- MEMINIT: logged rows take their spares, and the memories are zeroed (R343). -/
def State.memInit (s : State) : State :=
  { s with mem := [], dmem := [], sxm := [], spare := { s.spare with applied := s.spare.rows, ecc := [], failing := [] } }.setStage 0

/-- The flash slots in the order of R523: by CFGCTR while both pass check 1; a slot whose first word is not FORMAT is
skipped. -/
def State.slotOrder (s : State) : List Nat :=
  let has (t : Nat) : Bool := imgLe s.flash (t * slotSize) 0 4 == 1
  let passes (t : Nat) : Bool := s.verify s.flash (t * slotSize) ≠ 1
  let ctr (t : Nat) : Nat := imgLe s.flash (t * slotSize) 8 4
  let order := if passes 0 && passes 1 && Nat.blt (ctr 0) (ctr 1) then [1, 0] else [0, 1]
  order.filter has

/-- A source is rejected, LOAD_FAIL (R501, R502, R511, R522). -/
def State.rejectSource (s : State) (src code : Nat) : State :=
  ((((s.memInit).setReg R.SEC.LDREJ (wd (code + src * 16))).setB R.RST.BSTA 7 true).irq rstPage 1).fault Src.LOAD_FAIL rstPage

/-! ### Row repair (R343, R448) -/

/-- Byte address, size and spare rows of a memory: instruction memory of engine n 2n, its data memory 2n + 1, CSM 20,
table memory 21, capture buffer 22. -/
def memoryRows (m : Nat) : Option (Nat × Nat × Nat) :=
  if m < 20 then
    some (if m % 2 = 0 then (engBase (m / 2), 0x10000, 4) else (engBase (m / 2) + 0x40000, 0x20000, 4))
  else if m = 20 then some (csmBase, 0x80000, 16)
  else if m = 21 then some (tblBase, 0x100000, 16)
  else if m = 22 then some (capBase, 0x40000, Config.captureSpares)
  else none

/-- A row of 64 words that has failed (`rowError`) is logged in the spare record for the next boot, where a spare row is
left. A row already logged and not yet repaired stays logged. -/
def State.rowRepair (s : State) (m row : Nat) : State :=
  match memoryRows m with
  | none => s
  | some (base, size, spares) =>
    let k := m * 2 ^ 20 + row
    let page := if m < 20 then 0x60 + m / 2 else 0xB0
    let used := (s.spare.rows.filter fun r => r / 2 ^ 20 == m).length
    if !s.spare.failing.contains k || Nat.ble size (row * 256) || Nat.blt (s.spare.applied.count k) (s.spare.rows.count k)
    then s
    else if used < spares then
      { s with spare := { s.spare with rows := s.spare.rows ++ [k], failing := s.spare.failing.erase k } }.fault Src.ROW_REPAIR
        page (base + row * 256)
    else { s with spare := { s.spare with failing := s.spare.failing.erase k } }.fault Src.ROW_SPARE_OUT page (base + row * 256)

/-! ### Loader: contents (R501, R505) -/

/-- The loader writes a register whole: fields a host may write through the block that owns it, a shadow taking effect at
once, and read-only fields of the configuration. -/
def State.loadReg (s : State) (k : Nat) (v : Word) : State :=
  let page := pageOf k
  let off := k % 0x1000
  match keyDef k with
  | none => s
  | some d =>
    let ro := wd d.acc.ro
    let s1 := if off < 0x100 then s else s.setReg k ((s.reg k &&& ~~~ ro) ||| (v &&& ro))
    if off = 0x004 && page = 9 then s1
    else if off = 0x01C then s1.wlckWrite page v
    else if page < 0x30 && Nat.ble 0x10 page && off = 0x104 then s1.maskWrite page off true v
    else
      let lock := s1.reg (R.WLCK page)
      let s2 := (s1.setReg (R.WLCK page) 1).regWrite 0 page off v
      ((s2.acceptPage page false).applyAccepted fun p => p == page).setReg (R.WLCK page) lock

/-- A register that a core reset has restored is written again from the image set (R509). -/
def State.reloadReg (s : State) (k : Nat) (v : Word) : State :=
  match keyDef k with
  | none => s
  | some d =>
    if d.level ≠ .C || k % 0x1000 < 0x100 then s
    else
      let ro := wd d.acc.ro
      (s.setReg k ((s.reg k &&& ~~~ ro) ||| (v &&& ro))).maskWrite (pageOf k) (k % 0x1000) true v

/-- Pairs of address and value words of a register list section. -/
def regPairs : Nat → List Byte → List (Nat × Word)
  | 0, _ => []
  | n + 1, l => (leAt l 0 4 - 0x40000000, wd (leAt l 4 4)) :: regPairs n (l.drop 8)

/-- A section's bytes. -/
def sectionBytes (m : Memory) (base : Nat) (x : Section) : List Byte := m.slice (base + x.off) x.len

/-- The configuration of an image set. -/
def configSection (m : Memory) (base : Nat) : Option Config.Configuration :=
  ((sections m base).find? fun x => x.type == 6).map fun x => Config.configOf (sectionBytes m base x)

/-- The register writes of an image set in order. -/
def imageRegs (m : Memory) (base : Nat) : List (Nat × Word) :=
  ((sections m base).map fun x =>
    if x.type = 3 then regPairs (x.len / 8) (sectionBytes m base x)
    else if x.type = 6 then (Config.configOf (sectionBytes m base x)).regs else []).flatten

/-- CONFIG for one section: registers, table memory, SXM with Mortise's copy of the connection table (R430), the
configuration. -/
def State.loadSection (s : State) (m : Memory) (base : Nat) (x : Section) : State :=
  let b := sectionBytes m base x
  match x.type with
  | 3 => (regPairs (x.len / 8) b).foldl (fun t p => t.loadReg p.1 p.2) s
  | 4 => { s with mem := memPut s.mem (tblBase + x.target) b }
  | 5 =>
    let sxm := memPut s.sxm x.target b
    { s with sxm := sxm, dmem := memSplice s.dmem (engBase 8 + 0x40000 + 0x1E000) (sxm.slice 0x6000 0xA00) }
  | 6 =>
    let c := Config.configOf b
    let s1 := c.regs.foldl (fun t p => t.loadReg p.1 p.2) s
    { s1 with mem := c.mem.foldl (fun a p => memPut a p.1 p.2) s1.mem, shipped := ⟨c.calquetis, c.shippedSafety⟩,
              plan := { s1.plan with loaded := true, ringMap := c.planMap, planD := c.planD.foldl (fun a p => NMap.put 0 a p.1 p.2) s1.plan.planD },
              ringIds := c.ringIds.foldl (fun a p => NMap.put 0 a p.1 p.2) s1.ringIds }
  | _ => s

/-- The points of a curve beyond NPTS: the loader writes X as 0xFFFF, and the data half is undefined, a free value (R322). -/
def State.fillCurve (s : State) (base : Nat) : State :=
  let n := (s.mem.readWord base).fld 0 5
  (List.range 16).foldl (fun t j => t.when (Nat.ble n j) fun u =>
    { u with mem := u.mem.writeWord (base + 4 * (j + 1)) (u.freeWord.setFld 0 16 0xFFFF) }.useFree) s

/-- Every curve of both Jig engines. -/
def State.fillCurves (s : State) : State :=
  [0, 1].foldl (fun t e => (List.range (t.regF (R.JG.CVN (1 + e)) 0 8)).foldl (fun u i => u.fillCurve (u.curveAt e i)) t) s

/-- The loaded banks are checked (R324): VALID or REFUSED. -/
def State.checkBanks (s : State) (l : List (Nat × Nat)) : State :=
  l.foldl (fun t p =>
    let ok := bankOk t.mem (t.bankAt p.1 p.2) (t.curveAt p.1 0) (t.regF (R.JG.CVN (1 + p.1)) 0 8) (p.1 == 1)
    (t.setB (R.JG.TBSTA (1 + p.1)) p.2 ok).setB (R.JG.TBSTA (1 + p.1)) (4 + p.2) (!ok)) s

/-- TS5 is set up at t_TC + T5 for the stack program set, T5 in ns in SPT word 28 (R232, R237). -/
def State.stagePoint (s : State) : State :=
  s.when s.shipped.stack fun t =>
    (t.setReg (R.TRG.TSCFG 0) 1).setReg (R.TRG.TSTGT 0) (wd (t.regF R.TRG.TTC 0 20 + 16 * (t.spt 28).toNat))

/-- The banks in which the shipped tables stand, which the loader checks too. -/
def State.shippedBanks (s : State) (c : Config.Configuration) : List (Nat × Nat) :=
  if c.shippedJig then [0, 1].map fun e => (e, s.regF (R.JG.TBANK (1 + e)) 0 2) else []

/-- SPARE: ring moves over the configuration's LNMAP, and RETMAP (R341). -/
def State.applySpare (s : State) : State :=
  let s1 := s.spare.moves.foldl (fun t p => match p.2 with
    | some w => t.setReg (R.LNE.LNMAP p.1) w
    | none => t) s |> fun u => (List.range 32).foldl State.rateSync u
  (s1.spare.cells.foldl (fun t p => if p.2.isSome then t.setB (R.CLS.RETMAP (p.1 / 32)) (p.1 % 32) true else t) s1).jigRestart

/-- ENGINES: instruction and data memories. -/
def State.loadEngine (s : State) (m : Memory) (base : Nat) (x : Section) : State :=
  let b := sectionBytes m base x
  if x.type = 1 then { s with mem := memPut s.mem (engBase x.target) b }
  else if x.type = 2 then { s with dmem := memSplice s.dmem (engBase x.target + 0x40000) b }
  else s

/-- The engine entry of the spare record: PE7 in REPLACE (R290, R341). -/
def State.applyReplace (s : State) : State :=
  match s.spare.engine with
  | some t =>
    let run := s.plan.run
    let s1 := { s with plan := { s.plan with run := false } }.pe7Replace t
    { s1 with plan := { s1.plan with run := run } }
  | none => s

/-- The first configured state is reached: CFGD, with the clamps released (R505). -/
def State.setCfgd (s : State) : State :=
  let s1 := (s.setB R.RST.BSTA 4 true).irq rstPage 0
  { s1 with rst := { s1.rst with clamp := false } }

/-- The blocks that ENABLE enables whatever the configuration: SFT, SIO, Scribe and the remaining ones, all but the lanes, the
engines and the frame plan (R505). -/
def otherBlocks : List Nat :=
  (Block.pages.map fun p => (List.range p.2.2.1).map (p.2.1 + ·)).flatten.filter fun p =>
    !isEnginePage p && p ≠ 9 && (Nat.blt p 0x10 || Nat.ble 0x30 p)

/-- ENABLE: the lanes of the ring map and the tie lane, the engines and other pages the configuration names, the remaining
blocks, CFGD, and the frame plan with
AUTOSTART. -/
def State.enableAll (s : State) (c : Config.Configuration) : State :=
  let lanes := (List.range 32).filter fun n => s.isTie n || s.regF (R.LNE.LNMAP n) 5 2 ≠ 0
  let s1 := (lanes.map (0x10 + ·) ++ otherBlocks ++ c.enable).foldl (fun (t : State) p => t.pctlEn p true) (s.setStage 6)
  let s2 := (s1.setCfgd).setReg R.RST.BTIME (wd ((s1.rstNow + 2 ^ 64 - s1.rst.sysAt) % 2 ^ 64 / 16000))
  s2.when c.autostart fun t => t.pctlEn 9 true

/-- The ring map of a configuration: cells and rate of each ring, as its RCFG values state them. -/
def ringMapOf (c : Config.Configuration) (ring : Nat) : Nat × Bool :=
  let w := ((c.regs.filter fun p => p.1 == R.RNG.RCFG ring).getLast?.map (·.2)).getD 0
  (w.fld 0 4, w.fld 0 4 ≠ 0 && w.bit 5)

/-- Is the frame plan's ring map that of the configuration (R42)? -/
def planFits (c : Config.Configuration) : Bool :=
  (List.range 32).all fun ring =>
    ((c.planMap.find? fun p => p.1 == ring).map (·.2)).getD (0, false) == ringMapOf c ring

/-- What a source is rejected for, 0 for nothing (R522). -/
def State.sourceCode (s : State) (m : Memory) (base : Nat) : Nat :=
  let v := s.verify m base
  if v ≠ 0 then v
  else if !hashesOk m base (sections m base) then 7
  else if (configSection m base).any (fun c => !planFits c) then 8
  else 0

/-- An accepted image set is loaded, from SELECT to ENABLE. -/
def State.loadImage (s : State) (m : Memory) (base src : Nat) : State :=
  let secs := sections m base
  let c := (configSection m base).getD default
  let h := imgHash m base
  let s1 := (s.setF R.RST.BSTA 5 2 src).setStage 3
  let s2 := secs.foldl (fun t x => t.loadSection m base x) s1
  let s3 := (((s2.stagePoint.when c.shippedJig State.shipTables).fillCurves.checkBanks (c.banks ++ s2.shippedBanks c)).setStage 4).applySpare
  let s4 := (secs.foldl (fun t x => t.loadEngine m base x) (s3.setStage 5)).applyReplace
  let s5 := (List.range 8).foldl (fun t i => t.setReg (R.SEC.IMGH i) (wd (leAt h (4 * i) 4))) s4
  let s6 := (s5.setF R.SEC.SVNS 8 8 (imgLe m base 12 1)).setReg R.SEC.CFGCTR (wd (imgLe m base 8 4))
  { s6 with sec := { s6.sec with oslot := imgLe m base 13 1 } }.enableAll c

/-- Sources are taken in turn; none left, the loader waits for the host. -/
def State.trySlots (s : State) : List Nat → State
  | [] => ((s.setF R.RST.BSTA 5 2 2).setStage 7).irq rstPage 2
  | t :: rest =>
    let base := t * slotSize
    let code := s.sourceCode s.flash base
    if code = 0 then s.loadImage s.flash base t else (s.rejectSource t code).trySlots rest

/-- A time from now on, brought within a bound counted from an instant. -/
def State.within (s : State) (took from_ bound : Nat) : Nat := Nat.min took (from_ + bound - s.rstNow)

/-- Bounds of R500, R504 and R509, ru: from the release of SYS to the first configured state from flash (180 ms after the
lock-out releases, SYS at 3.16 ms) and to HOSTWAIT with BOOTSEL high; from HEND; from the rise of RST_N to the end of a
restore. -/
abbrev flashBound : Nat := 2829440000
abbrev hostWaitBound : Nat := 160000000
abbrev hendBound : Nat := 480000000
abbrev restoreBound : Nat := 640000000

/-- The loader runs from MEMINIT, once SYS is released and before CFGD (R501). A core reset on its way has it restart at ENGINES,
the bound then counting from the rise of RST_N (R514); the memories it had zeroed are as MEMINIT leaves them. -/
def State.imageLoad (s : State) (took : Nat) : State :=
  if s.domHeld 0 || s.rstLow || s.cfgd || s.restoring || (s.stage ≠ 0 && s.stage ≠ 5) then s
  else
    let bound := if s.rst.bootsel then hostWaitBound else flashBound
    let s1 := (s.rstElapse (s.within took (if s.stage = 5 then s.rst.roseAt else s.rst.sysAt) bound)).memInit
    s1.trySlots (if s1.rst.bootsel then [] else s1.slotOrder)

/-! ### The host stream (R503, R507) -/

def State.hstart (s : State) : State :=
  if s.stage ≠ 7 then s else { s.setReg R.RST.LDCNT 0 with rst := { s.rst with streaming := true, stream := [] } }

/-- Words of a burst into LDWIN, which spans 512 words. -/
def State.ldwin (s : State) (burst : List Word) : State :=
  let ws := burst.take 512
  if s.stage ≠ 7 || !s.rst.streaming then s
  else
    let n := s.regN R.RST.LDCNT
    { s.setReg R.RST.LDCNT (wd (n + ws.length)) with
      rst := { s.rst with stream := memPut s.rst.stream (4 * n) ((ws.map fun w => natLe 4 w.toNat).flatten) } }

/-- The stream ends: it is loaded, or the loader enters NOIMAGE, LOAD_NONE (R507, R511). -/
def State.hend (s : State) (took : Nat) : State :=
  if s.stage ≠ 7 || !s.rst.streaming then s
  else
    let s0 := s.rstElapse (Nat.min took hendBound)
    let s1 := { s0 with rst := { s0.rst with streaming := false } }
    let code := s1.sourceCode s1.rst.stream 0
    if code = 0 then s1.loadImage s1.rst.stream 0 2
    else ((s1.rejectSource 2 code).setStage 8).fault Src.LOAD_NONE rstPage

/-! ### The restore (R508, R509) -/

/-- The image set in use: its memory and base. -/
def State.imageInUse (s : State) : Memory × Nat :=
  let src := s.regF R.RST.BSTA 5 2
  if src = 2 then (s.rst.stream, 0) else (s.flash, src * slotSize)

/-- After a core reset the loader reloads the engines and enables them; a failed hash requests a system reset. RST_CORE
is raised as it completes (R509, R511). -/
def State.restore (s : State) (took : Nat) : State :=
  if !s.restoring || s.rstLow then s
  else
    let s0 := s.rstElapse (s.within took s.rst.roseAt restoreBound)
    let i := s0.imageInUse
    let secs := sections i.1 i.2
    if !hashesOk i.1 i.2 secs then s0.rstDrive 8 8000000
    else
      let c := (configSection i.1 i.2).getD default
      let s1 := secs.foldl (fun t x => t.loadEngine i.1 i.2 x) (s0.setStage 5)
      let conn := memSplice s1.dmem (engBase 8 + 0x40000 + 0x1E000) (s1.sxm.slice 0x6000 0xA00)
      let s2 := (imageRegs i.1 i.2).foldl (fun t p => t.reloadReg p.1 p.2) { s1 with dmem := conn }
      let s3 := (s2.checkBanks (c.banks ++ s2.shippedBanks c)).applyReplace
      let s4 := (c.enable.filter isEnginePage).foldl (fun (t : State) p => t.pctlEn p true) (s3.setStage 6)
      { s4.setCfgd with restoring := false }.fault Src.RST_CORE rstPage (s4.regF R.RST.RLAST 4 9)

/-- The TAP controller is reset (R496). -/
def State.tapReset (s : State) : State := { s with rst := { s.rst with tapReset := true } }

end Sys2Proof.Machine
end

