-- ==== Sys2Proof/Machine/HostPort.lean ====
section
/-!
DEFINITION. Sys2Proof/Machine/HostPort.lean: reads of registers and windows, host requests on the HSP and the Ethernet
ports, and the order in which accepted writes and reads are carried out (chapter 02).
Readings and choices (notes/assumptions): DESIGN CHOICE 1, 160; DEDUCED 14, 15, 16, 17, 18, 19, 20, 21, 23, 66,
  75, 127; PRESUMED 128.
-/
namespace Sys2Proof.Machine

/-! ### When the host's accesses reach a block (R15, R497, R506) -/

/-- The clock domain of a block, by code (R471, R485). -/
def domainOf (page : Nat) : Nat :=
  match blockOf page with
  | some .pe | some .mrt => 1
  | some .dtm | some .trg | some .edg | some .lbr | some .trp => 2
  | some .lne => 3
  | some .cnv | some .mod => 5
  | some .tnn | some .scr | some .mon | some .pwr | some .rst | some .clk => 7
  | _ => 0

/-- Do host accesses reach the block of a page: the host bridge and the block out of reset? -/
def State.pageUp (s : State) (page : Nat) : Bool :=
  (blockOf page).isSome && !s.domHeld 0 && !s.domHeld (domainOf page)

/-- Pages the host may write before the first configured state. -/
def earlyPage (page : Nat) : Bool := page == 0x00 || page == 0x01 || page == 0xA0 || page == 0xB0

/-- A host write to a page: before CFGD it is ignored and counted on all but four pages; a block in reset ignores it. -/
def State.hostWr (s : State) (page : Nat) (f : State → State) : State :=
  if s.domHeld 0 || (blockOf page).isNone then s
  else if !s.cfgd && !earlyPage page then s.bump R.RST.PREWCNT
  else if s.pageUp page then f s else s

/-- A host read of a page that acts on the block. -/
def State.hostRd (s : State) (page : Nat) (f : State → State) : State := if s.pageUp page then f s else s

/-! ### The header as it reads (R57, R59) -/

/-- IRQF. -/
def State.irqf (s : State) (page : Nat) : Word := s.reg (R.IRQS page) &&& s.reg (R.IRQE page)

/-- The pages of R52, ascending. -/
def allPages : List Nat := (Block.pages.map fun b => (List.range b.2.2.1).map fun i => b.2.1 + i).flatten

/-- IRQPG: the lowest page with IRQF ≠ 0, else 0xFFF. -/
def State.irqPage (s : State) : Nat :=
  (allPages.filter fun p => s.irqf p ≠ 0).foldl Nat.min 0xFFF

/-- HIRQ_N is driven low; it is undriven until SYS is released (R59, R499). -/
def State.hirqLow (s : State) : Bool := !s.domHeld 0 && allPages.any fun p => s.irqf p ≠ 0

/-- PSTA. -/
def State.psta (s : State) (page : Nat) : Word :=
  let w := (s.reg (R.PSTA page)).setBit 3 (s.lockOpen page)
  match blockOf page with
  | some .cnv | some .mod => w.setBit 2 (!s.opRuns page)
  | some .hpr => (w.setBit 2 (!s.opRuns page)).setBit 0 (s.enabled page || s.opRuns page)
  | some .scr => w.setFld 16 16 s.unack
  | _ => w

/-- A register of the common header. -/
def State.headerRead (s : State) (page off : Nat) : Word :=
  if off = 0x000 then wd (resetOf (page * 0x1000))
  else if off = 0x008 then s.psta page
  else if off = 0x014 then s.irqf page
  else if off = 0x018 then s.flts page
  else s.reg (page * 0x1000 + off)

/-! ### Register reads (R13, R57 and the owning pages) -/

/-- A ROC register is read: its value, cleared to its reset value. -/
def State.rocRead (s : State) (k : Nat) : State :=
  match keyDef k with
  | none => s
  | some d =>
    let m := wd d.acc.roc
    if d.acc.roc = 0 then s else s.setReg k ((s.reg k &&& ~~~ m) ||| (wd d.reset &&& m))

/-- The map of tags 32h to 32h + 31 that satisfy a test (R70, R80). -/
def State.tagMap (s : State) (h : Nat) (p : Tag → Bool) : Word :=
  wd ((List.range 32).foldl (fun n i => match NMap.get none s.host.tags (32 * h + i) with
    | some t => if p t then n + 2 ^ i else n
    | none => n) 0)

/-- CSTA of the cell CSEL names (R346). -/
def State.clsCsta (s : State) : Word :=
  let a := s.regF R.CLS.CSEL 0 8
  let j := s.inst a
  let c := s.classOfCell a
  -- between the first and the last step of a ramp up or down (R332, R333)
  let ramp := (c == 4 || c == 6) && Nat.blt 0 j.k && Nat.blt j.k (s.regF R.CLS.LCFG 0 8)
  wd (j.st + c * 64 + b2n (memberClass c) * 1024 + b2n ramp * 2048 + (j.w % 65536) * 65536)

/-- SCFG of STK, from the SPT. -/
def State.stkScfg (s : State) : Word := wd (s.sptF 0 0 3 + s.narm * 16 + (s.mapCells.length % 256) * 256)

/-- A PMC register from 0x10C onward, of the engine ESEL names (R553 to R559). -/
def State.pmcRead (s : State) (src off : Nat) : State × Word :=
  let p := s.pmc
  let n := s.regF R.PMC.ESEL 0 3
  let e := (off % 0x100) / 8
  let smp := NMap.get [] p.smp n
  let lohi (v : Nat) : Word := if off % 8 = 0 then wd v else wd (v / 2 ^ 32 % 65536)
  if off = 0x10C then (s, wd (NMap.get 0 p.oven n))
  else if off = 0x110 then (s, wd (NMap.get 0 p.smpen n))
  else if off = 0x114 then (s, wd (NMap.get 0 p.ovf n))
  else if off = 0x118 then (s, wd (NMap.get 0 p.snPidx n % 65536 + NMap.get 0 p.snSeq n * 65536))
  else if off = 0x11C then (s, wd smp.length)
  else if off = 0x120 then (s, (smp.headD (0, 0)).1)
  else if off = 0x124 then (s, (smp.headD (0, 0)).2)
  else if off = 0x12C then ({ s with pmc := { p with lost := NMap.put 0 p.lost n 0 } }, wd (NMap.get 0 p.lost n))
  else if Nat.ble 0x200 off && Nat.blt off 0x300 then
    (if off % 8 = 0 then s.pmcSel.cntlRead src e else (s, wd (NMap.get 0 p.lat src)))
  else if Nat.ble 0x300 off && Nat.blt off 0x400 then
    (if off % 8 = 0 then (s, wd (NMap.get 0 p.prel (src * 256 + n * 32 + e)))
     else (s, wd (NMap.get 0 p.preset (n * 32 + e) / 2 ^ 32 % 65536)))
  else if Nat.ble 0x400 off && Nat.blt off 0x500 then (s, lohi (NMap.get 0 p.snap (n * 32 + e)))
  else (s, 0)

/-- A block register as its block answers it, where it is not simply held. -/
def State.blockRead (s : State) (src : HSrc) (page off : Nat) : Option (State × Word) :=
  let who := srcNo src
  let val (w : Word) : Option (State × Word) := some (s, w)
  match blockOf page with
  | some .sys =>
    if off = 0x104 then val (wd s.irqPage)
    else if off = 0x108 then val (s.tagMap 0 fun _ => true)
    else if off = 0x10C then val (s.tagMap 1 fun _ => true) else none
  | some .clk => if off = 0x108 then some s.cksta else none
  | some .dtm =>
    if off = 0x108 then some (s.snapL who, wd s.dt64) else if off = 0x10C then some (s.snapH who) else none
  | some .lne =>
    let n := page - 0x10
    if off = 0x134 then some (s.bitcntLatch n who, s.bitcntl n)
    else if off = 0x138 then val (wd (NMap.get 0 (s.lane n).lat who))
    else if off = 0x130 && !s.regB (R.LNE.LNSTA n) 6 then some (s.useFree, s.freeWord) else none
  | some .edg =>
    if off = 0x10C then some (s.cvalRead, s.cval)
    else if off = 0x110 then some s.bcvalRead
    else if off = 0x114 then some s.lstaRead else none
  | some .stk =>
    if off = 0x100 then val s.stkScfg
    else if Nat.ble 0x118 off && Nat.ble off 0x12C then val (s.stkStatus ((off - 0x118) / 4))
    else if off = 0x154 then val (s.stkStatus 6) else none
  | some .cls =>
    let j := s.inst (s.regF R.CLS.CSEL 0 8)
    if off = 0x110 then val s.clsCsta
    else if off = 0x114 then val (wd j.pend)
    else if off = 0x118 then val (wd j.passes) else none
  | some .hpr => if off = 0x104 then val ((s.reg R.HPR.HSTA).setBit 8 s.tieLock) else none
  | some .lbr =>
    if off = 0x104 then val s.tmaskd
    else if off = 0x108 then val s.lout
    else if off = 0x11C then val s.lcval
    else if off = 0x120 then val s.lbcval
    else if off = 0x124 then val s.llsta
    else if off = 0x314 || off = 0x334 then
      let c := (off - 0x314) / 32
      some (if s.chLim c = 0 then s.useFree else s, s.chsta c)
    else none
  | some .cnv =>
    if Nat.ble 0x300 off then some (s.resultRead ((off - 0x300) / 4) (s.reg (page * 0x1000 + off))) else none
  | some .sft =>
    if off = 0x104 then val s.sftSsta
    else if off = 0x118 then val (wd (s.conn (s.regF R.SFT.CSEL 0 8)).state)
    else if off = 0x134 then some (s.sxmdRead, s.sxmd) else none
  | some .sio => if off = 0x108 then val s.sout else none
  | some .scr =>
    if off = 0x108 then val (wd s.unack)
    else if off = 0x10C then val s.scrSsta
    else if Nat.ble 0x140 off && Nat.blt off 0x160 then
      let t := if off = 0x140 then s.lrec0 src else s
      some (t, (NMap.get [] t.scribe.lrec who).getD ((off - 0x140) / 4) 0)
    else none
  | some .sec =>
    if off = 0x100 then val (wd Config.devsn.toNat)
    else if off = 0x104 then val (wd (Config.devsn.toNat / 2 ^ 32))
    else if off = 0x108 then val s.secSsta
    else if off = 0x10C then val s.svns
    else if off = 0x16C then some (s.certdRead, s.certd)
    else if off = 0x170 then val (wd certificate.length)
    else if Nat.ble 0x190 off && Nat.blt off 0x1A0 then val (s.authn ((off - 0x190) / 4)) else none
  | some .mon => if off = 0x110 then val s.monTsta else if off = 0x190 then val s.mstepWord else none
  | some .pmc => if Nat.ble 0x10C off then some (s.pmcRead who off) else none
  | _ => none

/-- A host read of an offset of a page: what it returns and what it changes. -/
def State.regRead (s : State) (src : HSrc) (page off : Nat) : State × Word :=
  if (regDef page off).isNone || !s.pageUp page then (s, 0)
  else if off < 0x100 then (s, s.headerRead page off)
  else match s.blockRead src page off with
    | some r => r
    | none => (s.rocRead (page * 0x1000 + off), s.reg (page * 0x1000 + off))

/-! ### Address decode (R12, R52, R53) -/

/-- What an address names. -/
inductive Place where
  | page (p off : Nat)
  | csm (off : Nat)
  | table (off : Nat)
  | capture (off : Nat)
  | imem (n off : Nat)
  | dmem (n off : Nat)
  deriving DecidableEq, Repr

/-- The decode of a byte address; none is undecoded (R54). -/
def placeOf (a : Nat) : Option Place :=
  if Nat.ble 0x40000000 a && Nat.blt a 0x50000000 then
    let p := (a - 0x40000000) / 0x1000
    if (blockOf p).isSome then some (.page p (a % 0x1000)) else none
  else if Nat.ble csmBase a && Nat.blt a (csmBase + 0x80000) then some (.csm (a - csmBase))
  else if Nat.ble tblBase a && Nat.blt a (tblBase + 0x100000) then some (.table (a - tblBase))
  else if Nat.ble capBase a && Nat.blt a (capBase + 0x40000) then some (.capture (a - capBase))
  else if Nat.ble 0x60000000 a && Nat.blt a 0x60A00000 then
    let n := (a - 0x60000000) / 0x100000
    let off := (a - 0x60000000) % 0x100000
    if off < 0x10000 then some (.imem n off)
    else if Nat.ble 0x40000 off && Nat.blt off 0x60000 then some (.dmem n (off - 0x40000)) else none
  else none

/-! ### Words read and written (R53 to R56) -/

/-- Is the data half of a table word undefined to the host: a curve point beyond NPTS (R322)? -/
def State.curveHole (s : State) (a : Nat) : Bool :=
  [0, 1].any fun e =>
    let b := s.curveAt e 0
    let i := (a - b) / 68
    Nat.ble b a && Nat.blt i (s.regF (R.JG.CVN (1 + e)) 0 8) &&
      Nat.blt ((s.mem.readWord (b + 68 * i)).fld 0 5) ((a - b) % 68 / 4)

/-- Is a capture word a sample, past the area's header, read before its time-stamp is written (R21, R267)? -/
def State.captureHole (s : State) (off : Nat) : Bool :=
  !s.regB R.STK.CAPSTA 1 && Nat.ble (s.regN R.STK.CAPB + 16) off &&
    Nat.blt off (s.regN R.STK.CAPB + s.regN R.STK.CAPL)

/-- Is a byte of table memory in the stack parameter table (R237)? -/
def inSpt (s : State) (off : Nat) : Bool :=
  Nat.ble (s.regN R.STK.SPTB) off && Nat.blt off (s.regN R.STK.SPTB + 1280) && s.plan.loaded

/-- Is a word of the stack parameter table reserved (R237)? -/
def sptReserved (i : Nat) : Bool :=
  i == 30 || i == 31 || (Nat.ble 144 i && Nat.blt i 256) || (Nat.ble 48 i && Nat.blt i 144 && Nat.blt 8 ((i - 48) % 16))

/-- A word read by the host. -/
def State.hostReadWord (s : State) (src : HSrc) (a : Nat) : State × Word :=
  match placeOf a with
  | none => (s, 0)
  | some (.page p off) => s.regRead src p off
  | some (.csm off) => s.csmRead off
  | some (.table off) =>
    let w := if inSpt s off && sptReserved ((off - s.regN R.STK.SPTB) / 4) then 0 else s.mem.readWord a
    if s.curveHole a then (s.useFree, w.setFld 16 16 (s.freeWord.fld 0 16)) else (s, w)
  | some (.capture off) => if s.captureHole off then (s.useFree, s.freeWord) else (s, s.mem.readWord a)
  | some (.imem _ _) => (s, s.mem.readWord a)
  | some (.dmem n off) =>
    match s.dmemWord n off with
    | some w => (s, w)
    | none => (s.useFree, s.freeWord)

/-- A write of RCMD (R510). -/
def State.rcmdWrite (s : State) (v : Word) : State :=
  if !s.lockOpen rstPage then s.lockViol rstPage
  else if v = 0xC0E1 then s.rstDrive 6 320000
  else if v = 0x5E51 then s.rstDrive 7 8000000
  else s.irq rstPage 3

/-- A host write to a register of any page. -/
def State.hostRegWrite (s : State) (src page off : Nat) (v : Word) : State :=
  if page = rstPage && off = 0x10C then s.rcmdWrite v
  else if page = rstPage && off = 0x118 then (s.when (v.bit 0) State.hstart).when (v.bit 1) fun t => t.hend 0
  else if page = rstPage && Nat.ble 0x800 off then s.ldwin [v]
  else if page = secPage && Nat.ble 0x800 off then s.fuWrite [v]
  else s.regWrite src page off v

/-- A word written by the host into a window. A word of the stack parameter table stays while a frame plan runs (R237). -/
def State.windowWrite (s : State) (src : Nat) (a : Nat) (v : Word) : Place → State
  | .csm off => s.portWord (csmBase + off) v
  | .table off =>
    if s.plan.run && inSpt s off then s
    else
      let s1 := s.attTouch a
      { s1 with mem := s1.mem.writeWord a v }.bankWritten a (0x20 + src)
  | .imem _ _ =>
    let s1 := s.attTouch a
    { s1 with mem := s1.mem.writeWord a v }
  | .dmem n off => (s.attTouch a).dmemHost n off v
  | _ => s

/-- A word of an accepted write is applied. -/
def State.applyWord (s : State) (src : Nat) (a : Nat) (v : Word) : State :=
  match placeOf a with
  | none => s
  | some (.page p off) => s.hostWr p fun t => t.hostRegWrite src p off v
  | some w =>
    if s.domHeld 0 then s
    else if !s.cfgd then s.bump R.RST.PREWCNT
    else s.windowWrite src a v w

/-- The words of an accepted write, ascending. -/
def State.applyWords (s : State) (src : Nat) : Nat → List Word → State
  | _, [] => s
  | a, v :: t => (s.applyWord src a v).applyWords src (a + 4) t

/-! ### Order (R77 to R79) -/

/-- The oldest write to a block that no read precedes, and the operations without it. -/
def takeWrite (block : Nat) : List HostOp → Option (HostOp × List HostOp)
  | [] => none
  | .read _ _ _ _ :: _ => none
  | .write src a ws :: t =>
    if a / 0x1000 = block then some (.write src a ws, t)
    else (takeWrite block t).map fun p => (p.1, .write src a ws :: p.2)

/-- An accepted write is applied. -/
def State.writeApply (s : State) (block : Nat) : State :=
  match takeWrite block s.host.ops with
  | some (.write src a ws, rest) => { s with host := { s.host with ops := rest } }.applyWords (srcNo src) a ws
  | _ => s

/-- The words of a read, ascending: `n` words inside the 4 KiB block, then zeros (R76). -/
def State.readWords (s : State) (src : HSrc) : Nat → Nat → State × List Word
  | 0, _ => (s, [])
  | n + 1, a =>
    let r := s.hostReadWord src a
    let t := r.1.readWords src n (a + 4)
    (t.1, r.2 :: t.2)

/-- Words from an address to the next 4 KiB boundary. -/
def room (a : Nat) : Nat := (0x1000 - a % 0x1000) / 4

/-- The oldest accepted read is performed, when no write accepted before it waits. -/
def State.readPerform (s : State) : State :=
  match s.host.ops with
  | .read src tag a cnt :: rest =>
    let s1 := { s with host := { s.host with ops := rest } }
    let r := s1.readWords src (Nat.min cnt (room a)) a
    let data : List Word := r.2 ++ List.replicate (cnt - room a) (0 : Word)
    let tags := match NMap.get none r.1.host.tags tag with
      | some t => NMap.put none r.1.host.tags tag (some { t with data := some data })
      | none => r.1.host.tags
    { r.1 with host := { r.1.host with tags := tags } }
  | _ => s

/-! ### Requests (R67 to R75, R80 to R84) -/

/-- Length of a request by CMD and CNT. -/
def reqLen (b : List Byte) : Nat :=
  10 + (if byteAt b 0 % 8 = 1 then 4 * (beNat ((b.drop 6).take 2) % 4096) else 0)

/-- A response (R68) to a source. -/
def State.respond (s : State) (src : HSrc) (via : Dgram) (stat tag : Nat) (data : List Word) : State :=
  let body := [BitVec.ofNat 8 stat, BitVec.ofNat 8 tag] ++ natBe 2 data.length ++ (data.map fun w => natBe 4 w.toNat).flatten
  { s with host := { s.host with rsp := some (src, via.ip, via.udp, body ++ natBe 2 (crc16 body)) } }

/-- The burst's words that are truncated away, and the undecoded address it names: STAT bits TRUNC and BUS_ERR, with
HOST_DECODE raised once (R54, R76). `acc`: 1 read, 2 write. -/
def State.checkBurst (s : State) (src : HSrc) (a cnt acc : Nat) : State × Nat :=
  let s1 := s.when (Nat.blt (room a) cnt) fun t => t.bump R.HSP.TRCCNT
  let trunc := b2n (Nat.blt (room a) cnt)
  if cnt ≠ 0 && (placeOf a).isNone then (s1.fault Src.HOST_DECODE 0xB0 a (0x20 + srcNo src) acc, trunc + 0x40)
  else (s1, trunc)

/-- Is a write to an engine's instruction memory refused (R55)? -/
def State.imemShut (s : State) (a : Nat) : Bool :=
  match placeOf a with
  | some (.imem n _) => s.enabled (engPage n)
  | _ => false

/-- An accepted WRITE. -/
def State.acceptWrite (s : State) (src : HSrc) (a : Nat) (ws : List Word) : State × Nat :=
  let c := s.checkBurst src a ws.length 2
  if ws.isEmpty || (placeOf a).isNone then c
  else if s.imemShut a then (c.1, c.2 + 0x40)
  else ({ c.1 with host := { c.1.host with ops := c.1.host.ops ++ [.write src a (ws.take (room a))] } }, c.2)

/-- An accepted READ. -/
def State.acceptRead (s : State) (src : HSrc) (tag a cnt : Nat) : State × Nat :=
  let c := s.checkBurst src a cnt 1
  let h := c.1.host
  ({ c.1 with host := { h with ops := h.ops ++ [.read src tag a cnt],
                               tags := NMap.put none h.tags tag (some { src := src, cnt := cnt, stat := c.2 }) } }, c.2)

/-- A FETCH (R73, R81 to R83): `clocked` that the last response CRC bit was clocked. -/
def State.fetch (s : State) (src : HSrc) (via : Dgram) (tag tagByte : Nat) (clocked : Bool) : State :=
  match NMap.get none s.host.tags tag with
  | none => s.respond src via 0x20 tagByte []
  | some t =>
    if t.src ≠ src then s.respond src via 0x20 tagByte []
    else match t.data with
      | none => s.respond src via 0x10 tagByte []
      | some d =>
        let s1 := s.respond src via t.stat tagByte d
        if src ≠ .hsp || clocked then { s1 with host := { s1.host with tags := NMap.put none s1.host.tags tag none } } else s1

/-- A request whose CRC has passed: the checks of R72 and its effect. `bad`: refused for its length or its Q bit. -/
def State.serve (s : State) (src : HSrc) (via : Dgram) (b : List Byte) (bad clocked : Bool) : State :=
  let cmd := byteAt b 0
  let op := cmd % 8
  let tagByte := byteAt b 1
  let tag := tagByte % 64
  let a := beNat ((b.drop 2).take 4)
  let cntF := beNat ((b.drop 6).take 2)
  let cnt := cntF % 4096
  let rw := op == 1 || op == 2
  let badCmd := bad || op == 0 || Nat.blt 4 op || natFld cmd 3 4 ≠ 0 || Nat.ble 64 tagByte ||
    (rw && (Nat.ble 4096 cntF || a % 4 ≠ 0))
  if badCmd then s.respond src via 0x04 tagByte []
  else if op = 1 then
    let ws := (List.range cnt).map fun i => wd (beNat ((b.drop (8 + 4 * i)).take 4))
    let r := s.acceptWrite src a ws
    r.1.respond src via r.2 tagByte []
  else if op = 2 then
    (if (NMap.get none s.host.tags tag).isSome then s.respond src via 0x08 tagByte []
     else
      let r := s.acceptRead src tag a cnt
      r.1.respond src via r.2 tagByte [])
  else if op = 3 then s.fetch src via tag tagByte clocked
  else
    let h := tag / 32
    s.respond src via 0 tagByte [s.tagMap h fun t => t.src == src, s.tagMap h fun t => t.src == src && t.data.isSome]

/-- A whole datagram's data at a port (R83, R84). -/
def State.dgramReq (s : State) (src : HSrc) (via : Dgram) (b : List Byte) : State :=
  if b.length < 10 || crc16 (b.take (b.length - 2)) ≠ beNat (b.drop (b.length - 2)) then s.bump R.HSP.CRCCNT
  else s.serve src via b (b.length ≠ reqLen b || Nat.ble 128 (byteAt b 0)) true

/-- The data of the datagram whose fragments these are, from an offset on, once they are all there. -/
def assemble (l : List Frag) : Nat → Nat → Option (List Byte)
  | 0, _ => none
  | fuel + 1, ofs => match l.find? fun f => f.ofs == ofs with
    | none => none
    | some f => if f.more then (assemble l fuel (ofs + f.bytes.length)).map (f.bytes ++ ·) else some f.bytes

/-- Bytes of the largest request: header, CRC and the data of a port's buffer (R74). -/
abbrev frameMax : Nat := 16384 + 10

/-- A fragment of a datagram: the port reassembles it in its buffer before the check (R74). What becomes of a datagram whose
fragments exceed the buffer is not stated: it is discarded, DESIGN CHOICE (log 160). -/
def State.fragment (s : State) (f : Frag) : State :=
  let same (g : Frag) : Bool := g.src == f.src && g.via.ip == f.via.ip && g.id == f.id
  let l := (s.host.frags.filter fun g => same g && g.ofs ≠ f.ofs) ++ [f]
  let rest := s.host.frags.filter fun g => !same g
  if Nat.blt frameMax ((l.map fun g => g.bytes.length).sum) then { s with host := { s.host with frags := rest } }
  else match assemble l l.length 0 with
    | none => { s with host := { s.host with frags := rest ++ l } }
    | some b =>
      let s1 := { s with host := { s.host with frags := rest } }
      match l.find? fun g => g.ofs == 0 with
      | some g => if g.via.port = 29640 then s1.dgramReq f.src { g.via with frag := none } b else s1
      | none => s1

/-- A request arrives: on the HSP the bytes sampled after HSP_CS_N fell, on an Ethernet port that is up and whose host access
is enabled the data of a datagram to the head on UDP port 29640, or of a fragment of one (R67, R74, R83, R84). -/
def State.hostReq (s : State) (src : HSrc) (via : Dgram) (b : List Byte) (clocked : Bool) : State :=
  if s.domHeld 0 then s
  else
    match src with
    | .hsp =>
      let n := reqLen b
      if !s.regB R.HSP.HCFG 0 || b.length < 8 || b.length < n then s
      else if crc16 (b.take (n - 2)) ≠ beNat ((b.drop (n - 2)).take 2) then
        (s.bump R.HSP.CRCCNT).respond .hsp {} 0x02 (byteAt b 1) []
      else s.serve .hsp {} b (Nat.ble 128 (byteAt b 0) && !s.regB R.HSP.HCFG 1) clocked
    | _ =>
      if !s.regB R.HSP.HCFG (1 + srcNo src) || !s.ethUp (srcNo src - 1) || !via.ours then s
      else match via.frag with
        | some (id, ofs, more) => s.fragment { src := src, via := via, id := id, ofs := ofs, more := more, bytes := b }
        | none => if via.port = 29640 then s.dgramReq src via b else s

/-! ### What the commands share -/

/-- What a command answers. -/
abbrev Res := Host.Outcome State Fault Refusal

/-- After a lane's change: TIEUP follows the tie lane, and a LISTEN head may enter STANDBY (R353, R369). -/
def State.tieSettle (s : State) : State := s.tieSync.listenCheck

/-- What a block does only while its clock domain is out of reset (R497). -/
def State.whenUp (s : State) (d : Nat) (f : State → State) : State := if s.domHeld d then s else f s

/-- A raise from outside every other command; an engine memory error also acts on its engine (R271), an error that a read of
CSM, table memory or the capture buffer finds counts for its row (R343, R448; the word read is the one stored), a cell's
CELL_OV or CELL_LOST acts on its lifecycle (R328). -/
def State.raiseIn (s : State) (ext : Option ExtRaise) : State :=
  match ext with
  | some e =>
    let n := e.addr.toNat / 0x1000000 % 16
    if (e.src = 0xA2 || e.src = 0xA3) && n < 10 then
      (s.engEcc n (e.addr.toNat % 0x100000) (decide (e.src = 0xA3))).recordNext
    else
      let a := e.addr.toNat
      let mem := if csmBase ≤ a ∧ a < csmBase + 0x80000 then some (20, a - csmBase)
        else if tblBase ≤ a ∧ a < tblBase + 0x100000 then some (21, a - tblBase)
        else if capBase ≤ a ∧ a < capBase + 0x40000 then some (22, a - capBase) else none
      let s0 := match mem with
        | some (m, off) => s.when (e.src = 0x41 || e.src = 0x42) fun t => t.rowError (m * 2 ^ 20 + off / 256) (decide (e.src = 0x42))
        | none => s
      let s1 := s0.faultRaise ext
      let addr := e.addr.toNat % 256
      s1.when ((e.src = 0x98 || e.src = 0x99) && s1.inMap addr) fun t => t.jigEvent addr (if e.src = 0x98 then 4 else 0)
  | none => s.faultRaise none

/-- With no command waiting one DTM cycle passes, 4 ns (R85), once DTM has started, and the choppers' counters follow
(R386). -/
def State.tick (s : State) : State :=
  if s.rst.cold && s.domHeld 2 then s else ((s.elapse 64).chopSync 0).chopSync 1

end Sys2Proof.Machine
end

