-- ==== Sys2Proof/Machine/CmdClocks.lean ====
section
/-!
DEFINITION. Sys2Proof/Machine/CmdClocks.lean: the meanings of the commands of clocks (chapter 16), supply, reset and boot (chapter 17).
-/
namespace Sys2Proof.Machine

/-- REF_SWITCH (R466). -/
def execRefSwitch (lost : BitVec 2) (s : State) : Res := .next (s.refSwitch lost.toNat)

/-- REFRET (R467). -/
def execRefret (s : State) : Res := .next (s.hostWr clkPage fun t => t.refRet)

/-- PLL_LOCK (R470). -/
def execPllLock (t : Bool) (s : State) : Res := .next (s.pllLock t)

/-- CLK_A_LOL (R474). -/
def execClkALol (s : State) : Res := .next (s.clkALol)

/-- PLL_A_RETURN (R475). -/
def execPllAReturn (s : State) : Res := .next (s.pllAReturn)

/-- CLK_T_LOL (R477). -/
def execClkTLol (s : State) : Res := .next (s.clkTLol)

/-- PLL_T_RELOCK (R478). -/
def execPllTRelock (s : State) : Res := .next (s.pllTRelock)

/-- HRATIO_MEASURE (R477). -/
def execHratioMeasure (q : BitVec 32) (s : State) : Res := .next (s.hratioMeasure q)

/-- CLK_MISSING (R480). -/
def execClkMissing (domain : Fin 8) (s : State) : Res := .next (s.clkMissing domain.val)

/-- SFB_SILENT (R481). -/
def execSfbSilent (s : State) : Res := .next (s.sfbSilent)

/-- CLK_SFB (R481). -/
def execClkSfb (khz : BitVec 32) (s : State) : Res := .next (s.clkSfb khz)

/-- VIN_LOCKOUT_ASSERT (R488). -/
def execVinLockoutAssert (s : State) : Res := .next (s.vinAssert)

/-- VIN_LOCKOUT_RELEASE (R488). -/
def execVinLockoutRelease (s : State) : Res := .next (s.vinRelease)

/-- VIN_MEASURE (R490). -/
def execVinMeasure (mv : BitVec 16) (s : State) : Res := .next (s.whenUp 7 fun t => t.vinMeasure mv.toNat)

/-- RST_N_FALL (R493). -/
def execRstNFall (s : State) : Res := .next (s.extFall)

/-- CORE_RESET_START (R493). -/
def execCoreResetStart (s : State) : Res := .next (s.coreStart)

/-- SYSTEM_RESET_START (R493). -/
def execSystemResetStart (s : State) : Res := .next (s.sysStart)

/-- RST_N_RISE (R493). -/
def execRstNRise (at_ : Nat) (s : State) : Res := .next (s.rstRise at_)

/-- DOMAIN_RELEASE (R497). -/
def execDomainRelease (sfb headId bootsel keyOk : Bool) (s : State) : Res :=
  .next (if sfb then s.releaseSfb headId bootsel keyOk else s.releaseSys)

/-- PLL_START_TIMEOUT (R498). -/
def execPllStartTimeout (s : State) : Res := .next (s.pllTimeout)

/-- IMAGE_LOAD (R501). -/
def execImageLoad (took : Nat) (s : State) : Res := .next (s.imageLoad took)

/-- HSTART (R503). -/
def execHstart (s : State) : Res := .next (s.hostWr rstPage fun t => t.hstart)

/-- LDWIN_WRITE (R503). -/
def execLdwinWrite (words : List Word) (s : State) : Res := .next (s.hostWr rstPage fun t => t.ldwin words)

/-- HEND (R503). -/
def execHend (took : Nat) (s : State) : Res := .next (s.hostWr rstPage fun t => t.hend took)

/-- RCMD_CORE (R510). -/
def execRcmdCore (s : State) : Res := .next (s.hostWr rstPage fun t => t.rcmd 6 320000)

/-- RCMD_SYSTEM (R510). -/
def execRcmdSystem (s : State) : Res := .next (s.hostWr rstPage fun t => t.rcmd 7 8000000)

/-- RESTORE (R509). -/
def execRestore (took : Nat) (s : State) : Res := .next (s.restore took)

/-- REFERENCE_USABLE (R465). -/
def execReferenceUsable (refin : Bool) (s : State) : Res := .next (s.refUsable refin)

/-- CLK_GOOD (R480). -/
def execClkGood (domain : Fin 8) (s : State) : Res := .next (s.clkGood domain.val)

/-- POWER_ON_DOMAIN_START (R489). -/
def execPowerOnDomainStart (s : State) : Res := .next (s.domainStart)

/-- POWER_ON_DOMAIN_LOSS (R489). -/
def execPowerOnDomainLoss (s : State) : Res := .next (s.domainLoss)

/-- TAP_RESET (R496). -/
def execTapReset (s : State) : Res := .next (s.tapReset)

end Sys2Proof.Machine
end

