-- ==== Sys2Proof/Machine/Calquetis.lean ====
section
/-!
DEFINITION. Sys2Proof/Machine/Calquetis.lean: the Calquetis stack program set (chapter 07): what its programs compute in a
period, by stage. It acts while the image set in use holds it; the results of a stage stand from the recognition that
releases it (R232). A quantity is an integer in 2^-32 of its unit, rounded down: the programs' own number formats are not
stated.
Readings and choices (notes/assumptions): PRESUMED 53; DEDUCED 54, 157, 178; DESIGN CHOICE 150, 151, 152, 153,
  154, 155, 156, 177, 179.
-/
namespace Sys2Proof.Machine

/-! ### Numbers -/

/-- 1 in units of 2^-32. -/
abbrev one : Int := 4294967296

def qmul (a b : Int) : Int := a * b / one

def qdiv (a b : Int) : Int := if b = 0 then 0 else a * one / b

/-- A Q1.15, Q2.14 or Q16.16 field as a quantity. -/
def q15 (n : Nat) : Int := (n : Int) * 131072
def q14 (n : Nat) : Int := (n : Int) * 262144
def q16 (n : Nat) : Int := (n : Int) * 65536

/-- A natural number of a unit, and of thousandths and tenths of it. -/
def qn (n : Nat) : Int := (n : Int) * one
def qmilli (n : Nat) : Int := (n : Int) * one / 1000
def qtenth (n : Nat) : Int := (n : Int) * one / 10

/-- The nearest multiple of 1/`k` of the unit, counted; half away from zero (log 151). -/
def qround (a : Int) (k : Nat) : Int := roundAway (a * k) one.toNat

def qabs (a : Int) : Int := if a < 0 then -a else a

def qsign (a : Int) : Int := if a < 0 then -1 else if a = 0 then 0 else 1

def qsum (l : List Int) : Int := l.foldl (· + ·) 0

def qmin (l : List Int) (z : Int) : Int := match l with
  | [] => z
  | x :: t => t.foldl (fun a b => if b < a then b else a) x

/-- x / 1 s of a period of `per` ru. -/
def perSec (x : Int) (per : Nat) : Int := x * per / 16000000000

/-- RSQRT of a quantity in the range of the instruction (R308). -/
def qrsqrt (a : Int) : Int :=
  match (rsqrtVal (wdInt (sat32 (a / 4)))).1 with
  | some r => r.toInt * 256
  | none => 0

/-- 1 / √a by RSQRT, the operand brought into [1/4, 1) by powers of 4. -/
def qinvSqrt (a : Int) : Int :=
  if a ≤ 0 then 0
  else
    let l := (Nat.log2 a.toNat : Int)
    -- a ∈ [2^(l-32), 2^(l-31)); e: the power of 4 that leads into range
    let e := (l - 32 + 2) / 2
    let y := if 0 ≤ e then a / ((4 ^ e.toNat : Nat) : Int) else a * ((4 ^ (-e).toNat : Nat) : Int)
    let r := qrsqrt y
    if 0 ≤ e then r / ((2 ^ e.toNat : Nat) : Int) else r * ((2 ^ (-e).toNat : Nat) : Int)

def qsqrt (a : Int) : Int := qmul a (qinvSqrt a)

/-- SINCOS of an angle in 2^-32 turn (R308): sine and cosine. -/
def qsin (turn : Nat) : Int := signedOf 16 ((sincosVal (wd turn)).fld 0 16) * 131072
def qcos (turn : Nat) : Int := signedOf 16 ((sincosVal (wd turn)).fld 16 16) * 131072

/-- ATAN2 of (y, x), turns (R308). -/
def qatan2 (y x : Int) : Int := (atan2Val (wdInt (sat32 (y / 16))) (wdInt (sat32 (x / 16)))).1.toInt * 131072

/-- 2π, √3 and 1/√3. -/
abbrev twoPi : Int := 26986075409
abbrev root3 : Int := 7439101574
abbrev invRoot3 : Int := 2479700525

/-! ### Parameters (R237, R238) -/

/-- The stack parameters a period uses. -/
structure CalPar where
  topo : Nat
  narm : Nat
  /-- P, ru. -/
  per : Nat
  fnom : Int
  fmin : Int
  fmax : Int
  vb : Int
  ib : Int
  /-- P_B, W. -/
  pb : Int
  vlvnom : Int
  amin : Int
  ahys : Int
  amax : Int
  rtv : Int
  kpll : Int
  kipll : Int
  rslim : Int
  trkeps : Int
  /-- SLEWR × P, turns. -/
  slew : Int
  /-- RAMPT, ru. -/
  rampt : Nat
  cckp : Int
  ccki : Int
  /-- LGRID, per unit at 1 rad/s. -/
  lgrid : Int
  mimax : Int
  imax : Int
  lvkp : Int
  lvki : Int
  vlvmin : Int
  vlvmax : Int
  krt : Int
  kep : Int
  kei : Int
  eimax : Int
  kbal : Int
  trimmax : Int
  /-- SORTHYS, V; PDB, W. -/
  sorthys : Int
  pdb : Int
  vdcm : Int
  deriving DecidableEq, Repr

/-- The parameters of the SPT in force. -/
def State.calPar (s : State) : CalPar :=
  let vb := qn (s.spt 3).toNat
  let ib := qn (s.spt 4).toNat
  let k : Int := if s.sptF 0 0 3 = 2 then 1 else 3
  { topo := s.sptF 0 0 3, narm := Nat.min s.narm 6, per := s.plan.per, fnom := qmilli (s.spt 1).toNat,
    fmin := qmilli (s.sptF 2 0 16), fmax := qmilli (s.sptF 2 16 16), vb := vb, ib := ib, pb := k * qmul vb ib / 2,
    vlvnom := qtenth (s.sptF 5 0 16), amin := q14 (s.sptF 7 0 16), ahys := q14 (s.sptF 7 16 16),
    amax := q14 (s.sptF 8 0 16), rtv := q14 (s.sptF 8 16 16), kpll := q16 (s.spt 9).toNat, kipll := q16 (s.spt 10).toNat,
    rslim := q16 (s.sptF 11 0 16), trkeps := q16 (s.sptF 11 16 16),
    slew := ((s.spt 12).toNat : Int) * s.plan.per / 16000000, rampt := 16000 * (s.spt 13).toNat,
    cckp := q16 (s.spt 14).toNat, ccki := q16 (s.spt 15).toNat,
    lgrid := qdiv (qmul (qn (s.spt 16).toNat / 1000000) ib) vb,
    mimax := q15 (s.sptF 17 0 16), imax := q14 (s.sptF 17 16 16), lvkp := q16 (s.spt 18).toNat, lvki := q16 (s.spt 19).toNat,
    vlvmin := qtenth (s.sptF 20 0 16), vlvmax := qtenth (s.sptF 20 16 16), krt := q16 (s.spt 21).toNat,
    kep := q16 (s.spt 22).toNat, kei := q16 (s.spt 23).toNat, eimax := q15 (s.sptF 24 0 16), kbal := q16 (s.spt 25).toNat,
    trimmax := q15 (s.sptF 26 0 16), sorthys := qmilli (s.sptF 26 16 16), pdb := qn (s.spt 29).toNat,
    vdcm := qn (s.spt 27).toNat }

/-- A word of an arm's parameters (R237). -/
def State.armPar (s : State) (arm i : Nat) : Word := s.spt (48 + i + 16 * arm)

/-- CCELL, F in 2^-32; VCREF and VCMAX, mV. -/
def State.ccell (s : State) (arm : Nat) : Int := ((s.armPar arm 0).toNat : Int) * one / 1000000
def State.vcref (s : State) (arm : Nat) : Nat := 100 * (s.armPar arm 1).fld 0 16
def State.vcmax (s : State) (arm : Nat) : Nat := 100 * (s.armPar arm 1).fld 16 16

/-- The cells the arm map assigns to an arm. -/
def State.armCells (s : State) (arm : Nat) : List Nat := s.mapCells.filter fun a => s.armOf a == arm

/-- Share weight w of a cell: 0x7FFF is 1 (R236, R326). -/
def State.weight (s : State) (addr : Nat) : Int :=
  let n := (s.mem.readWord (csmBase + 0x20400 + 4 * addr)).fld 0 16
  if n = 0x7FFF then one else q15 n

/-- Is a cell a member (R326, R327)? -/
def State.isMember (s : State) (addr : Nat) : Bool := (s.lifeWord addr).bit 13

/-! ### Engines of the set (R231) -/

/-- The stack engine; the arm engine of an arm; the DAB engine of an arm. -/
abbrev stackEngine : Nat := 0
def armEngine (arm : Nat) : Nat := 1 + arm
def dabEngine (topo arm : Nat) : Nat := if topo = 3 then 1 + arm else if topo = 2 then 2 else 4 + arm

/-- The engine that runs the program of engine `n`: PE7 in its place where it is retired (R290). -/
def State.runsFor (s : State) (n : Nat) : Nat := if s.engState n = 5 && s.pe7Mode = 2 && s.pe7Target = n then 7 else n

/-- Has the engine of a program been released in this period and not ended? -/
def State.progRuns (s : State) (n : Nat) : Bool :=
  let st := s.engState (s.runsFor n)
  st == 2 || st == 3

/-! ### The program set's keeping -/

def State.ctl (s : State) (addr : Nat) : CellCtl := NMap.get {} s.pset.cells addr
def State.setCtl (s : State) (addr : Nat) (c : CellCtl) : State :=
  { s with pset := { s.pset with cells := NMap.put {} s.pset.cells addr c } }

def CalState.arm (p : CalState) (a : Nat) : ArmCtl := NMap.get {} p.arms a
def CalState.setArm (p : CalState) (a : Nat) (c : ArmCtl) : CalState := { p with arms := NMap.put {} p.arms a c }

def State.putP (s : State) (p : CalState) : State := { s with pset := p }

/-- The signal of the injection at a point; at a point of an arm or of a cell (R264). -/
def State.sig (s : State) (point : Nat) : Int :=
  match s.pset.inj with
  | some x => if s.regF R.STK.INJCFG 0 4 = point then x.val else 0
  | none => 0
def State.sigArm (s : State) (point arm : Nat) : Int := if s.regF R.STK.INJCFG 16 3 = arm then s.sig point else 0
def State.sigCell (s : State) (point addr : Nat) : Int := if s.regF R.STK.INJCFG 8 8 = addr then s.sig point else 0

/-- Loop error, output and feedback at a point are noted for capture (R267). -/
def CalState.tap (p : CalState) (point : Nat) (err out fb : Int) : CalState := { p with taps := NMap.put [] p.taps point [err, out, fb] }

/-- A source of the set is raised (R268). -/
def State.calRaise (s : State) (c : Bool) (src : Nat) (addr : Nat := 0) (eng : Nat := 0) : State :=
  s.when c fun t => t.fault src 0x71 addr (0x10 + eng)

/-! ### Stage 1: arm engines (R236, R239 to R241, R249, R253) -/

/-- Telemetry of one cell taken in: its voltage and current, or the prediction and the arm's mean current where the slot is
stale; CELL_OV and CELL_LOST, each an event for JG0 (R240, R241, R268, R328). -/
def State.calTake (s : State) (arm : Nat) (mean : Int) (addr : Nat) : State :=
  let c := s.ctl addr
  let w9 := s.recWord addr 9
  if w9.bit 0 then
    let n := c.stale + 1
    let v := if c.vpred = 0xFFFF then c.v else 50 * c.vpred
    let s1 := s.setCtl addr { c with v := v, i := mean, stale := n }
    let s2 := s1.putP { s1.pset with bridged := s1.pset.bridged + 1 }
    let lost := decide (n = s.staleMax + 1) && decide (0 < s.weight addr)
    (s2.calRaise lost Src.CELL_LOST (addr + arm * 256) (armEngine arm)).when lost fun t => t.jigEvent addr 4
  else
    let v := s.recV addr
    let s1 := s.setCtl addr { c with v := v, i := (s.recWord addr 1).toInt * Config.ampsPerCount arm, stale := 0 }
    let exceeds := Nat.blt (s.vcmax arm) v && !w9.bit 5
    (s1.calRaise exceeds Src.CELL_OV (addr + arm * 256) (armEngine arm)).when exceeds fun t => t.jigEvent addr 0

/-- The mean IA of an arm's valid slots, or its phase current (R240). -/
def State.armMean (s : State) (arm : Nat) (phase : Int) : Int :=
  let l := (s.armCells arm).filter fun a => !(s.recWord a 9).bit 0 && !(s.recWord a 9).bit 5
  if l.isEmpty then phase
  else (l.map fun a => (s.recWord a 1).toInt).sum * Config.ampsPerCount arm / l.length

/-- Is a cell left out: stale for longer than STALEMAX with w above 0 (R241)? -/
def State.calLost (s : State) (addr : Nat) : Bool := Nat.blt s.staleMax (s.ctl addr).stale && decide (0 < s.weight addr)

/-- The members of an arm that balancing takes (R241, R256). -/
def State.calMembers (s : State) (arm : Nat) : List Nat :=
  (s.armCells arm).filter fun a => s.isMember a && !s.calLost a

/-- Voltage of a cell, V. -/
def State.cellV (s : State) (addr : Nat) : Int := qmilli (s.ctl addr).v

/-- An arm engine's stage 1: telemetry, sums and energies (R249, R253). -/
def State.armStage1 (s : State) (arm : Nat) (phase : Int) : State :=
  let mean := s.armMean arm phase
  let s1 := (s.armCells arm).foldl (fun t a => t.calTake arm mean a) s
  let ms := s1.calMembers arm
  let c := s1.ccell arm
  let vr := qmilli (s1.vcref arm)
  let w := qsum (ms.map s1.weight)
  s1.putP (s1.pset.setArm arm { s1.pset.arm arm with
    i := mean, w := w, wv := qsum (ms.map fun a => qmul (s1.weight a) (s1.cellV a)),
    e := qsum (ms.map fun a => qmul c (qmul (s1.cellV a) (s1.cellV a)) / 2), en := qmul (qmul c (qmul vr vr)) w / 2 })

/-! ### Stage 1: the stack engine (R242 to R249, R254) -/

/-- The eight measured quantities of the measurement map, V and A (R237, R411). -/
def State.calMeasure (s : State) : State × List Int :=
  (List.range 8).foldl (fun (q : State × List Int) i =>
    let sel := (s.spt (32 + 2 * i)).fld 0 8
    if (selKey sel).isNone then (q.1, q.2 ++ [0])
    else
      let r := q.1.csmRead (0x34000 + 4 * sel)
      (r.1, q.2 ++ [signedOf 24 (r.2.fld 0 24) * q16 (s.spt (33 + 2 * i)).toNat])) (s, [])

/-- α and β of three phase quantities (R242). -/
def clarke (a b c : Int) : Int × Int := ((2 * a - b - c) / 3, qmul (b - c) invRoot3)

/-- One step of the generalised integrator on `u` at frequency `f`: its components in phase and in quadrature (R242). Gain
√2 and the forward step are the model's (log 152). -/
def giStep (g : CalPar) (f u x y : Int) : Int × Int :=
  let wp := perSec (qmul twoPi f) g.per
  (x + qmul wp (qmul 6074000999 (u - x) - y), y + qmul wp x)

/-- d and q of α and β on an angle. -/
def park (turn : Nat) (a b : Int) : Int × Int :=
  (qmul a (qcos turn) + qmul b (qsin turn), qmul b (qcos turn) - qmul a (qsin turn))

/-- α and β of d and q. -/
def unpark (turn : Nat) (d q : Int) : Int × Int :=
  (qmul d (qcos turn) - qmul q (qsin turn), qmul d (qsin turn) + qmul q (qcos turn))

/-- An angle difference reduced to ±0.5 turn (R243). -/
def turnDiff (a : Int) : Int := (a + one / 2) % one - one / 2

/-- The angle `d` turns on. -/
def turnAdd (theta : Nat) (d : Int) : Nat := (((theta : Int) + d) % one).toNat

/-- The PLL procedure of R244 on a² and e: the new state, and whether it enters COAST or resyncs. From OFF, at the start of
the plan, it begins in COAST at FNOM (log 153). The integrator is not updated while FMIN or FMAX limits f in the direction
of the update (R260, log 178). The first period of a head that took over cold is a hard resync (R367). -/
def pllStep (g : CalPar) (fSig : Int) (p : CalState) : CalState × Bool × Bool :=
  let amin2 := qmul g.amin g.amin
  let ar := qmul (g.amin + g.ahys) (g.amin + g.ahys)
  let go (q : CalState) : CalState := { q with theta := turnAdd q.theta (perSec q.f g.per) }
  let resync (q : CalState) : CalState × Bool × Bool :=
    (go { q with theta := turnAdd q.theta q.err, pll := 1, ramp := some 0, xd := 0, xq := 0, cold := false }, false, true)
  if p.cold then resync { p with f := if p.pll = 0 then g.fnom else p.f } else
  let coast : CalState × Bool × Bool := (go { p with pll := 2, good := 0 }, true, false)
  match p.pll with
  | 1 =>
    if p.a2 < amin2 then coast
    else
      let d := perSec (qmul g.kipll p.err) g.per
      let x1 := clampInt (g.fmin - g.fnom) (g.fmax - g.fnom) (p.x + d)
      let raw := g.fnom + qmul g.kpll p.err + x1 + qmul fSig g.fnom
      let x := if (decide (g.fmax < raw) && decide (0 < d)) || (decide (raw < g.fmin) && decide (d < 0)) then p.x else x1
      (go { p with x := x, f := clampInt g.fmin g.fmax (g.fnom + qmul g.kpll p.err + x + qmul fSig g.fnom) }, false, false)
  | 3 =>
    if p.a2 < amin2 then coast
    else if qabs p.err ≤ g.trkeps then (go { p with pll := 1 }, false, false)
    else (go { p with theta := turnAdd p.theta (clampInt (-g.slew) g.slew p.err) }, false, false)
  | _ =>
    let p0 := if p.pll = 0 then { p with f := g.fnom } else p
    let good := if ar ≤ p.a2 then p0.good + 1 else 0
    if good < 8 then (go { p0 with pll := 2, good := good }, false, false)
    else if qabs p.err ≤ g.rslim then (go { p0 with pll := 3, good := good }, false, false)
    else resync { p0 with good := good }

/-- The factor r of the current references, and the ramp a period on (R245). -/
def rampStep (g : CalPar) (p : CalState) : Int × Option Nat :=
  match p.ramp with
  | none => (one, none)
  | some k =>
    let t := (k + 1) * g.per
    if g.rampt ≤ t then (one, none) else (qdiv (t : Int) (g.rampt : Int), some (k + 1))

/-- i_d*, i_q* and whether the limit acted: outside ride-through i_d has priority, in it i_q (R248, R263). -/
def currentLimit (g : CalPar) (rt : Bool) (d q : Int) : Int × Int × Bool :=
  let rest (a : Int) : Int := qsqrt (qmul g.imax g.imax - qmul a a)
  let r : Int × Int := if rt then
      let q1 := clampInt (-g.imax) g.imax q
      (clampInt (-(rest q1)) (rest q1) d, q1)
    else
      let d1 := clampInt (-g.imax) g.imax d
      (d1, clampInt (-(rest d1)) (rest d1) q)
  (r.1, r.2, r.1 ≠ d || r.2 ≠ q)

/-- The current references before the limit (R248, R250, R263): `coast` is the PLL's state before the period's step. -/
def State.currentRefs (s : State) (g : CalPar) (p : CalState) (coast : Bool) : Int × Int :=
  let vgd := p.dq.getD 0 0
  let den := if vgd < g.amin then g.amin else vgd
  if coast then (0, 0)
  else
    let a := qsqrt p.a2
    let iq := if p.rt then (if s.regB R.STK.SMODE 2 then -(qmul g.krt (g.rtv - a)) else 0)
      else if s.regB R.STK.SMODE 1 then -(qdiv (qdiv (signedOf 16 (s.regF R.STK.QREF 0 16) * 1000 * one) g.pb) den) else 0
    (qdiv p.pref den, iq)

/-- The arm references from the converter voltage (α, β per unit) (R254). The branch voltage of a delta is the line voltage,
of a modular multilevel stack the phase voltage; a TOPO of 4 to 7 names no topology and runs as the last row (log 177). -/
def armRefs (g : CalPar) (p : CalState) (sigC : Nat → Int) (va vb : Int) (vph iph : List Int) : List Int :=
  let d (a : Nat) : Int := qmul (p.arm a).dP g.pb
  let i (a : Nat) : Int := (p.arm a).i
  let vc : List Int := [va, (qmul vb root3 - va) / 2, (-(qmul vb root3) - va) / 2].map fun x => qmul x g.vb
  let at3 (l : List Int) (k : Nat) : Int := l.getD (k % 3) 0
  let id2 := qmul (p.dq.getD 2 0) (p.dq.getD 2 0) + qmul (p.dq.getD 3 0) (p.dq.getD 3 0)
  let floor2 := one / 400
  let i2 := qmul (qmul g.ib g.ib) (if id2 < floor2 then floor2 else id2)
  let branch (k a2 : Int) : Int := qmul (qmul g.vb g.vb) (if k * a2 < floor2 then floor2 else k * a2)
  match g.topo with
  | 0 =>
    let v0 := qdiv (4 * qsum ([0, 1, 2].map fun a => qmul (d a) (at3 iph a))) (3 * i2)
    [0, 1, 2].map fun a => at3 vc a + v0 + qmul (sigC a) g.vb
  | 1 =>
    let br (k : Nat) : Int := at3 vph k - at3 vph (k + 1)
    let i0s := qdiv (4 * qsum ([0, 1, 2].map fun a => qmul (d a) (br a))) (3 * branch 3 p.a2)
    let i0 := (i 0 + i 1 + i 2) / 3
    let add := qdiv (qmul (qmul g.cckp (i0s - i0)) g.vb) g.ib
    [0, 1, 2].map fun a => at3 vc a - at3 vc (a + 1) + add + qmul (sigC a) g.vb
  | 2 => [at3 vc 0]
  | _ =>
    let leg (x : Nat) (upper : Bool) : Int :=
      let unit := qdiv (qmul (at3 vc x) (qinvSqrt (qmul va va + qmul vb vb))) g.vb
      let izs := qdiv (d x + d (x + 3)) g.vdcm + qmul (qdiv (d (x + 3) - d x) (qsqrt (branch 1 p.a2))) unit
      let iz := (i x + i (x + 3)) / 2
      let vz := qdiv (qmul (qmul g.cckp (izs - iz)) g.vb) g.ib + qmul (sigC (if upper then x else x + 3)) g.vb
      if upper then g.vdcm / 2 - at3 vc x - vz else g.vdcm / 2 + at3 vc x - vz
    ([0, 1, 2].map fun x => leg x true) ++ [0, 1, 2].map fun x => leg x false

/-- The grid measured: α, β of voltage and current, a², e, dq components and grid power (R238, R242, R243, R247). -/
def State.gridSense (s : State) (g : CalPar) (m : List Int) : CalState :=
  let p := s.pset
  let pu (i : Nat) (b : Int) : Int := qdiv (m.getD i 0) b
  let q : CalState := if g.topo = 2 then
      let gv := giStep g p.f (pu 0 g.vb) (p.gi.getD 0 0) (p.gi.getD 1 0)
      let gc := giStep g p.f (pu 3 g.ib) (p.gi.getD 2 0) (p.gi.getD 3 0)
      { p with gi := [gv.1, gv.2, gc.1, gc.2] }
    else p
  let v := if g.topo = 2 then (pu 0 g.vb, q.gi.getD 1 0) else clarke (pu 0 g.vb) (pu 1 g.vb) (pu 2 g.vb)
  let i := if g.topo = 2 then (pu 3 g.ib, q.gi.getD 3 0) else clarke (pu 3 g.ib) (pu 4 g.ib) (pu 5 g.ib)
  let th := turnAdd q.theta (s.sig 0)
  let dv := park th v.1 v.2
  let di := park th i.1 i.2
  let e := turnDiff (qatan2 v.2 v.1 - th)
  { q with a2 := qmul v.1 v.1 + qmul v.2 v.2, err := e, dq := [dv.1, dv.2, di.1, di.2], vlv := m.getD 6 0, ilv := m.getD 7 0,
           pg := qmul g.pb (qmul dv.1 di.1 + qmul dv.2 di.2) }.tap 0 e (q.theta : Int) (qatan2 v.2 v.1)

/-- Ride-through after the PLL's step (R262). -/
def rtStep (g : CalPar) (entersCoast : Bool) (p : CalState) : CalState :=
  let low := decide (p.a2 < qmul g.rtv g.rtv)
  let high := qmul (g.rtv + g.ahys) (g.rtv + g.ahys)
  if !p.rt then { p with rt := low || entersCoast, rtGood := 0 }
  else
    let ok := decide (high ≤ p.a2) && (p.pll == 1 || p.pll == 3)
    let n := if ok then p.rtGood + 1 else 0
    if 8 ≤ n then { p with rt := false, rtGood := 0 } else { p with rtGood := n }

/-- The supervision of R246 and R252. -/
def watchStep (g : CalPar) (p : CalState) : CalState :=
  let held := p.pll = 1 && (p.f = g.fmin || p.f = g.fmax)
  { p with fHeld := if held then p.fHeld + g.per else 0,
           ov := if qmul g.amax g.amax < p.a2 then p.ov + 1 else 0,
           lvLow := if p.vlv < g.vlvmin then p.lvLow + 1 else 0,
           lvHigh := if g.vlvmax < p.vlv then p.lvHigh + 1 else 0 }

/-- The current loop and the converter voltage (d, q per unit), limited to V_avail (R247 to R249, R260). -/
def State.currentLoop (s : State) (g : CalPar) (coast : Bool) (p : CalState) : CalState × Int × Int :=
  let i0 := s.currentRefs g p coast
  let r := rampStep g p
  let lim := currentLimit g p.rt (qmul i0.1 r.1 + s.sig 2) (qmul i0.2 r.1 + s.sig 3)
  let id := p.dq.getD 2 0
  let iq := p.dq.getD 3 0
  let ed := lim.1 - id
  let eq := lim.2.1 - iq
  let wl := qmul (qmul twoPi p.f) g.lgrid
  let ud := qmul g.cckp ed + p.xd + s.sig 4
  let uq := qmul g.cckp eq + p.xq + s.sig 5
  let vd := p.dq.getD 0 0 - ud + qmul wl iq
  let vq := p.dq.getD 1 0 - uq - qmul wl id
  let avail := qdiv (qmul g.mimax (qmin ((List.range g.narm).map fun a => (p.arm a).wv) 0)) g.vb
  let v2 := qmul vd vd + qmul vq vq
  let exceeds := decide (qmul avail avail < v2)
  let k := if exceeds then qmul avail (qinvSqrt v2) else one
  let step (x e v : Int) : Int :=
    let d := perSec (qmul g.ccki e) g.per
    if coast || (exceeds && decide (d * v < 0)) then x else clampInt (-one) one (x + d)
  let q := ((({ p with xd := step p.xd ed vd, xq := step p.xq eq vq, ramp := r.2, ilim := lim.2.2, vlim := exceeds }.tap 2 ed
    lim.1 id).tap 3 eq lim.2.1 iq).tap 4 ed ud id).tap 5 eq uq iq
  (q, qmul vd k, qmul vq k)

/-! ### Injection (R264 to R266) -/

/-- The signal of a type at its present place: PRBS from bit 14 of the register; the sines by SINCOS (R265; log 154). -/
def State.injVal (s : State) (x : Inject) : Int :=
  let amp := q14 (s.regF R.STK.INJAMP 0 16)
  match s.regF R.STK.INJCFG 4 2 with
  | 1 => if x.lfsr.testBit 14 then amp else -amp
  | 2 => qmul amp (qsin (turnAdd 0 x.ph))
  | 3 => qmul amp (qsin (turnAdd 0 x.ph))
  | _ => 0

/-- NC, 0 held as 1. -/
def State.injNc (s : State) : Nat := Nat.max 1 (s.regF R.STK.INJCFG 24 8)

/-- The whole part of the `n`-th root of `x`, below 2^33. -/
def rootFloor (n x : Nat) : Nat :=
  (List.range 33).reverse.foldl (fun r k => if (r + 2 ^ k) ^ n ≤ x then r + 2 ^ k else r) 0

/-- Frequency of step `i` of the NS + 1 frequencies geometric from F0 to F1, mHz (R265): the first is F0 and the last F1; one
that is no whole number of mHz is rounded either way (log 154). -/
def stepFreq (f0 f1 ns i : Nat) : Nat :=
  if ns = 0 then f0
  else
    let x := f0 ^ (ns - i) * f1 ^ i
    let r := rootFloor ns x
    if r ^ ns = x then r else r + b2n (Config.stepUp f0 f1 ns i)

/-- The place of the injection a period on; none when its length has run (R265, R266). -/
def State.injNext (s : State) (x : Inject) : Option Inject :=
  let len := s.regN R.STK.INJLEN
  let per := s.plan.per
  let y : Inject := match s.regF R.STK.INJCFG 4 2 with
    | 1 =>
      if x.k + 1 < (x.n + 1) * s.injNc then { x with k := x.k + 1 }
      else { x with k := x.k + 1, n := x.n + 1,
                    lfsr := (x.lfsr * 2 + b2n (x.lfsr.testBit 14 != x.lfsr.testBit 13)) % 32768 }
    | 2 =>
      let f := stepFreq (s.regN R.STK.INJF0) (s.regN R.STK.INJF1) (s.regF R.STK.INJCFG 20 4) x.n
      let ph := x.ph + perSec (qmilli f) per
      if ph < qn s.injNc then { x with k := x.k + 1, ph := ph } else { x with k := x.k + 1, n := x.n + 1, ph := 0 }
    | _ =>
      let f0 : Int := (s.regN R.STK.INJF0 : Int)
      let f := f0 + ((s.regN R.STK.INJF1 : Int) - f0) * x.k / (Nat.max 1 len : Nat)
      { x with k := x.k + 1, n := x.n + 1, ph := x.ph + perSec (f * one / 1000) per }
  let exceeds := match s.regF R.STK.INJCFG 4 2 with
    | 1 => Nat.ble (if len = 0 then 32767 else len) y.n
    | 2 => Nat.blt (s.regF R.STK.INJCFG 20 4) y.n
    | _ => Nat.ble len y.k
  if exceeds then none else some y

/-- A commit of RUN as the programs of its first period find it: start, or abort (R266). -/
def State.injPoll (s : State) : State :=
  let run := s.regB R.STK.INJCFG 6
  let p := s.pset
  let p1 := if run && !p.injRun then
      { p with inj := if s.regF R.STK.INJCFG 4 2 = 0 then none else some {}, injDone := false, injAbort := false, injCnt := 0 }
    else if !run && p.inj.isSome then { p with inj := none, injAbort := true }
    else p
  s.putP { p1 with injRun := run, inj := p1.inj.map fun x => { x with val := s.injVal x } }

/-- A hard resync or the entry to ride-through aborts it (R266). -/
def CalState.injStop (p : CalState) (c : Bool) : CalState := if c && p.inj.isSome then { p with inj := none, injAbort := true } else p

/-- After stage 2 the signal moves on. -/
def State.injMove (s : State) : State :=
  match s.pset.inj with
  | none => s
  | some x => match s.injNext x with
    | some y => s.putP { s.pset with inj := some y, injCnt := y.n % 65536 }
    | none => s.putP { s.pset with inj := none, injDone := true }

/-- The stack engine's stage 1 (R242 to R249, R252, R254, R262). -/
def State.stackStage1 (s : State) (m : List Int) : State :=
  let g := s.calPar
  let p0 := s.gridSense g m
  let coast := p0.pll = 0 || p0.pll = 2
  let pl := pllStep g (s.sig 1) p0
  let p1 := rtStep g pl.2.1 (pl.1.tap 1 pl.1.err pl.1.f pl.1.x)
  let p2 := watchStep g (p1.injStop (pl.2.2 || (p1.rt && !p0.rt)))
  let c := s.currentLoop g coast { p2 with ramp := if pl.2.2 then p0.ramp else p2.ramp }
  let p3 := { c.1 with ramp := if pl.2.2 then some 0 else c.1.ramp, xd := if pl.2.2 then 0 else c.1.xd,
                       xq := if pl.2.2 then 0 else c.1.xq }
  let ab := unpark p3.theta c.2.1 c.2.2
  let refs := armRefs g p3 (fun a => s.sigArm 7 a) ab.1 ab.2 (m.take 3) ((m.drop 3).take 3)
  let p4 := (List.range g.narm).foldl (fun q a => q.setArm a { q.arm a with ref := refs.getD a 0 }) p3
  let s1 := s.putP p4
  let s2 := ((s1.calRaise pl.2.1 Src.PLL_COAST).calRaise pl.2.2 Src.PLL_RESYNC).calRaise (p4.rt && !p0.rt) Src.RT_ACTIVE
  ((((s2.calRaise (Nat.ble 1600000000 p4.fHeld) Src.FREQ_RANGE).calRaise (Nat.ble 2 p4.ov) Src.GRID_OV).calRaise
    (Nat.ble 4 p4.lvLow) Src.LV_UV).calRaise (Nat.ble 4 p4.lvHigh) Src.LV_OV)

/-- Stage 1 of the set, from TS1 (R232). -/
def State.calStage1 (s : State) : State :=
  let s0 := (s.putP { s.pset with bridged := 0, sat := 0, taps := [] }).injPoll
  let m := s0.calMeasure
  let s1 := (List.range s0.calPar.narm).foldl (fun t a =>
    t.when (t.progRuns (armEngine a)) fun u => u.armStage1 a (m.2.getD (3 + a % 3) 0)) m.1
  s1.when (s1.progRuns stackEngine) fun t => t.stackStage1 m.2

/-! ### Stage 2: modulation and balancing (R255 to R257) -/

/-- A sorted list of keys, ascending; equal keys by address (R256). -/
def keyInsert (x : Int × Nat) : List (Int × Nat) → List (Int × Nat)
  | [] => [x]
  | y :: t => if x.1 < y.1 || (x.1 = y.1 && x.2 < y.2) then x :: y :: t else y :: keyInsert x t

/-- The modulation indexes of an arm's members for the output window (R256), before the clamp. -/
def State.modIndexes (s : State) (g : CalPar) (arm : Nat) : List (Nat × Int × Int) :=
  let a := s.pset.arm arm
  let ms := s.calMembers arm
  let w (c : Nat) := s.weight c
  let v (c : Nat) := s.cellV c
  let S := qsum (ms.map fun c => qmul (w c) (v c))
  let pw := qmul a.ref a.i
  let sg : Int := if qabs pw < g.pdb then 0 else qsign pw
  if !s.regB R.STK.SMODE (8 + arm) then
    let vbar := qdiv S (qsum (ms.map w))
    let t (c : Nat) : Int := clampInt (-g.trimmax) g.trimmax
      (-(qmul g.kbal (sg * qdiv (v c - vbar) vbar)) + s.sigCell 14 c)
    let tbar := qdiv (qsum (ms.map fun c => qmul (qmul (w c) (v c)) (t c))) S
    ms.map fun c => (c, qdiv (qmul (qmul a.ref (w c)) (one + t c - tbar)) S, t c)
  else
    let q := ms.filter fun c => decide (w c < one)
    let f := ms.filter fun c => !decide (w c < one)
    let mq (c : Nat) : Int := qdiv (qmul a.ref (w c)) S
    let vr := a.ref - qsum (q.map fun c => qmul (mq c) (v c))
    let vf := if f.isEmpty then 0 else qsum (f.map v) / f.length
    let ratio := qdiv (qabs vr) vf
    let n := Nat.min (ratio / one).toNat f.length
    let frac := if n = f.length then 0 else ratio - qn n
    let key (c : Nat) : Int :=
      let k := v c + (if (s.ctl c).ins then (if 0 ≤ sg then -g.sorthys else g.sorthys) else 0)
      if 0 ≤ sg then k else -k
    let order := (f.foldl (fun l c => keyInsert (key c, c) l) []).map (·.2)
    (q.map fun c => (c, mq c, 0)) ++ order.zipIdx.map fun p =>
      (p.1, if p.2 < n then qsign vr * one else if p.2 = n then qsign vr * qdiv (qmul frac vf) (v p.1) else 0, 0)

/-- One leg's entry from the triangular carrier: level 1 while `m` is above it (R255). `phi0`: position at the output
boundary, turns. A crossing that rounds to offset 0 sets the level the window starts at. -/
def carrierLeg (m phi0 : Int) (carp per : Nat) : Entry :=
  if one ≤ m then { mode := 2, lv0 := true }
  else if m ≤ -one then { mode := 2, lv0 := false }
  else
    let lo := (one - m) / 4
    let hi := (3 * one + m) / 4
    let cross := [(lo, true), (hi, false), (lo + one, true), (hi + one, false)]
    let off (x : Int) : Int := qround (x - phi0) (carp * per)
    let here := cross.filter fun c => decide (phi0 < c.1) && decide (off c.1 < per)
    let lv := decide (lo ≤ phi0) && decide (phi0 < hi)
    let lv0 := here.foldl (fun b c => if off c.1 ≤ 0 then c.2 else b) lv
    let xs := (here.filter fun c => decide (0 < off c.1)).map fun c => (off c.1).toNat
    let xs1 := match xs with
      | [x, y] => if x = y then [] else [x, y]
      | l => l.take 2
    { mode := 2, lv0 := lv0, x := xs1 }

/-- Position of the carrier at the output boundary of period `m` (R255). -/
def carrierAt (m carp theta : Nat) : Int := (((m % carp : Nat) : Int) * one / carp + q16 theta) % one

/-- The bytes of a cell's slot image that the arm engine writes: header, L0 and L1 (R165, R239, R241). -/
def State.writeLegs (s : State) (addr m vpred : Nat) (byp : Bool) (l0 l1 : Entry) : State :=
  let img := imageAt m addr
  { s with mem := ((s.mem.writeBytes img (slotHeader addr s.plan.per vpred true byp false false)).writeBytes (img + 8)
      (entryBytes l0)).writeBytes (img + 20) (entryBytes l1) }

/-- The prediction for the sample instant of the period governed, 50 mV (R239). -/
def State.predict (s : State) (arm addr : Nat) : Nat :=
  let c := s.ctl addr
  let v := s.cellV addr
  let ic (k : Nat) : Int := qmul (c.m.getD k 0) c.i - qdiv (c.p.getD k 0) v
  let phi := s.regF R.TRG.PHI 0 20
  let per := s.plan.per
  let q := perSec (ic 1) phi + perSec (ic 0) (per - phi)
  (clampInt 1 0xFFFE (qround (v + qdiv q (s.ccell arm)) 20)).toNat

/-- A cell's control record in CSM (R236); its layout is the model's (log 155). -/
def State.writeCtl (s : State) (addr : Nat) : State :=
  let c := s.ctl addr
  let w : List Word := [wd c.v, wd c.vpred, wdInt (c.m.getD 0 0 / 2), wdInt (c.trim / 2), wdInt (c.p.getD 0 0 / one),
    wdInt (c.z / one), wd c.stale, wdInt c.dps]
  { s with mem := s.mem.writeBytes (csmBase + 0x31000 + addr * 32) ((w.map fun x => natLe 4 x.toNat).flatten) }

/-- One member's legs for the output window: the carrier places an index; a sorted cell at ±1 or 0 is held (R255 to R257);
a stale cell keeps its last index (R240). -/
def State.placeCell (s : State) (g : CalPar) (arm addr : Nat) (idx trim : Int) : State :=
  let c := s.ctl addr
  let n := s.nextPidx
  let m := if c.stale = 0 then clampInt (-one) one (idx + s.sigCell 15 addr) else c.m.getD 0 0
  let phi0 := carrierAt n s.carp ((s.mem.readWord (csmBase + 0x20000 + 4 * addr)).fld 0 16)
  let sort := s.regB R.STK.SMODE (8 + arm)
  let held := sort && (m = 0 || m = one || m = -one)
  let leg (x : Int) : Entry := if held then { mode := 2, lv0 := decide (0 < x) } else carrierLeg x phi0 s.carp g.per
  let vp := s.predict arm addr
  ((s.setCtl addr { c with m := (m :: c.m).take 2, trim := trim, vpred := vp, ins := m ≠ 0 }).writeLegs addr n vp false
    (leg m) (leg (-m))).writeCtl addr

/-- A cell that is no member, or is lost: its legs off; a lost one bypassed (R241). -/
def State.parkCell (s : State) (arm addr : Nat) : State :=
  let c := s.ctl addr
  let vp := s.predict arm addr
  ((s.setCtl addr { c with m := ((0 : Int) :: c.m).take 2, trim := 0, vpred := vp, ins := false }).writeLegs addr s.nextPidx vp
    (s.calLost addr) {} {}).writeCtl addr

/-- An arm engine's stage 2. -/
def State.armStage2 (s : State) (g : CalPar) (arm : Nat) : State :=
  let idx := s.modIndexes g arm
  (s.armCells arm).foldl (fun t a => match idx.find? fun q => q.1 == a with
    | some q => t.placeCell g arm a q.2.1 q.2.2
    | none => t.parkCell arm a) s

/-! ### Stage 2: DAB phase shift (R258, R259) -/

/-- The power to send from a cell, W, before the clamp (R258). -/
def State.dabPower (s : State) (g : CalPar) (arm addr : Nat) (vref z : Int) : Int :=
  let w := qsum ((List.range g.narm).map fun a => (s.pset.arm a).w)
  let share := if w = 0 then 0 else qdiv (qmul (s.weight addr) s.pset.pg) w
  share + qmul (s.sigArm 10 arm) g.pb + qmul (q16 (s.armPar arm 5).toNat) (s.cellV addr - vref) + z + qmul (s.sigCell 9 addr) g.pb

/-- The DAB reference of a cell, V (R258). -/
def State.dabRef (s : State) (arm ref : Nat) : Int :=
  let ms := s.calMembers arm
  let v := if ref = 0xFFFF then (if ms.isEmpty then 0 else qsum (ms.map s.cellV) / ms.length) else (ref : Int) * one / 20
  v + qmul (s.sigArm 8 arm) (qmilli (s.vcref arm))

/-- The single-phase-shift law inverted: d of k (R259). -/
def dabShift (k : Int) : Int :=
  let x := one - 4 * qabs k
  qsign k * (one - qmul x (qrsqrt x)) / 2

/-- One cell's DAB power and group for the output window (R240, R241, R258, R259); the group stands in the image of a slot
that carries one. The integrator is held where the clamp of k or DSLEW limits the output in the direction of its update
(R260). -/
def State.dabCell (s : State) (g : CalPar) (arm php : Nat) (addr : Nat) : State :=
  let c := s.ctl addr
  let img := imageAt s.nextPidx addr + 32
  let ref := (s.mem.readWord (csmBase + 0x20800 + 4 * addr)).fld 0 16
  let hp := (s.armPar arm 2).fld 0 20
  let group := s.groupRing (addr / 8) (s.regF (R.RNG.RCFG (addr / 8)) 8 8)
  let put (t : State) (d : Group) : State :=
    (t.when group fun u => { u with mem := u.mem.writeBytes img (groupBytes d) }).writeCtl addr
  if ref = 0 || s.calLost addr then
    put (s.setCtl addr { c with z := if ref = 0 then 0 else c.z, dps := 0, dab := false, p := ((0 : Int) :: c.p).take 2 })
      { dmode := 0, hp := 0, php := 0, dps := 0 }
  else if c.stale ≠ 0 then
    put (s.setCtl addr { c with p := (c.p.getD 0 0 :: c.p).take 2 })
      (if c.dab then { dmode := 1, hp := hp, php := php, dps := c.dps } else { dmode := 0, hp := 0, php := 0, dps := 0 })
  else
    let vref := s.dabRef arm ref
    let v1 := s.cellV addr
    let vl := if s.pset.vlv < g.vlvnom / 10 then g.vlvnom / 10 else s.pset.vlv
    let v2 := qmul (q16 (s.armPar arm 4).toNat) vl
    let p := s.dabPower g arm addr vref c.z
    -- L_D in nH, HP in ru: L_D / HP_s = nH × 16 / HP
    let scale := qdiv (((s.armPar arm 3).toNat : Int) * 16) (hp : Int)
    let k := qdiv (qmul p scale) (qmul v1 v2)
    let dmax := q15 ((s.armPar arm 8).fld 0 16)
    let kmax := qmul dmax (one - dmax)
    let kc := clampInt (-kmax) kmax k
    let dz := perSec (qmul (q16 (s.armPar arm 6).toNat) (v1 - vref)) g.per
    let zmax := qn (s.armPar arm 7).toNat
    let slew := q16 ((s.armPar arm 8).fld 16 16) * hp / one
    let want := qround (dabShift kc) hp
    let dps := clampInt (c.dps - slew) (c.dps + slew) want
    let z := if (kc ≠ k && decide (0 < dz * k)) || decide (0 < dz * (want - dps)) then c.z
      else clampInt (-zmax) zmax (c.z + dz)
    let d := qdiv dps (hp : Int)
    let sent := if scale = 0 then 0 else qdiv (qmul (qmul v1 v2) (qmul d (one - qabs d))) scale
    put (s.setCtl addr { c with z := z, dps := dps, dab := true, p := (sent :: c.p).take 2 })
      { dmode := 1, hp := hp, php := php, dps := dps }

/-- A DAB engine's stage 2: the arm's continuous carrier phase, then every cell of the arm. -/
def State.dabStage2 (s : State) (g : CalPar) (arm : Nat) : State :=
  let hp := (s.armPar arm 2).fld 0 20
  let a := s.pset.arm arm
  let php := match a.php with
    | none => 0
    | some x => (((x : Int) - g.per) % ((2 * hp : Nat) : Int)).toNat
  let s1 := s.putP (s.pset.setArm arm { a with php := some php })
  (s1.armCells arm).foldl (fun t c => t.dabCell g arm php c) s1

/-! ### Stage 2: bus loop, power limit, energies, records (R250, R251, R253, R266, R267) -/

/-- P_fwd and P_rev in W; P_fwd in whole kW and its smallest term, for PLIM (R251, R263). -/
def State.powerLimits (s : State) (g : CalPar) : Int × Int × Nat × Nat :=
  let p := s.pset
  let maxF := s.sptF 6 0 16
  let rt := if p.rt then qmul (qsqrt p.a2) (qn maxF) else qn maxF
  let terms := [qn (s.regF R.STK.PLIMH 0 16), qn ((s.mem.readWord (csmBase + 0x34200)).fld 0 16), rt]
  let r := (terms.zipIdx 1).foldl (fun (b : Int × Nat) t => if t.1 < b.1 then t else b) (qn maxF, 0)
  let rev := if s.regB R.STK.SMODE 0 then Nat.min (s.sptF 6 16 16) (s.regF R.STK.PLIMH 16 16) else 0
  (r.1 * 1000 + qmul (s.sig 13) g.pb, qn rev * 1000, (r.1 / one).toNat, r.2)

/-- The LV bus loop and the power limit (R250, R251, R260, R263). -/
def State.busLoop (s : State) (g : CalPar) : State :=
  let p := s.pset
  let vr := qtenth (s.regF R.STK.VLVREF 0 16) + qmul (s.sig 11) g.vlvnom
  let err := qdiv (vr - p.vlv) g.vlvnom
  let raw := qdiv (qmul p.vlv p.ilv) g.pb + qmul g.lvkp err + p.xlv + s.sig 12
  let l := s.powerLimits g
  let hi := qdiv l.1 g.pb
  let lo := -(qdiv l.2.1 g.pb)
  let out := clampInt lo hi raw
  let d := perSec (qmul g.lvki err) g.per
  let hold := p.rt || p.pll = 2 || (decide (hi < raw) && decide (0 < d)) || (decide (raw < lo) && decide (d < 0))
  s.putP (({ p with pref := out, xlv := if hold then p.xlv else clampInt lo hi (p.xlv + d), plim := l.2.2 }.tap 11 err vr
    p.vlv).tap 12 err out p.vlv)

/-- The energy loops: corrections that sum to zero, and ARM_IMBAL (R253). -/
def State.energyLoop (s : State) (g : CalPar) : State :=
  let p := s.pset
  let arms := List.range g.narm
  let ratio (a : Nat) : Int := qdiv (p.arm a).e (p.arm a).en
  let mean := if g.narm = 0 then 0 else qsum (arms.map ratio) / g.narm
  let eps (a : Nat) : Int := ratio a - mean
  let y (a : Nat) : Int := clampInt (-(one / 10)) (one / 10) ((p.arm a).y + perSec (qmul g.kei (eps a)) g.per)
  let raw (a : Nat) : Int := -(qmul g.kep (eps a) + y a)
  let bias := if g.narm = 0 then 0 else qsum (arms.map raw) / g.narm
  let p1 := arms.foldl (fun q a => q.setArm a { q.arm a with y := y a, dP := raw a - bias + s.sigArm 6 a }) p
  let a := s.regF R.STK.INJCFG 16 3
  (s.putP (p1.tap 6 (eps a) (raw a - bias) (ratio a))).calRaise (arms.any fun x => decide (g.eimax < qabs (eps x)))
    Src.ARM_IMBAL

/-- Status of a register of the STK page, as `stkStatus` numbers them (R269). -/
def State.calStatus (s : State) (k : Nat) : Word :=
  let p := s.pset
  match k with
  | 0 => wd (p.pll + 8 * b2n p.rt + 16 * b2n p.ramp.isSome + 32 * b2n p.ilim + 64 * b2n p.vlim + 128 * b2n p.inj.isSome)
  | 1 => wdInt (qround p.f 1000)
  | 2 => wdInt (clampInt 0 0xFFFF (qround (qsqrt p.a2) 16384))
  | 3 => wdInt (sat32 (qround p.pg 1))
  | 4 => wdInt (clampInt 0 0xFFFF (qround p.vlv 10))
  | 5 => wd (Nat.min p.plim.1 0xFFFF + 65536 * p.plim.2)
  | 6 => wd (b2n p.inj.isSome + 2 * b2n p.injDone + 4 * b2n p.injAbort + 65536 * p.injCnt)
  | 7 => wd p.sat
  | _ => wd (Nat.min 0xFFFF p.bridged)

/-- The stack status record (R236): angle, frequency, a², dq components and powers, loop states; the status words at the
places `stkStatus` reads, then the others (log 155). -/
def State.writeStatus (s : State) : State :=
  let p := s.pset
  let l : List Int := [(p.theta : Int), p.f / 65536, p.a2 / 16, p.dq.getD 0 0 / 16, p.dq.getD 1 0 / 16, p.dq.getD 2 0 / 16,
    p.dq.getD 3 0 / 16, p.pg / one, p.pref / 16, p.xd / 16, p.xq / 16, p.xlv / 16, p.x / 65536]
  { s with mem := ((List.range 9).map s.calStatus ++ l.map wdInt).zipIdx.foldl (fun m q =>
      m.writeWord (csmBase + 0x30000 + 4 * statusWord q.2) q.1) s.mem }

/-- The capture staging: one word for each selector, 0 where it is disabled (R267). Tap 0 is the injected signal. -/
def State.writeStaging (s : State) : State :=
  let word (c : Nat) : Word :=
    let b := s.regF R.STK.CAPSEL (8 * c) 8
    let pt := b % 16
    let l := NMap.get [] s.pset.taps pt
    if !b.testBit 7 then 0
    else if b / 16 % 4 = 0 then wdInt (s.sig pt / 16) else wdInt (l.getD (b / 16 % 4 - 1) 0 / 16)
  { s with mem := s.mem.writeBytes (csmBase + 0x33000) (((List.range 4).map fun c => natLe 4 (word c).toNat).flatten) }

/-- Taps of the arm and cell points, as stage 2 left them. -/
def State.calTaps (s : State) : State :=
  let arm := s.regF R.STK.INJCFG 16 3
  let cell := s.regF R.STK.INJCFG 8 8
  let c := s.ctl cell
  let v := s.cellV cell
  let ref := s.dabRef (s.armOf cell) 0xFFFF
  let a := s.pset.arm arm
  s.putP (((((((s.pset.tap 7 a.dP a.ref a.i).tap 8 (v - ref) ref v).tap 9 (v - ref) (c.p.getD 0 0) v).tap 10 0
    s.pset.pg a.w).tap 13 0 (qn s.pset.plim.1) s.pset.pg).tap 14 (v - ref) c.trim v).tap 15 0 (c.m.getD 0 0) v)

/-- Stage 2 of the set, from TS5 (R232): arm engines, DAB engines, then the stack engine. -/
def State.calStage2 (s : State) : State :=
  let g := s.calPar
  let arms := List.range g.narm
  let s1 := arms.foldl (fun t a => t.when (t.progRuns (armEngine a)) fun u => u.armStage2 g a) s
  let s2 := arms.foldl (fun t a => t.when (t.progRuns (dabEngine g.topo a)) fun u => u.dabStage2 g a) s1
  s2.when (s2.progRuns stackEngine) fun t =>
    ((t.busLoop g).energyLoop g).calTaps.writeStaging.injMove.writeStatus

/-! ### The end of the paths (R261) -/

/-- The engines that run a program of the set (R231). -/
def State.setEngines (s : State) : List Nat :=
  let g := s.calPar
  (List.range 7).filter fun n => n == stackEngine ||
    (List.range g.narm).any fun a => n == armEngine a || n == dabEngine g.topo a

/-- At the end of its path each engine of the set that reached it reports its sticky flags and clears them; CTRL_SAT. An
engine that overran (CYCLAST 0xFFFF) has no end of its path in the period. The flags that the programs' own arithmetic leaves
are free (log 179). -/
def State.calEnd (s : State) : State :=
  let ended := s.setEngines.filter fun n =>
    s.engState (s.runsFor n) = 1 && s.reg (R.PE.CYCLAST (engPage (s.runsFor n))) ≠ 0xFFFF
  let s0 := ended.foldl (fun t n => t.setFlags (t.runsFor n) 0 (Config.setFlags n (t.regN R.TRG.PIDX)).toNat) s
  let mine := ended.filter fun n => s0.flagsOf (s0.runsFor n) ≠ 0
  let s1 := mine.foldl (fun t n => t.setFlags (t.runsFor n) 15 0) s0
  let m := mine.foldl (fun k n => k + 2 ^ n) 0
  ((s1.putP { s1.pset with sat := m }).writeStatus).calRaise (m ≠ 0) Src.CTRL_SAT

/-- What the recognition of a channel sets going in the program set (R232): stage 1 at TS1, stage 2 at TS5; at TS2 the paths
have ended. -/
def State.calRecognised (s : State) (k : Nat) : State :=
  if !s.shipped.stack || !s.plan.started then s
  else match k with
    | 1 => s.calStage1
    | 5 => s.calStage2
    | 2 => s.calEnd
    | _ => s

end Sys2Proof.Machine
end

