-- ==== Sys2Proof/Machine/CmdEngines.lean ====
section
/-!
DEFINITION. Sys2Proof/Machine/CmdEngines.lean: the meanings of the commands of channel recognition, CSM accesses,
PE7 (chapter 08), the performance counters (chapter 20).
-/
namespace Sys2Proof.Machine

/-- CHANNEL_RECOGNISED (R277); with it the stage that the channel releases in the shipped programs (R232). -/
def execChannelRecognised (k : Fin 16) (cycles : Nat) (s : State) : Res := .next ((s.channelRecognised k.val cycles).calRecognised k.val)

/-- LDC_DELIVER (R274). -/
def execLdcDeliver (eng : Fin 9) (s : State) : Res := .next (s.ldcDeliver eng.val)

/-- STC_WRITE (R275). -/
def execStcWrite (eng : Fin 9) (s : State) : Res := .next (s.stcWrite eng.val)

/-- PE7_FREE (R287, R290). -/
def execPe7Free (target : BitVec 3) (s : State) : Res :=
  .next (s.hostWr 0x67 fun t => t.pecfgMode 0 target.toNat)

/-- PE7_SHADOW (R287, R288). -/
def execPe7Shadow (target : BitVec 3) (s : State) : Res :=
  .next (s.hostWr 0x67 fun t => t.pecfgMode 1 target.toNat)

/-- PE7_REPLACE (R287, R290). -/
def execPe7Replace (target : BitVec 3) (s : State) : Res :=
  .next (s.hostWr 0x67 fun t => t.pecfgMode 2 target.toNat)

/-- SHADOW_COPY_DONE (R288). -/
def execShadowCopyDone (s : State) : Res := .next (s.shadowDone)

/-- SHADOW_REARM (R288). -/
def execShadowRearm (s : State) : Res := .next (s.hostWr 0x67 fun t => t.shadowRearm)

/-- PREH_WRITE (R553). -/
def execPrehWrite (src : HSrc) (ctr : Fin 32) (hi : BitVec 16) (s : State) : Res :=
  .next (s.hostWr 0xA8 fun t => t.pmcSel.prehWrite (srcNo src) ctr.val hi.toNat)

/-- COUNTER_OVERFLOW (R554). -/
def execCounterOverflow (eng : Fin 8) (ctr : Fin 32) (s : State) : Res := .next ((s.pmcSync eng.val).pmcOverflow eng.val ctr.val)

/-- PC_SAMPLE (R555). -/
def execPcSample (eng : Fin 8) (s : State) : Res := .next (s.pcSample eng.val)

/-- SNAP (R557). -/
def execSnap (mask : BitVec 8) (s : State) : Res := .next (s.hostWr 0xA8 fun t => t.pmcSnapMask mask.toNat)

/-- SMPOP (R556). -/
def execSmpop (s : State) : Res := .next (s.hostWr 0xA8 fun t => t.smpPop)

/-- CNTL_READ (R559). -/
def execCntlRead (src : HSrc) (ctr : Fin 32) (s : State) : Res :=
  .next (s.hostRd 0xA8 fun t => (t.pmcSel.cntlRead (srcNo src) ctr.val).1)

end Sys2Proof.Machine
end

