-- ==== Sys2Proof/Machine/CmdHost.lean ====
section
/-!
DEFINITION. Sys2Proof/Machine/CmdHost.lean: the meanings of the commands of register access and the host port (chapter 02).
-/
namespace Sys2Proof.Machine

/-- WLCK_OPEN (R58). -/
def execWlckOpen (page : Nat) (s : State) : Res := .next (s.hostWr page fun t => t.wlckWrite page 0x5A5A)

/-- WLCK_CLOSE (R58). -/
def execWlckClose (page : Nat) (v : Word) (s : State) : Res :=
  .next (s.hostWr page fun t => if v = 0x5A5A then t else t.wlckWrite page v)

/-- REGISTER_WRITE (R13). -/
def execRegisterWrite (src : HSrc) (page off : Nat) (v : Word) (s : State) : Res :=
  .next (s.hostWr page fun t => (t.hostRegWrite (srcNo src) page off v).tieSettle)

/-- ROC_READ (R13). -/
def execRocRead (page off : Nat) (s : State) : Res := .next (s.hostRd page fun t => t.rocRead (page * 0x1000 + off))

/-- HOST_WRITE (R74). -/
def execHostWrite (by_ : HostFrom) (bytes : List Byte) (s : State) : Res :=
  .next (s.hostReq by_.src by_.via bytes true)

/-- HOST_READ (R79). -/
def execHostRead (by_ : HostFrom) (bytes : List Byte) (s : State) : Res :=
  .next (s.hostReq by_.src by_.via bytes true)

/-- HOST_FETCH (R73). -/
def execHostFetch (by_ : HostFrom) (bytes : List Byte) (clocked : Bool) (s : State) : Res :=
  .next (s.hostReq by_.src by_.via bytes clocked)

/-- HOST_STATUS (R70). -/
def execHostStatus (by_ : HostFrom) (bytes : List Byte) (s : State) : Res :=
  .next (s.hostReq by_.src by_.via bytes true)

/-- HSP_FRAME_ABORT (R73). -/
def execHspFrameAbort (bytes : List Byte) (s : State) : Res := .next (s.hostReq .hsp {} bytes false)

/-- HOST_WRITE_APPLY (R77). -/
def execHostWriteApply (block : Nat) (s : State) : Res := .next ((s.writeApply block).tieSettle)

/-- HOST_READ_PERFORM (R81). -/
def execHostReadPerform (s : State) : Res := .next (s.readPerform)

end Sys2Proof.Machine
end

