-- ==== Sys2Proof/Machine/CmdIsa.lean ====
section
/-!
DEFINITION. Sys2Proof/Machine/CmdIsa.lean: the meanings of the commands of the instructions of the engines (chapter 09).
-/
namespace Sys2Proof.Machine

/-- NOP (R303). -/
def execNop (eng : Fin 10) (s : State) : Res := .next (s.insCmd eng.val 0x00)

/-- ADD (R304). -/
def execAdd (eng : Fin 10) (s : State) : Res := .next (s.insCmd eng.val 0x01)

/-- SUB (R304). -/
def execSub (eng : Fin 10) (s : State) : Res := .next (s.insCmd eng.val 0x02)

/-- ADDM (R304). -/
def execAddm (eng : Fin 10) (s : State) : Res := .next (s.insCmd eng.val 0x03)

/-- SUBM (R304). -/
def execSubm (eng : Fin 10) (s : State) : Res := .next (s.insCmd eng.val 0x04)

/-- ABS (R304). -/
def execAbs (eng : Fin 10) (s : State) : Res := .next (s.insCmd eng.val 0x05)

/-- NEG (R304). -/
def execNeg (eng : Fin 10) (s : State) : Res := .next (s.insCmd eng.val 0x06)

/-- MIN (R304). -/
def execMin (eng : Fin 10) (s : State) : Res := .next (s.insCmd eng.val 0x07)

/-- MAX (R304). -/
def execMax (eng : Fin 10) (s : State) : Res := .next (s.insCmd eng.val 0x08)

/-- AND (R304). -/
def execAnd (eng : Fin 10) (s : State) : Res := .next (s.insCmd eng.val 0x09)

/-- OR (R304). -/
def execOr (eng : Fin 10) (s : State) : Res := .next (s.insCmd eng.val 0x0A)

/-- XOR (R304). -/
def execXor (eng : Fin 10) (s : State) : Res := .next (s.insCmd eng.val 0x0B)

/-- SHL (R304). -/
def execShl (eng : Fin 10) (s : State) : Res := .next (s.insCmd eng.val 0x0C)

/-- SHR (R304). -/
def execShr (eng : Fin 10) (s : State) : Res := .next (s.insCmd eng.val 0x0D)

/-- SHRL (R304). -/
def execShrl (eng : Fin 10) (s : State) : Res := .next (s.insCmd eng.val 0x0E)

/-- NORM (R304). -/
def execNorm (eng : Fin 10) (s : State) : Res := .next (s.insCmd eng.val 0x0F)

/-- CLAMP (R304). -/
def execClamp (eng : Fin 10) (s : State) : Res := .next (s.insCmd eng.val 0x10)

/-- ADDI (R304). -/
def execAddi (eng : Fin 10) (s : State) : Res := .next (s.insCmd eng.val 0x11)

/-- ADDMI (R304). -/
def execAddmi (eng : Fin 10) (s : State) : Res := .next (s.insCmd eng.val 0x12)

/-- MOVI (R304). -/
def execMovi (eng : Fin 10) (s : State) : Res := .next (s.insCmd eng.val 0x13)

/-- MOVH (R304). -/
def execMovh (eng : Fin 10) (s : State) : Res := .next (s.insCmd eng.val 0x14)

/-- CMP (R304). -/
def execCmp (eng : Fin 10) (s : State) : Res := .next (s.insCmd eng.val 0x15)

/-- CMPI (R304). -/
def execCmpi (eng : Fin 10) (s : State) : Res := .next (s.insCmd eng.val 0x16)

/-- PLOG (R304). -/
def execPlog (eng : Fin 10) (s : State) : Res := .next (s.insCmd eng.val 0x17)

/-- EXTR (R304). -/
def execExtr (eng : Fin 10) (s : State) : Res := .next (s.insCmd eng.val 0x18)

/-- INS (R304). -/
def execIns (eng : Fin 10) (s : State) : Res := .next (s.insCmd eng.val 0x19)

/-- LD (R305). -/
def execLd (eng : Fin 10) (upset : BitVec 2) (s : State) : Res := .next (s.ldCmd eng.val upset.toNat)

/-- ST (R305). -/
def execSt (eng : Fin 10) (s : State) : Res := .next (s.insCmd eng.val 0x1B)

/-- LDC (R274). -/
def execLdc (eng : Fin 10) (s : State) : Res := .next (s.insCmd eng.val 0x1C)

/-- STC (R274). -/
def execStc (eng : Fin 10) (s : State) : Res := .next (s.insCmd eng.val 0x1D)

/-- BR (R304). -/
def execBr (eng : Fin 10) (s : State) : Res := .next (s.insCmd eng.val 0x1E)

/-- CALL (R304). -/
def execCall (eng : Fin 10) (s : State) : Res := .next (s.insCmd eng.val 0x1F)

/-- RET (R304). -/
def execRet (eng : Fin 10) (s : State) : Res := .next (s.insCmd eng.val 0x20)

/-- DBNZ (R304). -/
def execDbnz (eng : Fin 10) (s : State) : Res := .next (s.insCmd eng.val 0x21)

/-- WAIT (R306). -/
def execWait (eng : Fin 10) (s : State) : Res := .next (s.insCmd eng.val 0x22)

/-- FCLR_FLAGS (R304). -/
def execFclrFlags (eng : Fin 10) (s : State) : Res := .next (s.insCmd eng.val 0x23)

/-- FRD (R304). -/
def execFrd (eng : Fin 10) (s : State) : Res := .next (s.insCmd eng.val 0x24)

/-- MUL (R307). -/
def execMul (eng : Fin 10) (s : State) : Res := .next (s.insCmd eng.val 0x30)

/-- MAC (R307). -/
def execMac (eng : Fin 10) (s : State) : Res := .next (s.insCmd eng.val 0x31)

/-- MSU (R307). -/
def execMsu (eng : Fin 10) (s : State) : Res := .next (s.insCmd eng.val 0x32)

/-- MULW (R307). -/
def execMulw (eng : Fin 10) (s : State) : Res := .next (s.insCmd eng.val 0x33)

/-- MACW (R307). -/
def execMacw (eng : Fin 10) (s : State) : Res := .next (s.insCmd eng.val 0x34)

/-- ALD (R307). -/
def execAld (eng : Fin 10) (s : State) : Res := .next (s.insCmd eng.val 0x35)

/-- EXT (R307). -/
def execExt (eng : Fin 10) (s : State) : Res := .next (s.insCmd eng.val 0x36)

/-- ADDA (R307). -/
def execAdda (eng : Fin 10) (s : State) : Res := .next (s.insCmd eng.val 0x37)

/-- ASH (R307). -/
def execAsh (eng : Fin 10) (s : State) : Res := .next (s.insCmd eng.val 0x38)

/-- SINCOS (R308). -/
def execSincos (eng : Fin 10) (s : State) : Res := .next (s.insCmd eng.val 0x39)

/-- ATAN2 (R308). -/
def execAtan2 (eng : Fin 10) (s : State) : Res := .next (s.insCmd eng.val 0x3A)

/-- RECIP (R308). -/
def execRecip (eng : Fin 10) (s : State) : Res := .next (s.insCmd eng.val 0x3B)

/-- RSQRT (R308). -/
def execRsqrt (eng : Fin 10) (s : State) : Res := .next (s.insCmd eng.val 0x3C)

/-- DIV (R307). -/
def execDiv (eng : Fin 10) (s : State) : Res := .next (s.insCmd eng.val 0x3D)

/-- MAC_RESULT (R310). -/
def execMacResult (eng : Fin 10) (s : State) : Res := .next (s.macResult eng.val)

end Sys2Proof.Machine
end

