-- ==== Sys2Proof/Machine/CmdJig.lean ====
section
/-!
DEFINITION. Sys2Proof/Machine/CmdJig.lean: the meanings of the commands of the Jig engines, cell lifecycle and spares (chapter 10).
-/
namespace Sys2Proof.Machine

/-- JG0_PASS (R320). -/
def execJg0Pass (fit : Nat) (cycles : BitVec 16) (s : State) : Res := .next (s.jg0Pass fit cycles.toNat)

/-- JIG_IDLE_PASS (R317). -/
def execJigIdlePass (eng : Fin 2) (cycles : BitVec 16) (s : State) : Res := .next (s.jigIdlePass eng.val cycles.toNat)

/-- JIG_TIMEOUT (R319). -/
def execJigTimeout (inst : Nat) (s : State) : Res := .next (s.jigTimeout inst)

/-- CMD_INSERT (R338). -/
def execCmdInsert (addr : BitVec 8) (s : State) : Res := .next (s.hostWr 0x50 fun t => t.cellCommand addr.toNat 1)

/-- CMD_REMOVE (R338). -/
def execCmdRemove (addr : BitVec 8) (s : State) : Res := .next (s.hostWr 0x50 fun t => t.cellCommand addr.toNat 2)

/-- CMD_BYPASS (R338). -/
def execCmdBypass (addr : BitVec 8) (s : State) : Res := .next (s.hostWr 0x50 fun t => t.cellCommand addr.toNat 3)

/-- CMD_CHARGE (R338). -/
def execCmdCharge (addr : BitVec 8) (s : State) : Res := .next (s.hostWr 0x50 fun t => t.cellCommand addr.toNat 4)

/-- CMD_RETIRE (R338). -/
def execCmdRetire (addr : BitVec 8) (s : State) : Res := .next (s.hostWr 0x50 fun t => t.cellCommand addr.toNat 5)

/-- CMD_RETURN (R338). -/
def execCmdReturn (addr : BitVec 8) (s : State) : Res := .next (s.hostWr 0x50 fun t => t.cellCommand addr.toNat 6)

/-- JCMD_START (R347). -/
def execJcmdStart (s : State) : Res := .next (s.hostWr 0x52 fun t => t.stackCommand 1)

/-- JCMD_STOP (R347). -/
def execJcmdStop (s : State) : Res := .next (s.hostWr 0x52 fun t => t.stackCommand 2)

/-- TBLD (R344). -/
def execTbld (eng : Fin 2) (bank : Fin 4) (s : State) : Res :=
  .next (s.hostWr (0x51 + eng.val) fun t => t.tbld eng.val bank.val)

/-- BANK_CHECK_DONE (R324). -/
def execBankCheckDone (eng : Fin 2) (s : State) : Res := .next (s.bankDone eng.val)

/-- RETCLR (R341). -/
def execRetclr (addr : BitVec 8) (s : State) : Res := .next (s.hostWr 0x50 fun t => t.retclr addr.toNat)

/-- ROW_REPAIR (R343). -/
def execRowRepair (mem : Nat) (row : Nat) (s : State) : Res := .next (s.rowRepair mem row)

end Sys2Proof.Machine
end

