-- ==== Sys2Proof/Machine/CmdLanes.lean ====
section
/-!
DEFINITION. Sys2Proof/Machine/CmdLanes.lean: the meanings of the commands of EXL lanes (chapter 04).
-/
namespace Sys2Proof.Machine

/-- LOS_SET (R134). -/
def execLosSet (lane : Fin 32) (dark : Bool) (pwr : BitVec 16) (s : State) : Res :=
  .next ((s.losSet lane.val dark pwr).tieSettle)

/-- LOS_CLEAR (R134). -/
def execLosClear (lane : Fin 32) (pwr : BitVec 16) (s : State) : Res :=
  .next ((s.losClear lane.val pwr).tieSettle)

/-- LANE_LOCKED (R135). -/
def execLaneLocked (rx : LaneLock) (s : State) : Res := .next ((s.laneLocked rx.lane.val rx.comma).tieSettle)

/-- LOL_SET (R135). -/
def execLolSet (lane : Fin 32) (s : State) : Res := .next ((s.lolSet lane.val).tieSettle)

/-- ALIGNMENT_LOSS (R135). -/
def execAlignmentLoss (lane : Fin 32) (s : State) : Res := .next ((s.alignLost lane.val).tieSettle)

/-- TRAINING_FRAME_TX (R138). -/
def execTrainingFrameTx (lane : Fin 32) (s : State) : Res := .next ((s.trainTx lane.val).tieSettle)

/-- TRAINING_FRAME_RX (R139). -/
def execTrainingFrameRx (lane : Fin 32) (f : TrainFrame) (s : State) : Res :=
  .next ((s.trainRx lane.val f.start f.bytes).tieSettle)

/-- TAP_APPLY (R140). -/
def execTapApply (lane : Fin 32) (s : State) : Res := .next (s.tapApply lane.val)

/-- EYE_MEASURE_DONE (R141). -/
def execEyeMeasureDone (lane : Fin 32) (eye : BitVec 6) (s : State) : Res :=
  .next ((s.eyeDone lane.val eye.toNat).tieSettle)

/-- TRAIN_TIMEOUT (R143). -/
def execTrainTimeout (lane : Fin 32) (s : State) : Res := .next ((s.trainExpired lane.val).tieSettle)

/-- TRAIN_SILENCE (R143). -/
def execTrainSilence (lane : Fin 32) (s : State) : Res := .next ((s.trainSilent lane.val).tieSettle)

/-- RETRAIN (R133). -/
def execRetrain (lane : Fin 32) (s : State) : Res :=
  .next (s.hostWr (0x10 + lane.val) fun t => (t.retrain lane.val).tieSettle)

/-- LANE_MODE_WRITE (R149). -/
def execLaneModeWrite (lane : Fin 32) (mode : BitVec 2) (s : State) : Res :=
  .next (s.hostWr (0x10 + lane.val) fun t => (t.laneMode lane.val mode.toNat).tieSettle)

/-- INJGO (R147). -/
def execInjgo (lane : Fin 32) (s : State) : Res := .next (s.hostWr (0x10 + lane.val) fun t => t.injGo lane.val)

/-- LANE_CODE (R151). -/
def execLaneCode (lane : Fin 32) (idles : List Nat) (drift : List Int) (pwr : BitVec 16) (s : State) : Res :=
  .next (s.laneMs lane.val (idles.zip drift) pwr)

/-- LANE_FIFO (R131). -/
def execLaneFifo (rx : FifoBreak) (s : State) : Res :=
  .next (s.laneFifo rx.lane.val rx.drift rx.inFrame)

/-- CHECKER_LOCK (R146). -/
def execCheckerLock (rx : LaneBits) (s : State) : Res := .next (s.lineBits rx.lane.val rx.line)

/-- CHECKER_UNLOCK (R146). -/
def execCheckerUnlock (lane : Fin 32) (line : List Bool) (last : Bool) (s : State) : Res :=
  .next (s.lineBits lane.val (line ++ [last]))

/-- BITCNTL_READ (R146). -/
def execBitcntlRead (lane : Fin 32) (src : HSrc) (line : List Bool) (s : State) : Res :=
  .next ((s.lineBits lane.val line).hostRd (0x10 + lane.val) fun t => t.bitcntLatch lane.val (srcNo src))

/-- CODE_VIOLATION (R128). -/
def execCodeViolation (lane : Fin 32) (rx : RxGroups) (s : State) : Res := .next (s.rxGroups lane.val rx.groups)

end Sys2Proof.Machine
end

