-- ==== Sys2Proof/Machine/CmdLocal.lean ====
section
/-!
DEFINITION. Sys2Proof/Machine/CmdLocal.lean: the meanings of the commands of local bridges, trips and choppers (chapter 12).
-/
namespace Sys2Proof.Machine

/-- TRIP_ACTIVE (R378). -/
def execTripActive (inputs : BitVec 12) (s : State) : Res := .next (s.tripActive inputs.toNat)

/-- TRIP_INACTIVE (R380). -/
def execTripInactive (input : Fin 12) (s : State) : Res := .next (s.tripInactive input.val)

/-- BLANKING_END (R384). -/
def execBlankingEnd (leg : Fin 12) (s : State) : Res := .next (s.blankingEnd leg.val)

/-- TLATCH_CLEAR (R381). -/
def execTlatchClear (v : Word) (s : State) : Res := .next (s.hostWr 0x78 fun t => t.tlatchClear v)

/-- CHOPPER_RESULT (R386). -/
def execChopperResult (chop : Fin 2) (s : State) : Res := .next (s.chopperResult chop.val)

/-- CHOP_CEIL_RELEASE (R388). -/
def execChopCeilRelease (chop : Fin 2) (s : State) : Res := .next (s.chopRelease chop.val)

/-- CHTMIN_EXPIRY (R387). -/
def execChtminExpiry (chop : Fin 2) (s : State) : Res := .next (s.chtminExpiry chop.val)

/-- CHOP_SRC (R389). -/
def execChopSrc (chop : Fin 2) (s : State) : Res := .next (s.chopSrc chop.val)

/-- LEG_TRANSITION (R383). -/
def execLegTransition (leg : Fin 12) (s : State) : Res := .next (s.legTransition leg.val)

end Sys2Proof.Machine
end

