-- ==== Sys2Proof/Machine/CmdMeas.lean ====
section
/-!
DEFINITION. Sys2Proof/Machine/CmdMeas.lean: the meanings of the commands of converters and modulator inputs (chapter 13).
-/
namespace Sys2Proof.Machine

/-- CONVERSION_DONE (R397). -/
def execConversionDone (conv : Fin 4) (bits : List Bool) (s : State) : Res := .next (s.conversionDone conv.val bits)

/-- SEQUENCE_TRIGGER (R397). -/
def execSequenceTrigger (conv : Fin 4) (target : Nat) (s : State) : Res := .next (s.sequenceTrigger conv.val target)

/-- UGO (R404). -/
def execUgo (mask : BitVec 4) (s : State) : Res := .next (s.hostWr cnvPage fun t => t.ugo mask.toNat)

/-- URGENT_TRIGGER (R404). -/
def execUrgentTrigger (conv : Fin 4) (s : State) : Res := .next (s.urgentTrigger conv.val)

/-- URGENT_START (R404). -/
def execUrgentStart (conv : Fin 4) (s : State) : Res := .next (s.urgentStart conv.val)

/-- URGENT_DONE (R404). -/
def execUrgentDone (conv : Fin 4) (bits : List Bool) (s : State) : Res := .next (s.urgentDone conv.val bits)

/-- REF_READY (R402). -/
def execRefReady (conv : Fin 4) (s : State) : Res := .next (s.refReady conv.val)

/-- CVCFG_WRITE (R399). -/
def execCvcfgWrite (conv : Fin 4) (v : Word) (s : State) : Res :=
  .next (s.hostWr cnvPage fun t => t.cvcfgWrite conv.val v)

/-- CVREF_WRITE (R402). -/
def execCvrefWrite (conv : Fin 4) (v : Word) (s : State) : Res :=
  .next (s.hostWr cnvPage fun t => t.cvrefWrite conv.val v)

/-- MOD_RESULT (R401). -/
def execModResult (input : Fin 16) (bits : List Bool) (s : State) : Res := .next (s.modResult input.val bits)

/-- MOD_ALIGN (R408). -/
def execModAlign (input : Fin 16) (target : Nat) (s : State) : Res := .next (s.modAlign input.val target)

/-- MOD_STUCK (R409). -/
def execModStuck (input : Fin 16) (s : State) : Res := .next (s.modStuck input.val)

/-- MOD_UNSTUCK (R409). -/
def execModUnstuck (input : Fin 16) (s : State) : Res := .next (s.modUnstuck input.val)

/-- MDCFG_WRITE (R415). -/
def execMdcfgWrite (input : Fin 16) (v : Word) (s : State) : Res :=
  .next (s.hostWr modPage fun t => t.mdcfgWrite input.val v)

/-- MCLKCFG_WRITE (R406). -/
def execMclkcfgWrite (clk : Fin 4) (v : Word) (s : State) : Res :=
  .next (s.hostWr modPage fun t => t.mclkcfgWrite clk.val v)

end Sys2Proof.Machine
end

