-- ==== Sys2Proof/Machine/CmdPair.lean ====
section
/-!
DEFINITION. Sys2Proof/Machine/CmdPair.lean: the meanings of the commands of head pairing (chapter 11).
-/
namespace Sys2Proof.Machine

/-- HCMD_HANDOVER (R366). -/
def execHcmdHandover (s : State) : Res := .next (s.hostWr hprPage fun t => t.handover)

/-- HCMD_LEAVE (R353). -/
def execHcmdLeave (s : State) : Res := .next (s.hostWr hprPage fun t => t.leave)

/-- HCMD_JOIN (R353). -/
def execHcmdJoin (s : State) : Res := .next (s.hostWr hprPage fun t => t.join)

/-- CLAIM_IN_EDGE (R355). -/
def execClaimInEdge (s : State) : Res := .next (s.claimEdge)

/-- CLAIM_BLOCK_END (R355). -/
def execClaimBlockEnd (s : State) : Res := .next (s.blockEnd)

/-- CONTEST_WINDOW_END (R355). -/
def execContestWindowEnd (s : State) : Res := .next (s.contestWon)

/-- CLAIM_REQUEST (R365). -/
def execClaimRequest (s : State) : Res := .next (s.claimRequest)

/-- PAIR_YIELD (R366). -/
def execPairYield (s : State) : Res := .next (s.pairYield)

/-- ACTIVE_COPY_RELAY (R357). -/
def execActiveCopyRelay (ring : Fin 32) (f : RxFrame) (s : State) : Res := .next (s.activeCopy ring.val f)

/-- RELAY_SUBST (R358). -/
def execRelaySubst (ring : Fin 32) (s : State) : Res := .next (s.relaySubst ring.val)

/-- TIE_BEACON_RX (R359). -/
def execTieBeaconRx (f : RxFrame) (s : State) : Res := .next (s.tieBeaconRx f)

/-- TWIN_DIVERGE (R359). -/
def execTwinDiverge (s : State) : Res := .next (s.twinDiff)

/-- TIE_LOST (R368). -/
def execTieLost (s : State) : Res := .next (s.tieLostNow)

/-- JIG_STATE_TX (R350). -/
def execJigStateTx (launch : Nat) (s : State) : Res := .next (s.jigTx launch)

/-- JIG_STATE_RX (R363). -/
def execJigStateRx (f : RxFrame) (s : State) : Res := .next (s.jigRx f)

/-- TIE_SLOTS_TX (R360). -/
def execTieSlotsTx (s : State) : Res := .next (s.tieSlotsTx)

/-- TIE_SLOTS_RX (R360). -/
def execTieSlotsRx (f : RxFrame) (s : State) : Res := .next (s.tieSlotsRx f)

/-- TIE_RANGING_TX (R362). -/
def execTieRangingTx (launch : Nat) (s : State) : Res := .next (s.tieRangeTx launch)

/-- TIE_RANGING_ECHO (R362). -/
def execTieRangingEcho (f : RxFrame) (launch : Nat) (s : State) : Res := .next (s.tieRangeEcho f launch)

/-- TIE_RANGING_RX (R362). -/
def execTieRangingRx (f : RxFrame) (s : State) : Res := .next (s.tieRangeRx f)

/-- RANGING_COPY_TX (R361). -/
def execRangingCopyTx (launch : Nat) (s : State) : Res := .next (s.rangeCopyTx launch)

/-- RANGING_COPY_RX (R361). -/
def execRangingCopyRx (f : RxFrame) (s : State) : Res := .next (s.rangeCopyRx f)

/-- LISTEN_TIMEOUT (R353). -/
def execListenTimeout (s : State) : Res := .next (s.listenTimeout)

/-- RELAYED_COPY_RX (R366). -/
def execRelayedCopyRx (ring : Fin 32) (f : RxFrame) (s : State) : Res := .next (s.relayedCopy ring.val f)

end Sys2Proof.Machine
end

