-- ==== Sys2Proof/Machine/CmdPeriod.lean ====
section
/-!
DEFINITION. Sys2Proof/Machine/CmdPeriod.lean: the meanings of the commands of the frame plan and the page controls (chapters 01 and 02).
-/
namespace Sys2Proof.Machine

/-- PERIOD_START (R35). -/
def execPeriodStart (s : State) : Res := .next (s.periodStart)

/-- OUTPUT_BOUNDARY (R46). -/
def execOutputBoundary (s : State) : Res := .next (s.outputBoundary)

/-- COLLECTOR_LAUNCH (R168). -/
def execCollectorLaunch (s : State) : Res := .next (s.collectorLaunch)

/-- TELEMETRY_CLOSE (R44). -/
def execTelemetryClose (s : State) : Res := .next (s.closeTelemetry)

/-- COMMAND_LAUNCH (R116). -/
def execCommandLaunch (s : State) : Res := .next (s.commandLaunch)

/-- SLOT_IMAGE_WRITE_BACK (R203). -/
def execSlotImageWriteBack (s : State) : Res := .next (s.slotWriteBack)

/-- COMMAND_CLOSE (R112). -/
def execCommandClose (cycles : BitVec 16) (s : State) : Res := .next (s.commandClose cycles.toNat)

/-- PLAN_START_REQUEST (R114). -/
def execPlanStartRequest (v : Word) (s : State) : Res := .next (s.hostWr 0x09 fun t => t.trgPctl v)

/-- PLAN_START (R114). -/
def execPlanStart (s : State) : Res := .next (s.planStart)

/-- PLAN_STOP_REQUEST (R610). -/
def execPlanStopRequest (v : Word) (s : State) : Res := .next (s.hostWr 0x09 fun t => t.trgPctl v)

/-- PCTL_EN_WRITE (R65). -/
def execPctlEnWrite (page : Nat) (en : Bool) (s : State) : Res :=
  .next (s.hostWr page fun t => (t.pctlEn page en).tieSettle)

/-- PCTL_COMMIT (R61). -/
def execPctlCommit (page : Nat) (s : State) : Res := .next (s.hostWr page fun t => t.commitReq page)

/-- PCTL_SSTOP (R65). -/
def execPctlSstop (page : Nat) (on : Bool) (s : State) : Res :=
  .next (s.hostWr page fun t => (t.pctlSstop page on).tieSettle)

/-- COMMIT_IDLE_ACCEPT (R64). -/
def execCommitIdleAccept (page : Nat) (s : State) : Res := .next (s.commitIdle page)

/-- BLOCK_IDLE (R65). -/
def execBlockIdle (page : Nat) (s : State) : Res := .next (s.blockIdle page)

end Sys2Proof.Machine
end

