-- ==== Sys2Proof/Machine/CmdRings.lean ====
section
/-!
DEFINITION. Sys2Proof/Machine/CmdRings.lean: the meanings of the commands of EXL frames, telemetry and service
(chapter 05), and the schedule read-back (chapter 06).
-/
namespace Sys2Proof.Machine

/-- COLLECTOR_COPY_RX (R172). -/
def execCollectorCopyRx (ring : Fin 32) (rev : Bool) (f : RxFrame) (s : State) : Res :=
  .next (s.collectorRx ring.val rev f)

/-- SVKICK (R194). -/
def execSvkick (ring : Fin 32) (s : State) : Res := .next (s.hostWr (0x30 + ring.val) fun t => t.svKick ring.val)

/-- SERVICE_REQUEST_LAUNCH (R183). -/
def execServiceRequestLaunch (ring : Fin 32) (s : State) : Res := .next (s.svLaunch ring.val)

/-- SERVICE_RESPONSE_RX (R184). -/
def execServiceResponseRx (ring : Fin 32) (rev : Bool) (f : RxFrame) (s : State) : Res :=
  .next (s.svResponse ring.val rev f)

/-- SERVICE_TIMEOUT (R184). -/
def execServiceTimeout (tag : Fin 64) (s : State) : Res := .next (s.svTimeout tag.val)

/-- CAPTURE_STREAM_RX (R186). -/
def execCaptureStreamRx (ring : Fin 32) (rev : Bool) (f : RxFrame) (s : State) : Res :=
  .next (s.captureRx ring.val rev f)

/-- FORCE_SRSYNC (R190). -/
def execForceSrsync (ring : Fin 32) (mask : BitVec 8) (s : State) : Res :=
  .next (s.hostWr (0x30 + ring.val) fun t => t.forceSrsync ring.val mask.toNat)

/-- FORCE_RESYNC (R190). -/
def execForceResync (ring : Fin 32) (s : State) : Res := .next (s.hostWr (0x30 + ring.val) fun t => t.rspend ring.val)

/-- CVAL_READ (R230). -/
def execCvalRead (s : State) : Res := .next (s.hostRd 0x70 fun t => t.cvalRead)

end Sys2Proof.Machine
end

