-- ==== Sys2Proof/Machine/CmdSafety.lean ====
section
/-!
DEFINITION. Sys2Proof/Machine/CmdSafety.lean: the meanings of the commands of safety channels (chapter 14), Scribe (chapter 15).
-/
namespace Sys2Proof.Machine

/-- IMAGE_INSTANT (R421). -/
def execImageInstant (sird : BitVec 4) (s : State) : Res := .next (s.imageInstant sird.toNat)

/-- SAFETY_TICK (R417). -/
def execSafetyTick (cycles : Nat) (s : State) : Res := .next (s.safetyTick cycles)

/-- COMPARE_POINT (R424). -/
def execComparePoint (cycles : Nat) (s : State) : Res := .next (s.comparePoint cycles)

/-- APPLY_POINT (R431). -/
def execApplyPoint (s : State) : Res := .next (s.applyPoint)

/-- RSL_PDU_RX (R422). -/
def execRslPduRx (rx : PduRx) (s : State) : Res := .next (s.rslRx rx)

/-- OFF_PULSE_START (R435). -/
def execOffPulseStart (s : State) : Res := .next (s.offPulseStart)

/-- OFF_PULSE_END (R435). -/
def execOffPulseEnd (low : Bool) (back : Option Nat) (sird : BitVec 4) (s : State) : Res :=
  .next (s.offPulseEnd low back sird.toNat)

/-- SIO_TEST_DUE (R435). -/
def execSioTestDue (entry : Fin 8) (s : State) : Res := .next (s.testOverdue entry.val)

/-- TICK_LOST (R420). -/
def execTickLost (b : Bool) (s : State) : Res := .next (s.tickLost b)

/-- SIO_RB (R434). -/
def execSioRb (path : Fin 4) (rb : Readback) (s : State) : Res :=
  .next (s.sioRb path.val rb.sird.toNat rb.held)

/-- CACK (R428). -/
def execCack (conn : BitVec 8) (s : State) : Res := .next (s.hostWr sftPage fun t => t.cack conn.toNat)

/-- DCLR (R424). -/
def execDclr (s : State) : Res := .next (s.hostWr sftPage fun t => t.dclr)

/-- SLATCH_CLEAR (R434). -/
def execSlatchClear (v : Word) (sird : BitVec 4) (s : State) : Res :=
  .next (s.hostWr sioPage fun t => t.slatchClear v sird.toNat)

/-- SXMD_READ (R443). -/
def execSxmdRead (s : State) : Res := .next (s.hostRd sftPage fun t => t.sxmdRead)

/-- FAULT_RAISE (R449). -/
def execFaultRaise (ext : Option ExtRaise) (s : State) : Res := .next (s.raiseIn ext)

/-- SCRIBE_RESET_DRIVE (R457). -/
def execScribeResetDrive (cycles : Nat) (s : State) : Res := .next (s.scribeReset cycles)

/-- ACKC (R459). -/
def execAckc (mask : BitVec 16) (s : State) : Res := .next (s.hostWr 0x98 fun t => t.ackClasses mask.toNat)

/-- ACKALL (R459). -/
def execAckall (s : State) : Res := .next (s.hostWr 0x98 fun t => t.ackClasses 0xFFFF)

/-- TRCLR (R456). -/
def execTrclr (s : State) : Res := .next (s.hostWr 0x98 fun t => t.tripClear)

/-- LREC0_READ (R461). -/
def execLrec0Read (src : HSrc) (s : State) : Res := .next (s.hostRd 0x98 fun t => t.lrec0 src)

end Sys2Proof.Machine
end

