-- ==== Sys2Proof/Machine/CmdSec.lean ====
section
/-!
DEFINITION. Sys2Proof/Machine/CmdSec.lean: the meanings of the commands of identity and signed images (chapter 18), monitors (chapter 19).
-/
namespace Sys2Proof.Machine

/-- OKCMD_PROGRAM (R519). -/
def execOkcmdProgram (v : Word) (s : State) : Res := .next (s.hostWr secPage fun t => t.okCmd 1 v)

/-- OKCMD_REVOKE (R519). -/
def execOkcmdRevoke (v : Word) (s : State) : Res := .next (s.hostWr secPage fun t => t.okCmd 2 v)

/-- FUSE_PROGRAM_DONE (R519). -/
def execFuseProgramDone (error : Bool) (s : State) : Res := .next (s.fuseDone error)

/-- FLRCMD (R524). -/
def execFlrcmd (s : State) : Res := .next (s.hostWr secPage fun t => t.floorKey)

/-- FUSTART (R525). -/
def execFustart (v : Word) (s : State) : Res := .next (s.hostWr secPage fun t => t.fuStart v)

/-- FLASH_ERASE_DONE (R525). -/
def execFlashEraseDone (s : State) : Res := .next (s.eraseDone)

/-- FUWIN_WRITE (R525). -/
def execFuwinWrite (words : List Word) (s : State) : Res := .next (s.hostWr secPage fun t => t.fuWrite words)

/-- FUEND (R525). -/
def execFuend (s : State) : Res := .next (s.hostWr secPage fun t => t.fuEnd)

/-- UPDATE_CHECK_DONE (R525). -/
def execUpdateCheckDone (s : State) : Res := .next (s.updateDone)

/-- ATTGO (R526). -/
def execAttgo (s : State) : Res := .next (s.hostWr secPage fun t => t.attGo)

/-- ATTEST_DONE (R526). -/
def execAttestDone (s : State) : Res := .next (s.attDone)

/-- CERTD_READ (R532). -/
def execCertdRead (s : State) : Res := .next (s.hostRd secPage fun t => t.certdRead)

/-- FLOOR_RAISE_DONE (R524). -/
def execFloorRaiseDone (s : State) : Res := .next (s.floorDone)

/-- TEMP_MEASURE (R533). -/
def execTempMeasure (readings : List (BitVec 16)) (s : State) : Res :=
  .next (s.whenUp 7 fun t => t.tempMeasure readings)

/-- RAIL_EXCURSION (R535). -/
def execRailExcursion (rail : Fin 8) (high : Bool) (s : State) : Res :=
  .next (s.whenUp 7 fun t => t.railExcursion rail.val high)

/-- DERATE_INTERVAL (R540). -/
def execDerateInterval (s : State) : Res := .next (s.whenUp 7 State.derate)

/-- COMPENSATION_UPDATE (R545). -/
def execCompensationUpdate (s : State) : Res := .next (s.whenUp 7 State.compensate)

/-- PRO_MEASURE (R546). -/
def execProMeasure (khz : List (BitVec 32)) (s : State) : Res := .next (s.whenUp 7 fun t => t.proMeasure khz)

/-- RAIL_MEASURE (R535). -/
def execRailMeasure (mv : List (BitVec 16)) (s : State) : Res := .next (s.whenUp 7 fun t => t.railMeasure mv)

end Sys2Proof.Machine
end

