-- ==== Sys2Proof/Machine/CmdTime.lean ====
section
/-!
DEFINITION. Sys2Proof/Machine/CmdTime.lean: the meanings of the commands of ring time, PTP, ranging, Class S and
Class F launches, the Ethernet ports (chapter 03).
-/
namespace Sys2Proof.Machine

/-- RANGING_LAUNCH (R108). -/
def execRangingLaunch (s : State) : Res := .next (s.rangingLaunch)

/-- CHANNEL_FIRE (R113). -/
def execChannelFire (k : Nat) (s : State) : Res := .next (s.channelFire k)

/-- SNAPL_READ (R89). -/
def execSnaplRead (who : Nat) (s : State) : Res :=
  .next (if who < 3 then s.hostRd dtmPage fun t => t.snapL who else s.snapL who)

/-- PTP_SYNC_RX (R104). -/
def execPtpSyncRx (port : Fin 2) (m : PtpMsg) (s : State) : Res := .next (s.ptpSync port.val m)

/-- PTP_FOLLOW_UP_RX (R103). -/
def execPtpFollowUpRx (port : Fin 2) (m : PtpMsg) (s : State) : Res := .next (s.ptpFollowUp port.val m)

/-- PTP_DELAY_REQ_TX (R121). -/
def execPtpDelayReqTx (port : Fin 2) (stamp : Nat) (s : State) : Res := .next (s.ptpReq port.val stamp)

/-- PTP_DELAY_RESP_RX (R103). -/
def execPtpDelayRespRx (port : Fin 2) (m : PtpMsg) (s : State) : Res := .next (s.ptpResp port.val m)

/-- PPS_EDGE (R105). -/
def execPpsEdge (stamp : Nat) (s : State) : Res := .next (s.ppsEdge stamp)

/-- GM_LOST (R92). -/
def execGmLost (s : State) : Res := .next (s.gmLost)

/-- FCLR (R97). -/
def execFclr (s : State) : Res := .next (s.hostWr dtmPage fun t => t.foreignClear)

/-- RANGING_RETURN (R109). -/
def execRangingReturn (ring : Fin 32) (rev : Bool) (f : RxFrame) (s : State) : Res :=
  .next (s.rangingReturn ring.val rev f)

/-- RANGING_LOST (R110). -/
def execRangingLost (ring : Fin 32) (rev : Bool) (s : State) : Res := .next (s.rangingLost ring.val rev)

/-- CLASS_F_LAUNCH (R115). -/
def execClassFLaunch (queue : Nat) (launch : Nat) (s : State) : Res := .next (s.classF queue launch)

/-- TXKICK (R121). -/
def execTxkick (port : Fin 2) (s : State) : Res := .next (s.hostWr (0x0A + port.val) fun t => t.txKick port.val)

/-- ETH_TX_WRITEBACK (R122). -/
def execEthTxWriteback (port : Fin 2) (s : State) : Res := .next (s.txBack port.val)

/-- ETH_RX_FRAME (R122). -/
def execEthRxFrame (port : Fin 2) (stamp phase : Nat) (bytes : List Byte) (s : State) : Res :=
  .next (match rslPayload bytes with
    | some pdu => s.rslRx (.eth port stamp pdu)
    | none => s.ethRx port.val stamp phase bytes)

/-- ETH_LINK_CHANGE (R581). -/
def execEthLinkChange (port : Fin 2) (los : Bool) (s : State) : Res := .next (s.ethLink port.val los)

end Sys2Proof.Machine
end

