-- ==== Sys2Proof/Machine/Dispatch.lean ====
section
/-!
DEFINITION. Sys2Proof/Machine/Dispatch.lean: one arm per command of the table.
-/
namespace Sys2Proof.Machine

/-- The effect of a command on everything but the queue of waiting commands. -/
def exec (i : Instr) (s : State) : Host.Outcome State Fault Refusal :=
  match i with
  | .periodStart => Sys2Proof.Machine.execPeriodStart s
  | .outputBoundary => Sys2Proof.Machine.execOutputBoundary s
  | .collectorLaunch => Sys2Proof.Machine.execCollectorLaunch s
  | .telemetryClose => Sys2Proof.Machine.execTelemetryClose s
  | .commandLaunch => Sys2Proof.Machine.execCommandLaunch s
  | .slotImageWriteBack => Sys2Proof.Machine.execSlotImageWriteBack s
  | .commandClose cycles => Sys2Proof.Machine.execCommandClose cycles s
  | .jg0Pass fit cycles => Sys2Proof.Machine.execJg0Pass fit cycles s
  | .jigIdlePass eng cycles => Sys2Proof.Machine.execJigIdlePass eng cycles s
  | .jigTimeout inst => Sys2Proof.Machine.execJigTimeout inst s
  | .rangingLaunch => Sys2Proof.Machine.execRangingLaunch s
  | .channelFire k => Sys2Proof.Machine.execChannelFire k s
  | .planStartRequest v => Sys2Proof.Machine.execPlanStartRequest v s
  | .planStart => Sys2Proof.Machine.execPlanStart s
  | .planStopRequest v => Sys2Proof.Machine.execPlanStopRequest v s
  | .pctlEnWrite page en => Sys2Proof.Machine.execPctlEnWrite page en s
  | .pctlCommit page => Sys2Proof.Machine.execPctlCommit page s
  | .pctlSstop page on => Sys2Proof.Machine.execPctlSstop page on s
  | .commitIdleAccept page => Sys2Proof.Machine.execCommitIdleAccept page s
  | .blockIdle page => Sys2Proof.Machine.execBlockIdle page s
  | .wlckOpen page => Sys2Proof.Machine.execWlckOpen page s
  | .wlckClose page v => Sys2Proof.Machine.execWlckClose page v s
  | .registerWrite src page off v => Sys2Proof.Machine.execRegisterWrite src page off v s
  | .rocRead page off => Sys2Proof.Machine.execRocRead page off s
  | .hostWrite by_ bytes => Sys2Proof.Machine.execHostWrite by_ bytes s
  | .hostRead by_ bytes => Sys2Proof.Machine.execHostRead by_ bytes s
  | .hostFetch by_ bytes clocked => Sys2Proof.Machine.execHostFetch by_ bytes clocked s
  | .hostStatus by_ bytes => Sys2Proof.Machine.execHostStatus by_ bytes s
  | .hspFrameAbort bytes => Sys2Proof.Machine.execHspFrameAbort bytes s
  | .hostWriteApply block => Sys2Proof.Machine.execHostWriteApply block s
  | .hostReadPerform => Sys2Proof.Machine.execHostReadPerform s
  | .snaplRead who => Sys2Proof.Machine.execSnaplRead who s
  | .ptpSyncRx port m => Sys2Proof.Machine.execPtpSyncRx port m s
  | .ptpFollowUpRx port m => Sys2Proof.Machine.execPtpFollowUpRx port m s
  | .ptpDelayReqTx port stamp => Sys2Proof.Machine.execPtpDelayReqTx port stamp s
  | .ptpDelayRespRx port m => Sys2Proof.Machine.execPtpDelayRespRx port m s
  | .ppsEdge stamp => Sys2Proof.Machine.execPpsEdge stamp s
  | .gmLost => Sys2Proof.Machine.execGmLost s
  | .fclr => Sys2Proof.Machine.execFclr s
  | .rangingReturn ring rev f => Sys2Proof.Machine.execRangingReturn ring rev f s
  | .rangingLost ring rev => Sys2Proof.Machine.execRangingLost ring rev s
  | .classFLaunch queue launch => Sys2Proof.Machine.execClassFLaunch queue launch s
  | .txkick port => Sys2Proof.Machine.execTxkick port s
  | .ethTxWriteback port => Sys2Proof.Machine.execEthTxWriteback port s
  | .ethRxFrame port stamp phase bytes => Sys2Proof.Machine.execEthRxFrame port stamp phase bytes s
  | .ethLinkChange port los => Sys2Proof.Machine.execEthLinkChange port los s
  | .losSet lane dark pwr => Sys2Proof.Machine.execLosSet lane dark pwr s
  | .losClear lane pwr => Sys2Proof.Machine.execLosClear lane pwr s
  | .laneLocked rx => Sys2Proof.Machine.execLaneLocked rx s
  | .lolSet lane => Sys2Proof.Machine.execLolSet lane s
  | .alignmentLoss lane => Sys2Proof.Machine.execAlignmentLoss lane s
  | .trainingFrameTx lane => Sys2Proof.Machine.execTrainingFrameTx lane s
  | .trainingFrameRx lane f => Sys2Proof.Machine.execTrainingFrameRx lane f s
  | .tapApply lane => Sys2Proof.Machine.execTapApply lane s
  | .eyeMeasureDone lane eye => Sys2Proof.Machine.execEyeMeasureDone lane eye s
  | .trainTimeout lane => Sys2Proof.Machine.execTrainTimeout lane s
  | .trainSilence lane => Sys2Proof.Machine.execTrainSilence lane s
  | .retrain lane => Sys2Proof.Machine.execRetrain lane s
  | .laneModeWrite lane mode => Sys2Proof.Machine.execLaneModeWrite lane mode s
  | .injgo lane => Sys2Proof.Machine.execInjgo lane s
  | .laneCode lane idles drift pwr => Sys2Proof.Machine.execLaneCode lane idles drift pwr s
  | .laneFifo rx => Sys2Proof.Machine.execLaneFifo rx s
  | .checkerLock rx => Sys2Proof.Machine.execCheckerLock rx s
  | .checkerUnlock lane line last => Sys2Proof.Machine.execCheckerUnlock lane line last s
  | .bitcntlRead lane src line => Sys2Proof.Machine.execBitcntlRead lane src line s
  | .collectorCopyRx ring rev f => Sys2Proof.Machine.execCollectorCopyRx ring rev f s
  | .svkick ring => Sys2Proof.Machine.execSvkick ring s
  | .serviceRequestLaunch ring => Sys2Proof.Machine.execServiceRequestLaunch ring s
  | .serviceResponseRx ring rev f => Sys2Proof.Machine.execServiceResponseRx ring rev f s
  | .serviceTimeout tag => Sys2Proof.Machine.execServiceTimeout tag s
  | .captureStreamRx ring rev f => Sys2Proof.Machine.execCaptureStreamRx ring rev f s
  | .forceSrsync ring mask => Sys2Proof.Machine.execForceSrsync ring mask s
  | .forceResync ring => Sys2Proof.Machine.execForceResync ring s
  | .cvalRead => Sys2Proof.Machine.execCvalRead s
  | .channelRecognised k cycles => Sys2Proof.Machine.execChannelRecognised k cycles s
  | .nop eng => Sys2Proof.Machine.execNop eng s
  | .add eng => Sys2Proof.Machine.execAdd eng s
  | .sub eng => Sys2Proof.Machine.execSub eng s
  | .addm eng => Sys2Proof.Machine.execAddm eng s
  | .subm eng => Sys2Proof.Machine.execSubm eng s
  | .abs eng => Sys2Proof.Machine.execAbs eng s
  | .neg eng => Sys2Proof.Machine.execNeg eng s
  | .min eng => Sys2Proof.Machine.execMin eng s
  | .max eng => Sys2Proof.Machine.execMax eng s
  | .and eng => Sys2Proof.Machine.execAnd eng s
  | .or eng => Sys2Proof.Machine.execOr eng s
  | .xor eng => Sys2Proof.Machine.execXor eng s
  | .shl eng => Sys2Proof.Machine.execShl eng s
  | .shr eng => Sys2Proof.Machine.execShr eng s
  | .shrl eng => Sys2Proof.Machine.execShrl eng s
  | .norm eng => Sys2Proof.Machine.execNorm eng s
  | .clamp eng => Sys2Proof.Machine.execClamp eng s
  | .addi eng => Sys2Proof.Machine.execAddi eng s
  | .addmi eng => Sys2Proof.Machine.execAddmi eng s
  | .movi eng => Sys2Proof.Machine.execMovi eng s
  | .movh eng => Sys2Proof.Machine.execMovh eng s
  | .cmp eng => Sys2Proof.Machine.execCmp eng s
  | .cmpi eng => Sys2Proof.Machine.execCmpi eng s
  | .plog eng => Sys2Proof.Machine.execPlog eng s
  | .extr eng => Sys2Proof.Machine.execExtr eng s
  | .ins eng => Sys2Proof.Machine.execIns eng s
  | .ld eng upset => Sys2Proof.Machine.execLd eng upset s
  | .st eng => Sys2Proof.Machine.execSt eng s
  | .ldc eng => Sys2Proof.Machine.execLdc eng s
  | .ldcDeliver eng => Sys2Proof.Machine.execLdcDeliver eng s
  | .stc eng => Sys2Proof.Machine.execStc eng s
  | .stcWrite eng => Sys2Proof.Machine.execStcWrite eng s
  | .br eng => Sys2Proof.Machine.execBr eng s
  | .call eng => Sys2Proof.Machine.execCall eng s
  | .ret eng => Sys2Proof.Machine.execRet eng s
  | .dbnz eng => Sys2Proof.Machine.execDbnz eng s
  | .wait eng => Sys2Proof.Machine.execWait eng s
  | .fclrFlags eng => Sys2Proof.Machine.execFclrFlags eng s
  | .frd eng => Sys2Proof.Machine.execFrd eng s
  | .mul eng => Sys2Proof.Machine.execMul eng s
  | .mac eng => Sys2Proof.Machine.execMac eng s
  | .msu eng => Sys2Proof.Machine.execMsu eng s
  | .mulw eng => Sys2Proof.Machine.execMulw eng s
  | .macw eng => Sys2Proof.Machine.execMacw eng s
  | .ald eng => Sys2Proof.Machine.execAld eng s
  | .ext eng => Sys2Proof.Machine.execExt eng s
  | .adda eng => Sys2Proof.Machine.execAdda eng s
  | .ash eng => Sys2Proof.Machine.execAsh eng s
  | .sincos eng => Sys2Proof.Machine.execSincos eng s
  | .atan2 eng => Sys2Proof.Machine.execAtan2 eng s
  | .recip eng => Sys2Proof.Machine.execRecip eng s
  | .rsqrt eng => Sys2Proof.Machine.execRsqrt eng s
  | .div eng => Sys2Proof.Machine.execDiv eng s
  | .macResult eng => Sys2Proof.Machine.execMacResult eng s
  | .pe7Free target => Sys2Proof.Machine.execPe7Free target s
  | .pe7Shadow target => Sys2Proof.Machine.execPe7Shadow target s
  | .pe7Replace target => Sys2Proof.Machine.execPe7Replace target s
  | .shadowCopyDone => Sys2Proof.Machine.execShadowCopyDone s
  | .shadowRearm => Sys2Proof.Machine.execShadowRearm s
  | .cmdInsert addr => Sys2Proof.Machine.execCmdInsert addr s
  | .cmdRemove addr => Sys2Proof.Machine.execCmdRemove addr s
  | .cmdBypass addr => Sys2Proof.Machine.execCmdBypass addr s
  | .cmdCharge addr => Sys2Proof.Machine.execCmdCharge addr s
  | .cmdRetire addr => Sys2Proof.Machine.execCmdRetire addr s
  | .cmdReturn addr => Sys2Proof.Machine.execCmdReturn addr s
  | .jcmdStart => Sys2Proof.Machine.execJcmdStart s
  | .jcmdStop => Sys2Proof.Machine.execJcmdStop s
  | .tbld eng bank => Sys2Proof.Machine.execTbld eng bank s
  | .bankCheckDone eng => Sys2Proof.Machine.execBankCheckDone eng s
  | .retclr addr => Sys2Proof.Machine.execRetclr addr s
  | .rowRepair mem row => Sys2Proof.Machine.execRowRepair mem row s
  | .hcmdHandover => Sys2Proof.Machine.execHcmdHandover s
  | .hcmdLeave => Sys2Proof.Machine.execHcmdLeave s
  | .hcmdJoin => Sys2Proof.Machine.execHcmdJoin s
  | .claimInEdge => Sys2Proof.Machine.execClaimInEdge s
  | .claimBlockEnd => Sys2Proof.Machine.execClaimBlockEnd s
  | .contestWindowEnd => Sys2Proof.Machine.execContestWindowEnd s
  | .claimRequest => Sys2Proof.Machine.execClaimRequest s
  | .pairYield => Sys2Proof.Machine.execPairYield s
  | .activeCopyRelay ring f => Sys2Proof.Machine.execActiveCopyRelay ring f s
  | .relaySubst ring => Sys2Proof.Machine.execRelaySubst ring s
  | .tieBeaconRx f => Sys2Proof.Machine.execTieBeaconRx f s
  | .twinDiverge => Sys2Proof.Machine.execTwinDiverge s
  | .tieLost => Sys2Proof.Machine.execTieLost s
  | .jigStateTx launch => Sys2Proof.Machine.execJigStateTx launch s
  | .jigStateRx f => Sys2Proof.Machine.execJigStateRx f s
  | .tieSlotsTx => Sys2Proof.Machine.execTieSlotsTx s
  | .tieSlotsRx f => Sys2Proof.Machine.execTieSlotsRx f s
  | .tieRangingTx launch => Sys2Proof.Machine.execTieRangingTx launch s
  | .tieRangingEcho f launch => Sys2Proof.Machine.execTieRangingEcho f launch s
  | .tieRangingRx f => Sys2Proof.Machine.execTieRangingRx f s
  | .rangingCopyTx launch => Sys2Proof.Machine.execRangingCopyTx launch s
  | .rangingCopyRx f => Sys2Proof.Machine.execRangingCopyRx f s
  | .listenTimeout => Sys2Proof.Machine.execListenTimeout s
  | .tripActive inputs => Sys2Proof.Machine.execTripActive inputs s
  | .tripInactive input => Sys2Proof.Machine.execTripInactive input s
  | .blankingEnd leg => Sys2Proof.Machine.execBlankingEnd leg s
  | .tlatchClear v => Sys2Proof.Machine.execTlatchClear v s
  | .chopperResult chop => Sys2Proof.Machine.execChopperResult chop s
  | .chopCeilRelease chop => Sys2Proof.Machine.execChopCeilRelease chop s
  | .chtminExpiry chop => Sys2Proof.Machine.execChtminExpiry chop s
  | .chopSrc chop => Sys2Proof.Machine.execChopSrc chop s
  | .conversionDone conv bits => Sys2Proof.Machine.execConversionDone conv bits s
  | .sequenceTrigger conv target => Sys2Proof.Machine.execSequenceTrigger conv target s
  | .ugo mask => Sys2Proof.Machine.execUgo mask s
  | .urgentTrigger conv => Sys2Proof.Machine.execUrgentTrigger conv s
  | .urgentStart conv => Sys2Proof.Machine.execUrgentStart conv s
  | .urgentDone conv bits => Sys2Proof.Machine.execUrgentDone conv bits s
  | .refReady conv => Sys2Proof.Machine.execRefReady conv s
  | .cvcfgWrite conv v => Sys2Proof.Machine.execCvcfgWrite conv v s
  | .cvrefWrite conv v => Sys2Proof.Machine.execCvrefWrite conv v s
  | .modResult input bits => Sys2Proof.Machine.execModResult input bits s
  | .modAlign input target => Sys2Proof.Machine.execModAlign input target s
  | .modStuck input => Sys2Proof.Machine.execModStuck input s
  | .modUnstuck input => Sys2Proof.Machine.execModUnstuck input s
  | .mdcfgWrite input v => Sys2Proof.Machine.execMdcfgWrite input v s
  | .mclkcfgWrite clk v => Sys2Proof.Machine.execMclkcfgWrite clk v s
  | .imageInstant sird => Sys2Proof.Machine.execImageInstant sird s
  | .safetyTick cycles => Sys2Proof.Machine.execSafetyTick cycles s
  | .comparePoint cycles => Sys2Proof.Machine.execComparePoint cycles s
  | .applyPoint => Sys2Proof.Machine.execApplyPoint s
  | .rslPduRx rx => Sys2Proof.Machine.execRslPduRx rx s
  | .offPulseStart => Sys2Proof.Machine.execOffPulseStart s
  | .offPulseEnd low back sird => Sys2Proof.Machine.execOffPulseEnd low back sird s
  | .sioTestDue entry => Sys2Proof.Machine.execSioTestDue entry s
  | .tickLost b => Sys2Proof.Machine.execTickLost b s
  | .sioRb path rb => Sys2Proof.Machine.execSioRb path rb s
  | .cack conn => Sys2Proof.Machine.execCack conn s
  | .dclr => Sys2Proof.Machine.execDclr s
  | .slatchClear v sird => Sys2Proof.Machine.execSlatchClear v sird s
  | .sxmdRead => Sys2Proof.Machine.execSxmdRead s
  | .faultRaise ext => Sys2Proof.Machine.execFaultRaise ext s
  | .scribeResetDrive cycles => Sys2Proof.Machine.execScribeResetDrive cycles s
  | .ackc mask => Sys2Proof.Machine.execAckc mask s
  | .ackall => Sys2Proof.Machine.execAckall s
  | .trclr => Sys2Proof.Machine.execTrclr s
  | .lrec0Read src => Sys2Proof.Machine.execLrec0Read src s
  | .refSwitch lost => Sys2Proof.Machine.execRefSwitch lost s
  | .refret => Sys2Proof.Machine.execRefret s
  | .pllLock t => Sys2Proof.Machine.execPllLock t s
  | .clkALol => Sys2Proof.Machine.execClkALol s
  | .pllAReturn => Sys2Proof.Machine.execPllAReturn s
  | .clkTLol => Sys2Proof.Machine.execClkTLol s
  | .pllTRelock => Sys2Proof.Machine.execPllTRelock s
  | .hratioMeasure q => Sys2Proof.Machine.execHratioMeasure q s
  | .clkMissing domain => Sys2Proof.Machine.execClkMissing domain s
  | .sfbSilent => Sys2Proof.Machine.execSfbSilent s
  | .clkSfb khz => Sys2Proof.Machine.execClkSfb khz s
  | .vinLockoutAssert => Sys2Proof.Machine.execVinLockoutAssert s
  | .vinLockoutRelease => Sys2Proof.Machine.execVinLockoutRelease s
  | .vinMeasure mv => Sys2Proof.Machine.execVinMeasure mv s
  | .rstNFall => Sys2Proof.Machine.execRstNFall s
  | .coreResetStart => Sys2Proof.Machine.execCoreResetStart s
  | .systemResetStart => Sys2Proof.Machine.execSystemResetStart s
  | .rstNRise at_ => Sys2Proof.Machine.execRstNRise at_ s
  | .domainRelease sfb headId bootsel keyOk => Sys2Proof.Machine.execDomainRelease sfb headId bootsel keyOk s
  | .pllStartTimeout => Sys2Proof.Machine.execPllStartTimeout s
  | .imageLoad took => Sys2Proof.Machine.execImageLoad took s
  | .hstart => Sys2Proof.Machine.execHstart s
  | .ldwinWrite words => Sys2Proof.Machine.execLdwinWrite words s
  | .hend took => Sys2Proof.Machine.execHend took s
  | .rcmdCore => Sys2Proof.Machine.execRcmdCore s
  | .rcmdSystem => Sys2Proof.Machine.execRcmdSystem s
  | .restore took => Sys2Proof.Machine.execRestore took s
  | .okcmdProgram v => Sys2Proof.Machine.execOkcmdProgram v s
  | .okcmdRevoke v => Sys2Proof.Machine.execOkcmdRevoke v s
  | .fuseProgramDone error => Sys2Proof.Machine.execFuseProgramDone error s
  | .flrcmd => Sys2Proof.Machine.execFlrcmd s
  | .fustart v => Sys2Proof.Machine.execFustart v s
  | .flashEraseDone => Sys2Proof.Machine.execFlashEraseDone s
  | .fuwinWrite words => Sys2Proof.Machine.execFuwinWrite words s
  | .fuend => Sys2Proof.Machine.execFuend s
  | .updateCheckDone => Sys2Proof.Machine.execUpdateCheckDone s
  | .attgo => Sys2Proof.Machine.execAttgo s
  | .attestDone => Sys2Proof.Machine.execAttestDone s
  | .certdRead => Sys2Proof.Machine.execCertdRead s
  | .tempMeasure readings => Sys2Proof.Machine.execTempMeasure readings s
  | .railExcursion rail high => Sys2Proof.Machine.execRailExcursion rail high s
  | .derateInterval => Sys2Proof.Machine.execDerateInterval s
  | .compensationUpdate => Sys2Proof.Machine.execCompensationUpdate s
  | .proMeasure khz => Sys2Proof.Machine.execProMeasure khz s
  | .prehWrite src ctr hi => Sys2Proof.Machine.execPrehWrite src ctr hi s
  | .counterOverflow eng ctr => Sys2Proof.Machine.execCounterOverflow eng ctr s
  | .pcSample eng => Sys2Proof.Machine.execPcSample eng s
  | .snap mask => Sys2Proof.Machine.execSnap mask s
  | .smpop => Sys2Proof.Machine.execSmpop s
  | .cntlRead src ctr => Sys2Proof.Machine.execCntlRead src ctr s
  | .legTransition leg => Sys2Proof.Machine.execLegTransition leg s
  | .codeViolation lane bad => Sys2Proof.Machine.execCodeViolation lane bad s
  | .referenceUsable refin => Sys2Proof.Machine.execReferenceUsable refin s
  | .clkGood domain => Sys2Proof.Machine.execClkGood domain s
  | .powerOnDomainStart => Sys2Proof.Machine.execPowerOnDomainStart s
  | .powerOnDomainLoss => Sys2Proof.Machine.execPowerOnDomainLoss s
  | .railMeasure mv => Sys2Proof.Machine.execRailMeasure mv s
  | .floorRaiseDone => Sys2Proof.Machine.execFloorRaiseDone s
  | .relayedCopyRx ring f => Sys2Proof.Machine.execRelayedCopyRx ring f s
  | .tapReset => Sys2Proof.Machine.execTapReset s

end Sys2Proof.Machine
end

