-- ==== Sys2Proof/WellFormed.lean ====
section
/-!
DEFINITION. Sys2Proof/WellFormed.lean: which terms of `Instr` are commands that can be sent: operands inside the ranges
the spec gives them. The meanings take any term; a term that is not well-formed stands for no event of the block.
Readings and choices (notes/assumptions): DEDUCED 36.
-/
namespace Sys2Proof

/-- A page of R52 and the byte offset of a register in it. -/
def regAddrOk (page off : Nat) : Bool := (Machine.blockOf page).isSome && Nat.blt off 0x1000 && off % 4 == 0

/-- A request of the command code `cmd` (R67): CMD in bits 2:0 of its first byte, at least its 10 bytes. -/
def requestOk (cmd : Nat) (b : List Byte) : Bool := (b.getD 0 0).toNat % 8 == cmd && Nat.ble 10 b.length

/-- A PTP message's fields within their ranges (R103). -/
def PtpMsg.ok (m : PtpMsg) : Bool := Nat.blt m.ns 1000000000 && Nat.blt m.rx (2 ^ 64)

/-- Is a term a command that can be sent? -/
def Instr.wellFormed : Instr → Bool
  | .planStartRequest v => v.bit 0 && !v.bit 2
  | .planStopRequest v => !v.bit 0 || v.bit 2
  | .channelFire k => Nat.ble 5 k && Nat.blt k 16
  | .jigTimeout i => Nat.ble i 256
  | .pctlEnWrite page _ => (Machine.blockOf page).isSome
  | .pctlCommit page => (Machine.blockOf page).isSome
  | .pctlSstop page _ => (Machine.blockOf page).isSome
  | .commitIdleAccept page => (Machine.blockOf page).isSome
  | .blockIdle page => (Machine.blockOf page).isSome
  | .wlckOpen page => (Machine.blockOf page).isSome
  | .wlckClose page v => (Machine.blockOf page).isSome && v != 0x5A5A
  | .registerWrite _ page off _ => regAddrOk page off
  | .rocRead page off => regAddrOk page off
  | .hostWrite h b => h.via.frag.isSome || requestOk 1 b
  | .hostRead h b => h.via.frag.isSome || requestOk 2 b
  | .hostFetch h b _ => h.via.frag.isSome || requestOk 3 b
  | .hostStatus h b => h.via.frag.isSome || requestOk 4 b
  | .laneCode _ i d _ => i.length == d.length
  | .snaplRead who => Nat.blt who 3 || (Nat.ble 0x10 who && Nat.blt who 0x1A)
  | .ptpSyncRx _ m => m.ok
  | .ptpFollowUpRx _ m => m.ok
  | .ptpDelayRespRx _ m => m.ok
  | .ppsEdge t => Nat.blt t (2 ^ 64)
  | .classFLaunch q _ => Nat.blt q 66
  | .pe7Free t => t != 7
  | .pe7Shadow t => t != 7
  | .pe7Replace t => t != 7
  | .rowRepair m row => Nat.blt m 23 && Nat.blt row 4096
  | .ldwinWrite l => !l.isEmpty
  | .fuwinWrite l => !l.isEmpty
  | .okcmdProgram v => v.fld 16 2 == 1
  | .okcmdRevoke v => v.fld 16 2 == 2
  | .fustart v => v.bit 0
  | .tempMeasure l => l.length == 6
  | .railMeasure l => l.length == 8
  | .proMeasure l => l.length == 4
  | _ => true

end Sys2Proof
end

