-- ==== Sys2Proof/Safety.lean ====
section
/-!
DEFINITION. Sys2Proof/Safety.lean: what a safe state and a safe run are, in the terms the statements use.
-/
namespace Sys2Proof.Machine

/-- The register file in canonical form: keys strictly rising, no register listed at its reset value. -/
def State.regsWf (s : State) : Bool := NMap.sorted s.regs && s.regs.all fun p => !decide (p.2 = wd (resetOf p.1))

/-- The memories in canonical form (an engine data memory lists the words that have a value, zero among them). -/
def State.memWf (s : State) : Bool := s.mem.wf && s.sxm.wf && s.flash.wf && NMap.sorted s.dmem

/-- The invariant of the block: registers and memories are in canonical form, and ring time is a 64-bit number (R85). -/
def State.Inv (s : State) : Prop := s.regsWf = true ∧ s.memWf = true ∧ s.dt64 < 2 ^ 64

/-- A host write reaches the block of a page: the host bridge and the block are out of reset, and the first configured
state is reached or the page is one of the four that take writes before it (R497, R506). -/
def State.writable (s : State) (page : Nat) : Bool := s.pageUp page && (s.cfgd || earlyPage page)

/-- A host write of a page meets the rule of R506: the host bridge runs, the first configured state is not reached, and the
page is none of the four. -/
def State.preConfig (s : State) (page : Nat) : Bool :=
  !s.domHeld 0 && (blockOf page).isSome && !s.cfgd && !earlyPage page

/-- A page whose PCTL has no effect of its block beyond EN, SSTOP, ENS and IDLE: not the TRG page, a lane, an engine that
executes instructions, the monitors, the converters, the modulator inputs, head pairing or the safety channels. -/
def plainControl (page : Nat) : Bool :=
  match blockOf page with
  | some b => page != 9 && !([Block.lne, .pe, .mrt, .tnn, .mon, .cnv, .mod, .hpr, .sft].contains b)
  | none => false

/-- Is a register one whose write does no more than R13 says of its fields? Its page's PCTL and WLCK, and the registers by which
the host commands a block or changes what the block is doing, are not. -/
def plainReg (page off : Nat) : Bool :=
  if off < 0x100 then off != 0x004 && off != 0x01C
  else match blockOf page with
    | some .dtm => !([0x100, 0x128, 0x12C].contains off)
    | some .eth => !([0x100, 0x13C].contains off)
    | some .lne => !([0x100, 0x104, 0x108].contains off)
    | some .rng => !([0x10C, 0x134, 0x138, 0x148].contains off)
    | some .cls => !([0x104, 0x180].contains off)
    | some .jg => off != 0x108 && !(page == 0x52 && off == 0x144)
    | some .pe => !(page == 0x67 && [0x100, 0x150].contains off)
    | some .edg => off != 0x108
    | some .stk => Nat.blt off 0x160 || Nat.blt 0x16C off
    | some .lbr => off != 0x100 && Nat.blt off 0x300
    | some .trp => Nat.ble 0x160 off || off % 8 != 0
    | some .cnv => off != 0x100 && (Nat.blt off 0x140 || Nat.ble 0x180 off || !([0, 4].contains (off % 16)))
    | some .mod => Nat.ble 0x110 off && (Nat.blt off 0x140 || Nat.ble 0x1C0 off || off % 8 != 0)
    | some .hpr => !([0x100, 0x108].contains off)
    | some .sft => !([0x100, 0x110].contains off)
    | some .sio => off != 0x10C
    | some .scr => !([0x100, 0x104].contains off)
    | some .clk => !([0x104, 0x110].contains off) && (Nat.blt off 0x140 || Nat.ble 0x180 off)
    | some .sec => !([0x160, 0x180, 0x188, 0x1A0].contains off) && Nat.blt off 0x800
    | some .rst => !([0x10C, 0x118].contains off) && Nat.blt off 0x800
    | some .pmc => Nat.blt off 0x108
    | _ => true

/-- Does an address lie in a register page (R52)? -/
def pageAddr (a : Nat) : Bool :=
  match placeOf a with
  | some (.page _ _) => true
  | _ => false

/-- A word the host writes at an address stands in memory: CSM but for the result mirror (R411), table memory but for the
stack parameter table while a frame plan runs (R237), and the instruction memories. -/
def State.windowTakes (s : State) (a : Nat) : Bool :=
  match placeOf a with
  | some (.csm off) => !inMirror off
  | some (.table off) => !(s.plan.run && inSpt s off)
  | some (.imem _ _) => true
  | _ => false

/-- A word the host reads at an address is the one that stands in memory: CSM but for the result mirror, table memory but for
reserved words of the stack parameter table and curve points beyond NPTS, the capture buffer but for samples before their
time-stamp, and the instruction memories. -/
def State.windowShows (s : State) (a : Nat) : Bool :=
  match placeOf a with
  | some (.csm off) => !inMirror off
  | some (.table off) => !s.curveHole a && !(inSpt s off && sptReserved ((off - s.regN R.STK.SPTB) / 4))
  | some (.capture off) => !s.captureHole off
  | some (.imem _ _) => true
  | _ => false

/-- The bytes of a request as R68 lays them out, with its CRC. -/
def requestBytes (cmd tag addr cnt : Nat) (data : List Word) : List Byte :=
  let b := [BitVec.ofNat 8 cmd, BitVec.ofNat 8 tag] ++ natBe 4 addr ++ natBe 2 cnt ++
    (data.map fun w => natBe 4 w.toNat).flatten
  b ++ natBe 2 (crc16 b)

/-- The bytes of a response as R68 lays them out, with its CRC. -/
def responseBytes (stat tag : Nat) (data : List Word) : List Byte :=
  let b := [BitVec.ofNat 8 stat, BitVec.ofNat 8 tag] ++ natBe 2 data.length ++
    (data.map fun w => natBe 4 w.toNat).flatten
  b ++ natBe 2 (crc16 b)

/-- Host access from a source is enabled: the host port, or the Ethernet port by HCFG.EN0H and EN1H (R83). -/
def State.hostOn (s : State) (src : HSrc) : Bool :=
  match src with
  | .hsp => s.regB R.HSP.HCFG 0
  | .en0 => s.regB R.HSP.HCFG 2
  | .en1 => s.regB R.HSP.HCFG 3

/-- A request from a source reaches the host bridge: the source is enabled, and on an Ethernet port the link is up and the
datagram whole, to the head, on UDP port 29640 (R74, R83). -/
def State.hears (s : State) (src : HSrc) (via : Dgram) : Bool :=
  s.hostOn src && (match src with
    | .hsp => true
    | .en0 => s.ethUp 0 && via.ours && via.frag.isNone && via.port == 29640
    | .en1 => s.ethUp 1 && via.ours && via.frag.isNone && via.port == 29640)

/-- The response to a request: its bytes, back to the sender's address and port; the HSP has none (R83). -/
def reply (src : HSrc) (via : Dgram) (b : List Byte) : Option (HSrc × Nat × Nat × List Byte) :=
  match src with
  | .hsp => some (src, 0, 0, b)
  | _ => some (src, via.ip, via.udp, b)

/-- An operation that is a write to another 4 KiB block than `block`. -/
def writesElsewhere (block : Nat) (o : HostOp) : Bool :=
  match o with
  | .write _ a _ => a / 0x1000 != block
  | .read _ _ _ _ => false

/-- Registers other than those listed read as before. -/
def regsBut (s t : State) (keys : List Nat) : Prop := ∀ k, k ∉ keys → t.reg k = s.reg k

/-- A reset of a level has taken the registers: those it restores hold their reset values but for `kept`, the others are as
they were; `written` are set by the reset itself (R16, R495, R496). -/
def State.resetRegs (s t : State) (l : Level) (kept written : List Nat) : Prop :=
  ∀ k, k ∉ written → t.reg k = if restoredBy l k && !kept.contains k then wd (resetOf k) else s.reg k

/-- The registers of a lane that any of its transitions may write: its status, the status of its page and its events. -/
def laneKeys (n : Nat) : List Nat := [R.LNE.LNSTA n, R.PSTA (0x10 + n), R.IRQS (0x10 + n)]

/-- No injection in rate mode stands on a lane (R147). -/
def State.injQuiet (s : State) (n : Nat) : Prop := (s.lane n).inj = none ∧ (s.lane n).injOn = false

/-- None of `n` bytes from an address on lies in the result mirror, to which stores are ignored (R411). -/
def offMirror (a n : Nat) : Bool := Nat.ble (a + n) (csmBase + 0x34000) || Nat.ble (csmBase + 0x34180) a

/-- A service descriptor at byte address `a` is written back with `w2` in word 2 (R185): OWN cleared, words 2 and 3
written, word 3 the low half of DT64, and every other byte of memory as before. -/
def State.descWritten (s t : State) (a w2 : Nat) : Prop :=
  (t.mem.readWord (a + 4)).bit 31 = false ∧ (t.mem.readWord (a + 4)).fld 0 31 = (s.mem.readWord (a + 4)).fld 0 31 ∧
  t.mem.readWord (a + 8) = wd w2 ∧ t.mem.readWord (a + 12) = wd t.dt64 ∧
  ∀ b, b < a + 4 ∨ a + 16 ≤ b → t.mem.read b = s.mem.read b

/-- A raise on its way to Scribe: its source and page, and the instant of ring time and the period it carries (R449). -/
def State.raised (s t : State) (src page : Nat) : Prop :=
  ∃ f, t.scribe.inflight = s.scribe.inflight ++ [f] ∧ f.src = src ∧ f.page = page

/-! ### Bundles (R298, R299, R311) -/

/-- The cycle in which the bundle at an engine's program counter issues: the first in which no register of it is held. -/
def State.bundleAt (s : State) (n : Nat) : Nat :=
  let wa := s.imemWord n (s.pcOf n)
  let wm := s.imemWord n (s.pcOf n + 4)
  issueCycle n (s.engine n) (holdEnds (s.engine n) (slotOp false wa) (slotOp true wm) wa wm)

/-- The state as that bundle reads it: the CSM accesses of earlier cycles have taken place and the engine's results usable by
then are written; Tenon has neither. -/
def State.atIssue (s : State) (n : Nat) : State :=
  if n = 9 then s else (s.csmBefore (s.bundleAt n)).mFlush n (s.bundleAt n)

/-- The A-slot instruction of a bundle has executed, with registers `r`, the jump and the WAIT it leaves for the end of the
bundle: its M slot is next, which reads the registers from before the bundle, and no other engine has changed. -/
def State.aDone (s t : State) (n : Nat) (r : EngRegs) (jump wait : Option Nat) : Prop :=
  (t.engine n).r = r ∧
  (t.engine n).half.map (fun h => (h.old, h.at_, h.jump, h.wait)) = some (((s.atIssue n).engine n).r, s.bundleAt n, jump, wait) ∧
  ∀ m, m ≠ n → t.engine m = (s.atIssue n).engine m

/-- The M-slot instruction of a bundle has executed, with registers `r` and results on their way `pend`, and the bundle has
ended: the next one is the one its branch names, else the one after it, and no other engine has changed. -/
def State.mDone (s t : State) (n : Nat) (h : Half) (r : EngRegs) (pend : List MPend) : Prop :=
  (t.engine n).r = r ∧ (t.engine n).pend = pend ∧ (t.engine n).half = none ∧
  t.pcOf n = h.jump.getD ((s.pcOf n + 8) % 65536) ∧ ∀ m, m ≠ n → t.engine m = s.engine m

end Sys2Proof.Machine
end

