-- ==== Sys2Proof/Certificates/Slice0/Obligations.lean ====
section
/-!
DEFINITION. Sys2Proof/Certificates/Slice0/Obligations.lean: the statements for the provers. A statement that rests on a
choice or a reading of the model names its log entry (notes/assumptions) in its docstring.
-/
open Sys2Proof Sys2Proof.Machine

/-- For every command c and state s, a step of s with c put at the front of its queue is exec of c on s with the rest of
the queue. (Derived from: notes/assumptions/1.md, spec/95_what_each_step_holds.md.) -/
def Obligations.StepRunsFront : Prop :=
  ∀ (c : Instr) (s : State), step { s with pending := c :: s.pending } = exec c s

/-- Every command answers a next state in every state (the model's choice, log entry 2: a command whose condition does not
hold leaves the block as it is, and nothing stops it). The command leaves the waiting commands alone, the block stays
well inside its invariant, and no free value is used twice: the count of the ones used never falls. (Derived from:
notes/assumptions/2.md, notes/assumptions/7.md.) -/
def Obligations.EveryCommandAnswers : Prop :=
  ∀ (c : Instr) (s : State), ∃ t, exec c s = .next t ∧ t.pending = s.pending ∧ s.free ≤ t.free ∧ (s.Inv → t.Inv)

/-- For every state whose register file and memories are in canonical form and whose ring time is a 64-bit number (R85),
the state a step answers has them so too, whatever command is in front, and with none in front. (Derived from:
02_pages_and_host_port.md, 03_datum_time.md, notes/assumptions/4.md.) -/
def Obligations.InvariantKept : Prop :=
  ∀ s t : State, s.Inv → step s = .next t → t.Inv

/-- The state after reset satisfies the invariant, no command waits in it, and every register holds the reset value of its
table. (Derived from: 17_power_reset_boot.md, notes/assumptions/5.md.) -/
def Obligations.ResetInvariant : Prop :=
  State.reset.Inv ∧ State.reset.pending = [] ∧ ∀ k, State.reset.reg k = wd (resetOf k)

/-- On an empty queue a step answers a next state with an empty queue (the model's choice, log entry 1). Before DTM has
first been released nothing changes. From then on ring time advances by 64 ru modulo 2^64, and besides ring time only
the registers and the state of the local bridges and choppers and the faults on their way to Scribe can change.
(Derived from: notes/assumptions/1.md, notes/assumptions/86.md.) -/
def Obligations.IdleStep : Prop :=
  ∀ s : State, s.pending = [] →
    ∃ t, step s = .next t ∧ t.pending = [] ∧
      (s.rst.cold = true → s.domHeld 2 = true → t = s) ∧
      (¬ (s.rst.cold = true ∧ s.domHeld 2 = true) → t.dt64 = (s.dt64 + 64) % 2 ^ 64 ∧
        t = { s with dt64 := t.dt64, regs := t.regs, loc := t.loc, scribe := t.scribe })

/-- PLAN_START_REQUEST with EN = 1, COMMIT = 0 and SSTOP = 0 on an unpaired head while no plan runs. With a plan loaded
and PER inside P_min to P_max, the plan runs, S(0) is the first multiple of P at least 16 µs (256 000 ru) ahead, TRG
PSTA.ENS is 1 and IDLE 0, and nothing else changes but the control and status register of the TRG page. With no plan
loaded or PER outside the range, EN stays 0, IRQS bit 2 REFUSED is set, PLAN_RANGE is raised once on the TRG page, no
plan runs, and nothing else changes. (Derived from: 03_datum_time.md: R114 (the start is judged),
02_pages_and_host_port.md: R64.) -/
def Obligations.PlanStartJudged : Prop :=
  ∀ (s : State) (v : Word), s.writable 9 = true → s.plan.run = false → s.paired = false →
    v.bit 0 = true → v.bit 1 = false → v.bit 2 = false → 0 < s.regF R.TRG.PER 0 20 →
    (s.plan.loaded = true → s.regN R.TRG.PMIN ≤ s.regF R.TRG.PER 0 20 → s.regF R.TRG.PER 0 20 ≤ s.regN R.TRG.PMAX →
      ∃ t, exec (.planStartRequest v) s = .next t ∧ t.plan.run = true ∧ t.plan.started = false ∧
        t.plan.per = s.regF R.TRG.PER 0 20 ∧ s.regF R.TRG.PER 0 20 ∣ t.plan.start ∧ s.dt64 + 256000 ≤ t.plan.start ∧
        t.plan.start < s.dt64 + 256000 + s.regF R.TRG.PER 0 20 ∧ t.enabled 9 = true ∧ t.ens 9 = true ∧
        t.regB (R.PSTA 9) 2 = false ∧ regsBut s t [R.PCTL 9, R.PSTA 9] ∧
        t = { s with regs := t.regs, plan := t.plan }) ∧
    (s.plan.loaded = false ∨ s.regF R.TRG.PER 0 20 < s.regN R.TRG.PMIN ∨ s.regN R.TRG.PMAX < s.regF R.TRG.PER 0 20 →
      ∃ t, exec (.planStartRequest v) s = .next t ∧ t.enabled 9 = false ∧ t.regB (R.IRQS 9) 2 = true ∧
        s.raised t Src.PLAN_RANGE 9 ∧ regsBut s t [R.PCTL 9, R.IRQS 9] ∧
        t = { s with regs := t.regs, scribe := t.scribe })

/-- While a frame plan runs: PLAN_STOP_REQUEST with EN = 0 or SSTOP = 1 requests a stop, which is accepted at the next
t_ML; until then the plan runs on, and a PLAN_START_REQUEST withdraws the request. After acceptance the stop stands,
and the write says only whether the plan is to be started again at the stop. Nothing else changes but the control
register of the page (and its pending commit where COMMIT is written with it). (Derived from: 03_datum_time.md: R610
(the request and its withdrawal).) -/
def Obligations.PlanStopRequested : Prop :=
  ∀ (s : State) (v : Word), s.writable 9 = true → s.plan.run = true → v.bit 1 = false →
    ((v.bit 0 = false ∨ v.bit 2 = true) → ∃ t, exec (.planStopRequest v) s = .next t ∧
      t.plan = (if s.plan.stopAcc then { s.plan with restart := false } else { s.plan with stopReq := true }) ∧
      t.enabled 9 = v.bit 0 ∧ t.regB (R.PCTL 9) 2 = v.bit 2 ∧ regsBut s t [R.PCTL 9] ∧
      t = { s with regs := t.regs, plan := t.plan }) ∧
    (v.bit 0 = true → v.bit 2 = false → ∃ t, exec (.planStartRequest v) s = .next t ∧
      t.plan = (if s.plan.stopAcc then { s.plan with restart := true } else { s.plan with stopReq := false }) ∧
      regsBut s t [R.PCTL 9] ∧ t = { s with regs := t.regs, plan := t.plan })

/-- PLAN_START while a plan runs that has not started: ring time is brought to S(0), the plan has started, TRG.PSTART
reads S(0), TRG.PIDX reads 0 at the first start since the plan was loaded and one more than before at a later one,
TRG.IRQS bit 0 is set, every ring of the map has its full-state request pending, what the stack programs keep starts
anew, and no other register changes, but that time-valid returns where it was due. (Derived from: 03_datum_time.md:
R114, 01_stack_and_period.md: R36, 05_exl_frames.md: R190.) -/
def Obligations.PlanStarts : Prop :=
  ∀ s : State, s.plan.run = true → s.plan.started = false → s.plan.idx0 = none →
    ∃ t, exec .planStart s = .next t ∧ t.plan.started = true ∧ t.plan.run = true ∧ t.plan.pastML = false ∧
      t.dt64 = (s.reach s.plan.start).dt64 ∧ t.reg R.TRG.PSTART = wd s.plan.start ∧
      t.reg R.TRG.PIDX = wd (if s.plan.ran then (s.regN R.TRG.PIDX + 1) % 65536 else 0) ∧
      t.regB (R.IRQS 9) 0 = true ∧ (∀ r < 32, 0 < s.ringCells r → t.regB (R.RNG.RSTA r) 4 = true) ∧
      regsBut s t ([R.TRG.PIDX, R.TRG.PSTART, R.IRQS 9] ++ (List.range 32).map R.RNG.RSTA) ∧
      t = { s with dt64 := t.dt64, regs := t.regs, plan := t.plan, pset := s.pset.restart, datum := t.datum, jig := t.jig, cells := t.cells,
                   mon := t.mon, pair := t.pair } ∧ (s.paired = false → t.pair = s.pair)

/-- PERIOD_START of an unpaired head with no accepted value waiting, while time-valid is not due to return. With no stop
accepted, the next period starts at S(n) + P(n), TRG.PIDX is one more modulo 65 536, TRG.PSTART reads the new start,
and its length is TRG.PER. With a stop accepted and no restart, the plan stops: no plan runs, PSTA.ENS is 0, IDLE is 1
and IRQS bit 1 is set; the last output boundary, S(n+1) + φ_out, is due, and the PLL, now OFF, sets IRQS bit 0 of the
stack page where it was not. (Derived from: 01_stack_and_period.md: R35, R36, R49, 03_datum_time.md: R610.) -/
def Obligations.PeriodBoundary : Prop :=
  ∀ s : State, s.plan.run = true → s.plan.started = true → s.accepted = [] → s.paired = false → s.datum.tvDue = false →
    (s.plan.stopAcc = false → ∃ t, exec .periodStart s = .next t ∧
      t.plan.start = s.plan.start + s.plan.per ∧ t.plan.per = s.regF R.TRG.PER 0 20 ∧ t.plan.started = true ∧
      t.plan.pastML = false ∧ t.plan.fired = 0 ∧
      t.reg R.TRG.PIDX = wd ((s.regN R.TRG.PIDX + 1) % 65536) ∧ t.reg R.TRG.PSTART = wd (s.plan.start + s.plan.per) ∧
      regsBut s t [R.TRG.PIDX, R.TRG.PSTART] ∧
      t = { s with dt64 := t.dt64, regs := t.regs, plan := t.plan, cells := t.cells, mon := t.mon }) ∧
    (s.plan.stopAcc = true → s.plan.restart = false → ∃ t, exec .periodStart s = .next t ∧
      t.plan.run = false ∧ t.plan.started = false ∧
      t.plan.lastBoundary = some (s.plan.start + s.plan.per + s.regF R.TRG.PHI 0 20) ∧ t.ens 9 = false ∧
      t.regB (R.PSTA 9) 2 = true ∧ t.regB (R.IRQS 9) 1 = true ∧
      (natFld s.jig.lastStk 0 3 ≠ 0 → t.regB (R.IRQS 0x71) 0 = true) ∧ regsBut s t [R.PSTA 9, R.IRQS 9, R.IRQS 0x71] ∧
      t = { s with dt64 := t.dt64, regs := t.regs, plan := t.plan, datum := t.datum, edge := t.edge, jig := t.jig, scribe := t.scribe } ∧
      (s.scribe.resetDue = none → t.scribe = s.scribe))

/-- A host write of PCTL.EN or PCTL.SSTOP to a page other than TRG whose block is out of reset: the bit reads as written
and the other one as before. On a page whose block has no operation that outlasts its command, on an unpaired head,
PSTA.ENS follows EN and PSTA.IDLE is 1, and nothing else changes. BLOCK_IDLE of such a block while it is stopped or
disabled sets PSTA.IDLE and clears ENS where EN = 0; while it is neither it changes nothing. (Derived from:
02_pages_and_host_port.md: R57, R65.) -/
def Obligations.PageControl : Prop :=
  ∀ (s : State) (page : Nat) (b : Bool), s.writable page = true → page ≠ 9 →
    (∃ t, exec (.pctlEnWrite page b) s = .next t ∧ t.enabled page = b ∧
      t.regB (R.PCTL page) 2 = s.regB (R.PCTL page) 2) ∧
    (∃ t, exec (.pctlSstop page b) s = .next t ∧ t.regB (R.PCTL page) 2 = b ∧ t.enabled page = s.enabled page) ∧
    (plainControl page = true → s.paired = false →
      (∃ t, exec (.pctlEnWrite page b) s = .next t ∧ t.ens page = b ∧ t.regB (R.PSTA page) 2 = true ∧
        regsBut s t [R.PCTL page, R.PSTA page] ∧ t = { s with regs := t.regs }) ∧
      (∃ t, exec (.pctlSstop page b) s = .next t ∧ t.ens page = s.enabled page ∧ t.regB (R.PSTA page) 2 = true ∧
        regsBut s t [R.PCTL page, R.PSTA page] ∧ t = { s with regs := t.regs }) ∧
      (s.stopped page = true → ∃ t, exec (.blockIdle page) s = .next t ∧ t.regB (R.PSTA page) 2 = true ∧
        t.ens page = (s.enabled page && s.ens page) ∧ regsBut s t [R.PSTA page] ∧ t = { s with regs := t.regs }) ∧
      (s.stopped page = false → exec (.blockIdle page) s = .next s))

/-- PCTL_COMMIT sets PSTA.CPEND of its page and nothing else, so a second one merges with it. COMMIT_IDLE_ACCEPT while no
frame plan runs and no accepted value waits: every register of the page whose shadow copy is w reads w, no other
register changes but PSTA.CPEND, which clears, and the shadow copies of other pages stay. With no commit pending, or
while a plan runs, nothing changes. (The pages of the Jig engines, whose bank switch has its own conditions, and of
the stack page's injection are left to their own rules.) (Derived from: 02_pages_and_host_port.md: R61, R63, R64,
00_scope.md: R13 (RWS).) -/
def Obligations.CommitAppliesWhenIdle : Prop :=
  ∀ (s : State) (page : Nat),
    (s.writable page = true → ∃ t, exec (.pctlCommit page) s = .next t ∧ t.regB (R.PSTA page) 1 = true ∧
      (s.regB (R.PSTA page) 1 = true → ∀ k, t.reg k = s.reg k) ∧
      regsBut s t [R.PSTA page] ∧ t = { s with regs := t.regs }) ∧
    (s.plan.run = true ∨ s.regB (R.PSTA page) 1 = false → exec (.commitIdleAccept page) s = .next s) ∧
    (s.plan.run = false → s.regB (R.PSTA page) 1 = true → s.accepted = [] → page ≠ 0x51 → page ≠ 0x52 → page ≠ 0x71 →
      (∀ p ∈ s.shadow, p.1 ≠ R.PSTA page) →
      ∃ t, exec (.commitIdleAccept page) s = .next t ∧ t.regB (R.PSTA page) 1 = false ∧
        (∀ p ∈ s.shadow, pageOf p.1 = page → (∀ q ∈ s.shadow, q.1 = p.1 → q = p) → ∀ w, p.2 = some w → t.reg p.1 = w) ∧
        (∀ k, pageOf k ≠ page → NMap.get none t.shadow k = NMap.get none s.shadow k) ∧
        regsBut s t (R.PSTA page :: s.shadow.map fun p => p.1) ∧
        t = { s with regs := t.regs, shadow := t.shadow, accepted := t.accepted })

/-- An unpaired head whose plan has started. COLLECTOR_LAUNCH puts one collector with the index of the period on each ring
direction whose lane is UP. TELEMETRY_CLOSE marks every slot without a valid copy stale in RSTA and clears the mark of
the others. COMMAND_LAUNCH, once in a period, closes compute and puts one command frame with the index of the next
period on each such direction (while no restore runs); a stop requested is accepted. SLOT_IMAGE_WRITE_BACK after t_ML,
while no restore runs, puts every slot as sent into its image of the next period, and no byte outside those images
changes. COMMAND_CLOSE puts one beacon on each such direction, with 8 bytes when the index is a multiple of 16 and
empty otherwise. OUTPUT_BOUNDARY of a new boundary loads the shadow register of every local leg that is enabled, not
latched and not held off, and turns every other leg that is not latched off; the one that a stop left due turns every
leg off. (Derived from: 01_stack_and_period.md: R36, R44, R46, 03_datum_time.md: R106, R116, 05_exl_frames.md: R165,
R168, 06_edge_schedules.md: R203, 12_local_bridges_and_trips.md: R375.) -/
def Obligations.PeriodEvents : Prop :=
  ∀ s : State, s.paired = false → s.plan.started = true → (∀ r < 32, s.ringCells r ≤ 8) →
    (∃ t, exec .collectorLaunch s = .next t ∧ ∀ r < 32, ∀ (rev : Bool) (n : Nat), 0 < s.ringCells r → s.txLane r rev = some n →
      s.laneUp n = true → ∃ b, OutFrame.exl n (s.plan.start + s.regF R.TRG.TCL 0 20) b ∈ t.out ∧ frameType b = 2 ∧ framePidx b = s.regN R.TRG.PIDX % 65536 ∧
        frameRing b = r ∧ frameRev b = rev) ∧
    (∃ t, exec .telemetryClose s = .next t ∧ ∀ r < 32, ∀ p < s.ringCells r,
      t.regB (R.RNG.RSTA r) (16 + p) = ((NMap.get {} s.cells (r * 8 + p)).bad || (NMap.get {} s.cells (r * 8 + p)).copy.isNone)) ∧
    (s.plan.pastML = true → exec .commandLaunch s = .next s) ∧
    (s.plan.pastML = false → s.restoring = false → ∃ t, exec .commandLaunch s = .next t ∧ t.plan.pastML = true ∧ t.plan.stopReq = false ∧
      t.plan.stopAcc = (s.plan.stopAcc || s.plan.stopReq) ∧
      ∀ r < 32, ∀ (rev : Bool) (n : Nat), 0 < s.ringCells r → s.txLane r rev = some n → s.laneUp n = true →
        ∃ b, OutFrame.exl n s.tML b ∈ t.out ∧ frameType b = 1 ∧ framePidx b = (s.regN R.TRG.PIDX + 1) % 65536 ∧
          frameRing b = r ∧ frameRev b = rev) ∧
    (s.restoring = false → ∃ t, exec .slotImageWriteBack s = .next t ∧ t = { s with mem := t.mem, eng := t.eng } ∧
      (s.plan.pastML = true → (∀ c ∈ s.ringAddrs, (NMap.get {} s.cells c).sent.length ≤ 0x80) → ∀ c ∈ s.ringAddrs,
        t.mem.readBytes (imageAt s.nextPidx c) (NMap.get {} s.cells c).sent.length = (NMap.get {} s.cells c).sent) ∧
      ∀ a, (∀ c ∈ s.ringAddrs, a < imageAt s.nextPidx c ∨
        imageAt s.nextPidx c + (NMap.get {} s.cells c).sent.length ≤ a) → t.mem.read a = s.mem.read a) ∧
    (∀ cycles, ∃ t, exec (.commandClose cycles) s = .next t ∧ ∀ r < 32, ∀ (rev : Bool) (n : Nat), 0 < s.ringCells r →
      s.txLane r rev = some n → s.laneUp n = true → ∃ b, OutFrame.exl n s.tCC b ∈ t.out ∧ frameType b = 3 ∧
        framePidx b = s.regN R.TRG.PIDX % 65536 ∧ frameLen b = (if s.regN R.TRG.PIDX % 16 = 0 then 8 else 0)) ∧
    (s.plan.lastBoundary = none → s.plan.boundary ≠ s.plan.start + s.regF R.TRG.PHI 0 20 →
      ∃ t, exec .outputBoundary s = .next t ∧
      t.plan.boundary = s.plan.start + s.regF R.TRG.PHI 0 20 ∧ ∀ k < 12, s.latched k = false →
        (t.ll k).loaded = (if s.legsHeld || !s.regB (R.LBR.LCFG k) 5 then {} else (s.ll k).shadow.headD {})) ∧
    (∀ b, s.plan.lastBoundary = some b → ∃ t, exec .outputBoundary s = .next t ∧ t.plan.boundary = b ∧
      t.plan.lastBoundary = none ∧ ∀ k < 12, (t.ll k).loaded = {})

/-- A host write of 0x5A5A to WLCK of a page opens the lock of its page and clears VIOLC; a write of any other value to
WLCK closes the lock; nothing else changes. A host write to a register with RWL fields while the lock is closed
advances VIOLC by one up to its limit, sets IRQS.LOCKV, and completes: it answers a next state, whatever the register.
(Rules: R58.) -/
def Obligations.WriteLock : Prop :=
  ∀ (s : State) (page : Nat), s.writable page = true →
    (∃ t, exec (.wlckOpen page) s = .next t ∧ t.lockOpen page = true ∧ t.regF (R.WLCK page) 8 8 = 0 ∧
      regsBut s t [R.WLCK page] ∧ t = { s with regs := t.regs }) ∧
    (∀ v : Word, v ≠ 0x5A5A → ∃ t, exec (.wlckClose page v) s = .next t ∧ t.lockOpen page = false ∧
      t.regF (R.WLCK page) 8 8 = s.regF (R.WLCK page) 8 8 ∧ regsBut s t [R.WLCK page] ∧ t = { s with regs := t.regs }) ∧
    (∀ (src : HSrc) (off : Nat) (v : Word) (d : RegDef), regDef page off = some d → 0x100 ≤ off → d.acc.rwl ≠ 0 →
      s.lockOpen page = false → ∃ t, exec (.registerWrite src page off v) s = .next t ∧
        t.regF (R.WLCK page) 8 8 = satInc 8 (s.regF (R.WLCK page) 8 8) ∧ t.regB (R.IRQS page) 31 = true)

/-- REGISTER_WRITE answers a next state for every source, page, offset and value: with the host bridge in reset or on a
page of no block, and on a block in reset, it changes nothing; before the first configured state it only advances
RST.PREWCNT. Otherwise its effect is u, after which the tie and a LISTEN role follow (nothing on an unpaired head). An
unassigned offset: u is s. WLCK: the key opens the lock and clears VIOLC, another value closes it. PCTL of a page with
no effect of its block beyond it: EN and SSTOP as written. A register written only while no plan runs, under a plan:
VIOLC and LOCKV alone. TS5 while the stack program set runs: u is s. Every register whose write does no more
(plainReg): each bit reads the bit written (held inside the field's limits where the page states them) if its code is
RW, or RWL with the lock open; cleared if its code is W1C and it is written 1; as before otherwise. RWS bits go to the
shadow copy. Nothing else changes but VIOLC and LOCKV of the page where a locked field was written. (Derived from:
00_scope.md: R13, R14, R15, 02_pages_and_host_port.md: R57, R58, 02_pages_and_host_port.md: R65,
17_power_reset_boot.md: R497, R506, 07_stack_control.md: R232, 05_exl_frames.md: R194.) -/
def Obligations.RegisterWriteAccess : Prop :=
  ∀ (s : State) (src : HSrc) (page off : Nat) (v : Word),
    (s.domHeld 0 = true ∨ blockOf page = none → exec (.registerWrite src page off v) s = .next s) ∧
    (s.preConfig page = true → exec (.registerWrite src page off v) s = .next (s.bump R.RST.PREWCNT)) ∧
    (s.domHeld 0 = false → s.preConfig page = false → s.pageUp page = false →
      exec (.registerWrite src page off v) s = .next s) ∧
    (s.paired = false → s.tieSettle = s) ∧
    (s.writable page = true → ∃ u, exec (.registerWrite src page off v) s = .next u.tieSettle ∧
      (regDef page off = none → u = s) ∧
      (∀ d, regDef page off = some d →
        (off = 0x01C → u.lockOpen page = decide (v = 0x5A5A) ∧
          u.regF (R.WLCK page) 8 8 = (if v = 0x5A5A then 0 else s.regF (R.WLCK page) 8 8) ∧
          regsBut s u [R.WLCK page] ∧ u = { s with regs := u.regs }) ∧
        (off = 0x004 → plainControl page = true → v.bit 1 = false →
          (u.reg (R.PCTL page)).bit 0 = v.bit 0 ∧ (u.reg (R.PCTL page)).bit 2 = v.bit 2) ∧
        (idleOnly page off = true → s.plan.run = true →
          u.regF (R.WLCK page) 8 8 = satInc 8 (s.regF (R.WLCK page) 8 8) ∧ u.regB (R.IRQS page) 31 = true ∧
          regsBut s u [R.WLCK page, R.IRQS page] ∧ u = { s with regs := u.regs }) ∧
        (page = 9 → off = 0x140 ∨ off = 0x144 → s.shipped.stack = true → s.plan.run = true → u = s) ∧
        (plainReg page off = true → (idleOnly page off && s.plan.run) = false →
          (page = 9 → off = 0x140 ∨ off = 0x144 → (s.shipped.stack && s.plan.run) = false) →
          (∀ i < 32, (u.reg (page * 0x1000 + off)).bit i =
            ((if d.acc.rw.testBit i || (d.acc.rwl.testBit i && s.lockOpen page) then (heldAs page off v).bit i
              else (s.reg (page * 0x1000 + off)).bit i) && !(d.acc.w1c.testBit i && v.bit i))) ∧
          (d.acc.rws ≠ 0 →
            NMap.get none u.shadow (page * 0x1000 + off) = some (heldAs page off v &&& wd d.acc.rws)) ∧
          (d.acc.rws = 0 → u.shadow = s.shadow) ∧
          regsBut s u ((page * 0x1000 + off) ::
            if d.acc.rwl ≠ 0 && !s.lockOpen page then [R.WLCK page, R.IRQS page] else []) ∧
          u = { s with regs := u.regs, shadow := u.shadow })))

/-- ROC_READ of a register of a block out of reset leaves every ROC bit at its reset value and every other bit as it was,
and nothing else changes. A block in reset does nothing. (Derived from: 00_scope.md: R13 (ROC),
02_pages_and_host_port.md: R60.) -/
def Obligations.RocReadClears : Prop :=
  ∀ (s : State) (page off : Nat),
    (s.pageUp page = false → exec (.rocRead page off) s = .next s) ∧
    (s.pageUp page = true → ∀ d, keyDef (page * 0x1000 + off) = some d → ∃ t, exec (.rocRead page off) s = .next t ∧
      (∀ i < 32, (t.reg (page * 0x1000 + off)).bit i =
        if d.acc.roc.testBit i then d.reset.testBit i else (s.reg (page * 0x1000 + off)).bit i) ∧
      regsBut s t [page * 0x1000 + off] ∧ t = { s with regs := t.regs })

/-- While the first configured state is not reached and the host bridge is out of reset, a host write to a page other than
the four that take writes then does nothing but advance RST.PREWCNT by one up to its limit: for a register, a page
control, a commit, a lock, a cell command, a stack command, a safety, fuse, image or trip command alike. (Derived
from: 17_power_reset_boot.md: R506, 02_pages_and_host_port.md.) -/
def Obligations.PreConfigWritesCounted : Prop :=
  ∀ s : State,
    (∀ page, s.preConfig page = true → ∀ (b : Bool) (v : Word),
      exec (.pctlEnWrite page b) s = .next (s.bump R.RST.PREWCNT) ∧
      exec (.pctlSstop page b) s = .next (s.bump R.RST.PREWCNT) ∧
      exec (.pctlCommit page) s = .next (s.bump R.RST.PREWCNT) ∧
      exec (.wlckOpen page) s = .next (s.bump R.RST.PREWCNT) ∧
      exec (.wlckClose page v) s = .next (s.bump R.RST.PREWCNT)) ∧
    (∀ page, s.preConfig page = true → ∀ (src : HSrc) (off : Nat) (v : Word),
      exec (.registerWrite src page off v) s = .next (s.bump R.RST.PREWCNT)) ∧
    (∀ a : BitVec 8, s.preConfig 0x50 = true → exec (.cmdInsert a) s = .next (s.bump R.RST.PREWCNT) ∧
      exec (.cmdRetire a) s = .next (s.bump R.RST.PREWCNT) ∧ exec (.retclr a) s = .next (s.bump R.RST.PREWCNT)) ∧
    (s.preConfig 0x52 = true → exec .jcmdStart s = .next (s.bump R.RST.PREWCNT)) ∧
    (∀ v : Word, s.preConfig 0x78 = true → exec (.tlatchClear v) s = .next (s.bump R.RST.PREWCNT)) ∧
    (s.preConfig 0x98 = true → exec .ackall s = .next (s.bump R.RST.PREWCNT) ∧
      exec .trclr s = .next (s.bump R.RST.PREWCNT)) ∧
    (s.preConfig 0x01 = false ∧ s.preConfig 0xA0 = false) ∧
    (s.bump R.RST.PREWCNT).regF R.RST.PREWCNT 0 16 = satInc 16 (s.regF R.RST.PREWCNT 0 16)

/-- From an enabled source with the host bridge out of reset (a port: up, the datagram whole, to the head, on UDP port
29640; the response goes to the address and port it came from). WRITE of words inside one decoded 4 KiB block (no
instruction memory of an enabled engine) is posted behind the operations accepted before it and answered with STAT 0.
READ under a free tag is posted and makes the tag outstanding for its source; under an outstanding tag it is answered
TAG_BUSY and changes nothing. FETCH of a completed read by its source answers the data and releases the tag (on the
HSP, when the last response bit was clocked); of one not completed it answers PENDING, of a tag this source does not
hold NO_TAG, and changes nothing. STATUS answers the maps of the outstanding and of the ready tags of this source.
Nothing but the host port changes. (Derived from: 02_pages_and_host_port.md: R67, R68, R70, R71, R74, R75, R80, R82,
R83.) -/
def Obligations.HostRequestsServed : Prop :=
  ∀ (s : State) (src : HSrc) (via : Dgram) (tag addr : Nat), s.domHeld 0 = false → s.hears src via = true → tag < 64 → addr < 2 ^ 32 →
    addr % 4 = 0 → (placeOf addr).isSome = true →
    (∀ ws : List Word, ws ≠ [] → ws.length ≤ room addr → s.imemShut addr = false →
      exec (.hostWrite ⟨src, via⟩ (requestBytes 1 tag addr ws.length ws)) s =
        .next { s with host := { s.host with ops := s.host.ops ++ [.write src addr ws],
                                             rsp := reply src via (responseBytes 0 tag []) } }) ∧
    (∀ cnt, cnt ≤ room addr → NMap.get none s.host.tags tag = none →
      exec (.hostRead ⟨src, via⟩ (requestBytes 2 tag addr cnt [])) s =
        .next { s with host := { s.host with
          ops := s.host.ops ++ [.read src tag addr cnt],
          tags := NMap.put none s.host.tags tag (some { src := src, cnt := cnt, stat := 0 }),
          rsp := reply src via (responseBytes 0 tag []) } }) ∧
    (∀ cnt g, NMap.get none s.host.tags tag = some g → cnt < 4096 →
      exec (.hostRead ⟨src, via⟩ (requestBytes 2 tag addr cnt [])) s =
        .next { s with host := { s.host with rsp := reply src via (responseBytes 8 tag []) } }) ∧
    (∀ g, NMap.get none s.host.tags tag = some g → ∀ d, g.data = some d → g.src = src →
      exec (.hostFetch ⟨src, via⟩ (requestBytes 3 tag 0 0 []) true) s =
        .next { s with host := { s.host with tags := NMap.put none s.host.tags tag none,
                                             rsp := reply src via (responseBytes g.stat tag d) } }) ∧
    (∀ g, NMap.get none s.host.tags tag = some g → g.src = src → g.data = none →
      exec (.hostFetch ⟨src, via⟩ (requestBytes 3 tag 0 0 []) true) s =
        .next { s with host := { s.host with rsp := reply src via (responseBytes 0x10 tag []) } }) ∧
    ((∀ g, NMap.get none s.host.tags tag = some g → g.src ≠ src) →
      exec (.hostFetch ⟨src, via⟩ (requestBytes 3 tag 0 0 []) true) s =
        .next { s with host := { s.host with rsp := reply src via (responseBytes 0x20 tag []) } }) ∧
    exec (.hostStatus ⟨src, via⟩ (requestBytes 4 tag 0 0 [])) s =
      .next { s with host := { s.host with rsp := reply src via (responseBytes 0 tag
        [s.tagMap (tag / 32) fun t => t.src == src, s.tagMap (tag / 32) fun t => t.src == src && t.data.isSome]) } }

/-- A request on an Ethernet port whose host access is disabled changes nothing and gets no response. One on an enabled
port whose last two bytes are not the CRC of the bytes before them, or that is shorter than 10 bytes, gets no response
and changes nothing but HSP.CRCCNT, which advances by one up to its limit. On the HSP, a frame cut before its CRC has
been clocked changes nothing. (Rules: R84.) -/
def Obligations.BrokenRequests : Prop :=
  ∀ (s : State) (src : HSrc) (via : Dgram) (b : List Byte), s.domHeld 0 = false →
    (src ≠ .hsp → s.hostOn src = false → exec (.hostWrite ⟨src, via⟩ b) s = .next s ∧ exec (.hostRead ⟨src, via⟩ b) s = .next s ∧
      exec (.hostFetch ⟨src, via⟩ b true) s = .next s ∧ exec (.hostStatus ⟨src, via⟩ b) s = .next s) ∧
    (src ≠ .hsp → s.hears src via = true →
      b.length < 10 ∨ crc16 (b.take (b.length - 2)) ≠ beNat (b.drop (b.length - 2)) →
      exec (.hostWrite ⟨src, via⟩ b) s = .next (s.bump R.HSP.CRCCNT) ∧ exec (.hostRead ⟨src, via⟩ b) s = .next (s.bump R.HSP.CRCCNT) ∧
      exec (.hostFetch ⟨src, via⟩ b true) s = .next (s.bump R.HSP.CRCCNT) ∧
      exec (.hostStatus ⟨src, via⟩ b) s = .next (s.bump R.HSP.CRCCNT) ∧
      (s.bump R.HSP.CRCCNT).regF R.HSP.CRCCNT 0 16 = satInc 16 (s.regF R.HSP.CRCCNT 0 16)) ∧
    (b.length < reqLen b → exec (.hspFrameAbort b) s = .next s)

/-- HOST_WRITE_APPLY applies the oldest accepted write to its 4 KiB block when no read was accepted before it, and takes
it from the accepted operations. A word to a page has the effect of REGISTER_WRITE. Words to table memory, CSM off the
result mirror and the instruction memories stand in memory from the address upward, least significant byte first, and
every other byte reads as before; a word to a data memory stands there, but for the connection table (log 185); a word
to the result mirror, the capture buffer or the stack parameter table under a plan changes no byte. In reset nothing
is written; before the first configured state the word is counted in PREWCNT. Where no write to the block stands
before the first read, nothing is applied. HOST_READ_PERFORM performs the oldest operation when it is a read: as many
words as asked complete under its tag, zeros beyond the 4 KiB boundary; a word of a memory reads as it stands, a
register of no effect of its block as its value, its ROC bits then reset, and 0 where the offset is unassigned or the
block in reset; while a write is older, or nothing waits, nothing changes. (Derived from: 02_pages_and_host_port.md:
R53, R76, R77, R79, 00_scope.md: R10, 07_stack_control.md: R237, 13_measurement.md: R411, 14_safety.md: R430,
17_power_reset_boot.md: R506.) -/
def Obligations.HostOrder : Prop :=
  ∀ (s : State) (pre post : List HostOp) (src : HSrc) (a : Nat), a % 4 = 0 →
    (s.paired = false → s.tieSettle = s) ∧
    (∀ ws : List Word, s.host.ops = pre ++ .write src a ws :: post → (∀ o ∈ pre, writesElsewhere (a / 0x1000) o = true) →
      ∃ t u, exec (.hostWriteApply (a / 0x1000)) s = .next t ∧ t = u.tieSettle ∧
        t.host.ops = pre ++ post ∧ t.host.tags = s.host.tags ∧
        (s.domHeld 0 = true → u = { s with host := { s.host with ops := pre ++ post } }) ∧
        (∀ p off v, ws = [v] → placeOf a = some (.page p off) → s.writable p = true →
          exec (.registerWrite src p off v) { s with host := { s.host with ops := pre ++ post } } = .next t) ∧
        (∀ v, ws = [v] → (placeOf a).isSome = true → pageAddr a = false →
          s.domHeld 0 = false → s.cfgd = false →
          u = { s with host := { s.host with ops := pre ++ post } }.bump R.RST.PREWCNT) ∧
        (s.domHeld 0 = false → s.cfgd = true →
          ((∀ i < ws.length, s.windowTakes (a + 4 * i) = true) →
            (∀ i < ws.length, u.mem.readWord (a + 4 * i) = ws.getD i 0) ∧
            (∀ i < 4 * ws.length, u.mem.read (a + i) =
              BitVec.ofNat 8 ((ws.getD (i / 4) 0).toNat / 2 ^ (8 * (i % 4)))) ∧
            (∀ c, c < a ∨ a + 4 * ws.length ≤ c → u.mem.read c = s.mem.read c)) ∧
          (∀ v, ws = [v] → pageAddr a = false → s.windowTakes a = false →
            ∀ c, u.mem.read c = s.mem.read c) ∧
          (∀ v n off, ws = [v] → placeOf a = some (.dmem n off) →
            (¬(n = 8 ∧ 0x1E000 ≤ off ∧ off < 0x1EA00) → u.dmemWord n off = some v) ∧
            (n = 8 ∧ 0x1E000 ≤ off ∧ off < 0x1EA00 → u.dmem = s.dmem)))) ∧
    (∀ block, (∀ o ∈ pre, writesElsewhere block o = true) →
      (∀ tag cnt, s.host.ops = pre ++ .read src tag a cnt :: post → exec (.hostWriteApply block) s = .next s.tieSettle) ∧
      (s.host.ops = pre → exec (.hostWriteApply block) s = .next s.tieSettle)) ∧
    (∀ tag cnt, s.host.ops = .read src tag a cnt :: post → ∃ t, exec .hostReadPerform s = .next t ∧ t.host.ops = post ∧
      ∀ g, NMap.get none s.host.tags tag = some g → ∃ ds, NMap.get none t.host.tags tag = some { g with data := some ds } ∧
        ds.length = cnt ∧ (∀ i < cnt, room a ≤ i → ds.getD i 0 = 0) ∧
        ((∀ i < cnt, i < room a → s.windowShows (a + 4 * i) = true) → t = { s with host := t.host } ∧
          ∀ i < cnt, i < room a → ds.getD i 0 = s.mem.readWord (a + 4 * i)) ∧
        (∀ n off, cnt = 1 → placeOf a = some (.dmem n off) → ∀ w, s.dmemWord n off = some w →
          ds = [w] ∧ t = { s with host := t.host }) ∧
        (∀ p off, cnt = 1 → placeOf a = some (.page p off) →
          (regDef p off = none ∨ s.pageUp p = false → ds = [0] ∧ t = { s with host := t.host }) ∧
          (∀ d, regDef p off = some d → s.pageUp p = true → 0x100 ≤ off → s.blockRead src p off = none →
            ds = [s.reg (p * 0x1000 + off)] ∧ regsBut s t [p * 0x1000 + off] ∧
            (∀ i < 32, (t.reg (p * 0x1000 + off)).bit i =
              if d.acc.roc.testBit i then d.reset.testBit i else (s.reg (p * 0x1000 + off)).bit i) ∧
            t = { s with regs := t.regs, host := t.host }))) ∧
    (s.host.ops = [] → exec .hostReadPerform s = .next s) ∧
    (∀ ws : List Word, s.host.ops = .write src a ws :: post → exec .hostReadPerform s = .next s)

/-- From an enabled source with the host bridge out of reset (a port: up, the datagram whole, to the head, on UDP port
29640; the response goes to the address and port it came from). A WRITE that would cross the next 4 KiB boundary is
posted with its words up to the boundary, is answered TRUNC, and advances HSP.TRCCNT by one up to its limit. A WRITE
or READ from an undecoded address is answered BUS_ERR and raises HOST_DECODE once under the HSP page; the write posts
nothing. A WRITE to the instruction memory of an engine whose page has EN = 1 is answered BUS_ERR and posts nothing.
An empty WRITE posts nothing. (Derived from: 02_pages_and_host_port.md: R54, R55, R76, R80.) -/
def Obligations.HostBurstEdges : Prop :=
  ∀ (s : State) (src : HSrc) (via : Dgram) (tag addr : Nat) (ws : List Word), s.domHeld 0 = false → s.hears src via = true → tag < 64 →
    addr < 2 ^ 32 → addr % 4 = 0 → ws.length < 4096 →
    (room addr < ws.length → (placeOf addr).isSome = true → s.imemShut addr = false → ∃ t,
      exec (.hostWrite ⟨src, via⟩ (requestBytes 1 tag addr ws.length ws)) s = .next t ∧
      t.host.ops = s.host.ops ++ [.write src addr (ws.take (room addr))] ∧ t.host.rsp = reply src via (responseBytes 1 tag []) ∧
      t.regF R.HSP.TRCCNT 0 16 = satInc 16 (s.regF R.HSP.TRCCNT 0 16) ∧ regsBut s t [R.HSP.TRCCNT] ∧
      t = { s with regs := t.regs, host := t.host }) ∧
    (placeOf addr = none → ws ≠ [] → ws.length ≤ room addr →
      (∃ t, exec (.hostWrite ⟨src, via⟩ (requestBytes 1 tag addr ws.length ws)) s = .next t ∧ s.raised t Src.HOST_DECODE 0xB0 ∧
        t.host = { s.host with rsp := reply src via (responseBytes 0x40 tag []) } ∧
        t = { s with host := t.host, scribe := t.scribe }) ∧
      (NMap.get none s.host.tags tag = none → ∃ t,
        exec (.hostRead ⟨src, via⟩ (requestBytes 2 tag addr ws.length [])) s = .next t ∧ s.raised t Src.HOST_DECODE 0xB0 ∧
        t.host.rsp = reply src via (responseBytes 0x40 tag []) ∧ t = { s with host := t.host, scribe := t.scribe })) ∧
    (s.imemShut addr = true → ws ≠ [] → ws.length ≤ room addr →
      exec (.hostWrite ⟨src, via⟩ (requestBytes 1 tag addr ws.length ws)) s =
        .next { s with host := { s.host with rsp := reply src via (responseBytes 0x40 tag []) } }) ∧
    ((placeOf addr).isSome = true → exec (.hostWrite ⟨src, via⟩ (requestBytes 1 tag addr 0 [])) s =
      .next { s with host := { s.host with rsp := reply src via (responseBytes 0 tag []) } })

/-- PPS_EDGE while PPS_IN is the source, Datum is not in HOLDOVER, no foreign offset is held and no automatic step is due;
e is the stamp less PPSCORR against the nearest whole second. With |e| at most STEPLIM the servo works: FADJ moves by
at most 2 ppm, DT64 is not stepped and nothing is held. With |e| above STEPLIM and no frame plan running, or its start
requested in the same DTM cycle, DT64 is stepped by −e modulo 2^64, FINT is cleared and TIME_STEP is raised. With a
plan running, FOREIGN is e, FHELD is 1, TIME_FOREIGN is raised and DT64 is not stepped. In every case OFFS reads e,
LOCKED falls to ACQUIRE at |e| of SRVB1 or more, ACQUIRE becomes LOCKED with the eighth error in a row below SRVB0,
and any other state becomes ACQUIRE. An edge while PPS_IN is not the source changes nothing. (Derived from:
03_datum_time.md: R91, R92, R93, R95, R96, R97, 03_datum_time.md: R105.) -/
def Obligations.MeasurementApplied : Prop :=
  ∀ (s : State) (stamp : Nat),
    (s.sourceIs 3 = false → exec (.ppsEdge stamp) s = .next s) ∧
    (s.sourceIs 3 = true → s.dstate ≠ 4 → s.datum.foreign = none → s.datum.autostep = false →
      ∀ e : Int, e = ((stamp : Int) - s.regI R.DTM.PPSCORR + 8000000000) % 16000000000 - 8000000000 →
      ∃ t, exec (.ppsEdge stamp) s = .next t ∧ t.regI R.DTM.OFFS = satSym e ∧
        t.dstate = (if s.dstate = 2 then (if s.regN (srvb 1) ≤ e.natAbs then 1 else 2)
          else if s.dstate = 1 ∧ e.natAbs < s.regN (srvb 0) ∧ 7 ≤ s.datum.good then 2 else 1) ∧
        (e.natAbs ≤ s.regN R.DTM.STEPLIM → t.dt64 = (s.reach stamp).dt64 ∧ t.datum.foreign = none ∧
          (t.datum.fadj - s.datum.fadj).natAbs ≤ ppm2.natAbs) ∧
        (s.regN R.DTM.STEPLIM < e.natAbs →
          (s.plan.run = false ∨ (s.plan.started = false ∧ s.plan.asked = some (s.reach stamp).dt64)) →
          t.dt64 = bitsOfInt 64 (((s.reach stamp).dt64 : Int) - e) ∧ t.datum.fint = 0 ∧ t.datum.foreign = none ∧
          s.raised t Src.TIME_STEP dtmPage) ∧
        (s.regN R.DTM.STEPLIM < e.natAbs → s.plan.run = true →
          (s.plan.started = true ∨ s.plan.asked ≠ some (s.reach stamp).dt64) →
          t.dt64 = (s.reach stamp).dt64 ∧ t.datum.foreign = some e ∧ t.regB R.DTM.DTSTA 5 = true ∧
          t.regI R.DTM.FOREIGN = satSym e ∧ t.datum.fadj = s.datum.fadj ∧ s.raised t Src.TIME_FOREIGN dtmPage))

/-- GM_LOST in ACQUIRE or LOCKED: Datum is in COAST with FADJ at the FAVG held at entry, and GM_LOST is raised; in another
state nothing changes. FCLR while no frame plan runs leaves no foreign offset held, FHELD 0 and FOREIGN 0, and no
other register changes; while a plan runs nothing changes. (Derived from: 03_datum_time.md: R92, R94, R97.) -/
def Obligations.DatumCoastAndClear : Prop :=
  ∀ s : State,
    (s.dstate = 1 ∨ s.dstate = 2 → ∃ t, exec .gmLost s = .next t ∧ t.dstate = 3 ∧ t.datum.fadj = s.datum.favg ∧
      t.regB (R.IRQS dtmPage) 3 = true ∧ s.raised t Src.GM_LOST dtmPage ∧
      regsBut s t [R.DTM.FADJ, R.DTM.DTSTA, R.IRQS dtmPage] ∧
      t = { s with dt64 := t.dt64, regs := t.regs, scribe := t.scribe, datum := t.datum }) ∧
    (s.dstate ≠ 1 → s.dstate ≠ 2 → exec .gmLost s = .next s) ∧
    (s.writable dtmPage = true → s.plan.run = true → exec .fclr s = .next s) ∧
    (s.writable dtmPage = true → s.plan.run = false → ∃ t, exec .fclr s = .next t ∧ t.datum.foreign = none ∧
      t.regB R.DTM.DTSTA 5 = false ∧ t.reg R.DTM.FOREIGN = 0 ∧ regsBut s t [R.DTM.DTSTA, R.DTM.FOREIGN] ∧
      t = { s with regs := t.regs, datum := t.datum })

/-- On a port that is up with its PTP slave enabled and ANYM = 0. A one-step Sync of the configured master and domain
gives POFS, the receive stamp less the time it carries, less half the round trip, rounded to a neighbouring ru. A
two-step Sync keeps its receive stamp for the Follow_Up of the same sequence number, which gives POFS; a Follow_Up of
another number changes nothing. A Delay_Req due, one interval of ECFG.DREQ after the last, goes out in the port's
transport on a free transmitter with the next sequence number, occupies the transmitter for the time of its frame, and
its transmit stamp is kept; before its time, and while a frame is being sent, nothing goes out. A peer-delay response
of that number gives MPD, half of the round trip less the turnaround and the correction, rounded to a neighbouring ru.
A Sync, Follow_Up or response of another identity, domain or transport changes nothing. (Derived from:
03_datum_time.md: R90, R102, R103, R104.) -/
def Obligations.PtpSlave : Prop :=
  ∀ (s : State) (port : Fin 2) (m : PtpMsg), s.ethUp port.val = true → s.regB (R.ETH.ECFG port.val) 2 = true →
    s.regB (R.ETH.ECFG port.val) 5 = false →
    (s.masterIs port.val m = false ∨ s.regF (R.ETH.ECFG port.val) 8 8 ≠ m.domain.toNat ∨ s.regB (R.ETH.ECFG port.val) 3 ≠ m.udp →
      exec (.ptpSyncRx port m) s = .next s ∧ exec (.ptpFollowUpRx port m) s = .next s ∧
      exec (.ptpDelayRespRx port m) s = .next s) ∧
    (s.masterIs port.val m = true → s.regF (R.ETH.ECFG port.val) 8 8 = m.domain.toNat → s.regB (R.ETH.ECFG port.val) 3 = m.udp →
      (m.twoStep = false → ∃ t, exec (.ptpSyncRx port m) s = .next t ∧
        (t.regI (R.ETH.POFS port.val) = satSym (freeRound (2 * (s.ptpRx port.val m - s.ptpTime m.sec m.ns m.corr) -
          (NMap.get {} s.eth port.val).mpd) 8192))) ∧
      (m.twoStep = true → ∃ t, exec (.ptpSyncRx port m) s = .next t ∧
        (NMap.get {} t.eth port.val).sync = some (m.seq.toNat, s.ptpRx port.val m, m.corr) ∧ t.regs = s.regs) ∧
      (∀ x, (NMap.get {} s.eth port.val).sync = some x →
        (x.1 ≠ m.seq.toNat → exec (.ptpFollowUpRx port m) s = .next s) ∧
        (x.1 = m.seq.toNat → ∃ t, exec (.ptpFollowUpRx port m) s = .next t ∧
          (NMap.get {} t.eth port.val).sync = none ∧
          t.regI (R.ETH.POFS port.val) = satSym (freeRound (2 * (x.2.1 - s.ptpTime m.sec m.ns (m.corr + x.2.2)) -
            (NMap.get {} s.eth port.val).mpd) 8192))) ∧
      (∀ x, (NMap.get {} s.eth port.val).req = some x →
        (x.1 ≠ m.seq.toNat → exec (.ptpDelayRespRx port m) s = .next s) ∧
        (x.1 = m.seq.toNat → s.regB (R.ETH.ECFG port.val) 4 = true →
          ∃ t, exec (.ptpDelayRespRx port m) s = .next t ∧ (NMap.get {} t.eth port.val).req = none ∧
            (NMap.get {} t.eth port.val).mpd = s.ptpRx port.val m - x.2 - m.turn * 65536 - m.corr ∧
            t.reg (R.ETH.MPD port.val) = wdInt (freeRound (NMap.get {} t.eth port.val).mpd 8192) ∧
            regsBut s t [R.ETH.MPD port.val] ∧ t = { s with regs := t.regs, eth := t.eth }))) ∧
    (∀ stamp, s.passed stamp = false → ((NMap.get {} s.fq (64 + port.val)).busy > stamp →
        exec (.ptpDelayReqTx port stamp) s = .next s) ∧
      (∀ last, (NMap.get {} s.eth port.val).reqAt = some last → stamp < last + s.reqEvery port.val →
        exec (.ptpDelayReqTx port stamp) s = .next s) ∧
      ((NMap.get {} s.fq (64 + port.val)).busy ≤ stamp →
        (∀ last, (NMap.get {} s.eth port.val).reqAt = some last → last + s.reqEvery port.val ≤ stamp) →
        ∃ t, exec (.ptpDelayReqTx port stamp) s = .next t ∧
        (NMap.get {} t.eth port.val).req = some (((NMap.get {} s.eth port.val).seq + 1) % 65536, s.ptpTx port.val stamp) ∧
        (NMap.get {} t.eth port.val).reqAt = some stamp ∧
        t.out = [.ptp port.val stamp (((NMap.get {} s.eth port.val).seq + 1) % 65536) (s.regB (R.ETH.ECFG port.val) 4)
          (s.regB (R.ETH.ECFG port.val) 3)] ∧
        (NMap.get {} t.fq (64 + port.val)).busy = stamp + ethTime (reqOctets (s.regB (R.ETH.ECFG port.val) 4)
          (s.regB (R.ETH.ECFG port.val) 3)) ∧ (NMap.get {} t.fq (64 + port.val)).q = (NMap.get {} s.fq (64 + port.val)).q ∧
        (∀ q, q ≠ 64 + port.val → NMap.get {} t.fq q = NMap.get {} s.fq q) ∧
        t = { s with dt64 := t.dt64, eth := t.eth, fq := t.fq, out := t.out })) ∧
    (∀ (n : Int) (d : Nat), 0 < d → (freeRound n d * d - n).natAbs < d)

/-- CHANNEL_FIRE of an enabled channel TS5 to TS15. In periodic mode, in a started period that is longer than its offset,
when the channel has not fired and its instant is not behind: it has fired, TRG.IRQS bit k is set, and it does not
fire again in the period; in a period no longer than its offset it does not fire. In one-shot mode it fires and clears
its EN bit. SNAPL_READ latches DT64, high and low word, for the reading source alone. (Derived from: 03_datum_time.md:
R87, R89, R112, R113.) -/
def Obligations.ChannelsAndSnapshots : Prop :=
  ∀ (s : State) (i : Nat), i < 11 →
    (s.regB (R.TRG.TSCFG i) 0 = false → exec (.channelFire (i + 5)) s = .next s) ∧
    (s.regB (R.TRG.TSCFG i) 0 = true → s.regB (R.TRG.TSCFG i) 1 = false → s.plan.started = true →
      (s.plan.per ≤ s.regF (R.TRG.TSTGT i) 0 20 ∨ s.plan.fired.testBit (i + 5) = true →
        exec (.channelFire (i + 5)) s = .next s) ∧
      (s.regF (R.TRG.TSTGT i) 0 20 < s.plan.per → s.plan.fired.testBit (i + 5) = false →
        s.dt64 ≤ (if s.regB (R.TRG.TSCFG i) 2 then s.plan.boundary else s.plan.start) + s.regF (R.TRG.TSTGT i) 0 20 →
        ∃ t, exec (.channelFire (i + 5)) s = .next t ∧ t.plan.fired.testBit (i + 5) = true ∧
          t.regB (R.IRQS 9) (i + 5) = true ∧ exec (.channelFire (i + 5)) t = .next t ∧ regsBut s t [R.IRQS 9] ∧
          t = { s with dt64 := t.dt64, regs := t.regs, plan := t.plan })) ∧
    (s.regB (R.TRG.TSCFG i) 0 = true → s.regB (R.TRG.TSCFG i) 1 = true →
      ∃ t, exec (.channelFire (i + 5)) s = .next t ∧ t.regB (R.TRG.TSCFG i) 0 = false ∧ t.regB (R.IRQS 9) (i + 5) = true ∧
        regsBut s t [R.IRQS 9, R.TRG.TSCFG i] ∧ t = { s with dt64 := t.dt64, regs := t.regs, plan := t.plan }) ∧
    (∀ who, (who < 3 → s.pageUp dtmPage = true) → ∃ t, exec (.snaplRead who) s = .next t ∧
      NMap.get none t.host.snap who = some (wd (s.dt64 / 2 ^ 32), wd s.dt64) ∧
      (∀ other, other ≠ who → NMap.get none t.host.snap other = NMap.get none s.host.snap other) ∧
      t = { s with host := t.host })

/-- TXKICK of an enabled port whose next descriptor is owned, with room in its ring, queues the frame of that descriptor,
with its target where LTE = 1. CLASS_F_LAUNCH of an Ethernet queue whose head may launch sends the frame at its
instant and takes it from the queue; an empty queue changes nothing. ETH_TX_WRITEBACK clears OWN, sets TSV, gives
LATE, stores the stamp in words 2 and 3, sets IRQS bit 0, and no other byte of memory changes. ETH_RX_FRAME into an
owned descriptor clears OWN, gives the bytes stored as LEN and OVERSIZE for a frame longer than its buffer, sets IRQS
bit 1, and changes no byte of memory outside the buffer and the descriptor; without an owned descriptor, or with the
link down, nothing changes; one with a datagram to UDP port 29641 is a safety PDU received. Stores to the result
mirror are ignored (R411). ETH_LINK_CHANGE takes the link as ECFG.EN and LOS say, with IRQS bit 2 where it changes.
(Derived from: 03_datum_time.md: R104, R115, R121, R122.) -/
def Obligations.EthernetDescriptors : Prop :=
  ∀ (s : State) (port : Fin 2),
    (s.writable (0x0A + port.val) = true → s.regB (R.ETH.ECFG port.val) 0 = true →
      (NMap.get {} s.eth port.val).txNext < s.regF (R.ETH.TXRN port.val) 0 8 →
      (NMap.get {} s.fq (64 + port.val)).q = [] → (NMap.get {} s.eth port.val).txDone = [] →
      (s.mem.readWord (csmBase + s.regN (R.ETH.TXRB port.val) + 16 * (NMap.get {} s.eth port.val).txNext + 4)).bit 31 = true →
      ∃ t, exec (.txkick port) s = .next t ∧ t.mem = s.mem ∧ t.regs = s.regs ∧
        ((NMap.get {} t.fq (64 + port.val)).q.head?.any fun e =>
          e.desc == some (NMap.get {} s.eth port.val).txNext &&
          e.target.isSome == (s.mem.readWord (csmBase + s.regN (R.ETH.TXRB port.val) +
            16 * (NMap.get {} s.eth port.val).txNext + 4)).bit 30) = true) ∧
    (∀ at_, (NMap.get {} s.fq (64 + port.val)).q = [] → exec (.classFLaunch (64 + port.val) at_) s = .next s) ∧
    (∀ at_ e rest, (NMap.get {} s.fq (64 + port.val)).q = e :: rest →
      s.mayLaunch (64 + port.val) (NMap.get {} s.fq (64 + port.val)) e at_ (s.fBytes (64 + port.val) e).length = true →
      ∃ t, exec (.classFLaunch (64 + port.val) at_) s = .next t ∧ (NMap.get {} t.fq (64 + port.val)).q = rest ∧
        t.out = [.eth port.val at_ (s.fBytes (64 + port.val) e)] ∧
        t = { s with dt64 := t.dt64, scribe := t.scribe, eth := t.eth, fq := t.fq, out := t.out }) ∧
    (∀ x rest, (NMap.get {} s.eth port.val).txDone = x :: rest →
      offMirror (csmBase + s.regN (R.ETH.TXRB port.val) + 16 * x.1 + 4) 12 = true → ∃ t, exec (.ethTxWriteback port) s = .next t ∧
      (NMap.get {} t.eth port.val).txDone = rest ∧ t.regB (R.IRQS (0x0A + port.val)) 0 = true ∧
      (t.mem.readWord (csmBase + s.regN (R.ETH.TXRB port.val) + 16 * x.1 + 4)).bit 31 = false ∧
      (t.mem.readWord (csmBase + s.regN (R.ETH.TXRB port.val) + 16 * x.1 + 4)).bit 29 = true ∧
      (t.mem.readWord (csmBase + s.regN (R.ETH.TXRB port.val) + 16 * x.1 + 4)).bit 28 = x.2.2 ∧
      t.mem.readLE (csmBase + s.regN (R.ETH.TXRB port.val) + 16 * x.1 + 8) 8 = x.2.1 % 2 ^ 64 ∧
      (∀ a, a < csmBase + s.regN (R.ETH.TXRB port.val) + 16 * x.1 + 4 ∨
        csmBase + s.regN (R.ETH.TXRB port.val) + 16 * x.1 + 16 ≤ a → t.mem.read a = s.mem.read a) ∧
      regsBut s t [R.IRQS (0x0A + port.val)] ∧ (∀ n < 9, (s.engine n).acc = [] → t.engine n = s.engine n) ∧
      t = { s with regs := t.regs, mem := t.mem, eth := t.eth, eng := t.eng }) ∧
    (∀ stamp phase (l : List Byte), s.ethUp port.val = false → exec (.ethRxFrame port stamp phase l) s = .next s) ∧
    (∀ stamp phase (l pdu : List Byte), rslPayload l = some pdu →
      exec (.ethRxFrame port stamp phase l) s = exec (.rslPduRx (.eth port stamp pdu)) s) ∧
    (∀ stamp phase (l : List Byte), s.ethUp port.val = true → rslPayload l = none →
      (NMap.get {} s.eth port.val).rxNext < s.regF (R.ETH.RXRN port.val) 0 8 →
      ∀ d, d = csmBase + s.regN (R.ETH.RXRB port.val) + 16 * (NMap.get {} s.eth port.val).rxNext →
      ((s.mem.readWord (d + 4)).bit 31 = false → exec (.ethRxFrame port stamp phase l) s = .next s) ∧
      ((s.mem.readWord (d + 4)).bit 31 = true → offMirror (d + 4) 12 = true → ∃ t, exec (.ethRxFrame port stamp phase l) s = .next t ∧
        (t.mem.readWord (d + 4)).bit 31 = false ∧
        (t.mem.readWord (d + 4)).fld 0 14 = Nat.min ((s.mem.readWord (d + 4)).fld 0 14) l.length ∧
        (t.mem.readWord (d + 4)).bit 27 = decide ((s.mem.readWord (d + 4)).fld 0 14 < l.length) ∧
        t.regB (R.IRQS (0x0A + port.val)) 1 = true ∧
        (∀ a, a < d + 4 ∨ d + 16 ≤ a → a < (s.mem.readWord d).toNat ∨
          (s.mem.readWord d).toNat + Nat.min ((s.mem.readWord (d + 4)).fld 0 14) l.length ≤ a → t.mem.read a = s.mem.read a) ∧
        (∀ n < 9, (s.engine n).acc = [] → t.engine n = s.engine n) ∧
        regsBut s t [R.IRQS (0x0A + port.val)] ∧ t = { s with dt64 := t.dt64, regs := t.regs, mem := t.mem, eth := t.eth, eng := t.eng })) ∧
    (∀ los : Bool, ∃ t, exec (.ethLinkChange port los) s = .next t ∧
      (NMap.get {} t.eth port.val).link = (s.regB (R.ETH.ECFG port.val) 0 && !los) ∧
      ((NMap.get {} s.eth port.val).link = (s.regB (R.ETH.ECFG port.val) 0 && !los) → t = s) ∧
      ((NMap.get {} s.eth port.val).link ≠ (s.regB (R.ETH.ECFG port.val) 0 && !los) →
        t.regB (R.IRQS (0x0A + port.val)) 2 = true) ∧
      regsBut s t [R.IRQS (0x0A + port.val)] ∧ t = { s with regs := t.regs, eth := t.eth })

/-- An unpaired head. RANGING_LAUNCH in a started period of a millisecond not yet ranged, with Traverse enabled, puts one
ranging frame on every ring direction whose lane is UP, where it ends before the next plan launch, and notes it in
flight; in a millisecond already ranged it changes nothing. RANGING_RETURN of a good frame within 1 ms of the launch
it carries ends its flight, clears the losses and takes the path delay, arrival less launch; while the receiving lane
is not UP nothing changes. RANGING_LOST ends the flight of the oldest frame of a direction and counts one more loss in
a row, and TRAV_FAIL is raised with the third; with none in flight it changes nothing. (Derived from:
03_datum_time.md: R108, R109, R110.) -/
def Obligations.Traverse : Prop :=
  ∀ s : State, s.paired = false →
    (s.plan.started = true → s.travMs = s.plan.start / 16000000 + 1 → exec .rangingLaunch s = .next s) ∧
    (s.plan.started = true → s.regB R.DTM.TRVCTL 0 = true → s.travMs ≠ s.plan.start / 16000000 + 1 →
      ∃ t, exec .rangingLaunch s = .next t ∧ t.travMs = s.plan.start / 16000000 + 1 ∧
        (∀ r < 32, ∀ (rev : Bool) (n : Nat), 0 < s.ringCells r → s.txLane r rev = some n → s.laneUp n = true →
          s.fitsPlan r (s.rangingAt r rev) (20 + 8 * s.ringCells r) = true →
          (t.trv r rev).inFlight = (s.trv r rev).inFlight ++ [s.rangingAt r rev] ∧ t.out.any (fun o => match o with
            | .exl k l b => k == n && l == s.rangingAt r rev && frameType b == 4 && frameRing b == r
            | _ => false) = true) ∧
        t = { s with dt64 := t.dt64, trav := t.trav, travMs := t.travMs, out := t.out, lanes := t.lanes }) ∧
    (∀ (ring : Fin 32) (rev : Bool) (f : RxFrame) (n : Nat), s.rxLane ring.val rev = some n →
      (s.laneUp n = false → exec (.rangingReturn ring rev f) s = .next s) ∧
      (s.laneUp n = true → (s.lane n).drop = false → frameCheck ring.val rev f = none → frameType f.bytes = 4 →
        (framePayload f.bytes).length = 8 + 8 * s.ringCells ring.val → ∀ l,
        ((s.trv ring.val rev).inFlight.find? fun l => bitsOfInt 64 (txStamp l 0) == leAt (framePayload f.bytes) 0 8) = some l →
        s.passed (l + 16000000) = false → f.sof < l + 16000000 →
        ∃ t, exec (.rangingReturn ring rev f) s = .next t ∧
          (t.trv ring.val rev).inFlight = (s.trv ring.val rev).inFlight.erase l ∧ (t.trv ring.val rev).lost = 0 ∧
          (t.trv ring.val rev).d =
            ((sofStamp f - (leAt (framePayload f.bytes) 0 8 : Nat)) :: (s.trv ring.val rev).d).take 16)) ∧
    (∀ (ring : Fin 32) (rev : Bool),
      ((s.trv ring.val rev).inFlight = [] → exec (.rangingLost ring rev) s = .next s) ∧
      (∀ l rest, (s.trv ring.val rev).inFlight = l :: rest → ∃ t, exec (.rangingLost ring rev) s = .next t ∧
        (t.trv ring.val rev).inFlight = rest ∧ (t.trv ring.val rev).lost = (s.trv ring.val rev).lost + 1 ∧
        ((s.trv ring.val rev).lost = 2 → s.raised t Src.TRAV_FAIL (0x30 + ring.val)) ∧
        ((s.trv ring.val rev).lost ≠ 2 → t.scribe = s.scribe) ∧
        t = { s with dt64 := t.dt64, trav := t.trav, scribe := t.scribe }))

/-- An unpaired head with no service transaction in flight. A lane that is OFF, or in near-end loopback, does not see the
fibre and is unchanged. LOS_SET with the power below LOSTH of a lane LOCKING, in TRAIN or UP whose LOS is clear:
SIGNAL_WAIT, LOS set and counted, LANE_DARK raised where the far side announced it, else LANE_LOS, without a LANE_LOL
of the same cycle; leaving UP sets DOWN. LOS_CLEAR at LOSTH + 1 dB or more: LOS clears, SIGNAL_WAIT becomes LOCKING.
LANE_LOCKED on a K28.5 of either disparity: LOCKING becomes TRAIN, LOL clears, ALIGNED is set, the receiver takes its
disparity, its symbols count from 0, an exchange begins. LOL_SET, and ALIGNMENT_LOSS of an aligned lane after 4
violations in 16 symbols: TRAIN and UP become LOCKING, ALIGNED clears, LOLCNT counts and LANE_LOL is raised. Nothing
changes but the lane, its registers and the raise; nothing is sent where no injection in rate mode stands. (Derived
from: 04_exl_lanes.md: R133, R134, R135, R136, R137, 04_exl_lanes.md: R151.) -/
def Obligations.LaneTransitions : Prop :=
  ∀ (s : State) (n : Fin 32), s.paired = false → s.svc = [] → ∀ m, m = n.val →
    (∀ (dark : Bool) (pwr : BitVec 16),
      (s.fibre m = false → exec (.losSet n dark pwr) s = .next s) ∧
      (s.fibre m = true → pwr.toInt < s.losTh m → 2 ≤ s.laneState m → s.laneState m ≤ 4 → s.regB (R.LNE.LNSTA m) 3 = false →
        ∃ t, exec (.losSet n dark pwr) s = .next t ∧ t.laneState m = 1 ∧ t.regB (R.LNE.LNSTA m) 3 = true ∧
          t.regB (R.LNE.LNSTA m) 5 = false ∧ t.regF (R.PSTA (0x10 + m)) 16 3 = 1 ∧
          t.reg (R.LNE.PWR m) = wd pwr.toNat ∧
          t.regF (R.LNE.LOSCNT m) 0 16 = satInc 16 (s.regF (R.LNE.LOSCNT m) 0 16) ∧
          (∀ h : Raise → Bool, (∀ r, h r = (r.src == Src.LANE_LOL && r.page == 0x10 + m && r.time == s.dt64)) →
            t.scribe.inflight.any h = false ∧
            (s.scribe.inflight.any h = false → s.raised t (if dark then Src.LANE_DARK else Src.LANE_LOS) (0x10 + m))) ∧
          (s.laneState m = 4 → t.regB (R.IRQS (0x10 + m)) 1 = true) ∧
          regsBut s t (laneKeys m ++ [R.LNE.PWR m, R.LNE.LOSCNT m]) ∧ (s.injQuiet m → t.out = s.out) ∧
          t = { s with regs := t.regs, scribe := t.scribe, lanes := t.lanes, out := t.out })) ∧
    (∀ pwr : BitVec 16,
      (s.fibre m = false → exec (.losClear n pwr) s = .next s) ∧
      (s.fibre m = true → ∃ t, exec (.losClear n pwr) s = .next t ∧ t.reg (R.LNE.PWR m) = wd pwr.toNat ∧
        (s.losTh m + 10 ≤ pwr.toInt → t.regB (R.LNE.LNSTA m) 3 = false ∧
          t.laneState m = (if s.laneState m = 1 then 2 else s.laneState m)) ∧
        (pwr.toInt < s.losTh m + 10 → regsBut s t [R.LNE.PWR m]) ∧
        regsBut s t (laneKeys m ++ [R.LNE.PWR m]) ∧ (s.injQuiet m → t.out = s.out) ∧
        t = { s with regs := t.regs, lanes := t.lanes, out := t.out })) ∧
    (∀ comma : BitVec 10, s.laneState m ≠ 2 ∨ (∀ rd, (codeGroup (.k kIdle) rd).1 ≠ comma) →
      exec (.laneLocked ⟨n, comma⟩) s = .next s) ∧
    (s.laneState m = 2 → ∀ rd : Bool, ∃ t, exec (.laneLocked ⟨n, (codeGroup (.k kIdle) rd).1⟩) s = .next t ∧ t.laneState m = 3 ∧
      t.regB (R.LNE.LNSTA m) 4 = false ∧ t.regB (R.LNE.LNSTA m) 5 = true ∧
      (t.lane m).rxRd = (codeGroup (.k kIdle) rd).2 ∧ (t.lane m).rxCount = 0 ∧ (t.lane m).rxIn = false ∧
      (t.lane m).train.search = .first ∧
      (t.lane m).train.done = false ∧ (t.lane m).train.entered = s.dt64 ∧
      t.regF (R.LNE.TRNCNT m) 0 16 = satInc 16 (s.regF (R.LNE.TRNCNT m) 0 16) ∧
      regsBut s t (laneKeys m ++ [R.LNE.TRNCNT m]) ∧ (s.injQuiet m → t.out = s.out) ∧
      t = { s with regs := t.regs, lanes := t.lanes, out := t.out }) ∧
    (∀ c, c = Instr.lolSet n ∨ c = Instr.alignmentLoss n →
      (s.fibre m = false → exec c s = .next s) ∧
      (c = .alignmentLoss n → s.regB (R.LNE.LNSTA m) 5 = false ∨ (s.lane m).misaligned = false → exec c s = .next s) ∧
      (s.fibre m = true → (c = .lolSet n ∨ (s.regB (R.LNE.LNSTA m) 5 = true ∧ (s.lane m).misaligned = true)) →
        ∃ t, exec c s = .next t ∧
          t.laneState m = (if s.laneState m = 3 ∨ s.laneState m = 4 then 2 else s.laneState m) ∧
          (c = .alignmentLoss n → t.regB (R.LNE.LNSTA m) 5 = false ∧ (t.lane m).viol = []) ∧
          (c = .lolSet n → t.regB (R.LNE.LNSTA m) 4 = true) ∧
          t.regF (R.LNE.LOLCNT m) 0 16 = satInc 16 (s.regF (R.LNE.LOLCNT m) 0 16) ∧
          (s.laneState m = 3 ∨ s.laneState m = 4 → t.regB (R.LNE.LNSTA m) 5 = false ∧ s.raised t Src.LANE_LOL (0x10 + m)) ∧
          (s.laneState m = 4 → t.regB (R.IRQS (0x10 + m)) 1 = true) ∧
          regsBut s t (laneKeys m ++ [R.LNE.LOLCNT m]) ∧ (s.injQuiet m → t.out = s.out) ∧
          t = { s with regs := t.regs, scribe := t.scribe, lanes := t.lanes, out := t.out }))

/-- An unpaired head with no service transaction in flight. TRAINING_FRAME_TX in TRAIN sends one training frame with the
payload of R139, 4 µs after the last and on a free transmitter; a side that has then sent DONE in 2 frames and
received it goes UP. TRAINING_FRAME_RX of a valid frame in TRAIN or UP records its time, its DONE, the far taps and a
new far request, and goes UP where the exchange is complete; a frame that is not valid, or has a damaged symbol, is
ignored. TAP_APPLY: with no far request pending nothing changes; else the new taps are taken with ASTAT 0, unless one
would leave 0 to 15 (ASTAT 1) or PRE + POST would exceed MAIN (ASTAT 2), and then no tap changes. EYE_MEASURE_DONE in
TRAIN, no answer awaited, reports the eye over 16 384 symbols; a first eye of at least EYEGOOD ends the search with
DONE, a smaller one asks for POST one step up. TRAIN_TIMEOUT and TRAIN_SILENCE in TRAIN: LOCKING, IRQS bit 2 and
TRAIN_FAIL. Outside their states nothing changes. (Derived from: 04_exl_lanes.md: R138, R139, R140, R141, R142, R143.) -/
def Obligations.LaneTraining : Prop :=
  ∀ (s : State) (n : Fin 32), s.paired = false → s.svc = [] → ∀ m, m = n.val → ∀ l, l = (s.lane m).train →
    (s.laneState m ≠ 3 → exec (.trainingFrameTx n) s = .next s ∧ exec (.trainTimeout n) s = .next s ∧
      exec (.trainSilence n) s = .next s) ∧
    (s.laneState m = 3 → ∃ t, exec (.trainingFrameTx n) s = .next t ∧
      (∀ due, due = (match (s.lane m).trainAt with
        | some x => x + 64000
        | none => s.dt64) → t.dt64 = (s.reach (Nat.max due (s.laneFreeAt m))).dt64) ∧ (t.lane m).trainAt = some t.dt64 ∧
      (∃ b, OutFrame.exl m t.dt64 b ∈ t.out ∧ b.length = 20 ∧ frameType b = 9 ∧ framePayload b = s.trainPayload m) ∧
      t.laneState m = (if l.done && Nat.ble 1 l.doneSent && l.doneRx then 4 else 3) ∧
      (t.lane m).train.doneSent = (if l.done then l.doneSent + 1 else 0) ∧
      regsBut s t (laneKeys m ++ (List.range 32).map R.RNG.RSTA) ∧
      t = { s with dt64 := t.dt64, regs := t.regs, lanes := t.lanes, out := t.out }) ∧
    (∀ (start : Byte) (f : List Byte),
      ((s.lane m).drop = false → trainValid start f = false → exec (.trainingFrameRx n ⟨start, f⟩) s = .next s) ∧
      ((s.laneState m = 3 ∨ s.laneState m = 4) → (s.lane m).drop = true →
        ∃ t, exec (.trainingFrameRx n ⟨start, f⟩) s = .next t ∧ (t.lane m).drop = false ∧
          (t.lane m).train = l ∧ t = { s with lanes := t.lanes }) ∧
      ((s.laneState m = 3 ∨ s.laneState m = 4) → (s.lane m).drop = false → start = kSoftr → f.length = 20 → frameType f = 9 →
        frameLen f = 8 →
        crc32 (f.take 16) = leAt f 16 4 → ∀ p, p = framePayload f → ∃ t, exec (.trainingFrameRx n ⟨start, f⟩) s = .next t ∧
        (t.lane m).train.lastRx = s.dt64 ∧ (t.lane m).train.doneRx = (l.doneRx || (byteAt p 1).testBit 1) ∧
        (t.lane m).train.far = (if byteAt p 0 / 16 = l.aseq then l.far else
          some (byteAt p 0 / 16, { pre := byteAt p 1 / 64, main := byteAt p 1 / 16 % 4, post := byteAt p 1 / 4 % 4 })) ∧
        t.regF (R.LNE.TAPS m) 16 4 = byteAt p 2 / 16 ∧ t.regF (R.LNE.TAPS m) 20 4 = byteAt p 2 % 16 ∧
        t.regF (R.LNE.TAPS m) 24 4 = byteAt p 3 / 16 ∧ t.regF (R.LNE.TAPS m) 0 12 = s.regF (R.LNE.TAPS m) 0 12 ∧
        t.laneState m = (if s.laneState m = 3 ∧ 2 ≤ l.doneSent ∧ (t.lane m).train.doneRx = true then 4 else s.laneState m) ∧
        regsBut s t (laneKeys m ++ R.LNE.TAPS m :: (List.range 32).map R.RNG.RSTA) ∧ (s.injQuiet m → t.out = s.out) ∧
        t = { s with regs := t.regs, lanes := t.lanes, out := t.out })) ∧
    (l.far = none → exec (.tapApply n) s = .next s) ∧
    (∀ q, l.far = some q → ∃ t, exec (.tapApply n) s = .next t ∧ (t.lane m).train.far = none ∧
      (t.lane m).train.aseq = q.1 ∧
      ((tapAfter q.2.pre (s.regF (R.LNE.TAPS m) 0 4) 0 = none ∨ tapAfter q.2.main (s.regF (R.LNE.TAPS m) 4 4) 12 = none ∨
        tapAfter q.2.post (s.regF (R.LNE.TAPS m) 8 4) 3 = none) →
        (t.lane m).train.astat = 1 ∧ t.reg (R.LNE.TAPS m) = s.reg (R.LNE.TAPS m)) ∧
      (∀ a, tapAfter q.2.pre (s.regF (R.LNE.TAPS m) 0 4) 0 = some a →
        ∀ b, tapAfter q.2.main (s.regF (R.LNE.TAPS m) 4 4) 12 = some b →
        ∀ c, tapAfter q.2.post (s.regF (R.LNE.TAPS m) 8 4) 3 = some c →
        (b < a + c → (t.lane m).train.astat = 2 ∧ t.reg (R.LNE.TAPS m) = s.reg (R.LNE.TAPS m)) ∧
        (a + c ≤ b → (t.lane m).train.astat = 0 ∧ t.regF (R.LNE.TAPS m) 0 4 = a ∧ t.regF (R.LNE.TAPS m) 4 4 = b ∧
          t.regF (R.LNE.TAPS m) 8 4 = c ∧ t.regF (R.LNE.TAPS m) 12 20 = s.regF (R.LNE.TAPS m) 12 20)) ∧
      regsBut s t [R.LNE.TAPS m] ∧ t = { s with regs := t.regs, lanes := t.lanes }) ∧
    (∀ eye : BitVec 6,
      (s.laneState m ≠ 3 ∨ l.waiting = true → exec (.eyeMeasureDone n eye) s = .next s) ∧
      (s.laneState m = 3 → l.waiting = false → ∃ t, exec (.eyeMeasureDone n eye) s = .next t ∧
        t.dt64 = (s.reach (l.settled + (16384 * s.laneFifths m + 4) / 5)).dt64 ∧ (t.lane m).train.settled = t.dt64 ∧
        t.regF (R.LNE.LNSTA m) 12 6 = eye.toNat ∧
        (l.search = .first → s.regF (R.LNE.LNCFG m) 22 6 ≤ eye.toNat →
          (t.lane m).train.done = true ∧ (t.lane m).train.search = .ended) ∧
        (l.search = .first → eye.toNat < s.regF (R.LNE.LNCFG m) 22 6 → s.regF (R.LNE.TRNCFG m) 16 8 ≠ l.requests →
          (t.lane m).train.waiting = true ∧ (t.lane m).train.req = { post := 1 } ∧
          (t.lane m).train.seq = (l.seq + 1) % 16) ∧
        regsBut s t [R.LNE.LNSTA m] ∧ t = { s with dt64 := t.dt64, regs := t.regs, lanes := t.lanes })) ∧
    (∀ c, c = Instr.trainTimeout n ∨ c = Instr.trainSilence n → s.laneState m = 3 → ∃ t, exec c s = .next t ∧
      t.laneState m = 2 ∧ t.regB (R.LNE.LNSTA m) 5 = false ∧ t.regB (R.IRQS (0x10 + m)) 2 = true ∧
      s.raised t Src.TRAIN_FAIL (0x10 + m) ∧ regsBut s t (laneKeys m) ∧ (s.injQuiet m → t.out = s.out) ∧
      t = { s with dt64 := t.dt64, regs := t.regs, scribe := t.scribe, lanes := t.lanes, out := t.out })

/-- An unpaired head with no service transaction in flight, a lane page that takes writes. RETRAIN takes an UP lane to
TRAIN and sets DOWN; in another state it only sets REFUSED. A MODE other than 0 of a lane in the ring map while a plan
runs only sets REFUSED; else a lane that is not OFF enters TEST. MODE = 0 in TEST leads to SIGNAL_WAIT, or LOCKING
with LOS clear. INJGO starts, in pattern mode or in UP with INJLIVE, one inverted bit, a burst, or one in INJINT + 1,
which goes on whenever the injector acts; a MODE of 1 sets it going again. LANE_CODE ends a millisecond: it raises its
fault when more than CVTH violations fell in it, reports PWR, and a run of 2 or more idles brings the fill back to 8,
counted in ELCNT. LANE_FIFO past 16 symbols, or empty, raises its fault, discards a frame in progress and recentres.
CODE_VIOLATION takes the groups received one after the other at the receiver's running disparity; one that is none of
it is counted, and within a frame discards it. The checker seeds itself, locks with the 256th correct bit and unlocks
at 32 errors in 256; locked, it counts bits and errors, saturating; near-end loopback begins locked and aligned, and
its checker takes the lane's own K28.5 in place of the fibre's bits. BITCNTL_READ latches BITCNTH for its source.
Nothing else changes. (Derived from: 04_exl_lanes.md: R128, R130, R131, R133, 04_exl_lanes.md: R145, R146, R147, R149,
R151.) -/
def Obligations.LaneControlAndCounts : Prop :=
  ∀ (s : State) (n : Fin 32), s.paired = false → s.svc = [] → ∀ m, m = n.val → s.writable (0x10 + m) = true →
    (s.laneState m = 4 → ∃ t, exec (.retrain n) s = .next t ∧ t.laneState m = 3 ∧
      t.regB (R.IRQS (0x10 + m)) 1 = true ∧ regsBut s t (laneKeys m ++ [R.LNE.TRNCNT m]) ∧
      (s.injQuiet m → t.out = s.out) ∧ t = { s with regs := t.regs, lanes := t.lanes, out := t.out }) ∧
    (s.laneState m ≠ 4 → exec (.retrain n) s = .next (s.irq (0x10 + m) 4)) ∧
    (∀ v : BitVec 2,
      (v ≠ 0 → s.regF (R.LNE.LNMAP m) 5 2 ≠ 0 → s.plan.run = true →
        exec (.laneModeWrite n v) s = .next (s.irq (0x10 + m) 4)) ∧
      (v ≠ 0 → (s.regF (R.LNE.LNMAP m) 5 2 = 0 ∨ s.plan.run = false) → s.laneState m ≠ 0 →
        ∃ t, exec (.laneModeWrite n v) s = .next t ∧ t.laneState m = 5 ∧ t.regF (R.LNE.LNCTL m) 1 2 = v.toNat ∧
          (s.laneState m = 4 → t.regB (R.IRQS (0x10 + m)) 1 = true) ∧
          (s.injQuiet m → v = 1 → t.out = [.pattern m s.dt64 (s.regF (R.LNE.LNCTL m) 4 2)]) ∧
          (s.injQuiet m → v ≠ 1 → t.out = s.out) ∧
          (∀ e, (s.lane m).inj = some e → (s.lane m).injOn = false → v = 1 →
            t.out = [.pattern m s.dt64 (s.regF (R.LNE.LNCTL m) 4 2), .invert m s.dt64 1 (some e)]) ∧
          (v = 2 → t.regB (R.LNE.LNSTA m) 4 = false ∧ t.regB (R.LNE.LNSTA m) 5 = true ∧ (t.lane m).loop = 0) ∧
          regsBut s t (laneKeys m ++ [R.LNE.LNCTL m, R.LNE.ELCNT m]) ∧ t = { s with regs := t.regs, lanes := t.lanes, out := t.out }) ∧
      (v = 0 → s.laneState m = 5 → ∃ t, exec (.laneModeWrite n v) s = .next t ∧
        t.laneState m = (if s.regB (R.LNE.LNSTA m) 3 then 1 else 2) ∧ t.regF (R.LNE.LNCTL m) 1 2 = 0 ∧
        regsBut s t (laneKeys m ++ [R.LNE.LNCTL m]) ∧ (s.injQuiet m → t.out = s.out) ∧
        t = { s with regs := t.regs, lanes := t.lanes, out := t.out })) ∧
    (∀ kind, kind = s.regF (R.LNE.LNCTL m) 8 2 → ∀ e, e = Nat.max 15 (s.regN (R.LNE.INJINT m)) + 1 →
      ∀ acts : Bool, acts = (decide (s.testMode m = 1) || (decide (s.laneState m = 4) && s.regB (R.LNE.LNCTL m) 11)) →
      ∃ t, exec (.injgo n) s = .next t ∧ (t.lane m).inj = (if kind = 3 then some e else none) ∧
      (t.lane m).injOn = (decide (kind = 3) && acts) ∧
      (acts = true → kind = 3 → t.out = [.invert m s.dt64 1 (some e)]) ∧
      ((s.lane m).injOn = false → (acts = false ∨ kind = 0 → t.out = s.out) ∧
        (acts = true → kind = 1 → t.out = [.invert m s.dt64 1 none]) ∧
        (acts = true → kind = 2 → t.out =
          [.invert m s.dt64 (if s.regF (R.LNE.LNCTL m) 16 6 = 0 then 64 else s.regF (R.LNE.LNCTL m) 16 6) none])) ∧
      t = { s with lanes := t.lanes, out := t.out }) ∧
    (∀ (pwr : BitVec 16), ∃ t, exec (.laneCode n [] [] pwr) s = .next t ∧
      t.dt64 = (s.reach (s.nextMultiple (s.lane m).msAt 16000000 * 16000000)).dt64 ∧
      (t.lane m).msAt = s.nextMultiple (s.lane m).msAt 16000000 + 1 ∧
      (s.fibre m = true → t.reg (R.LNE.PWR m) = wd pwr.toNat) ∧
      ((s.lane m).cvIn = s.nextMultiple (s.lane m).msAt 16000000 → s.regF (R.LNE.LNCFG m) 8 8 < (s.lane m).cvMs →
        s.raised t Src.LANE_CODE (0x10 + m)) ∧
      ((s.lane m).cvIn ≠ s.nextMultiple (s.lane m).msAt 16000000 ∨ (s.lane m).cvMs ≤ s.regF (R.LNE.LNCFG m) 8 8 →
        t.scribe = s.scribe) ∧
      regsBut s t [R.LNE.PWR m] ∧
      t = { s with dt64 := t.dt64, regs := t.regs, scribe := t.scribe, lanes := t.lanes }) ∧
    (∀ (idles : Nat) (pwr : BitVec 16), s.laneState m ≠ 0 → s.laneState m ≠ 5 → (s.lane m).recentre = false → (s.lane m).fill ≤ 16 →
      ∃ t, exec (.laneCode n [idles] [0] pwr) s = .next t ∧
      (idles < 2 → (t.lane m).fill = (s.lane m).fill ∧ t.regN (R.LNE.ELCNT m) = s.regN (R.LNE.ELCNT m)) ∧
      (2 ≤ idles → ∀ del, del = Nat.min ((s.lane m).fill - 8) (idles - 1) →
        (t.lane m).fill = (s.lane m).fill + (8 - (s.lane m).fill) - del ∧
        t.regF (R.LNE.ELCNT m) 0 16 = Nat.min 0xFFFF (s.regF (R.LNE.ELCNT m) 0 16 + (8 - (s.lane m).fill)) ∧
        t.regF (R.LNE.ELCNT m) 16 16 = Nat.min 0xFFFF (s.regF (R.LNE.ELCNT m) 16 16 + del)) ∧
      t.regF (R.LNE.LNSTA m) 8 4 = Nat.min 15 (t.lane m).fill ∧
      regsBut s t [R.LNE.ELCNT m, R.LNE.LNSTA m, R.LNE.PWR m]) ∧
    (∀ (drift : Int) (inFrame : Bool),
      (s.fibre m = false → exec (.laneFifo ⟨n, drift, inFrame⟩) s = .next s) ∧
      (s.fibre m = true → ((s.lane m).fill : Int) + drift < 0 ∨ 16 < ((s.lane m).fill : Int) + drift →
        ∃ t, exec (.laneFifo ⟨n, drift, inFrame⟩) s = .next t ∧ (t.lane m).drop = ((s.lane m).drop || inFrame) ∧
        (t.lane m).recentre = true ∧ s.raised t Src.LANE_FIFO (0x10 + m) ∧ regsBut s t [R.LNE.LNSTA m] ∧
        t = { s with regs := t.regs, scribe := t.scribe, lanes := t.lanes })) ∧
    (∀ (g : BitVec 10) (l : List (BitVec 10)) (rd : Bool), rd = (s.lane m).rxRd →
      (s.fibre m = false ∨ s.testMode m = 1 → exec (.codeViolation n ⟨l⟩) s = .next s) ∧
      (s.fibre m = true → s.testMode m ≠ 1 → ∃ t, exec (.codeViolation n ⟨[g]⟩) s = .next t ∧
        exec (.codeViolation n ⟨g :: l⟩) s = exec (.codeViolation n ⟨l⟩) t ∧
        (t.lane m).rxRd = rdPast g rd ∧ (t.lane m).rxCount = (s.lane m).rxCount + 1 ∧
        (t.lane m).rxIn = inFrameAfter (specialOf g rd) (s.lane m).rxIn ∧
        (violates g rd = false → (t.lane m).drop = (s.lane m).drop ∧ (t.lane m).viol = (s.lane m).viol ∧ t.regs = s.regs) ∧
        (violates g rd = true →
          (t.lane m).drop = ((s.lane m).drop || ((s.lane m).rxIn && (s.laneState m = 3 || s.laneState m = 4))) ∧
          (t.lane m).cvMs = (if (s.lane m).cvIn = s.dt64 / 16000000 + 1 then (s.lane m).cvMs + 1 else 1) ∧
          (t.lane m).viol = ((s.lane m).rxCount :: (s.lane m).viol).take 4 ∧
          t.regF (R.LNE.CVCNT m) 0 16 = satInc 16 (s.regF (R.LNE.CVCNT m) 0 16)) ∧ regsBut s t [R.LNE.CVCNT m] ∧
        t = { s with regs := t.regs, lanes := t.lanes })) ∧
    (∀ line, s.checking m = false →
      (s.testMode m ≠ 2 → s.testMode m ≠ 3 →
        exec (.checkerLock ⟨n, line⟩) s = .next s ∧ ∀ b, exec (.checkerUnlock n line b) s = .next s) ∧
      (s.testMode m = 3 → exec (.checkerLock ⟨n, line⟩) s = .next { s with out := [.bits m s.dt64 line] })) ∧
    (s.testMode m = 2 → ∀ line : List Bool, ∃ t, exec (.checkerLock ⟨n, line⟩) s = .next t ∧
      (t.lane m).loop = (s.lane m).loop + line.length ∧
      (∀ other : List Bool, other.length = line.length → exec (.checkerLock ⟨n, other⟩) s = .next t) ∧
      exec (.checkerLock ⟨n, (List.range line.length).map fun i => idleBit (s.lane m).rd ((s.lane m).loop + i)⟩) s = .next t) ∧
    (∀ line, s.checking m = true → s.testMode m = 1 → s.regB (R.LNE.LNSTA m) 6 = false →
      line = prbsBits (s.regF (R.LNE.LNCTL m) 4 2) line.length (s.lane m).chk.ref →
      (prbsTaps (s.regF (R.LNE.LNCTL m) 4 2)).1 ≤ (s.lane m).chk.ref.length → (s.lane m).chk.ref.length ≤ 31 →
      0 < line.length → (s.lane m).chk.run + line.length = 256 → ∃ t, exec (.checkerLock ⟨n, line⟩) s = .next t ∧
      t.regB (R.LNE.LNSTA m) 6 = true ∧ t.regB (R.IRQS (0x10 + m)) 3 = true ∧ (t.lane m).bitcnt = (s.lane m).bitcnt ∧
      regsBut s t [R.LNE.LNSTA m, R.IRQS (0x10 + m)] ∧ t = { s with regs := t.regs, lanes := t.lanes }) ∧
    (∀ b : Bool, s.checking m = true → s.testMode m = 1 → ∀ p, p = prbsNext (s.regF (R.LNE.LNCTL m) 4 2) (s.lane m).chk.ref →
      (s.regB (R.LNE.LNSTA m) 6 = false → ∃ t, exec (.checkerLock ⟨n, [b]⟩) s = .next t ∧
        t.regB (R.LNE.LNSTA m) 6 = (Nat.ble (prbsTaps (s.regF (R.LNE.LNCTL m) 4 2)).1 (s.lane m).chk.ref.length && b == p &&
          decide ((s.lane m).chk.run = 255)) ∧
        (t.regB (R.LNE.LNSTA m) 6 = true → t.regB (R.IRQS (0x10 + m)) 3 = true) ∧
        (t.lane m).chk.ref = (b :: (s.lane m).chk.ref).take 31 ∧ (t.lane m).bitcnt = (s.lane m).bitcnt ∧
        regsBut s t [R.LNE.LNSTA m, R.IRQS (0x10 + m)] ∧ t = { s with regs := t.regs, lanes := t.lanes }) ∧
      (s.regB (R.LNE.LNSTA m) 6 = true → ∃ t, exec (.checkerUnlock n [] b) s = .next t ∧
        (t.lane m).bitcnt = Nat.min (2 ^ 48 - 1) ((s.lane m).bitcnt + 1) ∧
        (b = p → t.reg (R.LNE.ERRCNT m) = s.reg (R.LNE.ERRCNT m)) ∧
        (b ≠ p → t.regN (R.LNE.ERRCNT m) = satInc 32 (s.regN (R.LNE.ERRCNT m))) ∧
        t.regB (R.LNE.LNSTA m) 6 = decide (((((b != p) :: (s.lane m).chk.errs).take 256).filter id).length < 32) ∧
        (t.regB (R.LNE.LNSTA m) 6 = false → t.regB (R.IRQS (0x10 + m)) 3 = true) ∧
        regsBut s t [R.LNE.LNSTA m, R.IRQS (0x10 + m), R.LNE.ERRCNT m] ∧
        t = { s with regs := t.regs, lanes := t.lanes })) ∧
    (∀ src : HSrc, s.pageUp (0x10 + m) = true → ∃ t, exec (.bitcntlRead n src []) s = .next t ∧
      t.reg (R.LNE.BITCNTL m) = wd (s.lane m).bitcnt ∧
      NMap.get 0 (t.lane m).lat (srcNo src) = (s.lane m).bitcnt / 2 ^ 32 ∧
      (∀ o, o ≠ srcNo src → NMap.get 0 (t.lane m).lat o = NMap.get 0 (s.lane m).lat o) ∧
      (t.lane m).bitcnt = (s.lane m).bitcnt ∧ regsBut s t [R.LNE.BITCNTL m] ∧
      t = { s with regs := t.regs, lanes := t.lanes, out := t.out })

/-- SVKICK starts the scan of a ring that has descriptors. SERVICE_REQUEST_LAUNCH with a free tag, the ring's turn and no
request of the head itself waiting looks at the descriptor in turn: with OWN = 0 the scan ends; with OP 3 or CNT
outside 1 to 64 it is written back BAD_DESC; with no valid slot of the target in the last two periods NO_PATH; else,
its lane UP, it takes the lowest free tag and one request frame is launched on its direction. SERVICE_RESPONSE_RX of a
frame that matches no transaction is counted in SVLCNT; a match frees the tag and writes the descriptor back OK or
NODE_ERR with NSTAT, the data of a read first. SERVICE_TIMEOUT of a tag in flight, 1 ms after its launch, frees it,
writes back TIMEOUT and raises SVC_LOST; of a free tag it changes nothing. A write-back (of a descriptor outside the
result mirror, to which stores are ignored, R411) clears OWN, writes words 2 and 3, sets IRQS bit 2, and leaves every
other byte. (Derived from: 05_exl_frames.md: R182, R183, R184, R185, R193, R194, 11_head_pairing.md: R367.) -/
def Obligations.ServiceTransactions : Prop :=
  ∀ (s : State) (ring : Fin 32), ∀ g, g = NMap.get {} s.rings ring.val →
    (s.writable (0x30 + ring.val) = true → ∃ t, exec (.svkick ring) s = .next t ∧
      (NMap.get {} t.rings ring.val).svScan = Nat.blt 0 (s.regF (R.RNG.SVRN ring.val) 0 8) ∧
      t = { s with rings := t.rings }) ∧
    (s.svFreeTag = none → exec (.serviceRequestLaunch ring) s = .next s) ∧
    (s.svWho ≠ some ring.val → exec (.serviceRequestLaunch ring) s = .next s) ∧
    (∀ tag, s.svFreeTag = some tag → s.svWho = some ring.val → s.jig.svc = [] → g.svScan = true → g.svNext < s.regF (R.RNG.SVRN ring.val) 0 8 →
      ∀ a, a = csmBase + s.svDesc ring.val g.svNext → ∀ w, w = s.mem.readWord (a + 4) →
      (w.bit 31 = false → ∃ t, exec (.serviceRequestLaunch ring) s = .next t ∧
        (NMap.get {} t.rings ring.val).svScan = false ∧ t = { s with rings := t.rings }) ∧
      (∀ c, c = NMap.get {} s.cells (ring.val * 8 + w.fld 26 3) →
        ∀ st, st = (if w.fld 29 2 = 3 ∨ w.fld 16 7 = 0 ∨ 64 < w.fld 16 7 then 4
          else if s.active = false ∨ (2 ≤ c.ageF ∧ 2 ≤ c.ageR) then 5 else 0) →
        (w.bit 31 = true → st ≠ 0 → offMirror (a + 4) 12 = true → ∃ t, exec (.serviceRequestLaunch ring) s = .next t ∧
          s.descWritten t a st ∧ t.regB (R.IRQS (0x30 + ring.val)) 2 = true ∧ regsBut s t [R.IRQS (0x30 + ring.val)] ∧
          t = { s with regs := t.regs, mem := t.mem, eng := t.eng, rings := t.rings, svTurn := ring.val }) ∧
        (w.bit 31 = true → st = 0 → s.txUp ring.val (s.svDir ring.val (w.fld 26 3)) = true → s.onRing = true →
          ∃ t, exec (.serviceRequestLaunch ring) s = .next t ∧
          (NMap.get none t.svc tag).map (fun v => (v.ring, v.dst, v.op, v.cnt, v.desc)) =
            some (ring.val, ring.val * 8 + w.fld 26 3, w.fld 29 2, w.fld 16 7, some g.svNext) ∧
          (NMap.get none t.svc tag).map (fun v => (v.launch, v.at_)) = some (s.dt64, a) ∧
          (∃ n b, s.txLane ring.val (s.svDir ring.val (w.fld 26 3)) = some n ∧ t.out = [.exl n s.dt64 b] ∧
            frameType b = 5 ∧ byteAt (framePayload b) 0 = tag % 64 + w.fld 29 2 * 64 ∧
            byteAt (framePayload b) 1 = (ring.val * 8 + w.fld 26 3) % 256) ∧
          (NMap.get {} t.rings ring.val).svNext =
            (if g.svNext + 1 < s.regF (R.RNG.SVRN ring.val) 0 8 then g.svNext + 1 else 0) ∧
          t = { s with rings := t.rings, svc := t.svc, svTurn := ring.val, out := t.out, lanes := t.lanes }))) ∧
    (∀ (rev : Bool) (f : RxFrame) (n : Nat), s.rxLane ring.val rev = some n →
      (s.laneUp n = false → exec (.serviceResponseRx ring rev f) s = .next s) ∧
      (s.laneUp n = true → (s.lane n).drop = false → frameCheck ring.val rev f = none → ∀ p, p = framePayload f.bytes →
      (NMap.get none s.svc (byteAt p 0 % 64) = none → ∃ t, exec (.serviceResponseRx ring rev f) s = .next t ∧
        t.regF (R.RNG.SVLCNT ring.val) 0 16 = satInc 16 (s.regF (R.RNG.SVLCNT ring.val) 0 16) ∧
        regsBut s t [R.RNG.SVLCNT ring.val] ∧ t = { s with dt64 := (s.reach f.eof).dt64, regs := t.regs, lanes := t.lanes }) ∧
      (∀ v, NMap.get none s.svc (byteAt p 0 % 64) = some v → (s.reach f.eof).passed (v.launch + 16000000) = false →
        frameType f.bytes = 6 → byteAt p 1 = v.dst →
        leAt p 2 2 = v.pidx → v.ring = ring.val → v.kind = none → v.desc.isSome = true →
        ∀ a, a = v.at_ → offMirror (a + 4) 12 = true → ∃ t, exec (.serviceResponseRx ring rev f) s = .next t ∧
        NMap.get none t.svc (byteAt p 0 % 64) = none ∧ (t.mem.readWord (a + 4)).bit 31 = false ∧
        t.mem.readWord (a + 8) = wd ((if byteAt p 5 = 0 then 0 else 1) + byteAt p 0 % 64 * 256 + byteAt p 5 * 2 ^ 24) ∧
        t.mem.readWord (a + 12) = wd t.dt64 ∧ t.dt64 = (s.reach f.eof).dt64 ∧
        ((v.op ≠ 0 ∨ byteAt p 5 ≠ 0) → ∀ b, b < a + 4 ∨ a + 16 ≤ b → t.mem.read b = s.mem.read b) ∧
        (v.op = 0 → byteAt p 5 = 0 → ∀ q, q = (p.drop 8).take (4 * Nat.min v.cnt (byteAt p 4 % 128)) →
          ((v.buf + q.length ≤ a ∨ a + 16 ≤ v.buf) → offMirror v.buf q.length = true → t.mem.readBytes v.buf q.length = q) ∧
          ∀ b, (b < a + 4 ∨ a + 16 ≤ b) → (b < v.buf ∨ v.buf + q.length ≤ b) → t.mem.read b = s.mem.read b) ∧
        t.regB (R.IRQS (0x30 + ring.val)) 2 = true ∧ regsBut s t [R.IRQS (0x30 + ring.val)] ∧
        t = { s with dt64 := t.dt64, regs := t.regs, mem := t.mem, eng := t.eng, lanes := t.lanes, svc := t.svc }))) ∧
    (∀ tag : Fin 64,
      (NMap.get none s.svc tag.val = none → exec (.serviceTimeout tag) s = .next s) ∧
      (∀ v, NMap.get none s.svc tag.val = some v → v.kind = none → v.desc.isSome = true →
        ∃ t, exec (.serviceTimeout tag) s = .next t ∧ NMap.get none t.svc tag.val = none ∧
        t.dt64 = (s.reach (v.launch + 16000000)).dt64 ∧
        (offMirror (v.at_ + 4) 12 = true → s.descWritten t v.at_ (3 + tag.val * 256)) ∧ s.raised t Src.SVC_LOST (0x30 + v.ring) ∧
        t.regB (R.IRQS (0x30 + v.ring)) 2 = true ∧ regsBut s t [R.IRQS (0x30 + v.ring)] ∧
        t = { s with dt64 := t.dt64, regs := t.regs, mem := t.mem, eng := t.eng, scribe := t.scribe, svc := t.svc }))

/-- COLLECTOR_COPY_RX at an unpaired head. While the lane that ends the direction is not UP, nothing changes. A frame that
fails R157 counts in the counter of its first failed check, and nothing else than the ring and the lane changes. A
collector of the executing period whose end is stamped after t_TC is counted in LATECNT and raises COLL_LATE. A
collector of the executing period in time sets the origin of its direction in RSTA, and every slot that is FILLED with
the cell's address, decodes, and has no copy yet, becomes the copy of its cell: the record of the period then holds
its voltage in word 0 and, in word 9, its direction and period index, for a cell of a state from RANGED on. Cells
outside the ring keep their copies. (Derived from: 05_exl_frames.md: R157, R172, R173, R174, R175,
01_stack_and_period.md: R44.) -/
def Obligations.TelemetryCopies : Prop :=
  ∀ (s : State) (ring : Fin 32) (rev : Bool) (f : RxFrame), s.paired = false → ∀ n, s.rxLane ring.val rev = some n →
    (s.laneUp n = false → exec (.collectorCopyRx ring rev f) s = .next s) ∧
    (s.laneUp n = true → ∀ g, g = { f with intact := f.intact && !(s.lane n).drop } →
      (∀ off, frameCheck ring.val rev g = some off → ∃ t, exec (.collectorCopyRx ring rev f) s = .next t ∧
        t.regF ((0x30 + ring.val) * 0x1000 + off) 0 16 = satInc 16 (s.regF ((0x30 + ring.val) * 0x1000 + off) 0 16) ∧
        regsBut s t [(0x30 + ring.val) * 0x1000 + off] ∧
        t = { s with regs := t.regs, scribe := t.scribe, lanes := t.lanes, rings := t.rings }) ∧
      (frameCheck ring.val rev g = none → frameType g.bytes = 2 → s.plan.started = true →
        framePidx g.bytes = s.regN R.TRG.PIDX →
        (((s.plan.start + s.regF R.TRG.TTC 0 20 : Nat) : Int) < eofStamp g →
          ∃ t, exec (.collectorCopyRx ring rev f) s = .next t ∧
          t.regF (R.RNG.LATECNT ring.val) 0 16 = satInc 16 (s.regF (R.RNG.LATECNT ring.val) 0 16) ∧
          s.raised t Src.COLL_LATE (0x30 + ring.val) ∧ regsBut s t [R.RNG.LATECNT ring.val] ∧
          t = { s with regs := t.regs, scribe := t.scribe, lanes := t.lanes }) ∧
        (eofStamp g ≤ ((s.plan.start + s.regF R.TRG.TTC 0 20 : Nat) : Int) →
          (s.regN R.TRG.PIDX = 0 ∨ framePidx g.bytes + 1 ≠ s.regN R.TRG.PIDX) →
          ∃ t, exec (.collectorCopyRx ring rev f) s = .next t ∧
          t.regB (R.RNG.RSTA ring.val) (if rev then 1 else 0) = !frameOrig g.bytes ∧
          t.regB (R.RNG.RSTA ring.val) (if rev then 3 else 2) = frameOrig g.bytes ∧
          t.regF (R.RNG.RSTA ring.val) (if rev then 8 else 5) 3 = (if frameOrig g.bytes then framePos g.bytes else 0) ∧
          (∀ p < s.ringCells ring.val, ∀ slot, slot = ((framePayload g.bytes).drop
              (p * s.regF (R.RNG.RCFG ring.val) 16 8)).take (s.regF (R.RNG.RCFG ring.val) 16 8) →
            ∀ c, c = NMap.get {} s.cells (ring.val * 8 + p) → slotValid slot (ring.val * 8 + p) = true → c.copy = none →
            ∀ v, decodeV slot c.vpred (s.regF (R.RNG.RCTL ring.val) 0 10) = some v →
            (NMap.get {} t.cells (ring.val * 8 + p)).copy =
              some ⟨slot, (eofStamp g).toNat, rev, frameOrig g.bytes, false⟩ ∧
            (s.notRanged (ring.val * 8 + p) = false →
              t.mem.readWord (recAt (s.regN R.TRG.PIDX) (ring.val * 8 + p)) = wdInt v ∧
              (t.mem.readWord (recAt (s.regN R.TRG.PIDX) (ring.val * 8 + p) + 36)).bit 0 = false ∧
              (t.mem.readWord (recAt (s.regN R.TRG.PIDX) (ring.val * 8 + p) + 36)).bit 2 = rev ∧
              (t.mem.readWord (recAt (s.regN R.TRG.PIDX) (ring.val * 8 + p) + 36)).fld 16 16 = s.regN R.TRG.PIDX % 65536)) ∧
          (∀ a < 256, a / 8 ≠ ring.val → s.ringCells ring.val ≤ 8 → NMap.get {} t.cells a = NMap.get {} s.cells a) ∧
          t = { s with
            regs := t.regs, mem := t.mem, scribe := t.scribe, lanes := t.lanes, rings := t.rings, cells := t.cells, jig := t.jig,
            mon := t.mon, eng := t.eng, free := t.free })))

/-- CAPTURE_STREAM_RX of a good capture frame whose lane is UP, with capture enabled and a record (8-byte header and
payload, padded to 8 bytes) that the area holds: the record is written at CAPWP, or at CAPB where it does not fit
before the end of the area; CAPWP then follows it, or is CAPB where the shortest record (56 bytes) no longer fits
before the end of the area, IRQS bit 4 is set, and no byte outside the record changes. With capture off, nothing
changes but the lane. FORCE_SRSYNC sets SRSYNC for exactly the named positions; FORCE_RESYNC sets RSPEND of the ring.
CVAL_READ latches BCVAL and LSTA of the selected channel. Nothing else changes. (Derived from: 05_exl_frames.md: R186,
R190, 06_edge_schedules.md: R230.) -/
def Obligations.CaptureAndForce : Prop :=
  ∀ (s : State) (ring : Fin 32),
    (∀ (rev : Bool) (f : RxFrame) (n : Nat), s.rxLane ring.val rev = some n →
      (s.laneUp n = false → exec (.captureStreamRx ring rev f) s = .next s) ∧
      (s.laneUp n = true → (s.lane n).drop = false → frameCheck ring.val rev f = none → frameType f.bytes = 8 →
        ((s.regB (R.RNG.RCTL ring.val) 16 = false → ∃ t, exec (.captureStreamRx ring rev f) s = .next t ∧
          t = { s with lanes := t.lanes }) ∧
        (∀ len, len = (8 + (framePayload f.bytes).length + 7) / 8 * 8 → ∀ b, b = s.regN (R.RNG.CAPB ring.val) →
          ∀ l, l = s.regN (R.RNG.CAPL ring.val) → ∀ wp, wp = s.regN (R.RNG.CAPWP ring.val) →
          ∀ d, d = (if b ≤ wp ∧ wp + len ≤ b + l then wp else b) →
          s.regB (R.RNG.RCTL ring.val) 16 = true → len ≤ l →
          ∃ t, exec (.captureStreamRx ring rev f) s = .next t ∧
          t.mem.readLE (capBase + d) 2 = (framePayload f.bytes).length % 65536 ∧
          t.mem.readLE (capBase + d + 4) 4 = bitsOfInt 32 (sofStamp f) ∧
          t.mem.readBytes (capBase + d + 8) (framePayload f.bytes).length = framePayload f.bytes ∧
          (∀ a, a < capBase + d ∨ capBase + d + len ≤ a → t.mem.read a = s.mem.read a) ∧
          (b + l ≤ 2 ^ 32 → t.reg (R.RNG.CAPWP ring.val) = wd (if d + len + 56 ≤ b + l then d + len else b)) ∧ t.regB (R.IRQS (0x30 + ring.val)) 4 = true ∧
          regsBut s t [R.RNG.CAPWP ring.val, R.IRQS (0x30 + ring.val)] ∧
          t = { s with regs := t.regs, mem := t.mem, lanes := t.lanes })))) ∧
    (s.writable (0x30 + ring.val) = true → (∀ mask : BitVec 8, ∃ t, exec (.forceSrsync ring mask) s = .next t ∧
        (∀ p < 8, (NMap.get {} t.cells (ring.val * 8 + p)).srsync =
          (mask.toNat.testBit p || (NMap.get {} s.cells (ring.val * 8 + p)).srsync)) ∧
        (∀ a, a / 8 ≠ ring.val → NMap.get {} t.cells a = NMap.get {} s.cells a) ∧ t = { s with cells := t.cells }) ∧
      exec (.forceResync ring) s = .next (s.setB (R.RNG.RSTA ring.val) 4 true)) ∧
    (s.pageUp 0x70 = true → ∃ t, exec .cvalRead s = .next t ∧ t.edge.latB = some s.bcval ∧ t.edge.latL = some s.lsta ∧
      t = { s with edge := { s.edge with latB := t.edge.latB, latL := t.edge.latL } })

/-- An engine RUNNING whose next slot is the A slot of a bundle that holds one of the 24 instructions that write rd by a
rule of R304 (ADD to FRD). With its predicate true, rd takes the value the rule gives, from the registers at issue;
where the result saturates, the sticky flag SV is set, and IRQS.FLAG; the M slot is next. With its predicate false no
register changes. No other register of the engine, no other engine, no other page register and no memory changes; only
the performance counters count. (Derived from: 09_plane_instruction_set.md: R298, R299, R302, R304,
08_plane_engines.md: R285, R286.) -/
def Obligations.IsaAluResults : Prop :=
  ∀ (s : State) (n : Fin 10), s.engState n.val = 2 → (s.engine n.val).half = none →
    ∀ w, w = s.imemWord n.val (s.pcOf n.val) → predValid (insPred w) = true → ∀ z, z = s.atIssue n.val →
    ∀ r, r = (z.engine n.val).r → ∀ a, a = r.gr (insRa w) → ∀ b, b = r.gr (insRb w) →
    ∀ d, d = r.gr (insRd w) → ∀ k, k = shiftCount w r → ∀ l, l = natFld (insX w) 5 5 → ∀ u, u = Nat.min (insX w % 32 + 1) (32 - l) →
    ∀ q ∈ ([(.add n, 0x01, sat32f (a.toInt + b.toInt)), (.sub n, 0x02, sat32f (a.toInt - b.toInt)),
        (.addm n, 0x03, a + b, 0), (.subm n, 0x04, a - b, 0), (.abs n, 0x05, sat32f (a.toInt.natAbs : Int)),
        (.neg n, 0x06, sat32f (-a.toInt)), (.min n, 0x07, wdInt (min a.toInt b.toInt), 0),
        (.max n, 0x08, wdInt (max a.toInt b.toInt), 0), (.and n, 0x09, a &&& b, 0), (.or n, 0x0A, a ||| b, 0),
        (.xor n, 0x0B, a ^^^ b, 0), (.shl n, 0x0C, sat32f (a.toInt * 2 ^ k)),
        (.shr n, 0x0D, wdInt ((a.toInt + (if (insX w).testBit 8 && Nat.ble 1 k then 2 ^ (k - 1) else 0)) / 2 ^ k), 0),
        (.shrl n, 0x0E, wd (a.toNat / 2 ^ k), 0),
        (.norm n, 0x0F, wd (((List.range 31).takeWhile fun i => a.bit (30 - i) == a.bit 31).length), 0),
        (.clamp n, 0x10, wdInt (min (max d.toInt a.toInt) b.toInt), 0), (.addi n, 0x11, sat32f (a.toInt + insImm14 w)),
        (.addmi n, 0x12, wdInt (a.toInt + insImm14 w), 0), (.movi n, 0x13, wdInt (signedOf 16 (insImm16 w)), 0),
        (.movh n, 0x14, wd (d.toNat % 65536 + insImm16 w * 65536), 0),
        (.extr n, 0x18, if (insRb w).testBit 3 then wdInt (signedOf u (a.fld l u)) else wd (a.fld l u), 0),
        (.ins n, 0x19, d.setFld l u a.toNat, 0), (.frd n, 0x24, wd (z.flagsOf n.val % 16 + r.p.toNat * 16), 0)] :
        List (Instr × Nat × Word × Nat)), insOp w = q.2.1 →
      (predTrue w r.p = true → ∃ t, exec q.1 s = .next t ∧ s.aDone t n.val (r.setG (insRd w) q.2.2.1) none none ∧
        t.flagsOf n.val = z.flagsOf n.val ||| q.2.2.2 ∧ (q.2.2.2 ≠ 0 → t.regB (R.IRQS (0x60 + n.val)) 1 = true) ∧
        regsBut z t (if q.2.2.2 = 0 then [] else [R.PE.FLAGS (0x60 + n.val), R.IRQS (0x60 + n.val)]) ∧
        t = { z with eng := t.eng, regs := t.regs, pmc := t.pmc }) ∧
      (predTrue w r.p = false → ∃ t, exec q.1 s = .next t ∧ s.aDone t n.val r none none ∧ regsBut z t [] ∧
        t = { z with eng := t.eng, regs := t.regs, pmc := t.pmc })

/-- An engine RUNNING whose next slot is the A slot. With its predicate true: CMP, CMPI and PLOG write predicate pd; CALL
writes the return address to r15 and DBNZ its register less one; BR, CALL, RET, and DBNZ with a result other than 0,
leave their target, and WAIT its channel, for the end of the bundle; FCLR clears the flags of its mask. With its
predicate false, and for NOP and the encodings that execute as NOP, no register changes. Nothing else changes but the
performance counters. (Derived from: 09_plane_instruction_set.md: R299, R302, R303, R304, R306, 08_plane_engines.md:
R286.) -/
def Obligations.IsaPredicatesAndBranches : Prop :=
  ∀ (s : State) (n : Fin 10), s.engState n.val = 2 → (s.engine n.val).half = none →
    ∀ w, w = s.imemWord n.val (s.pcOf n.val) → predValid (insPred w) = true → ∀ z, z = s.atIssue n.val →
    ∀ r, r = (z.engine n.val).r → ∀ a, a = r.gr (insRa w) → ∀ b, b = r.gr (insRb w) →
    (∀ q ∈ ([(.cmp n, 0x15, r.setP (insPd w) (condHolds (insCond w) a b), none, none),
        (.cmpi n, 0x16, r.setP (insPd w) (condHolds (insCond w) a (wdInt (insImm10 w))), none, none),
        (.plog n, 0x17, r.setP (insPd w) (lopVal (insCond w) (r.p.toNat.testBit (insPa w)) (r.p.toNat.testBit (insPb w))),
          none, none),
        (.br n, 0x1E, r, some (8 * insTgt w), none),
        (.call n, 0x1F, r.setG 15 (wd ((z.pcOf n.val + 8) % 65536)), some (8 * insTgt w), none),
        (.ret n, 0x20, r, some ((r.gr 15).toNat % 65536 / 8 * 8), none),
        (.dbnz n, 0x21, r.setG (insRd w) (r.gr (insRd w) - 1),
          if r.gr (insRd w) = 1 then none else some (8 * insTgt w), none)] :
        List (Instr × Nat × EngRegs × Option Nat × Option Nat)), insOp w = q.2.1 →
      (predTrue w r.p = true → ∃ t, exec q.1 s = .next t ∧ s.aDone t n.val q.2.2.1 q.2.2.2.1 q.2.2.2.2 ∧ regsBut z t [] ∧
        t = { z with eng := t.eng, regs := t.regs, pmc := t.pmc }) ∧
      (predTrue w r.p = false → ∃ t, exec q.1 s = .next t ∧ s.aDone t n.val r none none ∧ regsBut z t [] ∧
        t = { z with eng := t.eng, regs := t.regs, pmc := t.pmc })) ∧
    (insOp w = 0x22 → insCh w ≤ 16 → ∃ t, exec (.wait n) s = .next t ∧
      s.aDone t n.val r none (if predTrue w r.p then some (insCh w) else none) ∧ regsBut z t [] ∧
      t = { z with eng := t.eng, regs := t.regs, pmc := t.pmc }) ∧
    (insOp w = 0x23 → predTrue w r.p = true → ∃ t, exec (.fclrFlags n) s = .next t ∧ s.aDone t n.val r none none ∧
      (∀ i < 4, (t.flagsOf n.val).testBit i = ((z.flagsOf n.val).testBit i && !(insMask w).testBit i)) ∧
      regsBut z t [R.PE.FLAGS (0x60 + n.val)] ∧ t = { z with eng := t.eng, regs := t.regs, pmc := t.pmc }) ∧
    (slotOp false w = 0 → ∃ t, exec (.nop n) s = .next t ∧ s.aDone t n.val r none none ∧ regsBut z t [] ∧
      t = { z with eng := t.eng, regs := t.regs, pmc := t.pmc })

/-- An engine RUNNING whose next slot is the M slot, its A slot no WAIT, the predicate true as it was before the bundle.
The nine one-cycle instructions write their accumulator, EXT its register, with the saturation of R307 and its flag.
SINCOS, ATAN2, RECIP, RSQRT and DIV put their result, a fixed function of the operands (RSQRT of a negative operand: a
free value), on its way for 2 to 18 cycles; on Tenon they write it at once. A register that both slots write takes a
free value. NOP changes no register. Each ends the bundle: the program counter is the branch's target or the next
bundle. MAC_RESULT writes the oldest result. No other engine and no memory changes. (Derived from:
09_plane_instruction_set.md: R299, R307, R308, R309, R310, 08_plane_engines.md: R285, R286.) -/
def Obligations.IsaMacResults : Prop :=
  ∀ (s : State) (n : Fin 10), s.engState n.val = 2 → ∀ h, (s.engine n.val).half = some h → h.wait = none →
    ∀ w, w = s.imemWord n.val (s.pcOf n.val + 4) → predValid (insPred w) = true →
    ∀ e, e = s.engine n.val → ∀ d, d = insAd w → ∀ a, a = (h.old.gr (insRa w)).toInt → ∀ b, b = opB16 w h.old →
    ∀ c, c = (h.old.ac d).toInt → ∀ ar, ar = opA16 w h.old →
    (∀ q ∈ ([(.mul n, 0x30, sat48f (ar * b)), (.mac n, 0x31, sat48f (c + ar * b)), (.msu n, 0x32, sat48f (c - ar * b)),
        (.mulw n, 0x33, sat48f (a * b)), (.macw n, 0x34, sat48f (c + a * b)),
        (.ald n, 0x35, sat48f (a * 2 ^ Nat.min (insX w % 32) 16)),
        (.adda n, 0x37, sat48f (if (insX w).testBit 0 then c - (h.old.ac (insAb w)).toInt else c + (h.old.ac (insAb w)).toInt)),
        (.ash n, 0x38, ashVal c (insX w))] : List (Instr × Nat × BitVec 48 × Nat)), insOp w = q.2.1 →
      predTrue w h.old.p = true → ∃ t, exec q.1 s = .next t ∧ s.mDone t n.val h (e.r.setA d q.2.2.1) e.pend ∧
        t.flagsOf n.val = s.flagsOf n.val ||| q.2.2.2 ∧
        regsBut s t (R.PE.PC (0x60 + n.val) :: if q.2.2.2 = 0 then [] else [R.PE.FLAGS (0x60 + n.val), R.IRQS (0x60 + n.val)]) ∧
        t = { s with eng := t.eng, regs := t.regs, pmc := t.pmc }) ∧
    (insOp w = 0x36 → predTrue w h.old.p = true → h.aw ≠ some (insRd w) → ∀ v, v = extVal (h.old.ac (insAs w)).toInt (insX w) →
      ∃ t, exec (.ext n) s = .next t ∧ s.mDone t n.val h (e.r.setG (insRd w) v.1) e.pend ∧
        t.flagsOf n.val = s.flagsOf n.val ||| v.2 ∧
        regsBut s t [R.PE.PC (0x60 + n.val), R.PE.FLAGS (0x60 + n.val), R.IRQS (0x60 + n.val)] ∧
        t = { s with eng := t.eng, regs := t.regs, pmc := t.pmc }) ∧
    (∀ q ∈ ([(.sincos n, 0x39, 2, some (sincosVal (h.old.gr (insRa w))), 0),
        (.atan2 n, 0x3A, 4, some (atan2Val (h.old.gr (insRa w)) (h.old.gr (insRb w))).1,
          (atan2Val (h.old.gr (insRa w)) (h.old.gr (insRb w))).2),
        (.recip n, 0x3B, 3, some (recipVal (h.old.gr (insRa w))).1, (recipVal (h.old.gr (insRa w))).2),
        (.rsqrt n, 0x3C, 3, (rsqrtVal (h.old.gr (insRa w))).1, (rsqrtVal (h.old.gr (insRa w))).2),
        (.div n, 0x3D, 18, some (divVal a (h.old.gr (insRb w)).toInt (insX w % 32)).1,
          (divVal a (h.old.gr (insRb w)).toInt (insX w % 32)).2)] : List (Instr × Nat × Nat × Option Word × Nat)),
      insOp w = q.2.1 → predTrue w h.old.p = true → h.aw ≠ some (insRd w) →
      ∃ t, exec q.1 s = .next t ∧
        (n.val ≠ 9 → s.mDone t n.val h e.r (e.pend ++ [⟨h.at_ + q.2.2.1, .g (insRd w) (q.2.2.2.1.getD s.freeWord), q.2.2.2.2⟩]) ∧
          regsBut s t [R.PE.PC (0x60 + n.val)]) ∧
        (n.val = 9 → s.mDone t 9 h (e.r.setG (insRd w) (q.2.2.2.1.getD s.freeWord)) e.pend ∧
          t.flagsOf 9 = s.flagsOf 9 ||| q.2.2.2.2 ∧ regsBut s t [R.PE.PC 0x69, R.PE.FLAGS 0x69, R.IRQS 0x69]) ∧
        t = { s with eng := t.eng, regs := t.regs, pmc := t.pmc,
                     free := if q.2.2.2.1.isNone then s.free + 1 else s.free }) ∧
    (insOp w = 0x36 → predTrue w h.old.p = true → h.aw = some (insRd w) → ∃ t, exec (.ext n) s = .next t ∧
      s.mDone t n.val h (e.r.setG (insRd w) s.freeWord) e.pend ∧ t.free = s.free + 1) ∧
    (slotOp true w = 0 → ∃ t, exec (.nop n) s = .next t ∧ s.mDone t n.val h e.r e.pend ∧
      regsBut s t [R.PE.PC (0x60 + n.val)] ∧ t = { s with eng := t.eng, regs := t.regs, pmc := t.pmc }) ∧
    (∀ x, e.pend = [x] → ∃ t, exec (.macResult n) s = .next t ∧ (t.engine n.val).pend = [] ∧
      (t.engine n.val).r = (match x.dst with
        | .g i v => e.r.setG i v
        | .a i v => e.r.setA i v) ∧
      t.flagsOf n.val = s.flagsOf n.val ||| x.flags % 16 ∧
      regsBut s t [R.PE.FLAGS (0x60 + n.val), R.IRQS (0x60 + n.val)] ∧
      t = { s with eng := t.eng, regs := t.regs, pmc := t.pmc })

/-- An engine RUNNING whose next slot is an A slot with its predicate true. LD without an upset loads the data memory word
at ra + 4 × imm, a free value where nothing was stored since reset; an upset corrected is counted and raised
ENG_ECC_CE, one not corrected halts the engine and is raised ENG_ECC_UE. ST stores rd there and no other byte. LDC and
STC of a Plane engine or Mortise (none a shadow pair) put their CSM access in flight; Tenon's act on the exchange
memory at once. LDC_DELIVER and STC_WRITE of an access that no other comes before: the load's register takes the CSM
word, the store writes its word, PE7's in SHADOW and the result mirror excepted. Nothing else changes. (Derived from:
09_plane_instruction_set.md: R299, R305, 08_plane_engines.md: R271, R273, R274, R275, R289.) -/
def Obligations.IsaMemoryAccesses : Prop :=
  (∀ (s : State) (n : Fin 10), s.engState n.val = 2 → (s.engine n.val).half = none →
    ∀ w, w = s.imemWord n.val (s.pcOf n.val) → predValid (insPred w) = true → ∀ z, z = s.atIssue n.val →
    ∀ r, r = (z.engine n.val).r → predTrue w r.p = true → ∀ a, a = insAddr w r →
    (insOp w = 0x1A → ∀ v, v = z.dmemWord n.val (a % 0x20000) → (∃ t, exec (.ld n 0) s = .next t ∧
        s.aDone t n.val (r.setG (insRd w) (v.getD z.freeWord)) none none ∧ regsBut z t [] ∧
        t = { z with eng := t.eng, regs := t.regs, pmc := t.pmc, free := if v.isNone then z.free + 1 else z.free }) ∧
      (∃ t, exec (.ld n 1) s = .next t ∧ s.aDone t n.val (r.setG (insRd w) (v.getD z.freeWord)) none none ∧
        t.regF (R.PE.ECCCNT (0x60 + n.val)) 0 16 = satInc 16 (z.regF (R.PE.ECCCNT (0x60 + n.val)) 0 16) ∧
        z.raised t Src.ENG_ECC_CE (0x60 + n.val) ∧
        regsBut z t [R.PE.ECCCNT (0x60 + n.val), R.PE.ECCADR (0x60 + n.val), R.IRQS (0x60 + n.val)]) ∧
      (∃ t, exec (.ld n 2) s = .next t ∧ t.engState n.val = 4 ∧ z.raised t Src.ENG_ECC_UE (0x60 + n.val) ∧
        t.regF (R.PE.ECCCNT (0x60 + n.val)) 16 16 = satInc 16 (z.regF (R.PE.ECCCNT (0x60 + n.val)) 16 16))) ∧
    (insOp w = 0x1B → ∃ t, exec (.st n) s = .next t ∧ s.aDone t n.val r none none ∧
      t.dmemWord n.val (a % 0x20000) = some (r.gr (insRd w)) ∧
      (∀ x, x < dmemAddr n.val (a % 0x20000) ∨ dmemAddr n.val (a % 0x20000) + 4 ≤ x → dmemByte t.dmem x = dmemByte z.dmem x) ∧
      regsBut z t [] ∧ t = { z with eng := t.eng, regs := t.regs, pmc := t.pmc, dmem := t.dmem }) ∧
    (n.val ≠ 9 → insOp w = 0x1C → ∃ t, exec (.ldc n) s = .next t ∧ s.aDone t n.val r none none ∧
      (t.engine n.val).acc = (z.engine n.val).acc ++
        [{ due := s.bundleAt n.val + 3, store := false, addr := a % 0x80000, rd := insRd w, val := 0 }] ∧
      regsBut z t [] ∧ t = { z with eng := t.eng, regs := t.regs, pmc := t.pmc }) ∧
    (n.val = 9 → insOp w = 0x1C → ∃ t, exec (.ldc n) s = .next t ∧
      s.aDone t 9 (r.setG (insRd w) (s.sxm.readWord (a % sxmSize))) none none ∧ regsBut z t [] ∧
      t = { z with eng := t.eng, regs := t.regs, pmc := t.pmc }) ∧
    (n.val ≠ 9 → z.pe7Mode ≠ 1 → insOp w = 0x1D → ∃ t, exec (.stc n) s = .next t ∧ s.aDone t n.val r none none ∧
      (t.engine n.val).acc = (z.engine n.val).acc ++
        [{ due := s.bundleAt n.val + 3, store := true, addr := a % 0x80000, rd := 0, val := r.gr (insRd w) }] ∧
      regsBut z t [] ∧ t = { z with eng := t.eng, regs := t.regs, pmc := t.pmc }) ∧
    (n.val = 9 → insOp w = 0x1D → ∃ t, exec (.stc n) s = .next t ∧ s.aDone t 9 r none none ∧
      t.sxm.readWord (a % sxmSize) = r.gr (insRd w) ∧
      (∀ x, x < a % sxmSize ∨ a % sxmSize + 4 ≤ x → t.sxm.read x = s.sxm.read x) ∧
      regsBut z t [] ∧ t = { z with eng := t.eng, regs := t.regs, pmc := t.pmc, sxm := t.sxm })) ∧
  (∀ (s : State) (n : Fin 9), ∀ x rest, (s.engine n.val).acc = x :: rest →
    (∀ y ∈ rest, x.due < y.due) → (∀ m < 9, m ≠ n.val → ∀ y ∈ (s.engine m).acc, x.due < y.due) →
    (∀ y ∈ (s.engine n.val).pend, x.due < y.due) →
    (x.store = false → x.got = false → inMirror x.addr = false → ∃ t, exec (.ldcDeliver n) s = .next t ∧
      (t.engine n.val).acc = rest ∧
      (t.engine n.val).r = (s.engine n.val).r.setG x.rd (s.mem.readWord (csmBase + x.addr)) ∧ t = { s with eng := t.eng }) ∧
    (x.store = true → ∃ t, exec (.stcWrite n) s = .next t ∧ (t.engine n.val).acc = rest ∧
      (t.engine n.val).r = (s.engine n.val).r ∧
      (inMirror x.addr = false → (n.val ≠ 7 ∨ s.pe7Mode ≠ 1) → t.mem.readWord (csmBase + x.addr) = x.val) ∧
      (inMirror x.addr = true ∨ (n.val = 7 ∧ s.pe7Mode = 1) → t.mem = s.mem) ∧
      (∀ b, b < csmBase + x.addr ∨ csmBase + x.addr + 4 ≤ b → t.mem.read b = s.mem.read b) ∧
      t = { s with eng := t.eng, mem := t.mem }))

/-- CHANNEL_RECOGNISED of channel k (no shipped program set loaded, PE7 not in SHADOW). An engine WAITING on k, or at TS1
one in HOME without SSTOP, runs from the cycle of recognition with latch k clear; TS1 clears every other latch; every
other engine keeps its state and has latch k set. At TS2 a Plane engine RUNNING or WAITING has overrun: OVCNT counts,
OVPC and OVPIDX stand, PE_OVERRUN is raised, and it is in HOME, or DISABLED with EN = 0; one in HOME has not. A bundle
that ends with WAIT k suspends the engine on k, or runs on where its latch is set; the home wait puts it in HOME or
DISABLED and sets CYCLAST and CYCMAX. (Derived from: 08_plane_engines.md: R36, R276, R277, R278, R281, R282, R283,
09_plane_instruction_set.md: R306.) -/
def Obligations.ChannelReleasesEngines : Prop :=
  (∀ (s : State) (k : Fin 16) (d : Nat), s.shipped.stack = false → s.pe7Mode ≠ 1 → ∀ c, c = s.recogCycle d →
    ∃ t, exec (.channelRecognised k d) s = .next t ∧ t.engCycle = c ∧ t.ts1Cycle = (if k.val = 1 then c else s.ts1Cycle) ∧
      (k.val ≠ 2 → ∀ n < 10,
        (s.engCh n = k.val ∧ (s.engState n = 3 ∨ (s.engState n = 1 ∧ s.regB (R.PCTL (engPage n)) 2 = false)) →
          t.engState n = 2 ∧ (n ≠ 9 → (t.engine n).nextAt = c) ∧
          ∀ i < 16, (t.engine n).latch.testBit i = (decide (k.val ≠ 1 ∧ i ≠ k.val) && (s.engine n).latch.testBit i)) ∧
        (s.engCh n ≠ k.val ∨ (s.engState n ≠ 3 ∧ s.engState n ≠ 1) → t.engState n = s.engState n ∧
          ∀ i < 16, (t.engine n).latch.testBit i =
            (decide (i = k.val) || (decide (k.val ≠ 1) && (s.engine n).latch.testBit i)))) ∧
      (k.val = 2 → ∀ n < 8,
        (s.engState n = 2 ∨ s.engState n = 3 →
          t.regF (R.PE.OVCNT (engPage n)) 0 16 = satInc 16 (s.regF (R.PE.OVCNT (engPage n)) 0 16) ∧
          t.regF (R.PE.OVPC (engPage n)) 0 16 = s.pcOf n ∧ t.regN (R.PE.OVPIDX (engPage n)) = s.nextPidx ∧
          t.regB (R.IRQS (engPage n)) 0 = true ∧
          (t.scribe.inflight.any fun f => f.src == Src.PE_OVERRUN && f.page == engPage n) = true ∧
          t.engState n = if s.enabled (engPage n) then 1 else 0) ∧
        (s.engState n ≠ 2 → s.engState n ≠ 3 → s.engCh n ≠ 2 → t.engState n = s.engState n ∧
          t.reg (R.PE.OVCNT (engPage n)) = s.reg (R.PE.OVCNT (engPage n)))) ∧
      t = { s with regs := t.regs, mem := t.mem, scribe := t.scribe, edge := t.edge, eng := t.eng, engCycle := t.engCycle,
                   ts1Cycle := t.ts1Cycle, pmc := t.pmc, meas := t.meas, clk := t.clk, free := t.free }) ∧
  (∀ (s : State) (n : Fin 10), s.engState n.val = 2 → ∀ h, (s.engine n.val).half = some h → ∀ ch, h.wait = some ch →
    slotOp true (s.imemWord n.val (s.pcOf n.val + 4)) = 0 → h.jump = none →
    (ch ≠ 1 → ch < 16 → ∃ t, exec (.nop n) s = .next t ∧ t.pcOf n.val = (s.pcOf n.val + 8) % 65536 ∧
      ((s.engine n.val).latch.testBit ch = true → t.engState n.val = 2 ∧ (t.engine n.val).latch.testBit ch = false) ∧
      ((s.engine n.val).latch.testBit ch = false → t.engState n.val = 3 ∧ t.engCh n.val = ch ∧
        (t.engine n.val).latch = (s.engine n.val).latch) ∧
      (t.engine n.val).r = (s.engine n.val).r ∧
      regsBut s t [R.PE.PC (engPage n.val), R.PE.ESTA (engPage n.val), R.PSTA (engPage n.val)] ∧
      t = { s with regs := t.regs, eng := t.eng, pmc := t.pmc }) ∧
    (ch = 1 → s.pe7Mode ≠ 1 → n.val ≠ 9 → (s.engine n.val).latch.testBit 1 = false → ∃ t, exec (.nop n) s = .next t ∧
      t.engState n.val = (if s.enabled (engPage n.val) then 1 else 0) ∧ (t.engine n.val).homeAt = h.at_ ∧
      t.regN (R.PE.CYCLAST (engPage n.val)) = Nat.min (h.at_ + 1 - (s.engine n.val).rel) 0xFFFE ∧
      t.regN (R.PE.CYCMAX (engPage n.val)) = Nat.max (s.regN (R.PE.CYCMAX (engPage n.val)))
        (Nat.min (h.at_ + 1 - (s.engine n.val).rel) 0xFFFE) ∧
      regsBut s t [R.PE.PC (engPage n.val), R.PE.ESTA (engPage n.val), R.PSTA (engPage n.val), R.PE.CYCLAST (engPage n.val),
        R.PE.CYCMAX (engPage n.val)] ∧ t = { s with regs := t.regs, eng := t.eng, pmc := t.pmc }))

/-- PE7_FREE, PE7_SHADOW, PE7_REPLACE with the lock open and PE7's EN = 0 (with the lock closed or EN = 1 the write is a
counted violation and does nothing else), TARGET 7 taken as 0. SHADOW from FREE: PE7 takes TARGET's instruction memory
and ENTRY, SHSTA and SHADDR are 0, it is in HOME unless HALTED. REPLACE while no plan runs: TARGET is RETIRED, PE7
takes both memories, ENTRY and the output sets, and the spare record names TARGET; while one runs only REFUSED is set.
FREE while no plan runs: from REPLACE the output sets go back and TARGET is DISABLED, from SHADOW PE7 is; while one
runs nothing changes. SHADOW_COPY_DONE of a running copy: PE7 holds TARGET's data memory, ARMED and IRQS bit 4 are
set. SHADOW_REARM starts a new copy. (Derived from: 08_plane_engines.md: R271, R287, R288, R290,
02_pages_and_host_port.md: R58.) -/
def Obligations.SpareEngineModes : Prop :=
  ∀ (s : State), s.writable 0x67 = true →
    (∀ v : BitVec 3, s.lockOpen 0x67 = false ∨ s.enabled 0x67 = true →
      exec (.pe7Free v) s = .next (s.lockViol 0x67) ∧ exec (.pe7Shadow v) s = .next (s.lockViol 0x67) ∧
      exec (.pe7Replace v) s = .next (s.lockViol 0x67)) ∧
    (∀ v : BitVec 3, s.lockOpen 0x67 = true → s.enabled 0x67 = false → ∀ n, n = (if v.toNat = 7 then 0 else v.toNat) →
      (s.pe7Mode ≠ 2 → ∃ t, exec (.pe7Shadow v) s = .next t ∧ t.pe7Mode = 1 ∧ t.pe7Target = n ∧
        (∀ a < 0x10000, t.mem.read (engBase 7 + a) = s.mem.read (engBase n + a)) ∧
        (∀ a, a < engBase 7 ∨ engBase 7 + 0x10000 ≤ a → t.mem.read a = s.mem.read a) ∧
        t.reg (R.PE.ENTRY 0x67) = s.reg (R.PE.ENTRY (engPage n)) ∧ t.reg (R.PE.SHSTA 0x67) = 0 ∧
        t.reg (R.PE.SHADDR 0x67) = 0 ∧ t.shadow7.waiting = true ∧ t.shadow7.live = false ∧
        t.engState 7 = (if s.engState 7 = 4 then 4 else 1) ∧
        regsBut s t [R.PE.PECFG 0x67, R.PE.ENTRY 0x67, R.PE.SHSTA 0x67, R.PE.SHADDR 0x67, R.PE.PC 0x67, R.PE.ESTA 0x67, R.PSTA 0x67] ∧
        t = { s with regs := t.regs, mem := t.mem, eng := t.eng, shadow7 := t.shadow7 }) ∧
      (s.plan.run = true → exec (.pe7Replace v) s = .next (s.setB (R.PE.SHSTA 0x67) 3 true) ∧ exec (.pe7Free v) s = .next s) ∧
      (s.plan.run = false → s.pe7Mode ≠ 2 → ∃ t, exec (.pe7Replace v) s = .next t ∧ t.pe7Mode = 2 ∧ t.pe7Target = n ∧
        t.engState n = 5 ∧ t.spare.engine = some n ∧ t.reg (R.PE.ENTRY 0x67) = s.reg (R.PE.ENTRY (engPage n)) ∧
        (∀ a < 0x10000, t.mem.read (engBase 7 + a) = s.mem.read (engBase n + a)) ∧
        (∀ a < 0x20000, dmemByte t.dmem (dmemAddr 7 a) = dmemByte s.dmem (dmemAddr n a)) ∧
        (∀ j < 8, t.reg (osetKey 7 j) = s.reg (osetKey n j) ∧ t.reg (osetKey n j) = 0) ∧
        t.reg (R.PE.OSETLB 0x67) = s.reg (R.PE.OSETLB (engPage n)) ∧ t.reg (R.PE.OSETLB (engPage n)) = 0 ∧
        t.shBit 2 = false ∧ t.shBit 3 = false ∧
        t = { s with regs := t.regs, mem := t.mem, dmem := t.dmem, spare := t.spare, eng := t.eng, shadow7 := {} }) ∧
      (s.plan.run = false → ∃ t, exec (.pe7Free v) s = .next t ∧ t.pe7Mode = 0 ∧ t.pe7Target = n ∧
        (s.pe7Mode = 2 → s.pe7Target ≠ 7 → t.engState s.pe7Target = 0 ∧ t.spare.engine = none ∧
          ∀ j < 8, t.reg (osetKey s.pe7Target j) = s.reg (osetKey 7 j) ∧ t.reg (osetKey 7 j) = 0) ∧
        (s.pe7Mode = 1 → t.engState 7 = (if s.engState 7 = 4 then 4 else 0) ∧ t.shBit 0 = false ∧ t.shBit 1 = false) ∧
        t = { s with regs := t.regs, spare := t.spare, shadow7 := t.shadow7 })) ∧
    (s.pe7Mode = 1 → s.shBit 0 = true → s.pe7Target ≠ 7 → ∃ t, exec .shadowCopyDone s = .next t ∧ t.shBit 0 = false ∧ t.shBit 1 = true ∧
      t.regB (R.IRQS 0x67) 4 = true ∧ (∀ a < 0x20000, dmemByte t.dmem (dmemAddr 7 a) = dmemByte s.dmem (dmemAddr s.pe7Target a)) ∧
      t.engState 7 = (if s.engState 7 = 4 then 4 else 1) ∧ t.shadow7.copied = true ∧
      regsBut s t [R.PE.SHSTA 0x67, R.IRQS 0x67, R.PE.PC 0x67, R.PE.ESTA 0x67, R.PSTA 0x67] ∧
      t = { s with regs := t.regs, dmem := t.dmem, eng := t.eng, shadow7 := t.shadow7 }) ∧
    (s.pe7Mode ≠ 1 ∨ s.shBit 0 = false → exec .shadowCopyDone s = .next s) ∧
    (s.pe7Mode = 1 → ∃ t, exec .shadowRearm s = .next t ∧ t.shadow7 = { waiting := true } ∧ t.reg (R.PE.SHSTA 0x67) = 0 ∧
      (∀ a < 0x10000, t.mem.read (engBase 7 + a) = s.mem.read (engBase s.pe7Target + a)) ∧
      t.reg (R.PE.ENTRY 0x67) = s.reg (R.PE.ENTRY (engPage s.pe7Target)) ∧
      regsBut s t [R.PE.ENTRY 0x67, R.PE.SHSTA 0x67, R.PE.SHADDR 0x67, R.PE.PC 0x67, R.PE.ESTA 0x67, R.PSTA 0x67] ∧
      t = { s with regs := t.regs, mem := t.mem, eng := t.eng, shadow7 := t.shadow7 })

/-- Four of the commands first bring the counters of the engine concerned up to the present ENG cycle (pmcSync).
PREH_WRITE sets the counter of the selected engine and its preset to the written value over the source's PREL.
COUNTER_OVERFLOW of a counter past 2^48 − 1: it stands at its preset plus the part beyond, OVF is set, IRQS where
enabled, and a sample is due where enabled. PC_SAMPLE records the engine's oldest sample due with the address of the
last bundle issued by then (none: a free value), or with 16 waiting counts it lost with IRQS bit 8. SNAP copies all 32
counters of each engine named, gives the copy the period index and the next SEQ, and sets IRQS bit 9. SMPOP takes away
the selected engine's oldest sample. CNTL_READ latches the counter's high half for its source. Nothing else changes.
(Derived from: 20_performance_counters.md: R553, R554, R555, R556, R557, R559.) -/
def Obligations.PerformanceCounters : Prop :=
  ∀ (s : State), ∀ n, n = s.regF R.PMC.ESEL 0 3 →
    (s.writable 0xA8 = true → ∀ u, u = s.pmcSync n → ∀ (src : HSrc) (e : Fin 32) (hi : BitVec 16),
      ∃ t, exec (.prehWrite src e hi) s = .next t ∧
      t.pmcGet n e.val = hi.toNat * 2 ^ 32 + NMap.get 0 s.pmc.prel (srcNo src * 256 + n * 32 + e.val) ∧
      NMap.get 0 t.pmc.preset (n * 32 + e.val) = t.pmcGet n e.val ∧
      (∀ m e', e' < 32 → m * 32 + e' ≠ n * 32 + e.val → t.pmcGet m e' = u.pmcGet m e') ∧ t = { u with pmc := t.pmc }) ∧
    (∀ (m : Fin 8) (e : Fin 32), ∀ u, u = s.pmcSync m.val →
      (u.pmcGet m.val e.val < 2 ^ 48 → exec (.counterOverflow m e) s = .next u) ∧
      (2 ^ 48 ≤ u.pmcGet m.val e.val → ∃ t, exec (.counterOverflow m e) s = .next t ∧
        t.pmcGet m.val e.val = NMap.get 0 s.pmc.preset (m.val * 32 + e.val) + (u.pmcGet m.val e.val - 2 ^ 48) ∧
        NMap.get 0 t.pmc.ovf m.val = NMap.get 0 s.pmc.ovf m.val ||| 2 ^ e.val ∧
        ((NMap.get 0 s.pmc.oven m.val).testBit e.val = true → t.regB (R.IRQS 0xA8) m.val = true) ∧
        ((NMap.get 0 s.pmc.smpen m.val).testBit e.val = true → t.pmc.due.length = s.pmc.due.length + 1) ∧
        ((NMap.get 0 s.pmc.smpen m.val).testBit e.val = false → t.pmc.due = s.pmc.due) ∧
        regsBut s t [R.IRQS 0xA8] ∧ t = { u with regs := t.regs, pmc := t.pmc })) ∧
    (∀ m : Fin 8, ∀ x, s.pmc.due.find? (fun x => x.eng == m.val) = some x → ∀ q, q = NMap.get [] s.pmc.smp m.val →
      (16 ≤ q.length → ∃ t, exec (.pcSample m) s = .next t ∧ NMap.get [] t.pmc.smp m.val = q ∧
        NMap.get 0 t.pmc.lost m.val = satInc 16 (NMap.get 0 s.pmc.lost m.val) ∧ t.regB (R.IRQS 0xA8) 8 = true ∧
        t.pmc.due = s.pmc.due.erase x ∧ regsBut s t [R.IRQS 0xA8] ∧ t = { s with regs := t.regs, pmc := t.pmc }) ∧
      (q.length < 16 → ∃ t, exec (.pcSample m) s = .next t ∧ t.pmc.due = s.pmc.due.erase x ∧
        (∀ p, (s.engine m.val).last.find? (fun p => Nat.ble p.1 (x.at_ + 3)) = some p →
          NMap.get [] t.pmc.smp m.val = q ++ [sampleWords p.2 x.ctr x.pidx x.since] ∧ t.free = s.free) ∧
        ((s.engine m.val).last.find? (fun p => Nat.ble p.1 (x.at_ + 3)) = none →
          NMap.get [] t.pmc.smp m.val = q ++ [sampleWords (s.freeWord.toNat % 65536) x.ctr x.pidx x.since] ∧
          t.free = s.free + 1) ∧
        t.pmcGet m.val 31 = s.pmcGet m.val 31 + 1 ∧ t = { s with pmc := t.pmc, free := t.free })) ∧
    (s.writable 0xA8 = true → ∀ mask : BitVec 8, mask ≠ 0 → ∃ t, exec (.snap mask) s = .next t ∧
      (∀ m < 8, (mask.toNat.testBit m = true →
          (∀ e < 32, NMap.get 0 t.pmc.snap (m * 32 + e) = (s.pmcSync m).pmcShown m e) ∧
          NMap.get 0 t.pmc.snPidx m = s.regN R.TRG.PIDX ∧ NMap.get 0 t.pmc.snSeq m = (NMap.get 0 s.pmc.snSeq m + 1) % 65536) ∧
        (mask.toNat.testBit m = false → (∀ e < 32, NMap.get 0 t.pmc.snap (m * 32 + e) = NMap.get 0 s.pmc.snap (m * 32 + e)) ∧
          NMap.get 0 t.pmc.snSeq m = NMap.get 0 s.pmc.snSeq m ∧ ∀ e < 32, t.pmcGet m e = s.pmcGet m e)) ∧
      (∀ m, t.engine m = if mask.toNat.testBit m then (s.pmcSync m).engine m else s.engine m) ∧
      t.regB (R.IRQS 0xA8) 9 = true ∧ regsBut s t [R.IRQS 0xA8] ∧ t = { s with regs := t.regs, eng := t.eng, pmc := t.pmc }) ∧
    (s.writable 0xA8 = true → ∃ t, exec .smpop s = .next t ∧ NMap.get [] t.pmc.smp n = (NMap.get [] s.pmc.smp n).drop 1 ∧
      (∀ m, m ≠ n → NMap.get [] t.pmc.smp m = NMap.get [] s.pmc.smp m) ∧ t = { s with pmc := t.pmc }) ∧
    (s.pageUp 0xA8 = true → ∀ u, u = s.pmcSync n → ∀ (src : HSrc) (e : Fin 32), ∃ t, exec (.cntlRead src e) s = .next t ∧
      (s.presetNow n e.val = false → NMap.get 0 t.pmc.lat (srcNo src) = u.pmcShown n e.val / 2 ^ 32 ∧ t.free = s.free) ∧
      (s.presetNow n e.val = true →
        NMap.get 0 t.pmc.lat (srcNo src) = (Config.freeWord (s.free + 1)).toNat % 65536 ∧ t.free = s.free + 2) ∧
      t.pmc.ctr = u.pmc.ctr ∧ t = { u with pmc := t.pmc, free := t.free })

/-- A cell command to a free command port: for a cell of the arm map CMDSTA shows it busy and its event is pending at the
cell's instance; for another cell it is answered REJ_NOCELL, counted, with IRQS bit 0; while one is busy only IRQS bit
3 is set. START and STOP of the stack likewise. RETCLR while no plan runs deletes the cell's retirement; while one
runs nothing changes. TBLD starts the check of a bank; BANK_CHECK_DONE ends it, VALID if the bank passes the checks of
R324, else REFUSED. ROW_REPAIR of a row that has failed and is not yet logged logs it where a spare row is left and
raises ROW_REPAIR, else raises ROW_SPARE_OUT. Nothing else changes. (Derived from: 10_jig_lifecycle_spares.md: R324,
R338, R341, R343, R344, R347, 15_scribe_faults.md: R448.) -/
def Obligations.CellAndStackCommands : Prop :=
  ∀ (s : State),
    (s.writable 0x50 = true → ∀ a : BitVec 8,
      ∀ q ∈ ([(.cmdInsert a, 8), (.cmdRemove a, 9), (.cmdBypass a, 10), (.cmdCharge a, 11), (.cmdRetire a, 12),
        (.cmdReturn a, 13)] : List (Instr × Nat)),
      (s.regB R.CLS.CMDSTA 0 = true → exec q.1 s = .next (s.irq 0x50 3)) ∧
      (s.regB R.CLS.CMDSTA 0 = false → s.inMap a.toNat = true → ∃ t, exec q.1 s = .next t ∧
        t.reg R.CLS.CMDSTA = wd (a.toNat * 65536 + 1) ∧ (t.inst a.toNat).pend = (s.inst a.toNat).pend ||| 2 ^ q.2 ∧
        t.inst a.toNat = { s.inst a.toNat with pend := (t.inst a.toNat).pend } ∧
        (∀ i, i ≠ a.toNat → t.inst i = s.inst i) ∧ regsBut s t [R.CLS.CMDSTA] ∧ t = { s with regs := t.regs, jig := t.jig }) ∧
      (s.regB R.CLS.CMDSTA 0 = false → s.inMap a.toNat = false → ∃ t, exec q.1 s = .next t ∧
        t.reg R.CLS.CMDSTA = wd (a.toNat * 65536 + (s.inst a.toNat).st * 256 + 8) ∧ t.regB (R.IRQS 0x50) 0 = true ∧
        t.regF R.CLS.REJCNT 0 16 = satInc 16 (s.regF R.CLS.REJCNT 0 16) ∧
        regsBut s t [R.CLS.CMDSTA, R.IRQS 0x50, R.CLS.REJCNT] ∧ t = { s with regs := t.regs })) ∧
    (s.writable 0x52 = true → ∀ q ∈ ([(.jcmdStart, 4), (.jcmdStop, 3)] : List (Instr × Nat)),
      s.regB (R.JG.JCMDSTA 1) 0 = false → ∃ t, exec q.1 s = .next t ∧
        t.reg (R.JG.JCMDSTA 1) = 1 ∧ (t.inst stackInst).pend = (s.inst stackInst).pend ||| 2 ^ q.2 ∧
        (∀ i, i ≠ stackInst → t.inst i = s.inst i) ∧ regsBut s t [R.JG.JCMDSTA 1] ∧ t = { s with regs := t.regs, jig := t.jig }) ∧
    (s.writable 0x50 = true → ∀ a : BitVec 8, (s.plan.run = true → exec (.retclr a) s = .next s) ∧
      (s.plan.run = false → ∃ t, exec (.retclr a) s = .next t ∧ t.regB (R.CLS.RETMAP (a.toNat / 32)) (a.toNat % 32) = false ∧
        (∀ i < 32, i ≠ a.toNat % 32 → t.regB (R.CLS.RETMAP (a.toNat / 32)) i = s.regB (R.CLS.RETMAP (a.toNat / 32)) i) ∧
        NMap.get none t.spare.cells a.toNat = none ∧ regsBut s t [R.CLS.RETMAP (a.toNat / 32)] ∧
        t = { s with regs := t.regs, spare := t.spare })) ∧
    (∀ (e : Fin 2), (s.writable (0x51 + e.val) = true → ∀ b : Fin 4, ∃ t, exec (.tbld e b) s = .next t ∧
        NMap.get none t.jig.check e.val = some b.val ∧ t.regB (R.JG.TBSTA (1 + e.val)) 9 = true ∧
        regsBut s t [R.JG.TBSTA (1 + e.val)] ∧ t = { s with regs := t.regs, jig := t.jig }) ∧
      (NMap.get none s.jig.check e.val = none → exec (.bankCheckDone e) s = .next s) ∧
      (∀ b, NMap.get none s.jig.check e.val = some b → b < 4 → ∃ t, exec (.bankCheckDone e) s = .next t ∧
        NMap.get none t.jig.check e.val = none ∧ t.regB (R.JG.TBSTA (1 + e.val)) 9 = false ∧
        t.regB (R.JG.TBSTA (1 + e.val)) b = bankOk s.mem (s.bankAt e.val b) (s.curveAt e.val 0)
          (s.regF (R.JG.CVN (1 + e.val)) 0 8) (e.val == 1) ∧
        t.regB (R.JG.TBSTA (1 + e.val)) (4 + b) = !t.regB (R.JG.TBSTA (1 + e.val)) b ∧
        t.regB (R.IRQS (0x51 + e.val)) 0 = true ∧ regsBut s t [R.JG.TBSTA (1 + e.val), R.IRQS (0x51 + e.val)] ∧
        t = { s with regs := t.regs, jig := t.jig })) ∧
    (∀ m row, ∀ base size spares, memoryRows m = some (base, size, spares) → row * 256 < size →
      s.spare.failing.contains (m * 2 ^ 20 + row) = true →
      s.spare.rows.count (m * 2 ^ 20 + row) ≤ s.spare.applied.count (m * 2 ^ 20 + row) →
      ∃ t, exec (.rowRepair m row) s = .next t ∧
        ((s.spare.rows.filter fun r => r / 2 ^ 20 == m).length < spares →
          t.spare.rows = s.spare.rows ++ [m * 2 ^ 20 + row] ∧ s.raised t Src.ROW_REPAIR (if m < 20 then 0x60 + m / 2 else 0xB0)) ∧
        (spares ≤ (s.spare.rows.filter fun r => r / 2 ^ 20 == m).length → t.spare.rows = s.spare.rows ∧
          s.raised t Src.ROW_SPARE_OUT (if m < 20 then 0x60 + m / 2 else 0xB0)) ∧
        t = { s with spare := { s.spare with rows := t.spare.rows, failing := s.spare.failing.erase (m * 2 ^ 20 + row) }, scribe := t.scribe })

/-- JG0_PASS once in a period, JG0 running, on an unpaired head: the cells deferred before come first, the first `fit` are
taken, the others are deferred, counted, and JG_DEFER is raised. A cell taken with one pending event below 20, no
timer and an entry without a guard or an action enters the state the entry names; for each cell taken the weight and
the lifecycle word in CSM say what its instance says. PASSLAST and PASSMAX show the cycles. JIG_IDLE_PASS while no
plan runs falls at the next multiple of 10 µs not yet taken and makes the same pass. While JG0's pass is not due, a
plan runs, or the engine does not run, no instance changes. JIG_TIMEOUT of an instance with a limit in time takes ring
time to its end, from which on the first pass raises TIMEOUT. (Derived from: 10_jig_lifecycle_spares.md: R317, R318,
R319, R320, R326, R327, R347, 21_guarantees.md: R564.) -/
def Obligations.JigPasses : Prop :=
  (∀ (s : State) (fit : Nat) (cycles : BitVec 16), s.paired = false → (∀ i, (s.inst i).st < 64) → s.bankInUse 0 + 0x2100 ≤ tblBase + 0x100000 →
    (s.jig.jg0Due = false → exec (.jg0Pass fit cycles) s = .next s) ∧
    (s.jig.jg0Due = true → s.jigRuns 0 = true →
      ∀ l, l = (s.mapCells.filter fun a => s.jig.deferred.contains a) ++ s.mapCells.filter (fun a => !s.jig.deferred.contains a) →
      ∃ t, exec (.jg0Pass fit cycles) s = .next t ∧ t.jig.jg0Due = false ∧ t.jig.deferred = l.drop fit ∧
        (∀ a ∈ l.take fit, t.mem.readWord (csmBase + 0x20400 + a * 4) = wd (t.inst a).w ∧
          (t.lifeWord a).fld 0 6 = (t.inst a).st ∧ (t.lifeWord a).fld 6 4 = t.classOfCell a ∧
          (t.lifeWord a).bit 10 = (t.inst a).byp ∧ (t.lifeWord a).bit 12 = decide (t.classOfCell a ≠ 0)) ∧
        (∀ a ∈ l.take fit, ∀ e < 20, (s.inst a).pend = 2 ^ e → (s.inst a).tPass = none → (s.inst a).tAt = none →
          ∀ w, w = entryOf s.mem (s.bankInUse 0) (s.inst a).st e → w.fld 0 6 ≠ 0x3F → w.fld 6 8 = 0 → w.fld 14 3 = 0 →
          w.bit 17 = false → (t.inst a).st = w.fld 0 6 ∧ (t.inst a).pend.testBit e = false) ∧
        (∀ a ∈ l.drop fit, (t.inst a).st = (s.inst a).st) ∧
        t.reg (R.JG.PASSLAST 1) = wd cycles.toNat ∧
        t.regF (R.JG.PASSMAX 1) 0 16 = Nat.max (s.regF (R.JG.PASSMAX 1) 0 16) cycles.toNat ∧
        (fit < l.length → t.regF R.CLS.DEFCNT 0 16 = satInc 16 (s.regF R.CLS.DEFCNT 0 16) ∧
          (t.scribe.inflight.any fun f => f.src == Src.JG_DEFER && f.page == 0x51) = true) ∧
        (l.length ≤ fit → t.reg R.CLS.DEFCNT = s.reg R.CLS.DEFCNT))) ∧
  (∀ (s : State) (e : Fin 2) (cycles : BitVec 16), s.paired = false → s.jigRuns e.val = true →
    (s.plan.run = true → exec (.jigIdlePass e cycles) s = .next s) ∧
    (s.plan.run = false → ∀ k, k = s.nextMultiple (NMap.get 0 s.jig.idleAt e.val) 160000 →
      ∃ t, exec (.jigIdlePass e cycles) s = .next t ∧ t.dt64 = (s.reach (k * 160000)).dt64 ∧
        NMap.get 0 t.jig.idleAt e.val = k + 1 ∧ t.reg (R.JG.PASSLAST (1 + e.val)) = wd cycles.toNat ∧
        (e.val = 0 → ∀ a ∈ s.mapCells, t.mem.readWord (csmBase + 0x20400 + a * 4) = wd (t.inst a).w) ∧
        (e.val = 0 → ∀ a ∈ s.mapCells, ∀ ev < 20, (s.inst a).pend = 2 ^ ev → (s.inst a).tPass = none → (s.inst a).tAt = none →
          ∀ w, w = entryOf s.mem (s.bankInUse 0) (s.inst a).st ev → w.fld 0 6 ≠ 0x3F → w.fld 6 8 = 0 → w.fld 14 3 = 0 →
          w.bit 17 = false → (t.inst a).st = w.fld 0 6) ∧
        (e.val = 1 → t.mem = s.mem))) ∧
  (∀ (s : State) (i : Nat),
    ((s.inst i).tAt = none ∨ (s.inst i).tPass ≠ none → exec (.jigTimeout i) s = .next s) ∧
    (∀ x, (s.inst i).tAt = some x → (s.inst i).tPass = none → exec (.jigTimeout i) s = .next (s.reach x)))

/-- HCMD_HANDOVER is accepted by an ACTIVE head whose peer is an ARMED STANDBY, else IRQS bit 5. LEAVE takes a head to
OFF, unarmed, its ring transmitters dark after K28.6 where they were lit; JOIN takes it from OFF to LISTEN. CLAIM_OUT,
while it toggles, is high for the first 50 SFB cycles from the entry to CLAIMING and changes every 50. An edge on
CLAIM_IN starts the block, and takes a CLAIMING head back to the role it came from, or from OFF on to LISTEN while
TRG.PCTL asks for a plan (the model's reading, log 170), with CONCNT, IRQS bit 3 and CLAIM_CONTEST. The block ends 400
SFB cycles after the edge, 800 at head B after a lost contest; a standby with a standing request and PCFG bit 1 then
claims. 100 SFB cycles in CLAIMING with no edge end in ACTIVE with RSPEND on every ring and, by claim, TAKEOVER. At
t_CC + 200 ns a STANDBY has a claim request where its period was quiet or the active's last tie beacon carried HOVR.
An ACTIVE head in its second quiet period yields to OFF. LISTEN ends 100 ms after its lanes were lit. Elsewhere each
changes nothing. (Derived from: 11_head_pairing.md: R352, R353, R355, R365, R366, R367.) -/
def Obligations.PairRoles : Prop :=
  (∀ (s : State), s.writable 0x88 = true →
    (s.paired = true → s.role = 4 → s.regF R.HPR.PEER 0 3 = 2 → s.regB R.HPR.PEER 3 = true →
      exec .hcmdHandover s = .next { s with pair := { s.pair with handover := true } }) ∧
    ((s.paired = false ∨ s.role ≠ 4 ∨ s.regF R.HPR.PEER 0 3 ≠ 2 ∨ s.regB R.HPR.PEER 3 = false) →
      exec .hcmdHandover s = .next (s.irq 0x88 5)) ∧
    ((s.paired = false ∨ s.role = 0) → exec .hcmdLeave s = .next s) ∧
    (s.paired = true → s.role ≠ 0 → ∃ t, exec .hcmdLeave s = .next t ∧ t.role = 0 ∧ t.regB R.HPR.HSTA 5 = false ∧
      t.regB R.HPR.HSTA 6 = false ∧ t.regF (R.PSTA 0x88) 16 3 = 0 ∧ t.regB (R.IRQS 0x88) 0 = true ∧
      (2 ≤ s.role ∨ (s.role = 1 ∧ s.pair.litAt ≠ none) →
        (∀ n ∈ s.ringLanes, (t.lane n).lit = false) ∧ t.out = s.ringLanes.map fun n => .dark n s.dt64) ∧
      (s.role = 1 → s.pair.litAt = none → t.out = s.out ∧ t.lanes = s.lanes) ∧ t.pair = { s.pair with litAt := none } ∧
      (s.role = 4 → ∀ k < 12, (t.ll k).side = none ∧ (t.ll k).loaded = {}) ∧
      regsBut s t [R.HPR.HSTA, R.PSTA 0x88, R.IRQS 0x88] ∧
      (s.scribe.resetDue = none → t.scribe = s.scribe) ∧
      t = { s with regs := t.regs, lanes := t.lanes, out := t.out, loc := t.loc, pair := t.pair, scribe := t.scribe }) ∧
    ((s.paired = false ∨ s.role ≠ 0) → exec .hcmdJoin s = .next s) ∧
    (s.paired = true → s.role = 0 → ∃ t, exec .hcmdJoin s = .next t ∧ t.role = 1 ∧ t.regB (R.IRQS 0x88) 0 = true ∧
      regsBut s t [R.HPR.HSTA, R.PSTA 0x88, R.IRQS 0x88] ∧
      (s.scribe.resetDue = none → t.scribe = s.scribe) ∧
      t = { s with regs := t.regs, pair := { s.pair with litAt := none }, scribe := t.scribe })) ∧
  (∀ (s : State),
    ((s.paired = false ∨ s.role ≠ 3) → exec .claimInEdge s =
      .next ({ s with pair := { s.pair with edgeAt := s.dt64 } }.setB R.HPR.HSTA 4 true)) ∧
    (s.paired = true → s.role = 3 → s.pair.from_ < 3 → ∃ t, exec .claimInEdge s = .next t ∧
      t.role = (if s.pair.from_ = 0 ∧ s.enabled 9 = true ∧ s.regB (R.PCTL 9) 2 = false then 1 else s.pair.from_) ∧
      t.regB R.HPR.HSTA 4 = true ∧ t.regB R.HPR.HSTA 5 = false ∧
      t.regF R.HPR.CONCNT 0 16 = satInc 16 (s.regF R.HPR.CONCNT 0 16) ∧ t.regB (R.IRQS 0x88) 3 = true ∧
      s.raised t Src.CLAIM_CONTEST 0x88 ∧ t.pair = { s.pair with edgeAt := s.dt64, lost := true, init := false, litAt := none } ∧
      regsBut s t [R.HPR.HSTA, R.PSTA 0x88, R.IRQS 0x88, R.HPR.CONCNT] ∧
      t = { s with regs := t.regs, pair := t.pair, scribe := t.scribe, lanes := t.lanes, out := t.out }) ∧
    (s.regB R.HPR.HSTA 4 = false → exec .claimBlockEnd s = .next s) ∧
    (s.regB R.HPR.HSTA 4 = true → ∀ claim : Bool,
      claim = (s.paired && s.role = 2 && s.pair.request && s.regB R.HPR.PCFG 1) → ∃ t, exec .claimBlockEnd s = .next t ∧
      t.dt64 = (s.reach (s.pair.edgeAt + (if s.hid = 1 ∧ s.pair.lost then 128000 else 64000))).dt64 ∧
      t.regB R.HPR.HSTA 4 = false ∧ t.role = (if claim then 3 else s.role) ∧
      (claim = true → t.regB R.HPR.HSTA 5 = true ∧ t.pair = { s.pair with claimAt := t.dt64, from_ := 2, init := false, litAt := none }) ∧
      (claim = false → t.pair = s.pair) ∧
      regsBut s t [R.HPR.HSTA, R.PSTA 0x88, R.IRQS 0x88] ∧ ((claim = false ∨ s.scribe.resetDue = none) → t.scribe = s.scribe) ∧
      t = { s with regs := t.regs, dt64 := t.dt64, pair := t.pair, scribe := t.scribe }) ∧
    ((s.paired = false ∨ s.role ≠ 3) → exec .contestWindowEnd s = .next s) ∧
    (s.paired = true → s.role = 3 → ∃ t, exec .contestWindowEnd s = .next t ∧
      t.dt64 = (s.reach (s.pair.claimAt + 16000)).dt64 ∧ t.role = 4 ∧ t.regB R.HPR.HSTA 5 = true ∧
      (∀ k ∈ s.ringsInMap, t.regB (R.RNG.RSTA k) 4 = true) ∧ t.pair.request = false ∧ t.pair.lost = false ∧
      (s.pair.init = false → t.regF R.HPR.TKCNT 0 16 = satInc 16 (s.regF R.HPR.TKCNT 0 16) ∧
        (t.scribe.inflight.any fun f => f.src == Src.TAKEOVER && f.page == 0x88) = true ∧
        t.pset.cold = !s.regB R.HPR.HSTA 6) ∧
      (s.pair.init = true → t.reg R.HPR.TKCNT = s.reg R.HPR.TKCNT ∧ t.pset.cold = false) ∧ t.mem = s.mem ∧ t.plan = s.plan) ∧
    ((s.paired = false ∨ s.role ≠ 2 ∨ s.plan.started = false) → exec .claimRequest s = .next s) ∧
    (s.paired = true → s.role = 2 → s.plan.started = true → ∀ want : Bool,
      want = (s.pair.request || s.pair.beacon.any (fun b => b.role == 4 && b.hovr) || (!s.copyNow && !(s.beaconNow.any fun b => b.role == 4))) →
      ∀ claim : Bool, claim = (want && s.regB R.HPR.PCFG 1 && !s.regB R.HPR.HSTA 4) →
      ∃ t, exec .claimRequest s = .next t ∧
      t.dt64 = (s.reach (s.plan.start + s.plan.per - s.regF R.TRG.TCC 0 20 + 3200)).dt64 ∧ t.pair.request = want ∧
      t.role = (if claim then 3 else 2) ∧ t.regB R.HPR.HSTA 5 = (claim || s.regB R.HPR.HSTA 5) ∧
      regsBut s t [R.HPR.HSTA, R.PSTA 0x88, R.IRQS 0x88] ∧ ((claim = false ∨ s.scribe.resetDue = none) → t.scribe = s.scribe) ∧
      t = { s with regs := t.regs, dt64 := t.dt64, pair := t.pair, scribe := t.scribe }) ∧
    (∀ yields : Bool, yields = (s.paired && s.role = 4 && s.plan.started && s.regB R.HPR.PCFG 4 && !s.pair.rlyRx &&
        s.beaconNow.any (fun b => b.role == 2) && Nat.ble 1 s.pair.quiet) →
      (yields = false → exec .pairYield s = .next s) ∧
      (yields = true → ∃ t, exec .pairYield s = .next t ∧ t.role = 0 ∧ t.regB R.HPR.HSTA 5 = false ∧
        t.dt64 = (s.reach (s.plan.start + s.plan.per - s.regF R.TRG.TCC 0 20 + 3200)).dt64 ∧
        s.raised t Src.PAIR_YIELD 0x88 ∧ (∀ n ∈ s.ringLanes, (t.lane n).lit = false) ∧
        (∀ k < 12, (t.ll k).side = none) ∧ regsBut s t [R.HPR.HSTA, R.PSTA 0x88, R.IRQS 0x88] ∧
        t = { s with regs := t.regs, dt64 := t.dt64, scribe := t.scribe, lanes := t.lanes, out := t.out, loc := t.loc,
                     pair := { s.pair with litAt := none } })) ∧
    (∀ j r : Nat, r < 8000 → s.claimOut (s.pair.claimAt + 8000 * j + r) = (s.regB R.HPR.HSTA 5 && decide (j % 2 = 0))) ∧
    ((s.pair.litAt = none ∨ s.paired = false ∨ s.role ≠ 1) → exec .listenTimeout s = .next s) ∧
    (∀ x, s.pair.litAt = some x → s.paired = true → s.role = 1 → ∃ t, exec .listenTimeout s = .next t ∧
      t.dt64 = (s.reach (x + 1600000000)).dt64 ∧ t.role = 2 ∧ (∀ n ∈ s.ringLanes, (t.lane n).lit = true) ∧
      regsBut s t [R.HPR.HSTA, R.PSTA 0x88, R.IRQS 0x88] ∧
      (s.scribe.resetDue = none → t.scribe = s.scribe) ∧
      t = { s with regs := t.regs, dt64 := t.dt64, lanes := t.lanes, pair := { s.pair with litAt := none }, scribe := t.scribe }))

/-- ACTIVE_COPY_RELAY at a standby with its plan started and HPR running: a copy whose start lies 800 ns to 20 ns before
R_k leaves at R_k with DIR inverted, HID the standby's and RELAY 1, with its CRC made anew, or cut where it arrived
damaged; one outside the window is counted in RLYLATE. A valid copy is held, and ends a claim request unless the
active's last tie beacon carries HOVR; a relayed RESYNC that the standby's own framing asked for too clears its RSPEND
(the model's reading, log 171). RELAY_SUBST at R_k of an ARMED standby with no copy relayed sends its own frame so
marked, with the RESYNC of its framing, sets SUBMAP and raises RELAY_SUBST. TWIN_DIVERGE in a compared period counts
DIVCNT once, and at an ARMED standby records index, ring and byte, raises TWIN_DIVERGE, sets IRQS bit 1 and clears
ARMED. RELAYED_COPY_RX at the active notes a relayed command copy of the next period by t_CC + 200 ns. Elsewhere
nothing changes. (Derived from: 11_head_pairing.md: R357, R358, R359, R360, R366.) -/
def Obligations.RelayAndComparison : Prop :=
  ∀ (s : State),
    (∀ (ring : Fin 32) (f : RxFrame),
      ((s.paired = false ∨ s.role = 4 ∨ s.role = 0) → exec (.activeCopyRelay ring f) s = .next s) ∧
      (∀ n, s.rxLane ring.val (!s.ownDir) = some n → s.laneUp n = false → exec (.activeCopyRelay ring f) s = .next s) ∧
      (∀ n, s.rxLane ring.val (!s.ownDir) = some n → s.laneUp n = true → s.paired = true → s.role ≠ 4 → s.role ≠ 0 →
        ∀ g, g = { f with intact := f.intact && !(s.lane n).drop } →
        (frameType g.bytes ≠ 1 → ∃ t, exec (.activeCopyRelay ring f) s = .next t ∧ t = { s with lanes := t.lanes }) ∧
        (frameType g.bytes = 1 → ∀ relays : Bool, relays = (s.role = 2 && s.plan.started && s.hprRuns) →
          ∀ inWin : Bool, inWin = (decide ((s.relayAt ring.val : Int) - 12800 ≤ sofStamp g) &&
            decide (sofStamp g ≤ (s.relayAt ring.val : Int) - 320)) → ∃ t, exec (.activeCopyRelay ring f) s = .next t ∧
          (relays = true → inWin = true → ∀ body, body = relayHeader g.bytes s.hid ++ framePayload g.bytes →
            t.pair.relayed.testBit ring.val = true ∧ t.reg R.HPR.RLYLATE = s.reg R.HPR.RLYLATE ∧
            ∀ m, s.txLane ring.val s.ownDir = some m → s.laneUp m = true →
              t.out = if wireOk g then [.exl m (s.relayAt ring.val) (body ++ natLe 4 (crc32 body))]
                else [.cut m (s.relayAt ring.val) body]) ∧
          (relays = true → inWin = false → t.regF R.HPR.RLYLATE 0 16 = satInc 16 (s.regF R.HPR.RLYLATE 0 16) ∧ t.out = s.out) ∧
          (relays = false → t.out = s.out ∧ t.pair.relayed = s.pair.relayed ∧ t.reg R.HPR.RLYLATE = s.reg R.HPR.RLYLATE) ∧
          (frameCheck ring.val (!s.ownDir) g = none →
            NMap.get none t.pair.copies ring.val = some (framePidx g.bytes, framePayload g.bytes) ∧
            t.pair.request = (s.pair.request && s.pair.beacon.any fun b => b.role == 4 && b.hovr) ∧
            regsBut s t [R.HPR.RLYLATE, R.RNG.RSTA ring.val, R.IRQS (0x30 + ring.val)]) ∧
          (relays = true → inWin = true → wireOk g = true → (s.txLane ring.val s.ownDir).any s.laneUp = true →
            (byteAt g.bytes 6).testBit 4 = true → (s.ownFrame ring.val).1 = true → t.regB (R.RNG.RSTA ring.val) 4 = false) ∧
          (∀ a, { NMap.get ({} : CellRx) t.cells a with srsync := false } = { NMap.get ({} : CellRx) s.cells a with srsync := false }) ∧
          (relays = false ∨ inWin = false → t.cells = s.cells ∧ t.reg (R.RNG.RSTA ring.val) = s.reg (R.RNG.RSTA ring.val)) ∧
          (∀ off, frameCheck ring.val (!s.ownDir) g = some off → t.pair.copies = s.pair.copies ∧
            t.regF ((0x30 + ring.val) * 0x1000 + off) 0 16 = satInc 16 (s.regF ((0x30 + ring.val) * 0x1000 + off) 0 16)) ∧
          t = { s with regs := t.regs, lanes := t.lanes, out := t.out, pair := t.pair, rings := t.rings, scribe := t.scribe,
                       cells := t.cells }))) ∧
    (∀ (ring : Fin 32), ∀ own, own = s.ownFrame ring.val →
      ∀ subst : Bool, subst = (s.paired && s.role = 2 && s.plan.started && !s.restoring && s.hprRuns && !s.pair.relayed.testBit ring.val &&
        !s.pair.subst.testBit ring.val && s.regB R.HPR.PCFG 3 && s.regB R.HPR.HSTA 6 &&
        s.beaconNow.any (fun b => b.role == 4) && !own.2.isEmpty) →
      (subst = false → exec (.relaySubst ring) s = .next s) ∧
      (subst = true → ∃ t, exec (.relaySubst ring) s = .next t ∧ t.dt64 = (s.reach (s.relayAt ring.val)).dt64 ∧
        t.pair.subst.testBit ring.val = true ∧ t.regB R.HPR.SUBMAP ring.val = true ∧ s.raised t Src.RELAY_SUBST 0x88 ∧
        t.out = s.exlOut ring.val s.ownDir (s.relayAt ring.val)
          (frameOf (relayHeader (s.header 1 ring.val (!s.ownDir) own.2.length s.nextPidx own.1) s.hid) own.2) ∧
        ((s.txLane ring.val s.ownDir).any s.laneUp = true → own.1 = true → t.regB (R.RNG.RSTA ring.val) 4 = false) ∧
        (∀ a, { NMap.get ({} : CellRx) t.cells a with srsync := false } = { NMap.get ({} : CellRx) s.cells a with srsync := false }) ∧
        regsBut s t [R.HPR.SUBMAP, R.RNG.RSTA ring.val, R.IRQS (0x30 + ring.val)] ∧
        t = { s with regs := t.regs, dt64 := t.dt64, lanes := t.lanes, out := t.out, pair := t.pair, scribe := t.scribe,
                     cells := t.cells })) ∧
    ((s.pair.diff = none ∨ s.pair.diffDone = true ∨ s.compared = false) → exec .twinDiverge s = .next s) ∧
    (∀ d, s.pair.diff = some d → s.pair.diffDone = false → s.compared = true → ∃ t, exec .twinDiverge s = .next t ∧
      t.regF R.HPR.DIVCNT 0 16 = satInc 16 (s.regF R.HPR.DIVCNT 0 16) ∧
      t.pair = { s.pair with diffDone := true, cmpBad := true } ∧ t.regB R.HPR.HSTA 6 = false ∧
      (s.regB R.HPR.HSTA 6 = true → t.reg R.HPR.DIVPIDX = wd s.nextPidx ∧ t.reg R.HPR.DIVPOS = wd (d.1 + d.2 * 65536) ∧
        t.regB (R.IRQS 0x88) 1 = true ∧ t.regB (R.IRQS 0x88) 2 = true ∧ s.raised t Src.TWIN_DIVERGE 0x88) ∧
      (s.regB R.HPR.HSTA 6 = false → regsBut s t [R.HPR.DIVCNT] ∧ t.scribe = s.scribe) ∧
      regsBut s t [R.HPR.DIVCNT, R.HPR.DIVPIDX, R.HPR.DIVPOS, R.HPR.HSTA, R.IRQS 0x88] ∧
      t = { s with regs := t.regs, pair := t.pair, scribe := t.scribe }) ∧
    (∀ (ring : Fin 32) (f : RxFrame),
      ((s.paired = false ∨ s.role ≠ 4) → exec (.relayedCopyRx ring f) s = .next s) ∧
      (∀ n, s.rxLane ring.val (!s.ownDir) = some n → s.laneUp n = false → exec (.relayedCopyRx ring f) s = .next s) ∧
      (∀ n, s.rxLane ring.val (!s.ownDir) = some n → s.laneUp n = true → s.paired = true → s.role = 4 →
        ∀ g, g = { f with intact := f.intact && !(s.lane n).drop } → ∃ t, exec (.relayedCopyRx ring f) s = .next t ∧
        (∀ off, frameCheck ring.val (!s.ownDir) g = some off → t.pair = s.pair ∧
          t.regF ((0x30 + ring.val) * 0x1000 + off) 0 16 = satInc 16 (s.regF ((0x30 + ring.val) * 0x1000 + off) 0 16)) ∧
        (frameCheck ring.val (!s.ownDir) g = none → t.regs = s.regs ∧ t.scribe = s.scribe ∧
          t.pair = { s.pair with rlyRx := s.pair.rlyRx || (frameType g.bytes = 1 && frameRelay g.bytes &&
            framePidx g.bytes = s.nextPidx &&
            decide (eofStamp g ≤ ((s.plan.start + s.plan.per - s.regF R.TRG.TCC 0 20 + 3200 : Nat) : Int))) }) ∧
        t = { s with regs := t.regs, lanes := t.lanes, pair := t.pair, rings := t.rings, scribe := t.scribe }))

/-- A frame of the right TYPE that passes R157 on the tie lane, UP: a tie beacon of 16 bytes gives PEER and is held as the
last one; a Jig state frame of 260 bytes is held by a head that is not ACTIVE; a tie ranging frame that returns to its
sender yields e = ((t1 − t2) + (t4 − t3)) / 2 in TOFS; the ACTIVE head returns one with its stamps. A frame that
fails, or on a lane that is not UP, changes at most the lane's discard mark. The ACTIVE head sends one Jig state frame
after t_ML; an ACTIVE or STANDBY head sends its first TIEN slots taken from cell nodes' copies at S(n) + t_XL, the
rest counted in TIEDROP; a head that is not ACTIVE sends a ranging frame once a millisecond; the oldest ranging
payload received goes to the peer. TIE_LOST clears ARMED and raises TIE_LOST. (Derived from: 11_head_pairing.md: R350,
R360, R361, R362, R363, R368, 04_exl_lanes.md: R129.) -/
def Obligations.TieFrames : Prop :=
  ∀ (s : State),
    (∀ (f : RxFrame),
      ((s.paired = false ∨ s.laneUp s.tieLane = false) → exec (.tieBeaconRx f) s = .next s ∧ exec (.jigStateRx f) s = .next s ∧
        exec (.tieSlotsRx f) s = .next s ∧ exec (.tieRangingRx f) s = .next s ∧ exec (.rangingCopyRx f) s = .next s ∧
        (∀ l : Nat, exec (.tieRangingEcho f l) s = .next s)) ∧
      (s.paired = true → s.laneUp s.tieLane = true → ∀ g, g = { f with intact := f.intact && !(s.lane s.tieLane).drop } →
        ∀ ok : Bool, ok = (frameCheck (frameRing g.bytes) (frameRev g.bytes) g).isNone →
        ∀ pl, pl = framePayload g.bytes → ∀ s0, s0 = (if (s.lane s.tieLane).drop then
            s.setLane s.tieLane { s.lane s.tieLane with drop := false } else s) →
        ((ok = false ∨ frameType g.bytes ≠ 3 ∨ pl.length ≠ 16) → exec (.tieBeaconRx f) s = .next s0) ∧
        (ok = true → frameType g.bytes = 3 → pl.length = 16 → ∃ t, exec (.tieBeaconRx f) s = .next t ∧
          (t.reg R.HPR.PEER).fld 0 5 = (byteAt pl 15) % 32 ∧ (t.reg R.HPR.PEER).fld 16 16 = framePidx g.bytes ∧
          t.pair.beacon = some (parseBeacon g.bytes) ∧ t.pair.tieLost = false ∧ t.regB R.HPR.HSTA 7 = true ∧
          t.dt64 = s.dt64 ∧ t.mem = s.mem) ∧
        ((ok = false ∨ frameType g.bytes ≠ 1 ∨ pl.length ≠ 260 ∨ s.role = 4) → exec (.jigStateRx f) s = .next s0) ∧
        (ok = true → frameType g.bytes = 1 → pl.length = 260 → s.role ≠ 4 →
          exec (.jigStateRx f) s = .next { s0 with pair := { s.pair with jig := pl.take 257 } }) ∧
        ((ok = false ∨ frameType g.bytes ≠ 2 ∨ s.plan.started = false ∨ framePidx g.bytes ≠ s.regN R.TRG.PIDX) →
          exec (.tieSlotsRx f) s = .next s0) ∧
        (ok = true → frameType g.bytes = 2 → ∃ t, exec (.tieSlotsRx f) s = .next t ∧ t.dt64 = s.dt64 ∧ t.pair = s.pair ∧
          ∀ a, a ∉ s.ringAddrs ∨ (NMap.get {} s.cells a).copy ≠ none → NMap.get {} t.cells a = NMap.get {} s.cells a) ∧
        ((ok = false ∨ frameType g.bytes ≠ 4 ∨ s.role ≠ 4 ∨ pl.length ≠ 16) → ∀ l : Nat, exec (.tieRangingEcho f l) s = .next s0) ∧
        (ok = true → frameType g.bytes = 4 → s.role = 4 → pl.length = 16 → ∀ l : Nat,
          ∃ t, exec (.tieRangingEcho f l) s = .next t ∧
          (∃ b, OutFrame.exl s.tieLane (s.tieFree (if l < f.eof then f.eof else Nat.min l (f.sof + 160000)) 28) b ∈ t.out ∧
            frameType b = 4 ∧ framePidx b = framePidx g.bytes ∧
            framePayload b = pl.take 8 ++ natLe 4 (bitsOfInt 32 (sofStamp g)) ++
              natLe 4 (bitsOfInt 32 (txStamp (s.tieFree (if l < f.eof then f.eof else Nat.min l (f.sof + 160000)) 28) 0))) ∧
          t = { s with lanes := t.lanes, out := t.out, dt64 := t.dt64 }) ∧
        ((ok = false ∨ frameType g.bytes ≠ 4 ∨ s.pair.tieRange = none ∨ s.role = 4 ∨ pl.length ≠ 16) →
          exec (.tieRangingRx f) s = .next s0) ∧
        (ok = true → frameType g.bytes = 4 → s.role ≠ 4 → pl.length = 16 → s.pair.tieRange = some (leAt pl 0 8) →
          s.dstate ≠ 4 → ∀ e, e = freeRound (dt32Diff (leAt pl 0 8 % 2 ^ 32) (leAt pl 8 4) +
            dt32Diff (bitsOfInt 32 (sofStamp g)) (leAt pl 12 4)) 2 →
          ∃ t, exec (.tieRangingRx f) s = .next t ∧ t.pair.tieRange = none ∧ t.reg R.HPR.TOFS = wdInt (satSym e) ∧
          t.reg R.DTM.OFFS = wdInt (satSym e) ∧
          (s.role = 2 → s.regN R.DTM.STEPLIM < e.natAbs → t.role = 1 ∧ t.regB R.HPR.HSTA 9 = false ∧ t.plan.run = false) ∧
          t.mem = s.mem ∧ t.cells = s.cells) ∧
        ((ok = false ∨ frameType g.bytes ≠ 5 ∨ pl.length ≠ 8 + 8 * s.ringCells (frameRing g.bytes) ∨
            s.ringCells (frameRing g.bytes) = 0) → exec (.rangingCopyRx f) s = .next s0) ∧
        (ok = true → frameType g.bytes = 5 → pl.length = 8 + 8 * s.ringCells (frameRing g.bytes) →
          s.ringCells (frameRing g.bytes) ≠ 0 → ∃ t, exec (.rangingCopyRx f) s = .next t ∧
          (t.trv (frameRing g.bytes) (frameRev g.bytes)).lost = 0 ∧ t.dt64 = s.dt64 ∧ t.mem = s.mem))) ∧
    (∀ at_, at_ = s.dt64 → ∀ launch : Nat,
      (∀ sends : Bool, sends = (s.paired && s.role = 4 && s.plan.started && s.plan.pastML && !s.pair.jigSent) →
        (sends = false → exec (.jigStateTx launch) s = .next s) ∧
        (sends = true → ∃ t, exec (.jigStateTx launch) s = .next t ∧ t.pair = { s.pair with jigSent := true } ∧
          t.dt64 = (s.reach (s.tieFree launch 272)).dt64 ∧
          t.out = (if s.laneUp s.tieLane then [.exl s.tieLane (s.tieFree launch 272) (s.tieFrame 1 0 false s.nextPidx
            ((List.range 256).map (fun j => if s.inMap j then BitVec.ofNat 8 ((s.inst j).st % 64) else (0 : Byte)) ++
              [BitVec.ofNat 8 ((s.inst stackInst).st % 64), 0, 0, 0]))] else []) ∧
          t = { s with pair := t.pair, dt64 := t.dt64, lanes := t.lanes, out := t.out })) ∧
      (∀ sends : Bool, sends = (s.paired && s.role ≠ 4 && s.laneUp s.tieLane &&
          Nat.blt s.pair.tieMs (s.tieFree launch 28 / 16000000 + 1)) →
        (sends = false → exec (.tieRangingTx launch) s = .next s) ∧
        (sends = true → ∃ t, exec (.tieRangingTx launch) s = .next t ∧ t.dt64 = (s.reach (s.tieFree launch 28)).dt64 ∧
          t.pair = { s.pair with tieRange := some (bitsOfInt 64 (txStamp (s.tieFree launch 28) 0)),
                                 tieMs := s.tieFree launch 28 / 16000000 + 1 } ∧
          t.out = [.exl s.tieLane (s.tieFree launch 28) (s.tieFrame 4 0 false (s.regN R.TRG.PIDX)
            (natLe 8 (bitsOfInt 64 (txStamp (s.tieFree launch 28) 0)) ++ zeros 8))] ∧
          t = { s with pair := t.pair, dt64 := t.dt64, lanes := t.lanes, out := t.out })) ∧
      ((s.paired = false ∨ s.pair.rangeFwd = []) → exec (.rangingCopyTx launch) s = .next s) ∧
      (s.paired = true → ∀ x rest, s.pair.rangeFwd = x :: rest → ∃ t, exec (.rangingCopyTx launch) s = .next t ∧
        t.pair = { s.pair with rangeFwd := rest } ∧ t.dt64 = (s.reach (s.tieFree launch (12 + x.2.2.2.length))).dt64 ∧
        t.out = (if s.laneUp s.tieLane then
          [.exl s.tieLane (s.tieFree launch (12 + x.2.2.2.length)) (s.tieFrame 5 x.1 x.2.1 x.2.2.1 x.2.2.2)] else []) ∧
        t = { s with pair := t.pair, dt64 := t.dt64, lanes := t.lanes, out := t.out })) ∧
    (∀ sends : Bool, sends = (s.paired && s.plan.started && (s.role = 2 || s.role = 4) && !s.pair.slotsTx) →
      (sends = false → exec .tieSlotsTx s = .next s) ∧
      (sends = true → ∀ at_, at_ = s.plan.start + s.regF R.HPR.TXL 0 20 → ∀ slots, slots = (s.ringAddrs.mergeSort).filterMap
          (fun a => ((NMap.get ({} : CellRx) s.cells a).copy.filter (·.node)).map (·.bytes)) →
        ∃ t, exec .tieSlotsTx s = .next t ∧ t.pair = { s.pair with slotsTx := true } ∧ t.dt64 = (s.reach at_).dt64 ∧
        t.regF R.HPR.TIEDROP 0 16 =
          Nat.min 65535 (s.regF R.HPR.TIEDROP 0 16 + (slots.length - s.regF R.HPR.TIEN 0 5)) ∧
        ((slots.take (s.regF R.HPR.TIEN 0 5)).flatten ≠ [] → t.out = if s.laneUp s.tieLane then
          [.exl s.tieLane at_ (s.tieFrame 2 0 false (s.regN R.TRG.PIDX) (slots.take (s.regF R.HPR.TIEN 0 5)).flatten)]
          else []) ∧
        regsBut s t [R.HPR.TIEDROP] ∧
        t = { s with regs := t.regs, pair := t.pair, dt64 := t.dt64, lanes := t.lanes, out := t.out })) ∧
    (∀ up, up = s.laneUp s.tieLane → ∀ down : Bool, down = (if s.regB R.HPR.HSTA 7 = up then s.pair.tieDown else !up) →
      ∀ lost : Bool, lost = (down || (!s.pair.tieLost && s.plan.started && s.pair.beacon.isSome && Nat.ble 3 s.pair.missed)) →
      (s.paired = false → exec .tieLost s = .next s) ∧
      (s.paired = true → ∃ t, exec .tieLost s = .next t ∧ t.regB R.HPR.HSTA 7 = up ∧
        (s.regB R.HPR.HSTA 7 ≠ up → t.regB (R.IRQS 0x88) 4 = true) ∧
        (lost = true → t.pair = { s.pair with tieLost := true, tieDown := false, cmpBad := true } ∧
          t.regB R.HPR.HSTA 6 = false ∧ s.raised t Src.TIE_LOST 0x88) ∧
        (lost = false → t.scribe = s.scribe ∧ t.regB R.HPR.HSTA 6 = s.regB R.HPR.HSTA 6 ∧
          t.pair = { s.pair with tieDown := down }) ∧
        regsBut s t [R.HPR.HSTA, R.IRQS 0x88] ∧ t = { s with regs := t.regs, pair := t.pair, scribe := t.scribe }))

/-- TRIP_ACTIVE, no earlier than a filter time after the last change of each input that changes: the inputs read active;
an enabled one newly active latches every channel it maps that is not blanked and switches it off, sets TACT and its
IRQS bit; at a blanked leg it leaves a mark and IRQS bit 1. TRIP_INACTIVE: the input reads inactive; a chopper latch
set only by CYCLE inputs that are all inactive releases, others stay. BLANKING_END at the end of a leg's window: a
mark whose input is still active latches the leg, one whose input is inactive is dropped with MASKED_TRIP. A write of
TLATCH clears a named latch that no active input holds, else sets IRQS bit 4. LEG_TRANSITION at the next transition of
a leg's entry: one land falls, the other rises when its partner has been low for the dead time; a latched leg, or one
with no transition left, stays as it is. Nothing else changes. (Derived from: 12_local_bridges_and_trips.md: R371,
R378, R379, R380, R381, R383, R384.) -/
def Obligations.TripsAndBlanking : Prop :=
  ∀ (s : State),
    (∀ (ins : BitVec 12),
      ∀ z, z = s.filterChange ((List.range 12).filter fun n => ins.toNat.testBit n && !s.regB R.TRP.TIN n) →
      ∃ t, exec (.tripActive ins) s = .next t ∧ t.dt64 = z.dt64 ∧
      (∀ n < 12, t.regB R.TRP.TIN n = (ins.toNat.testBit n || s.regB R.TRP.TIN n)) ∧
      (∀ n < 12, ins.toNat.testBit n = true → s.regB R.TRP.TIN n = false → s.regB (R.TRP.TCFG n) 5 = true →
        ∀ ch < 14, s.regB (R.TRP.TMAP n) ch = true →
        ((ch < 12 → z.blanked ch = false) → t.regB R.LBR.TLATCH ch = true ∧ t.regB R.TRP.TACT n = true ∧
          t.regB (R.IRQS 0x79) n = true ∧ (ch < 12 → (t.ll ch).side = none ∧ t.regB (R.PSTA 0x78) (16 + ch) = true) ∧
          (12 ≤ ch → (t.chopper (ch - 12)).on = false)) ∧
        (ch < 12 → z.blanked ch = true → s.regB R.LBR.TLATCH ch = false → t.regB R.LBR.TLATCH ch = false ∧
          (t.ll ch).mark.testBit n = true ∧ (t.ll ch).side = (s.ll ch).side ∧ t.regB (R.IRQS 0x78) 1 = true)) ∧
      (∀ ch < 14, s.regB R.LBR.TLATCH ch = true → t.regB R.LBR.TLATCH ch = true) ∧
      regsBut s t [R.TRP.TIN, R.TRP.TACT, R.TRP.TLAST, R.TRP.TLASTT, R.LBR.TLATCH, R.LBR.TRIPCNT, R.LBR.MASKCNT,
        R.IRQS 0x78, R.IRQS 0x79, R.PSTA 0x78] ∧ t = { s with dt64 := t.dt64, regs := t.regs, loc := t.loc, scribe := t.scribe }) ∧
    (∀ (n : Fin 12), ∃ t, exec (.tripInactive n) s = .next t ∧ t.regB R.TRP.TIN n.val = false ∧
      t.dt64 = (if s.regB R.TRP.TIN n.val then s.filterChange [n.val] else s).dt64 ∧
      (∀ m < 12, m ≠ n.val → t.regB R.TRP.TIN m = s.regB R.TRP.TIN m) ∧
      (∀ ch < 12, t.regB R.LBR.TLATCH ch = s.regB R.LBR.TLATCH ch) ∧
      (∀ c < 2, s.regB R.LBR.TLATCH (12 + c) = true →
        ∀ free : Bool, free = ((List.range 12).filter fun i => (s.chopper c).by_.testBit i).all (fun i =>
          s.regB (R.TRP.TCFG i) 4 && (i == n.val || !s.regB R.TRP.TIN i)) → t.regB R.LBR.TLATCH (12 + c) = !free) ∧
      regsBut s t [R.TRP.TIN, R.LBR.TLATCH] ∧ t = { s with dt64 := t.dt64, regs := t.regs, loc := t.loc }) ∧
    (∀ (k : Fin 12),
      ((s.ll k.val).blank = none → exec (.blankingEnd k) s = .next s) ∧
      (∀ w, (s.ll k.val).blank = some w → (s.reach w.2).blanked k.val = false → ∃ t, exec (.blankingEnd k) s = .next t ∧
        t.dt64 = (s.reach w.2).dt64 ∧ (t.ll k.val).blank = none ∧ (t.ll k.val).mark = 0 ∧
        ((s.ll k.val).mark &&& s.regN R.TRP.TIN ≠ 0 → t.regB R.LBR.TLATCH k.val = true ∧ (t.ll k.val).side = none ∧
          t.regB (R.PSTA 0x78) (16 + k.val) = true) ∧
        ((s.ll k.val).mark ≠ 0 → (s.ll k.val).mark &&& s.regN R.TRP.TIN = 0 →
          t.regB R.LBR.TLATCH k.val = s.regB R.LBR.TLATCH k.val ∧
          (t.scribe.inflight.any fun f => f.src == Src.MASKED_TRIP && f.page == 0x78) = true) ∧
        t = { s with dt64 := t.dt64, regs := t.regs, loc := t.loc, scribe := t.scribe }) ∧
      (∀ stays : Bool, stays = ((s.legNext k.val).isNone || s.regB R.LBR.TLATCH k.val || (s.ll k.val).tripped) →
        stays = true → exec (.legTransition k) s = .next s) ∧
      (∀ o, s.legNext k.val = some o → s.regB R.LBR.TLATCH k.val = false → (s.ll k.val).tripped = false →
        ∀ at_, at_ = (s.ll k.val).start + o → ∀ td, td = Nat.min (s.regF (R.LBR.LTIM k.val) 0 16) 64000 →
        ∀ lv, lv = entryLevel (s.ll k.val).loaded o → ∃ t, exec (.legTransition k) s = .next t ∧
        t.dt64 = (s.reach at_).dt64 ∧ (t.ll k.val).cur = o ∧ (t.ll k.val).side = lv ∧
        (lv = (s.ll k.val).side → (t.ll k.val).hi = (s.ll k.val).hi ∧ (t.ll k.val).lo = (s.ll k.val).lo) ∧
        (lv = some true → lv ≠ (s.ll k.val).side → (t.ll k.val).lo = (s.ll k.val).lo.fall at_ (s.legEdge k.val) ∧ (t.ll k.val).hi.edge = s.legEdge k.val ∧
          (t.ll k.val).hi.up = some (if (t.ll k.val).lo.low + td ≤ at_ then at_ else at_ + td) ∧ (t.ll k.val).hi.down = none) ∧
        (lv = some false → lv ≠ (s.ll k.val).side → (t.ll k.val).hi = (s.ll k.val).hi.fall at_ (s.legEdge k.val) ∧ (t.ll k.val).lo.edge = s.legEdge k.val ∧
          (t.ll k.val).lo.up = some (if (t.ll k.val).hi.low + td ≤ at_ then at_ else at_ + td) ∧ (t.ll k.val).lo.down = none) ∧
        (lv = none → (t.ll k.val).hi = (s.ll k.val).hi.fall at_ (s.legEdge k.val) ∨ (t.ll k.val).hi = (s.ll k.val).hi) ∧
        (lv ≠ none → (s.ll k.val).side ≠ none → lv ≠ (s.ll k.val).side → (s.ll k.val).blank = none →
          ∀ blk, blk = Nat.min (s.regN (R.LBR.LBLK k.val)) 64000 → blk ≠ 0 →
          (t.ll k.val).blank = some (dtmCeil at_, dtmCeil (at_ + td + blk))) ∧
        (∀ j < 12, j ≠ k.val → t.ll j = s.ll j) ∧ t = { s with dt64 := t.dt64, loc := t.loc })) ∧
    (s.writable 0x78 = true → ∀ (v : Word), ∃ t, exec (.tlatchClear v) s = .next t ∧
      (∀ ch < 14, (v.bit ch = false ∨ s.regB R.LBR.TLATCH ch = false →
          t.regB R.LBR.TLATCH ch = s.regB R.LBR.TLATCH ch) ∧
        (v.bit ch = true → s.regB R.LBR.TLATCH ch = true →
          (s.mapping (s.regN R.TRP.TIN) ch = 0 → t.regB R.LBR.TLATCH ch = false ∧
            (ch < 12 → t.regB (R.PSTA 0x78) (16 + ch) = false ∧ (t.ll ch).by_ = 0)) ∧
          (s.mapping (s.regN R.TRP.TIN) ch ≠ 0 → t.regB R.LBR.TLATCH ch = true ∧ t.regB (R.IRQS 0x78) 4 = true))) ∧
      regsBut s t [R.LBR.TLATCH, R.PSTA 0x78, R.IRQS 0x78] ∧ t = { s with regs := t.regs, loc := t.loc })

/-- CHOPPER_RESULT: the oldest waiting result acts in the second DTM cycle after it arrived; a channel that is off,
enabled, not latched and not at its ceiling switches on at CHON or above, counted, with IRQS bit 2; one that is on
switches off at CHOFF or below when it arrived after the minimum on-time; with none waiting nothing changes, and a
channel not enabled only takes it. CHOP_CEIL_RELEASE at the instant the duty counter has fallen to half of ALIM: the
ceiling is released. CHTMIN_EXPIRY at the end of the minimum on-time: a channel whose counter has reached ALIM
switches off; one below stays on. CHOP_SRC 64 µs after the last result used: the channel is off, NOSRC is set, IRQS
bit 5, CHOP_SRC is raised. (Derived from: 12_local_bridges_and_trips.md: R386, R387, R388, R389.) -/
def Obligations.Choppers : Prop :=
  ∀ (s : State) (c : Fin 2), ∀ k, k = R.LBR.CHCFG c.val →
    ((s.chopper c.val).x = [] → exec (.chopperResult c) s = .next s) ∧
    (∀ q rest, (s.chopper c.val).x = q :: rest → ∃ t, exec (.chopperResult c) s = .next t ∧
      t.dt64 = (s.reach (q.2 + 128)).dt64 ∧ (t.chopper c.val).x = rest ∧
      (s.regB k 0 = false → t.chopper c.val = { s.chopper c.val with x := rest } ∧ t.regs = s.regs) ∧
      (s.regB k 0 = true → ∀ y, y = ((s.reach (q.2 + 128)).chopSync c.val).chopper c.val →
        ∀ off, off = (if s.regI (R.LBR.CHON c.val) ≤ s.regI (R.LBR.CHOFF c.val) then s.regI (R.LBR.CHON c.val) - 1
          else s.regI (R.LBR.CHOFF c.val)) → (t.chopper c.val).nosrc = false ∧ (t.chopper c.val).used = t.dt64 ∧
        (y.on = false → (t.chopper c.val).on =
          (decide (s.regI (R.LBR.CHON c.val) ≤ q.1) && !s.regB R.LBR.TLATCH (12 + c.val) && !y.ceil)) ∧
        (y.on = true → (t.chopper c.val).on =
          !(decide (q.1 ≤ off) && Nat.ble (y.onAt + s.regN (R.LBR.CHTMIN c.val) * 64) q.2)) ∧
        (y.on = false → (t.chopper c.val).on = true → t.regB (R.IRQS 0x78) 2 = true ∧
          (t.chopper c.val).onAt = t.dt64 ∧ t.regF (R.LBR.CHCNT c.val) 0 16 = satInc 16 (s.regF (R.LBR.CHCNT c.val) 0 16)) ∧
        ((t.chopper c.val).on = false ∨ y.on = true → t.reg (R.LBR.CHCNT c.val) = s.reg (R.LBR.CHCNT c.val))) ∧
      t.chopper (1 - c.val) = s.chopper (1 - c.val) ∧ regsBut s t [R.LBR.CHCNT c.val, R.IRQS 0x78] ∧
      t = { s with dt64 := t.dt64, regs := t.regs, loc := t.loc, scribe := t.scribe }) ∧
    (∀ y, y = (s.chopSync c.val).chopper c.val → ∀ dc, dc = s.regF k 16 5 →
      ((y.ceil = false ∨ y.on = true) → ∃ t, exec (.chopCeilRelease c) s = .next t ∧ t.dt64 = s.dt64 ∧
        (t.chopper c.val).on = y.on ∧ (t.chopper c.val).ceil = y.ceil) ∧
      (y.ceil = true → y.on = false → dc ≠ 0 → ∀ at_, at_ = y.aAt + ((2 * y.a - s.chLim c.val + 2 * dc - 1) / (2 * dc)) * 64 →
        s.dt64 ≤ at_ → at_ < 2 ^ 63 → ∃ t, exec (.chopCeilRelease c) s = .next t ∧ t.dt64 = (s.reach at_).dt64 ∧
        (t.chopper c.val).ceil = false ∧ (t.chopper c.val).on = false ∧ 2 * (t.chopper c.val).a ≤ s.chLim c.val ∧
        t = { s with dt64 := t.dt64, regs := t.regs, loc := t.loc, scribe := t.scribe })) ∧
    ((s.chopper c.val).on = false → exec (.chtminExpiry c) s = .next s) ∧
    ((s.chopper c.val).on = true → ∀ at_, at_ = (s.chopper c.val).onAt + s.regN (R.LBR.CHTMIN c.val) * 64 →
      ∃ t, exec (.chtminExpiry c) s = .next t ∧ t.dt64 = (s.reach at_).dt64 ∧
      (∀ full : Bool, full = (decide (s.regF k 16 5 ≠ 0) && Nat.ble (s.chLim c.val)
          ((s.chopper c.val).count (s.regF k 16 5) ((t.dt64 - (s.chopper c.val).aAt) / 64))) →
        (full = false → (t.chopper c.val).on = true ∧ t.regs = s.regs ∧ t.scribe = s.scribe) ∧
        (full = true → at_ ≤ t.dt64 → (s.chopper c.val).aAt ≤ t.dt64 → (t.chopper c.val).on = false) ∧
        (full = true → (s.chopper c.val).ceil = false → t.regB (R.IRQS 0x78) 3 = true ∧ s.raised t Src.CHOP_CEIL 0x78)) ∧
      regsBut s t [R.IRQS 0x78] ∧ t = { s with dt64 := t.dt64, regs := t.regs, loc := t.loc, scribe := t.scribe }) ∧
    ((s.regB k 0 = false ∨ (s.chopper c.val).nosrc = true) → exec (.chopSrc c) s = .next s) ∧
    (s.regB k 0 = true → (s.chopper c.val).nosrc = false → ∃ t, exec (.chopSrc c) s = .next t ∧
      t.dt64 = (s.reach ((s.chopper c.val).used + 1024000)).dt64 ∧ (t.chopper c.val).on = false ∧
      (t.chopper c.val).nosrc = true ∧ t.regB (R.IRQS 0x78) 5 = true ∧
      (t.scribe.inflight.any fun f => f.src == Src.CHOP_SRC && f.page == 0x78) = true ∧
      t.chopper (1 - c.val) = s.chopper (1 - c.val) ∧ regsBut s t [R.IRQS 0x78] ∧
      t = { s with dt64 := t.dt64, regs := t.regs, loc := t.loc, scribe := t.scribe })

/-- CONVERSION_DONE of a running conversion of the sequence that no urgent request interrupts: its result, the filter's
weighted sum of the bits as ±1, rounded half away from zero and clamped to 24 bits, stands in RES and in the mirror
with REFOK, OVR and CNT one more, OVRCNT counted; the next slot begins, after the last slot 0 in FREE mode, or the
converter waits. SEQUENCE_TRIGGER at the firing of TSCH starts a waiting converter at the next f_mod edge; one still
running is an overrun. UGO, and UCFG's channel, make an urgent request, or lose it while one runs (in the CNV cycle of
the firing that began a sequence, that firing is held); URGENT_START takes the mux at the next f_mod edge and counts
the abort; URGENT_DONE writes URES, sets IRQS, and resumes the slot aborted. REF_READY sets REF_RDY. CVCFG while
enabled is refused but for EN = 0; else it takes ORD 1 to 5 and DEC 16 to 1024. CVREF holds 3 as 0; a new value drops
REF_RDY. (Derived from: 13_measurement.md: R397, R398, R399, R400, R401, R402, R404, R405, R411.) -/
def Obligations.Converters : Prop :=
  ∀ (s : State) (n : Fin 4), ∀ c, c = s.conv n.val → ∀ k, k = R.CNV.CVCFG n.val → ∀ sta, sta = R.CNV.CVSTA n.val →
    (∀ bits : List Bool, ∀ end_, end_ = c.start + (s.regF k 2 3 + s.regF k 16 8) * s.regF k 5 11 * 800 →
      ∀ x, x = roundAway (8388608 * filterSum (s.regF k 2 3) (s.regF k 5 11) (s.regF k 16 8 + 1) (s.convBits n.val bits))
        (s.regF k 5 11 ^ s.regF k 2 3 * (s.regF k 16 8 + 1)) →
      ∀ v, v = clampInt (-8388608) 8388607 x →
      ((c.busy = false ∨ c.urg = true ∨ urgentFirst c end_ = true) → exec (.conversionDone n bits) s = .next s) ∧
      (c.busy = true → c.urg = false → urgentFirst c end_ = false → c.slot < 8 →
        ∀ key, key = R.CNV.RES 0 + 0x20 * n.val + 4 * c.slot → ∃ t, exec (.conversionDone n bits) s = .next t ∧
        t.dt64 = (s.reachLam end_).dt64 ∧ t.regF key 0 24 = bitsOfInt 24 v ∧ t.regB key 24 = c.refOk ∧
        t.regB key 25 = decide (v ≠ x) ∧ t.regF key 28 4 = (s.regF key 28 4 + 1) % 16 ∧
        t.mem.readWord (csmBase + 0x34000 + 4 * (8 * n.val + c.slot)) = t.reg key ∧
        (v ≠ x → t.regF R.CNV.OVRCNT 0 16 = satInc 16 (s.regF R.CNV.OVRCNT 0 16)) ∧
        (s.cnvOn = true → c.slot < s.regF k 24 3 → (t.conv n.val).busy = true ∧ (t.conv n.val).slot = c.slot + 1 ∧
          (t.conv n.val).start = end_ ∧ (t.conv n.val).inputs = s.regN (R.CNV.SLOT 0 + 0x20 * n.val + 4 * (c.slot + 1))) ∧
        (s.cnvOn = true → s.regF k 24 3 ≤ c.slot → s.regB k 1 = false → (t.conv n.val).busy = true ∧
          (t.conv n.val).slot = 0 ∧ (t.conv n.val).start = end_) ∧
        (s.cnvOn = true → s.regF k 24 3 ≤ c.slot → s.regB k 1 = true →
          (t.conv n.val).busy = false ∧ (t.conv n.val).wait = true ∧ t.regB sta 3 = true) ∧
        (s.cnvOn = false → (t.conv n.val).busy = false) ∧
        regsBut s t [key, R.CNV.OVRCNT, sta] ∧
        t = { s with dt64 := t.dt64, regs := t.regs, mem := t.mem, meas := t.meas, loc := t.loc }) ∧
      ((c.busy = false ∨ c.urg = false) → exec (.urgentDone n bits) s = .next s) ∧
      (c.busy = true → c.urg = true → ∀ key, key = R.CNV.URES n.val → ∃ t, exec (.urgentDone n bits) s = .next t ∧
        t.dt64 = (s.reachLam end_).dt64 ∧ t.regF key 0 24 = bitsOfInt 24 v ∧ t.regB key 24 = c.refOk ∧
        t.regB key 25 = decide (v ≠ x) ∧ t.regF key 28 4 = (s.regF key 28 4 + 1) % 16 ∧
        t.mem.readWord (csmBase + 0x34000 + 4 * (0x20 + n.val)) = t.reg key ∧ t.regB (R.IRQS 0x80) n.val = true ∧
        (t.conv n.val).urg = false ∧
        (s.cnvOn = true → c.resume = true → (t.conv n.val).busy = true ∧ (t.conv n.val).slot = c.slot ∧
          (t.conv n.val).start = end_) ∧
        (s.cnvOn = true → c.resume = false → c.held = true → (t.conv n.val).busy = true ∧ (t.conv n.val).slot = 0) ∧
        (s.cnvOn = true → c.resume = false → c.held = false → (t.conv n.val).busy = false ∧ (t.conv n.val).wait = true) ∧
        regsBut s t [key, R.CNV.OVRCNT, sta, R.IRQS 0x80] ∧
        t = { s with dt64 := t.dt64, regs := t.regs, mem := t.mem, meas := t.meas, loc := t.loc, free := t.free })) ∧
    (∀ target : Nat, ∀ fires : Bool, fires = (s.regB k 0 && s.regB k 1 && s.cnvOn &&
        decide (s.firing (s.regF k 28 4) = some target)) →
      (fires = false → exec (.sequenceTrigger n target) s = .next s) ∧
      (fires = true → ∃ t, exec (.sequenceTrigger n target) s = .next t ∧ t.dt64 = (s.reach target).dt64 ∧
        (c.wait = true → c.req = none → (t.conv n.val).busy = true ∧ (t.conv n.val).slot = 0 ∧
          (t.conv n.val).start = fmodEdge (s.toLam target) ∧ t.regB sta 1 = true ∧
          t.regF sta 16 10 = fmodEdge (s.toLam target) - s.toLam target ∧ (t.conv n.val).inputs = s.regN (R.CNV.SLOT 0 + 0x20 * n.val) ∧
          (t.conv n.val).fired = some (s.toLam target)) ∧
        ((c.wait = true ∧ c.req ≠ none) ∨ (c.wait = false ∧ c.urg = true ∧ c.resume = false) →
          t.conv n.val = { c with held := true } ∧ t.regs = s.regs) ∧
        (c.wait = false → (c.urg = false ∨ c.resume = true) → t.meas = s.meas ∧ s.raised t Src.CNV_OVERRUN 0x80 ∧
          t.regF R.CNV.SOVCNT 0 16 = satInc 16 (s.regF R.CNV.SOVCNT 0 16) ∧ t.regB (R.IRQS 0x80) 4 = true) ∧
        regsBut s t [sta, R.CNV.SOVCNT, R.IRQS 0x80] ∧
        t = { s with dt64 := t.dt64, regs := t.regs, meas := t.meas, scribe := t.scribe })) ∧
    (∀ asks : Bool, asks = (s.regB k 0 && s.cnvOn) →
      (s.writable 0x80 = true → ∀ mask : BitVec 4, ∃ t, exec (.ugo mask) s = .next t ∧
        ((mask.toNat.testBit n.val = false ∨ asks = false) → t.conv n.val = c) ∧
        (mask.toNat.testBit n.val = true → asks = true → (c.busy = false ∨ c.urg = false) →
          (c.req.isSome = true ∨ s.firedNow c = false) → t.conv n.val = { c with req := some (c.req.getD s.lam) }) ∧
        (mask.toNat.testBit n.val = true → asks = true → c.req = none → s.firedNow c = true →
          t.conv n.val = { c with req := some s.lam, busy := false, wait := true, held := true } ∧ t.regB sta 1 = false ∧
          t.regB sta 3 = true) ∧
        (mask.toNat.testBit n.val = true → asks = true → c.busy = true → c.urg = true → t.conv n.val = c ∧
          t.regB (R.IRQS 0x80) 5 = true ∧
          (t.scribe.inflight.any fun f => f.src == Src.CNV_URG_LOST && f.page == 0x80) = true) ∧
        regsBut s t (R.CNV.UDRCNT :: R.IRQS 0x80 :: (List.range 4).map R.CNV.CVSTA) ∧
        t = { s with regs := t.regs, meas := t.meas, scribe := t.scribe }) ∧
      ((s.regB (R.CNV.UCFG n.val) 16 && (s.firing (s.regF (R.CNV.UCFG n.val) 20 4)).any fun t => !s.passed t) = true →
        (asks = false → exec (.urgentTrigger n) s = .next s) ∧
        (asks = true → c.busy = true → c.urg = true → ∃ t, exec (.urgentTrigger n) s = .next t ∧
          s.raised t Src.CNV_URG_LOST 0x80 ∧ t.regF R.CNV.UDRCNT 0 16 = satInc 16 (s.regF R.CNV.UDRCNT 0 16) ∧
          t.regB (R.IRQS 0x80) 5 = true ∧ regsBut s t [R.CNV.UDRCNT, R.IRQS 0x80] ∧
          t = { s with regs := t.regs, scribe := t.scribe }) ∧
        (asks = true → (c.busy = false ∨ c.urg = false) → (c.req.isSome = true ∨ s.firedNow c = false) →
          ∃ t, exec (.urgentTrigger n) s = .next t ∧
          t = s.setConv n.val { c with req := some (c.req.getD s.lam) }) ∧
        (asks = true → c.req = none → s.firedNow c = true → ∃ t, exec (.urgentTrigger n) s = .next t ∧
          t.conv n.val = { c with req := some s.lam, busy := false, wait := true, held := true } ∧ t.regB sta 1 = false ∧
          t.regB sta 3 = true ∧ regsBut s t [sta] ∧ t = { s with regs := t.regs, meas := t.meas }))) ∧
    ((s.regB (R.CNV.UCFG n.val) 16 = false ∨ s.firing (s.regF (R.CNV.UCFG n.val) 20 4) = none) →
      exec (.urgentTrigger n) s = .next s) ∧
    (c.req = none → exec (.urgentStart n) s = .next s) ∧
    (∀ r, c.req = some r → ∀ e, e = fmodEdge r → ∃ t, exec (.urgentStart n) s = .next t ∧ t.dt64 = (s.reachLam e).dt64 ∧
      (t.conv n.val).busy = true ∧ (t.conv n.val).urg = true ∧ (t.conv n.val).start = e ∧ (t.conv n.val).req = none ∧
      (t.conv n.val).resume = c.busy ∧ (t.conv n.val).slot = c.slot ∧ (t.conv n.val).inputs = s.regF (R.CNV.UCFG n.val) 0 13 ∧
      t.regB sta 2 = true ∧ (c.busy = true → c.start < e → t.regF R.CNV.ABTCNT 0 16 = satInc 16 (s.regF R.CNV.ABTCNT 0 16)) ∧
      ((c.busy = false ∨ e ≤ c.start) → t.reg R.CNV.ABTCNT = s.reg R.CNV.ABTCNT) ∧
      regsBut s t [sta, R.CNV.ABTCNT] ∧ t = { s with dt64 := t.dt64, regs := t.regs, meas := t.meas }) ∧
    (c.refAt = none → exec (.refReady n) s = .next s) ∧
    (∀ r, c.refAt = some r → ∃ t, exec (.refReady n) s = .next t ∧ t.dt64 = (s.reachLam r).dt64 ∧ t.regB sta 0 = true ∧
      t.regB (R.PSTA 0x80) (16 + n.val) = true ∧ t.regB (R.IRQS 0x80) 6 = true ∧ (t.conv n.val) = { c with refAt := none } ∧
      regsBut s t [sta, R.PSTA 0x80, R.IRQS 0x80] ∧ t = { s with dt64 := t.dt64, regs := t.regs, meas := t.meas }) ∧
    (s.writable 0x80 = true → ∀ v : Word,
      (s.regB k 0 = true → v.bit 0 = true → exec (.cvcfgWrite n v) s = .next (s.irq 0x80 7)) ∧
      (s.regB k 0 = true → v.bit 0 = false → ∃ t, exec (.cvcfgWrite n v) s = .next t ∧ t.reg k = (s.reg k).setBit 0 false ∧
        t.regB (R.IRQS 0x80) 7 = true ∧ (t.conv n.val).busy = false ∧ (t.conv n.val).req = none ∧ t.regB sta 1 = false ∧
        regsBut s t [k, R.IRQS 0x80, sta] ∧ t = { s with regs := t.regs, meas := t.meas }) ∧
      (s.regB k 0 = false → ∃ t, exec (.cvcfgWrite n v) s = .next t ∧
        t.regF k 2 3 = Nat.max 1 (Nat.min 5 (v.fld 2 3)) ∧ t.regF k 5 11 = Nat.max 16 (Nat.min 1024 (v.fld 5 11)) ∧
        t.regF k 16 11 = v.fld 16 11 ∧ t.regF k 28 4 = v.fld 28 4 ∧ t.regF k 0 2 = v.fld 0 2 ∧
        (v.bit 0 = false → regsBut s t [k] ∧ t = { s with regs := t.regs }) ∧
        (v.bit 0 = true → t.regB sta 0 = false ∧ (t.conv n.val).refAt = some (s.lam + refDelay (s.regF (R.CNV.CVREF n.val) 0 2)) ∧
          (s.cnvOn = true → c.busy = false → v.bit 1 = true → (t.conv n.val).wait = true ∧ (t.conv n.val).busy = false) ∧
          (s.cnvOn = true → c.busy = false → v.bit 1 = false → (t.conv n.val).busy = true ∧ (t.conv n.val).slot = 0 ∧
            (t.conv n.val).start = fmodEdge s.lam) ∧
          regsBut s t [k, sta, R.PSTA 0x80] ∧ t = { s with regs := t.regs, meas := t.meas })) ∧
      (∀ x, x = (if v.fld 0 2 = 3 then 0 else v.fld 0 2) →
        (s.regF (R.CNV.CVREF n.val) 0 2 = x → exec (.cvrefWrite n v) s = .next s) ∧
        (s.regF (R.CNV.CVREF n.val) 0 2 ≠ x → ∃ t, exec (.cvrefWrite n v) s = .next t ∧ t.reg (R.CNV.CVREF n.val) = wd x ∧
          t.regB sta 0 = false ∧ t.regB (R.PSTA 0x80) (16 + n.val) = false ∧
          (t.conv n.val) = { c with refAt := some (s.lam + refDelay x), refOk := false } ∧
          regsBut s t [R.CNV.CVREF n.val, sta, R.PSTA 0x80] ∧ t = { s with regs := t.regs, meas := t.meas })))

/-- MOD_RESULT of an enabled input that is not stuck and whose clock runs: at the next decimation instant the result, the
filter's weighted sum of the bits sampled, rounded half away from zero and clamped to 24 bits, stands in MDRES and the
mirror with CNT one more, and RUN is set. MOD_ALIGN at the firing of its channel: OFS shows the distance to the next
sampling edge; a filter whose grid meets that edge keeps running, ALIGNED; another restarts there, counted, IRQS bit
1, MOD_ALIGN raised. MOD_STUCK of an enabled clocked input sets MDSTUCK and IRQS bit 0, raises MOD_STUCK, and stops
its filter; MOD_UNSTUCK restarts it, unless it still waits for its first firing. MDCFG while enabled is refused but
for EN = 0, IRQS bit 2; else it holds ORD in 1 to 5 and DEC in 16 to 1024. MCLKCFG holds DIV in 4 to 16, ignored and
refused while EN = 1; EN starts the clock at the next CNV cycle, after a cycle still in progress, or stops it after
its cycle, and an input whose clock stops is no longer RUN. Else nothing changes. (Derived from: 13_measurement.md:
R400, R401, R406, R407, R408, R409, R411, R415.) -/
def Obligations.ModulatorInputs : Prop :=
  (∀ (s : State) (i : Fin 16), ∀ m, m = s.modIn i.val → ∀ k, k = R.MOD.MDCFG i.val → ∀ sta, sta = R.MOD.MDSTA i.val →
    ∀ live : Bool, live = (s.regB k 0 && !s.regB R.MOD.MDSTUCK i.val && (s.modEdge0 i.val).isSome) →
    (∀ bits : List Bool, ∀ x, x = roundAway (8388608 * filterSum (s.regF k 4 3) (s.regF k 8 11) (s.regF k 19 8 + 1)
        (s.modBits i.val bits)) (s.regF k 8 11 ^ s.regF k 4 3 * (s.regF k 19 8 + 1)) →
      ∀ v, v = clampInt (-8388608) 8388607 x → ∀ key, key = R.MOD.MDRES i.val →
      ((live = false ∨ m.base = none) → exec (.modResult i bits) s = .next s) ∧
      (∀ b, m.base = some b → live = true → ∃ t, exec (.modResult i bits) s = .next t ∧
        t.dt64 = (s.reachLam (b + (((s.regF k 4 3 + s.regF k 19 8 + m.n) * s.regF k 8 11 * s.modT i.val : Nat) : Int)).toNat).dt64 ∧
        t.regF key 0 24 = bitsOfInt 24 v ∧ t.regB key 24 = true ∧ t.regB key 25 = decide (v ≠ x) ∧
        t.regF key 28 4 = (s.regF key 28 4 + 1) % 16 ∧
        t.mem.readWord (csmBase + 0x34100 + 4 * i.val) = t.reg key ∧ (t.modIn i.val) = { m with n := m.n + 1, bits := s.modBits i.val bits } ∧
        t.regB sta 0 = true ∧ t.regB (R.PSTA 0x81) (16 + i.val) = true ∧
        (v ≠ x → t.regF R.MOD.OVRCNT 0 16 = satInc 16 (s.regF R.MOD.OVRCNT 0 16)) ∧
        regsBut s t [key, R.MOD.OVRCNT, sta, R.PSTA 0x81] ∧
        t = { s with dt64 := t.dt64, regs := t.regs, mem := t.mem, meas := t.meas, loc := t.loc })) ∧
    (∀ target : Nat, ∀ fires : Bool, fires = (s.regB k 0 && s.regB k 7 &&
        decide (s.firing (s.regF k 28 4) = some target)) →
      (fires = false → exec (.modAlign i target) s = .next s) ∧
      (fires = true → s.modEdge i.val (s.toLam target) = none → m.wait = false →
        exec (.modAlign i target) s = .next (s.reach target)) ∧
      (fires = true → s.modEdge i.val (s.toLam target) = none → m.wait = true → ∃ t, exec (.modAlign i target) s = .next t ∧
        t.dt64 = (s.reach target).dt64 ∧ t.modIn i.val = { paused := some 0 } ∧ t.regB sta 2 = true ∧ t.regB sta 0 = false ∧
        regsBut s t [sta, R.PSTA 0x81] ∧ t = { s with dt64 := t.dt64, regs := t.regs, meas := t.meas }) ∧
      (fires = true → s.regB R.MOD.MDSTUCK i.val = true → ∀ e, s.modEdge i.val (s.toLam target) = some e →
        ∃ t, exec (.modAlign i target) s = .next t ∧ t.dt64 = (s.reach target).dt64 ∧
        t.regF sta 16 12 = (e - s.toLam target) % 4096 ∧ t.regB sta 2 = true ∧ t.modIn i.val = { m with wait := false } ∧
        regsBut s t [sta] ∧ t = { s with dt64 := t.dt64, regs := t.regs, meas := t.meas }) ∧
      (fires = true → s.regB R.MOD.MDSTUCK i.val = false → ∀ e, s.modEdge i.val (s.toLam target) = some e → ∃ t, exec (.modAlign i target) s = .next t ∧
        t.dt64 = (s.reach target).dt64 ∧ t.regF sta 16 12 = (e - s.toLam target) % 4096 ∧
        (m.base = none → t.regB sta 2 = true ∧ (t.modIn i.val).base = some e ∧ (t.modIn i.val).n = 0) ∧
        (∀ b, m.base = some b → ((e : Int) - b) % ((s.regF k 8 11 * s.modT i.val : Nat) : Int) = 0 →
          t.regB sta 2 = true ∧ t.modIn i.val = m) ∧
        (∀ b, m.base = some b → ((e : Int) - b) % ((s.regF k 8 11 * s.modT i.val : Nat) : Int) ≠ 0 →
          t.regB sta 2 = false ∧ (t.modIn i.val).base = some e ∧ (t.modIn i.val).n = 0 ∧ t.regB sta 0 = false ∧
          t.regF R.MOD.ALNCNT 0 16 = satInc 16 (s.regF R.MOD.ALNCNT 0 16) ∧ t.regB (R.IRQS 0x81) 1 = true ∧
          s.raised t Src.MOD_ALIGN 0x81) ∧
        regsBut s t [sta, R.PSTA 0x81, R.MOD.ALNCNT, R.IRQS 0x81] ∧
        t = { s with dt64 := t.dt64, regs := t.regs, meas := t.meas, scribe := t.scribe })) ∧
    (live = false → exec (.modStuck i) s = .next s) ∧
    (live = true → ∃ t, exec (.modStuck i) s = .next t ∧ t.regB R.MOD.MDSTUCK i.val = true ∧ t.regB sta 1 = true ∧
      t.regB sta 0 = false ∧ t.regB sta 2 = false ∧ t.regB (R.PSTA 0x81) (16 + i.val) = false ∧ t.regB (R.IRQS 0x81) 0 = true ∧
      s.raised t Src.MOD_STUCK 0x81 ∧
      t.modIn i.val = { m with base := none, paused := none, n := 0, bits := [] } ∧
      regsBut s t [R.MOD.MDSTUCK, sta, R.PSTA 0x81, R.IRQS 0x81] ∧
      t = { s with regs := t.regs, meas := t.meas, scribe := t.scribe }) ∧
    (s.regB R.MOD.MDSTUCK i.val = false → exec (.modUnstuck i) s = .next s) ∧
    (s.regB R.MOD.MDSTUCK i.val = true → ∃ t, exec (.modUnstuck i) s = .next t ∧ t.regB R.MOD.MDSTUCK i.val = false ∧
      t.regB sta 1 = false ∧ (m.wait = true → t.modIn i.val = m) ∧
      (m.wait = false → ∀ e, s.modEdge i.val s.lam = some e → t.modIn i.val = { base := some e }) ∧
      regsBut s t [R.MOD.MDSTUCK, sta, R.PSTA 0x81] ∧ t = { s with regs := t.regs, meas := t.meas }) ∧
    (s.writable 0x81 = true → ∀ v : Word,
      (s.regB k 0 = true → v.bit 0 = true → exec (.mdcfgWrite i v) s = .next (s.irq 0x81 2)) ∧
      (s.regB k 0 = true → v.bit 0 = false → ∃ t, exec (.mdcfgWrite i v) s = .next t ∧ t.reg k = (s.reg k).setBit 0 false ∧
        t.regB (R.IRQS 0x81) 2 = true ∧ t.modIn i.val = {} ∧ t.regB sta 0 = false ∧ t.regB sta 2 = false ∧
        regsBut s t [k, sta, R.PSTA 0x81, R.IRQS 0x81] ∧ t = { s with regs := t.regs, meas := t.meas }) ∧
      (s.regB k 0 = false → ∃ t, exec (.mdcfgWrite i v) s = .next t ∧ t.regF k 0 4 = v.fld 0 4 ∧
        t.regF k 4 3 = Nat.max 1 (Nat.min 5 (v.fld 4 3)) ∧ t.regF k 8 11 = Nat.max 16 (Nat.min 1024 (v.fld 8 11)) ∧
        t.regF k 19 8 = v.fld 19 8 ∧ t.regB k 7 = v.bit 7 ∧ t.regF k 28 4 = v.fld 28 4 ∧
        (v.bit 0 = true → t.regB sta 0 = false) ∧ (v.bit 0 = true → v.bit 7 = true → (t.modIn i.val).wait = true) ∧
        (v.bit 0 = true → v.bit 7 = false → (t.modIn i.val).n = 0 ∧ (t.modIn i.val).wait = false) ∧
        regsBut s t [k, sta, R.PSTA 0x81] ∧ t = { s with regs := t.regs, meas := t.meas }))) ∧
  (∀ (s : State) (n : Fin 4) (v : Word), s.writable 0x81 = true → ∀ k, k = R.MOD.MCLKCFG n.val →
    ∀ div, div = Nat.max 4 (Nat.min 16 (v.fld 4 5)) → ∃ t, exec (.mclkcfgWrite n v) s = .next t ∧
    t.regB k 0 = v.bit 0 ∧ (s.regB k 0 = true → t.regF k 4 5 = s.regF k 4 5 ∧
      t.regB (R.IRQS 0x81) 2 = true) ∧ (s.regB k 0 = false → t.regF k 4 5 = div) ∧
    (s.enabled 0x81 = true → s.regB (R.PCTL 0x81) 2 = false → v.bit 0 = true → s.mclkAt n.val = none →
      t.mclkAt n.val = some (Nat.max (upTo 200 s.lam) (s.mclkOver n.val))) ∧
    (v.bit 0 = false → t.mclkAt n.val = none) ∧ (v.bit 0 = false → s.regB k 0 = true → ∀ a, s.mclkAt n.val = some a →
      t.mclkOver n.val = if s.lam ≤ a then a else a + upTo (s.mclkT n.val) (s.lam - a)) ∧ (v.bit 0 = true → s.mclkAt n.val ≠ none → s.mclkWanted n.val = true →
      t.mclkAt n.val = s.mclkAt n.val) ∧
    (∀ j < 4, j ≠ n.val → t.mclkAt j = s.mclkAt j) ∧ (v.bit 0 = false → s.mclkAt n.val ≠ none → ∀ i < 16,
      s.regF (R.MOD.MDCFG i) 2 2 = n.val → s.regB (R.MOD.MDCFG i) 0 = true → t.regB (R.MOD.MDSTA i) 0 = false) ∧
    regsBut s t (k :: R.IRQS 0x81 :: R.PSTA 0x81 :: (List.range 16).map R.MOD.MDSTA) ∧
    t = { s with regs := t.regs, meas := t.meas })

/-- IMAGE_INSTANT while cycles run, 20 µs before the tick: both channels get the same input image with the cycle and DT32,
word 0 of both records is cleared, and the page is not IDLE. SAFETY_TICK lets both channels leave WAIT 16 at T(k).
COMPARE_POINT of the last tick not yet compared, at T(k) + 450 µs: a channel that has not ended its cycle is stopped,
SAFE_OVERRUN; each comparator that reads both records present and equal leaves its output logic as it is, any other
latches its DIV, with PERMIT 0 and SSAFE requested, DIVCNT counts and SAFE_DIVERGE is raised. APPLY_POINT, 20 µs
later: each output logic whose latches are clear takes PERMIT and SSAFE of equal records, connection states are taken
and PDUs sent. TICK_LOST 600 µs after the last tick (A 3 ms with SYS on SFB) latches TICK in one logic, with PERMIT 0,
SSAFE and the raise. Else nothing changes. (Derived from: 14_safety.md: R417, R418, R420, R421, R423, R424, R428,
R431, R436, R443.) -/
def Obligations.SafetyCycles : Prop :=
  ∀ (s : State),
    (s.sftRuns = false → ∀ x : BitVec 4, exec (.imageInstant x) s = .next s) ∧
    (s.sftRuns = true → ∀ k, k = s.nextImage → ∀ x : BitVec 4, ∃ t, exec (.imageInstant x) s = .next t ∧
      t.dt64 = (s.reach (k * 8000000 - 320000)).dt64 ∧ t.sft.image = k + 1 ∧ t.sft.sird = x.toNat ∧
      t.regB (R.PSTA 0x90) 2 = false ∧ t.sxm.readWord 0 = wd k ∧ t.sxm.readWord 4 = wd t.dt64 ∧
      t.sxm.readWord 0x4000 = 0 ∧
      (∀ j < 160, (s.conn j).waiting = [] → t.sxm.readWord (0x40 + 80 * j + 0x40) = wd (b2n (s.conn j).ack * 16) ∧
        (t.conn j).ack = false) ∧
      (∀ i < 0x4004, dmemByte t.dmem (mortImage + i) = some (t.sxm.read i)) ∧
      (∀ a, 0x4004 ≤ a → t.sxm.read a = s.sxm.read a) ∧
      regsBut s t [R.PSTA 0x90, R.SFT.RXCNT, R.SFT.DISCNT] ∧
      t = { s with dt64 := t.dt64, regs := t.regs, sft := t.sft, dmem := t.dmem, sxm := t.sxm }) ∧
    (∀ k, k = s.nextCycle s.sft.tick → ∀ d : Nat,
      (s.sftRuns = false → s.sft.image ≠ k + 1 → exec (.safetyTick d) s = .next s) ∧
      ((s.sftRuns = true ∨ s.sft.image = k + 1) → ∃ t, exec (.safetyTick d) s = .next t ∧
        t.dt64 = (s.reach (k * 8000000)).dt64 ∧ t.sft.tick = k + 1 ∧ t.sft.lastTick = some t.dt64 ∧
        t.sft.compared = Nat.min s.sft.compared k ∧ t.sft.applied = Nat.min s.sft.applied k ∧
        (∀ n ∈ [8, 9], (s.engState n = 1 ∨ s.engState n = 3) → s.engCh n = 16 → s.regB (R.PCTL (engPage n)) 2 = false →
          t.engState n = 2) ∧
        (∀ e < 8, ∀ n, n = 2000 * (s.testWord e).fld 16 16 → (s.testWord e).bit 3 = true → n ≠ 0 →
          (k + n * 250 - 250 * e) % n = 0 → (NMap.get none t.sft.tests e).isSome = true) ∧
        t.sft.permA = s.sft.permA ∧ t.sft.permB = s.sft.permB ∧ t.sxm = s.sxm)) ∧
    (∀ d : Nat, (s.sft.tick = 0 ∨ s.sft.tick ≤ s.sft.compared) → exec (.comparePoint d) s = .next s) ∧
    (0 < s.sft.tick → s.sft.compared < s.sft.tick → ∀ k, k = s.sft.tick - 1 → ∀ d : Nat,
      ∃ t, exec (.comparePoint d) s = .next t ∧ t.dt64 = (s.reach (k * 8000000 + 7200000)).dt64 ∧
      t.reg R.SFT.SCYC = wd k ∧ t.sft.compared = k + 1 ∧ t.regF R.SFT.SSTA 16 16 = k % 65536 ∧
      (∀ n ∈ [8, 9], s.overran n = true → (t.engState n = 1 ∨ t.engState n = 0) ∧ t.sft.equalA = false ∧
        t.sft.equalB = false ∧
        (if n = 8 then t.sft.absA else t.sft.absB) = true ∧ t.regB R.SFT.SSTA (n - 5) = true ∧
        t.regB (R.IRQS (engPage n)) 0 = true ∧ t.regB (R.IRQS 0x90) 2 = true ∧
        (t.scribe.inflight.any fun f => f.src == Src.SAFE_OVERRUN && f.page == 0x90) = true) ∧
      (s.shipped.safety = false → s.overran 8 = false → s.overran 9 = false →
        ∃ f, s.free ≤ f ∧ ∀ a, a = { s with free := f }.recA → ∀ b, b = { s with free := f + 0x1500 }.recA →
          t.sft.equalA = ((byteAt a 3).testBit 7 && (byteAt s.recB 3).testBit 7 && decide (a = s.recB)) ∧
          t.sft.equalB = ((byteAt b 3).testBit 7 && (byteAt s.recB 3).testBit 7 && decide (b = s.recB))) ∧
      t.sft.divA = (s.sft.divA || !t.sft.equalA) ∧ t.sft.divB = (s.sft.divB || !t.sft.equalB) ∧
      t.sft.permA = (if t.sft.equalA then s.sft.permA else 0) ∧ t.sft.permB = (if t.sft.equalB then s.sft.permB else 0) ∧
      (t.sft.equalA = true → t.ssafe.testBit 0 = s.ssafe.testBit 0) ∧ (t.sft.equalA = false → t.ssafe.testBit 0 = true) ∧
      (t.sft.equalB = true → t.ssafe.testBit 1 = s.ssafe.testBit 1) ∧ (t.sft.equalB = false → t.ssafe.testBit 1 = true) ∧
      (t.sft.equalA = true → t.sft.equalB = true → t.reg R.SFT.DIVCNT = s.reg R.SFT.DIVCNT ∧ t.scribe = s.scribe) ∧
      ((t.sft.equalA && t.sft.equalB) = false → t.regF R.SFT.DIVCNT 0 16 = satInc 16 (s.regF R.SFT.DIVCNT 0 16) ∧ t.regB (R.IRQS 0x90) 0 = true ∧
        t.regB R.SFT.DIVADR 31 = t.sft.absA ∧ t.regB R.SFT.DIVADR 30 = t.sft.absB ∧
        (t.scribe.inflight.any fun f => f.src == Src.SAFE_DIVERGE && f.page == 0x90) = true)) ∧
    ((s.sft.compared = 0 ∨ s.sft.compared ≤ s.sft.applied) → exec .applyPoint s = .next s) ∧
    (0 < s.sft.compared → s.sft.applied < s.sft.compared → ∀ k, k = s.sft.compared - 1 →
      ∀ okA : Bool, okA = (s.sft.equalA && !s.sft.divA && !s.sft.tickA && s.enabled 0x90) →
      ∀ okB : Bool, okB = (s.sft.equalB && !s.sft.divB && !s.sft.tickB && s.enabled 0x90) →
      ∃ t, exec .applyPoint s = .next t ∧ t.dt64 = (s.reach (k * 8000000 + 7520000)).dt64 ∧
      t.sft.applied = k + 1 ∧ t.regB (R.PSTA 0x90) 2 = true ∧
      ((s.sft.equalA || s.sft.equalB) = false → t.out = [] ∧ t.ssafe = s.ssafe ∧ t.sft = { s.sft with applied := k + 1 } ∧
        regsBut s t [R.PSTA 0x90]) ∧
      ((s.sft.equalA || s.sft.equalB) = true → t.sft.permA = (if okA then byteAt s.recA 4 % 16 else 0) ∧
        t.sft.permB = (if okB then byteAt s.recB 4 % 16 else 0) ∧
        t.ssafe = b2n (!okA || (byteAt s.recA 5).testBit 0) + 2 * b2n (!okB || (byteAt s.recB 5).testBit 0) ∧
        ((okA || okB) = true → ∀ j < 160, (t.conn j).state = byteAt s.recA (8 + j)) ∧
        ((okA || okB) = false → t.sft.conns = s.sft.conns) ∧
        (okA = true → okB = true → s.sioRole = true → ∀ j < 160, s.connTrans j = 2 →
          ∀ p, pduOf s.recA s.recB j = some p → OutFrame.udp 0 (k * 8000000 + 7520000) (s.connWord j 2).toNat
            ((s.connWord j 3).fld 0 16) p ∈ t.out) ∧
        ((okA && okB && s.sioRole) = false → t.out = [])) ∧
      regsBut s t [R.PSTA 0x90, R.IRQS 0x90, R.SFT.TXCNT] ∧ t.mem = s.mem ∧ t.sxm = s.sxm ∧ t.dmem = s.dmem) ∧
    (∀ b : Bool, ((s.enabled 0x90 = false ∨ s.sft.lastTick = none) → exec (.tickLost b) s = .next s) ∧
      (s.enabled 0x90 = true → ∀ last, s.sft.lastTick = some last →
        ∀ at_, at_ = last + (if b = false ∧ s.regB R.CLK.CKSTA 4 = true then 48000000 else 9600000) →
        ∃ t, exec (.tickLost b) s = .next t ∧ t.dt64 = (s.reach at_).dt64 ∧
        t.sft = { (if b then { s.sft with tickB := true, permB := 0 } else { s.sft with tickA := true, permA := 0 }) with
          testLost := s.sft.testLost || (s.reach at_).pulse.isSome } ∧
        t.ssafe.testBit (b2n b) = true ∧ t.ssafe.testBit (1 - b2n b) = s.ssafe.testBit (1 - b2n b) ∧
        t.regB (R.IRQS 0x90) 1 = true ∧ s.raised t Src.TICK_LOST 0x90 ∧ regsBut s t [R.IRQS 0x90] ∧
        t = { s with dt64 := t.dt64, regs := t.regs, sft := t.sft, ssafe := t.ssafe, scribe := t.scribe }))

/-- RSL_PDU_RX: the first copy of a SEQ waits at the connection its CID and DIRB name, with the path and instant; its
second joins it; a third, or one of no connection, is discarded and counted; a bad SCV is counted; on a ring the frame
must come from a lane that is UP and pass R157. OFF_PULSE_START 30 µs after a tick drives the lowest waiting test
whose path is energised; OFF_PULSE_END records PASS with TDONE and TLAST where SIRD went low and came back in time,
else FAIL (one that lost PERMIT or met a latch in its pulse is discarded), TFAIL, the path latch and SIO_TEST_FAIL.
SIO_TEST_DUE raises once. SIO_RB latches a path whose readback has disagreed longer than RBT. CACK marks a connection
in FAIL; DCLR clears the DIV and TICK latches only with no plan; SLATCH clears with SIRD low, else REFUSED; SXMD_READ
advances SXMA. Else nothing changes. (Derived from: 14_safety.md: R422, R424, R426, R427, R428, R434, R435, R443,
05_exl_frames.md: R157.) -/
def Obligations.SafetyInputsAndTests : Prop :=
  ∀ (s : State),
    (∀ (p : Fin 2) (at_ : Nat) (pdu : List Byte), ∀ i, i = Instr.rslPduRx (.eth p at_ pdu) →
      ∀ seq, seq = leAt pdu 4 2 →
      (s.ethUp p.val = false → exec i s = .next s) ∧
      (s.ethUp p.val = true → s.enabled 0x90 = false → exec i s = .next (s.reach at_)) ∧
      (s.ethUp p.val = true → s.enabled 0x90 = true → s.connOf pdu = none → ∃ t, exec i s = .next t ∧
        t.dt64 = (s.reach at_).dt64 ∧ t.regF R.SFT.DISCNT 0 16 = Nat.min 65535 (s.regF R.SFT.DISCNT 0 16 + 1) ∧
        regsBut s t [R.SFT.DISCNT] ∧ t = { s with dt64 := t.dt64, regs := t.regs }) ∧
      (s.ethUp p.val = true → s.enabled 0x90 = true → ∀ j, s.connOf pdu = some j →
        ∀ w, w = (s.conn j).waiting.find? (fun q => q.seq == seq) → ∃ t, exec i s = .next t ∧ t.dt64 = (s.reach at_).dt64 ∧
        (scvOk pdu = false → t.regF R.SFT.SCVCNT 0 16 = satInc 16 (s.regF R.SFT.SCVCNT 0 16) ∧
          t.regF R.SFT.SCVCNT 16 16 = satInc 16 (s.regF R.SFT.SCVCNT 16 16)) ∧
        (scvOk pdu = true → t.reg R.SFT.SCVCNT = s.reg R.SFT.SCVCNT) ∧
        (w = none → seq ∉ (s.conn j).late → (t.conn j).waiting = (s.conn j).waiting ++
          [{ seq := seq, pdu := pdu, at_ := t.dt64, path := p.val }] ∧ t.reg R.SFT.DISCNT = s.reg R.SFT.DISCNT) ∧
        (∀ q, w = some q → q.second = none → ((t.conn j).waiting.find? fun q => q.seq == seq) =
          some { q with second := some (pdu, t.dt64) } ∧ t.reg R.SFT.DISCNT = s.reg R.SFT.DISCNT) ∧
        ((w.any (·.second.isSome) = true ∨ (w = none ∧ seq ∈ (s.conn j).late)) →
          (t.conn j).waiting = (s.conn j).waiting ∧
          t.regF R.SFT.DISCNT 0 16 = Nat.min 65535 (s.regF R.SFT.DISCNT 0 16 + 1)) ∧
        regsBut s t [R.SFT.DISCNT, R.SFT.SCVCNT] ∧ t = { s with dt64 := t.dt64, regs := t.regs, sft := t.sft })) ∧
    (∀ (r : Fin 32) (rev : Bool) (f : RxFrame), ∀ i, i = Instr.rslPduRx (.ring r rev f) →
      (∀ n, s.rxLane r.val rev = some n → s.laneUp n = false → exec i s = .next s) ∧
      (∀ n, s.rxLane r.val rev = some n → s.laneUp n = true → ∀ g, g = { f with intact := f.intact && !(s.lane n).drop } →
        (∀ off, frameCheck r.val rev g = some off → ∃ t, exec i s = .next t ∧
          t.regF ((0x30 + r.val) * 0x1000 + off) 0 16 = satInc 16 (s.regF ((0x30 + r.val) * 0x1000 + off) 0 16) ∧
          t = { s with regs := t.regs, scribe := t.scribe, lanes := t.lanes, rings := t.rings }) ∧
        (frameCheck r.val rev g = none → frameType g.bytes ≠ 7 → ∃ t, exec i s = .next t ∧ t = { s with lanes := t.lanes }) ∧
        (frameCheck r.val rev g = none → frameType g.bytes = 7 → ∃ t, exec i s = .next t ∧ t.dt64 = (s.reach g.eof).dt64 ∧
          ((s.paired = false ∨ s.role ≠ 2 ∨ frameRelay g.bytes = true) → t.fq = s.fq) ∧
          (s.enabled 0x90 = true → ∀ j, s.connOf (framePayload g.bytes) = some j → ∀ seq, seq = leAt (framePayload g.bytes) 4 2 →
            (∀ q ∈ (s.conn j).waiting, q.seq ≠ seq) → seq ∉ (s.conn j).late → (t.conn j).waiting = (s.conn j).waiting ++
            [{ seq := seq, pdu := framePayload g.bytes, at_ := t.dt64, path := b2n rev }]) ∧
          regsBut s t [R.SFT.DISCNT, R.SFT.SCVCNT] ∧
          t = { s with dt64 := t.dt64, regs := t.regs, sft := t.sft, lanes := t.lanes, fq := t.fq, scribe := t.scribe }))) ∧
    (∀ at_, at_ = (s.sft.tick - 1) * 8000000 + 480000 →
      ∀ runs : Bool, runs = (s.enabled 0x90 && decide (s.sft.tick ≠ 0) && s.sft.test.isNone && decide (s.dt64 ≤ at_)) →
      ((runs = false ∨ s.testReady = none) → exec .offPulseStart s = .next s) ∧
      (runs = true → ∀ e, s.testReady = some e → ∃ t, exec .offPulseStart s = .next t ∧ t.dt64 = (s.reach at_).dt64 ∧
        t.sft = { s.sft with test := some (e, at_), testLost := false } ∧ t.regF R.SIO.TSTA 0 3 = e % 8 ∧ t.regB R.SIO.TSTA 3 = true ∧
        (t.sioOut ((s.testWord e).bit 2)).testBit ((s.testWord e).fld 0 2) = false ∧
        regsBut s t [R.SIO.TSTA] ∧ t = { s with dt64 := t.dt64, regs := t.regs, sft := t.sft })) ∧
    (∀ (low : Bool) (back : Option Nat) (x : BitVec 4),
      (s.sft.test = none → exec (.offPulseEnd low back x) s = .next s) ∧
      (∀ q, s.sft.test = some q → q.1 < 8 → ∀ p, p = (s.testWord q.1).fld 0 2 → ∀ lim, lim = 16000 * s.regF R.SIO.RBTIM 16 16 →
        ∀ ok : Bool, ok = (low && back.any fun d => Nat.ble d lim) →
        ∀ lost : Bool, lost = s.sft.testLost → ∃ t, exec (.offPulseEnd low back x) s = .next t ∧
        t.dt64 = (s.reach (q.2 + s.testWidth q.1 + Nat.min (back.getD lim) lim)).dt64 ∧ t.sft.test = none ∧
        t.sft.sird = x.toNat ∧ NMap.get none t.sft.tests q.1 = none ∧ t.regB R.SIO.TSTA 3 = false ∧
        (lost = true → regsBut s t [R.SIO.TSTA] ∧ t.sft.passed = s.sft.passed ∧ t.scribe = s.scribe) ∧
        (lost = false → t.regF R.SIO.TSTA 8 4 = q.1 ∧ t.regB R.SIO.TSTA 12 = ok) ∧
        (lost = false → ok = true → t.sft.passed.testBit q.1 = true ∧
          t.regF R.SIO.TDONE 0 16 = satInc 16 (s.regF R.SIO.TDONE 0 16) ∧ t.reg (R.SIO.TLAST q.1) = wd (q.2 / 8000000) ∧
          t.regB (R.IRQS 0x91) 2 = true ∧ t.scribe = s.scribe ∧ t.reg R.SIO.SLATCH = s.reg R.SIO.SLATCH) ∧
        (lost = false → ok = false → t.sft.passed.testBit q.1 = false ∧
          t.regF R.SIO.TFAIL 0 16 = satInc 16 (s.regF R.SIO.TFAIL 0 16) ∧ t.regB R.SIO.SLATCH p = true ∧
          t.regB (R.IRQS 0x91) 1 = true ∧ s.raised t Src.SIO_TEST_FAIL 0x91) ∧
        regsBut s t [R.SIO.TSTA, R.SIO.TDONE, R.SIO.TFAIL, R.SIO.TLAST q.1, R.SIO.SLATCH, R.IRQS 0x91] ∧
        t = { s with dt64 := t.dt64, regs := t.regs, sft := t.sft, scribe := t.scribe })) ∧
    (∀ (e : Fin 8),
      ((NMap.get none s.sft.tests e.val).all (·.raised) = true → exec (.sioTestDue e) s = .next s) ∧
      (∀ w, NMap.get none s.sft.tests e.val = some w → w.raised = false → ∃ t, exec (.sioTestDue e) s = .next t ∧
        t.dt64 = (s.reach (w.due * 8000000 + 32000000000 * (s.testWord e.val).fld 16 16)).dt64 ∧
        NMap.get none t.sft.tests e.val = some { w with raised := true } ∧ t.regB (R.IRQS 0x91) 4 = true ∧
        s.raised t Src.SIO_TEST_DUE 0x91 ∧ regsBut s t [R.IRQS 0x91] ∧
        t = { s with dt64 := t.dt64, regs := t.regs, sft := t.sft, scribe := t.scribe })) ∧
    (∀ (p : Fin 4) (x : BitVec 4) (since : Nat), ∀ s1, s1 = { s with sft := { s.sft with sird := x.toNat } } →
      ∀ tested : Bool, tested = (s.sft.test.any fun q => (s.testWord q.1).fld 0 2 == p.val) →
      ∀ trips : Bool, trips = (!tested && (x.toNat.testBit p.val != s.energised p.val) && !s.regB R.SIO.SLATCH p.val &&
        Nat.blt (16000000 * s.regF R.SIO.RBTIM 0 16) since) →
      (trips = false → exec (.sioRb p ⟨x, since⟩) s = .next s1) ∧
      (trips = true → ∃ t, exec (.sioRb p ⟨x, since⟩) s = .next t ∧ t.regB R.SIO.SLATCH p.val = true ∧
        t.regB (R.IRQS 0x91) 0 = true ∧ s.raised t Src.SIO_RB 0x91 ∧ t.energised p.val = false ∧
        regsBut s t [R.SIO.SLATCH, R.IRQS 0x91] ∧ t = { s1 with regs := t.regs, scribe := t.scribe })) ∧
    (s.writable 0x90 = true → (∀ c : BitVec 8,
        (160 ≤ c.toNat ∨ (s.conn c.toNat).state % 4 ≠ 2 → exec (.cack c) s = .next s) ∧
        (c.toNat < 160 → (s.conn c.toNat).state % 4 = 2 → ∃ t, exec (.cack c) s = .next t ∧
          t.conn c.toNat = { s.conn c.toNat with ack := true } ∧ (∀ j < 160, j ≠ c.toNat → t.conn j = s.conn j) ∧
          t = { s with sft := { s.sft with conns := t.sft.conns } })) ∧
      (s.plan.run = true → exec .dclr s = .next (s.irq 0x90 5)) ∧
      (s.plan.run = false → exec .dclr s =
        .next { s with sft := { s.sft with divA := false, divB := false, tickA := false, tickB := false } })) ∧
    (s.writable 0x91 = true → ∀ (v : Word) (x : BitVec 4), ∃ t, exec (.slatchClear v x) s = .next t ∧
      t.sft = { s.sft with sird := x.toNat } ∧ (∀ p < 4, t.regB R.SIO.SLATCH p =
        (s.regB R.SIO.SLATCH p && !(v.bit p && !x.toNat.testBit p))) ∧
      (∀ p < 4, v.bit p = true → s.regB R.SIO.SLATCH p = true → x.toNat.testBit p = true → t.regB (R.IRQS 0x91) 3 = true) ∧
      regsBut s t [R.SIO.SLATCH, R.IRQS 0x91] ∧ t = { s with regs := t.regs, sft := t.sft }) ∧
    (s.pageUp 0x90 = true → ∃ t, exec .sxmdRead s = .next t ∧
      t.regF R.SFT.SXMA 2 13 = (s.regF R.SFT.SXMA 2 13 + 1) % 8192 ∧ regsBut s t [R.SFT.SXMA] ∧ t = { s with regs := t.regs })

/-- FAULT_RAISE records the next raise on its way (one of the oldest of different classes), one from outside joining first
where its source has an owner: its class counter counts; severity 0 has no record; a source with an unacknowledged
record counts there and escalates once; any other raise makes a record, at LOGWP where that slot is free, escalated
where its class has one unacknowledged, else first and captured. STOP and TRIP act on JG1 of the head that acts on the
stack, TRIP sets the hold, RESET makes the drive due. ACKC and ACKALL acknowledge the records of classes and clear
their captures. TRCLR ends the hold with JG1 STOPPED and no record of TRIP or above, else IRQS bit 4. LREC0 latches a
record. SCRIBE_RESET_DRIVE drives RST_N low and sets its cause. Else nothing changes. (Derived from:
15_scribe_faults.md: R449, R450, R452, R453, R455, R456, R457, R458, R459, R460, R461, R463.) -/
def Obligations.FaultsRecorded : Prop :=
  (∀ (s : State), s.scribe.inflight = [] → exec (.faultRaise none) s = .next s) ∧
  (∀ (s : State) (ext : Option ExtRaise), (∀ e, ext = some e → e.src ≠ 0xA2 ∧ e.src ≠ 0xA3 ∧ e.src ≠ 0x98 ∧ e.src ≠ 0x99) →
    ∀ s1, s1 = (match ext with
      | some e => if sourceNamed e.src.toNat then s.fault e.src.toNat e.page.toNat e.addr.toNat e.master.toNat e.acc.toNat
          e.detail.toNat else s
      | none => s) →
    ∀ x, nextRaises s1.scribe.inflight = [x] → ∀ c, c = Src.classOf x.src → ∀ sev, sev = s.sevOf x.src →
    ∃ t, exec (.faultRaise ext) s = .next t ∧ t.scribe.inflight = s1.scribe.inflight.erase x ∧
      t.regF (R.SCR.CNT c) 0 16 = satInc 16 (s.regF (R.SCR.CNT c) 0 16) ∧
      (sev = 0 → regsBut s t [R.SCR.CNT c] ∧ t = { s with regs := t.regs, scribe := { s.scribe with inflight := t.scribe.inflight } }) ∧
      (sev ≠ 0 → ∀ q, s.recOf x.src = some q →
        ∀ esc : Bool, esc = (!q.2.esc && Nat.blt q.2.sevp 5) →
        t.logAt q.1 = some { q.2 with count := satInc 8 q.2.count, tlast := x.time % 2 ^ 32, esc := q.2.esc || esc,
                                      sevt := if esc then q.2.sevp + 1 else q.2.sevt } ∧
        t.reg R.SCR.RECCNT = s.reg R.SCR.RECCNT ∧ t.reg R.SCR.LOGWP = s.reg R.SCR.LOGWP ∧
        t.regF R.SCR.ESCCNT 0 16 = (if esc then satInc 16 (s.regF R.SCR.ESCCNT 0 16) else s.regF R.SCR.ESCCNT 0 16) ∧
        (esc = false → t.jig = s.jig ∧ t.scribe.hold = s.scribe.hold ∧ t.scribe.resetDue = s.scribe.resetDue)) ∧
      (sev ≠ 0 → s.recOf x.src = none → ∀ first : Bool, first = !(s.unacked.any fun p => p.1 == c) →
        ∀ sevt, sevt = (if !first && sev < 5 then sev + 1 else sev) → ∀ wp, wp = s.regF R.SCR.LOGWP 0 8 →
        t.regF R.SCR.RECCNT 0 32 = satInc 32 (s.regF R.SCR.RECCNT 0 32) ∧ t.regB (R.IRQS 0x98) 0 = true ∧
        ((s.logAt wp).all (·.ack) = true → t.regF R.SCR.LOGWP 0 8 = (wp + 1) % 256 ∧
          t.logAt wp = some { raise := x, sevp := sev, sevt := sevt, esc := !first && decide (sev < 5), first := first,
                              ack := false, lostb := s.scribe.lostb, count := 0, tlast := 0, seq := s.scribe.seq }) ∧
        ((s.logAt wp).all (·.ack) = false → oldestAcked s.scribe.log = none →
          t.regF R.SCR.LOSTCNT 0 16 = satInc 16 (s.regF R.SCR.LOSTCNT 0 16) ∧ t.regB (R.IRQS 0x98) 2 = true ∧
          t.scribe.lostb = true ∧ t.scribe.log = s.scribe.log) ∧
        (first = true → t.reg (R.SCR.FEADDR c) = wd x.addr ∧ t.regB (R.SCR.FEINFO c) 31 = true ∧
          t.regF (R.SCR.FEINFO c) 0 8 = x.src % 256 ∧ t.reg (R.SCR.FETL c) = wd x.time) ∧
        (first = false → t.reg (R.SCR.FEADDR c) = s.reg (R.SCR.FEADDR c) ∧ t.reg (R.SCR.FEINFO c) = s.reg (R.SCR.FEINFO c)) ∧
        (sevt < 3 → t.jig = s.jig ∧ t.scribe.hold = s.scribe.hold ∧ t.scribe.resetDue = s.scribe.resetDue) ∧
        (sevt = 3 → s.active = true → (t.inst stackInst).pend.testBit 1 = true ∧ t.scribe.hold = s.scribe.hold) ∧
        (4 ≤ sevt → s.active = true → (t.inst stackInst).pend.testBit 0 = true ∧ t.scribe.hold = true) ∧
        (sevt = 5 → t.regB R.SCR.RRECV 0 = true ∧ t.scribe.resetDue = some (s.scribe.resetDue.getD s.dt64))) ∧
      t.dt64 = s.dt64 ∧ t.mem = s.mem ∧ t.plan = s.plan) ∧
  (∀ (s : State) (e : ExtRaise), ∀ n, n = e.addr.toNat / 0x1000000 % 16 → ∀ ue : Bool, ue = decide (e.src = 0xA3) →
    (e.src = 0xA2 ∨ e.src = 0xA3) → n < 10 → ∃ t, exec (.faultRaise (some e)) s = .next t ∧
      t.regF (R.PE.ECCCNT (engPage n)) (if ue then 16 else 0) 16 =
        satInc 16 (s.regF (R.PE.ECCCNT (engPage n)) (if ue then 16 else 0) 16) ∧
      t.regB (R.PE.ECCADR (engPage n)) 31 = ue ∧ t.regF (R.PE.ECCADR (engPage n)) 0 20 = e.addr.toNat % 0x100000 ∧
      t.regB (R.IRQS (engPage n)) 3 = true ∧ (ue = true → t.engState n = 4) ∧ (ue = false → t.eng = s.eng) ∧
      t.scribe.inflight.length = s.scribe.inflight.length) ∧
  (∀ (s : State) (e : ExtRaise), ∀ a, a = e.addr.toNat % 256 → (e.src = 0x98 ∨ e.src = 0x99) → s.inMap a = true →
    ∃ t, exec (.faultRaise (some e)) s = .next t ∧ (t.inst a).pend.testBit (if e.src = 0x98 then 4 else 0) = true) ∧
  (∀ (s : State), s.writable 0x98 = true →
    (∀ (m : BitVec 16), ∀ q ∈ [(Instr.ackc m, m.toNat), (Instr.ackall, 0xFFFF)], ∃ t, exec q.1 s = .next t ∧
      (∀ i, t.logAt i = (s.logAt i).map fun r => if q.2.testBit (Src.classOf r.raise.src) then { r with ack := true } else r) ∧
      t.scribe.lost = s.scribe.lost.filter (fun p => !q.2.testBit p.1) ∧
      (∀ c < 16, t.reg (R.SCR.FEINFO c) = if q.2.testBit c then (s.reg (R.SCR.FEINFO c)).setBit 31 false
        else s.reg (R.SCR.FEINFO c)) ∧ regsBut s t ((List.range 16).map R.SCR.FEINFO) ∧
      t = { s with regs := t.regs, scribe := { s.scribe with log := t.scribe.log, lost := t.scribe.lost } }) ∧
    (∀ may : Bool, may = (decide ((s.inst stackInst).st = 0) && !s.unacked.any fun p => Nat.ble 4 p.2.2) →
      (may = true → exec .trclr s = .next { s with scribe := { s.scribe with hold := false, heldAt := none } }) ∧
      (may = false → exec .trclr s = .next (s.irq 0x98 4)))) ∧
  (∀ (s : State), s.pageUp 0x98 = true → ∀ (src : HSrc), ∃ t, exec (.lrec0Read src) s = .next t ∧
      NMap.get [] t.scribe.lrec (srcNo src) = (match s.logAt (s.regF R.SCR.LSEL 0 8) with
        | some r => r.words
        | none => List.replicate 8 0) ∧ t = { s with scribe := { s.scribe with lrec := t.scribe.lrec } }) ∧
  (∀ (s : State) (d : Nat), (s.scribe.resetDue = none → exec (.scribeResetDrive d) s = .next s) ∧
    (∀ a, s.scribe.resetDue = some a → ∃ t, exec (.scribeResetDrive d) s = .next t ∧ t.scribe.resetDue = none ∧
      t.regB R.RST.RCAUSE 4 = true ∧ t.rst.cause.testBit 4 = true ∧ t.rst.drive ≥ t.rstNow + 8000000 ∧
      (s.rstLow = false → t.rst.low = some t.rstNow) ∧
      (s.scribe.heldAt = none → s.scribe.freeAt = none →
        t.dt64 = (s.reach (a + clampNat 3883200 4123200 d)).dt64) ∧
      (s.scribe.heldAt = none → ∀ f, s.scribe.freeAt = some f →
        t.dt64 = (s.reach (Nat.min (a + clampNat 3883200 4123200 d) (Nat.max f (a + 320000)))).dt64) ∧
      (∀ b, s.scribe.heldAt = some b → b + 16000 ≤ s.dt64 → s.dt64 < 2 ^ 63 → t.dt64 = s.dt64) ∧ regsBut s t [R.RST.RCAUSE] ∧
      t = { s with dt64 := t.dt64, regs := t.regs, rst := t.rst, scribe := { s.scribe with resetDue := none, freeAt := none } }))

/-- REF_SWITCH: the sources it names are no longer usable; where the source in use is one of them, then from the primary,
with FBEN = 1 and the other usable, the other is used, CLK_REF_SWITCH; else SFB, CLK_REF_LOST, with both PLLs losing
lock; REFSWCNT and IRQS bit 2 either way. REFRET with no plan and the primary usable goes back to it; else IRQS bit 4.
REFERENCE_USABLE sets MEMSOK or REFINOK and the SFB watch. CLK_MISSING and CLK_GOOD change the mark of a watched
domain with IRQS bit 3, CLK_MISSING raised where the domain is out of reset. CLK_SFB, while the watch runs, gives
SFBFRQ and is raised outside 90 to 110 MHz. SFB_SILENT then drives RST_N low. Else nothing changes. (Derived from:
16_clocks.md: R465, R466, R467, R474, R477, R480, R481, R485, R486.) -/
def Obligations.ClockReferences : Prop :=
  ∀ (s : State),
    (∀ lost : BitVec 2,
      ((s.refAct = 2 ∨ lost.toNat.testBit s.refAct = false) → ∃ t, exec (.refSwitch lost) s = .next t ∧
        (∀ src < 2, t.ckB (refOkBit src) = (s.ckB (refOkBit src) && !lost.toNat.testBit src)) ∧
        t.ckB 7 = (if lost = 0 then s.ckB 7 else t.ckB 16 || t.ckB 17) ∧ t.refAct = s.refAct ∧
        regsBut s t [R.CLK.CKSTA] ∧ t = { s with regs := t.regs }) ∧
      (s.refAct < 2 → lost.toNat.testBit s.refAct = true →
        ∀ oOk : Bool, oOk = (s.ckB (refOkBit (1 - s.refAct)) && !lost.toNat.testBit (1 - s.refAct)) →
        ∀ other : Bool, other = (oOk && decide (s.refAct = s.regF R.CLK.CKCFG 0 1) && s.regB R.CLK.CKCFG 4) →
        ∃ t, exec (.refSwitch lost) s = .next t ∧ t.refAct = (if other then 1 - s.refAct else 2) ∧
        t.regF (R.PSTA 2) 16 2 = t.refAct ∧ t.ckB (refOkBit s.refAct) = false ∧ t.ckB (refOkBit (1 - s.refAct)) = oOk ∧
        t.ckB 7 = oOk ∧ t.regF R.CLK.REFSWCNT 0 16 = satInc 16 (s.regF R.CLK.REFSWCNT 0 16) ∧
        t.regB (R.IRQS 2) 2 = true ∧ t.clk.swAt = some s.dt64 ∧
        (other = true → s.raised t Src.CLK_REF_SWITCH 2 ∧ regsBut s t [R.CLK.CKSTA, R.PSTA 2, R.CLK.REFSWCNT, R.IRQS 2] ∧
          t = { s with regs := t.regs, clk := t.clk, scribe := t.scribe }) ∧
        (other = false → (t.scribe.inflight.any fun f => f.src == Src.CLK_REF_LOST && f.page == 2) = true ∧
          t.ckB 2 = false ∧ t.ckB 3 = false ∧ (s.ckB 2 = true → t.ckB 4 = true) ∧ (s.ckB 3 = true → t.ckB 5 = true ∧
            t.dstate = 4)) ∧ t.dt64 = s.dt64 ∧ t.mem = s.mem)) ∧
    (s.writable 2 = true → ∀ p, p = s.regF R.CLK.CKCFG 0 1 →
      ((s.plan.run = true ∨ s.ckB (refOkBit p) = false) → exec .refret s = .next (s.irq 2 4)) ∧
      (s.plan.run = false → s.ckB (refOkBit p) = true → s.refAct = p → exec .refret s = .next s) ∧
      (s.plan.run = false → s.ckB (refOkBit p) = true → s.refAct ≠ p → ∃ t, exec .refret s = .next t ∧ t.refAct = p ∧
        t.regF (R.PSTA 2) 16 2 = p ∧ t.regF R.CLK.REFSWCNT 0 16 = satInc 16 (s.regF R.CLK.REFSWCNT 0 16) ∧
        t.regB (R.IRQS 2) 2 = true ∧ t.clk.swAt = some s.dt64 ∧ (s.refAct ≠ 2 → s.raised t Src.CLK_REF_SWITCH 2) ∧
        (s.refAct = 2 → t.scribe = s.scribe) ∧ regsBut s t [R.CLK.CKSTA, R.PSTA 2, R.CLK.REFSWCNT, R.IRQS 2] ∧
        t = { s with regs := t.regs, clk := t.clk, scribe := t.scribe })) ∧
    (∀ r : Bool, ∃ t, exec (.referenceUsable r) s = .next t ∧ t.ckB (if r then 16 else 17) = true ∧ t.ckB 7 = true ∧
      (∀ i < 32, i ≠ 7 → i ≠ (if r then 16 else 17) → t.ckB i = s.ckB i) ∧ regsBut s t [R.CLK.CKSTA] ∧
      t = { s with regs := t.regs }) ∧
    (∀ d : Fin 8, ((watched d.val = false ∨ s.ckB (8 + d.val) = false) → exec (.clkMissing d) s = .next s) ∧
      (watched d.val = true → s.ckB (8 + d.val) = true → ∃ t, exec (.clkMissing d) s = .next t ∧ t.ckB (8 + d.val) = false ∧
        t.regB (R.IRQS 2) 3 = true ∧ (s.rst.held.testBit d.val = false → s.raised t Src.CLK_MISSING 2) ∧
        (s.rst.held.testBit d.val = true → t.scribe = s.scribe) ∧ regsBut s t [R.CLK.CKSTA, R.IRQS 2] ∧
        t = { s with regs := t.regs, scribe := t.scribe }) ∧
      ((watched d.val = false ∨ s.ckB (8 + d.val) = true) → exec (.clkGood d) s = .next s) ∧
      (watched d.val = true → s.ckB (8 + d.val) = false → ∃ t, exec (.clkGood d) s = .next t ∧ t.ckB (8 + d.val) = true ∧
        t.regB (R.IRQS 2) 3 = true ∧ regsBut s t [R.CLK.CKSTA, R.IRQS 2] ∧ t = { s with regs := t.regs })) ∧
    (∀ khz : BitVec 32, (s.ckB 7 = false → exec (.clkSfb khz) s = .next s) ∧
      (s.ckB 7 = true → ∃ t, exec (.clkSfb khz) s = .next t ∧ t.reg R.CLK.SFBFRQ = khz ∧ regsBut s t [R.CLK.SFBFRQ] ∧
        ((khz.toNat < 90000 ∨ 110000 < khz.toNat) → s.raised t Src.CLK_SFB 2) ∧
        (90000 ≤ khz.toNat → khz.toNat ≤ 110000 → t.scribe = s.scribe) ∧ t = { s with regs := t.regs, scribe := t.scribe })) ∧
    (s.ckB 7 = false → exec .sfbSilent s = .next s) ∧
    (s.ckB 7 = true → ∃ t, exec .sfbSilent s = .next t ∧ t.regB R.RST.RCAUSE 5 = true ∧ t.rst.silent = true ∧
      t.rst.cause.testBit 5 = true ∧ (s.rstLow = false → t.rst.low = some s.rstNow) ∧
      (s.rstLow = true → t.rst.low = s.rst.low) ∧ regsBut s t [R.RST.RCAUSE] ∧ t = { s with regs := t.regs, rst := t.rst })

/-- CLK_A_LOL of a locked PLL-A: not locked, SYS and ENG on SFB, LOLCNT and IRQS bit 0, CLK_A_LOL raised. CLK_T_LOL of a
locked PLL-T: in holdover, LOLCNT and IRQS bit 1, Datum in HOLDOVER, CLK_T_LOL raised. Either takes an ACTIVE paired
head to OFF. PLL_LOCK, not on SFB, of a PLL not locked (PLL-T not in holdover) marks it locked with its IRQS bit.
PLL_A_RETURN with ARET = 1, locked for 1 ms, takes SYS and ENG back at once with no plan, else at a TS2 recognition.
PLL_T_RELOCK ends holdover, Datum returning to the state it left. HRATIO_MEASURE gives HRATIO while PLL-T is locked.
Else nothing changes. (Derived from: 16_clocks.md: R470, R474, R475, R477, R478, 11_head_pairing.md: R353,
03_datum_time.md: R99.) -/
def Obligations.PllLock : Prop :=
  ∀ (s : State),
    (s.ckB 2 = false → exec .clkALol s = .next s) ∧
    (s.ckB 2 = true → ∃ t, exec .clkALol s = .next t ∧ t.ckB 2 = false ∧ t.ckB 4 = true ∧
      t.regF R.CLK.LOLCNT 0 16 = satInc 16 (s.regF R.CLK.LOLCNT 0 16) ∧ t.regB (R.IRQS 2) 0 = true ∧ t.clk.aSince = none ∧
      s.raised t Src.CLK_A_LOL 2 ∧ t.role = (if s.paired && s.role = 4 then 0 else s.role) ∧
      regsBut s t [R.CLK.CKSTA, R.CLK.LOLCNT, R.IRQS 2, R.HPR.HSTA, R.PSTA 0x88, R.IRQS 0x88] ∧
      ((s.paired = false ∨ s.role ≠ 4) → regsBut s t [R.CLK.CKSTA, R.CLK.LOLCNT, R.IRQS 2] ∧
        t = { s with regs := t.regs, clk := t.clk, scribe := t.scribe })) ∧
    (s.ckB 3 = false → exec .clkTLol s = .next s) ∧
    (s.ckB 3 = true → ∃ t, exec .clkTLol s = .next t ∧ t.ckB 3 = false ∧ t.ckB 5 = true ∧
      t.regF R.CLK.LOLCNT 16 16 = satInc 16 (s.regF R.CLK.LOLCNT 16 16) ∧ t.regB (R.IRQS 2) 1 = true ∧
      s.raised t Src.CLK_T_LOL 2 ∧ t.dstate = 4 ∧ (s.dstate ≠ 4 → t.datum.left = some s.dstate ∧ t.datum.tv = false) ∧
      t.role = (if s.paired && s.role = 4 then 0 else s.role) ∧ t.dt64 = s.dt64 ∧
      ((s.paired = false ∨ s.role ≠ 4) → regsBut s t [R.CLK.CKSTA, R.CLK.LOLCNT, R.IRQS 2, R.DTM.DTSTA, R.IRQS 8] ∧
        t = { s with regs := t.regs, datum := t.datum, scribe := t.scribe })) ∧
    (s.refAct = 2 → ∀ b : Bool, exec (.pllLock b) s = .next s) ∧
    (s.refAct ≠ 2 → ((s.ckB 3 = true ∨ s.ckB 5 = true) → exec (.pllLock true) s = .next s) ∧
      (s.ckB 3 = false → s.ckB 5 = false → ∃ t, exec (.pllLock true) s = .next t ∧ t.ckB 3 = true ∧
        t.regB (R.IRQS 2) 1 = true ∧ regsBut s t [R.CLK.CKSTA, R.IRQS 2] ∧ t = { s with regs := t.regs }) ∧
      (s.ckB 2 = true → exec (.pllLock false) s = .next s) ∧
      (s.ckB 2 = false → ∃ t, exec (.pllLock false) s = .next t ∧ t.ckB 2 = true ∧ t.regB (R.IRQS 2) 0 = true ∧
        t.clk.aSince = some s.dt64 ∧ t.ckB 4 = s.ckB 4 ∧ regsBut s t [R.CLK.CKSTA, R.IRQS 2] ∧
        t = { s with regs := t.regs, clk := t.clk })) ∧
    ((s.clk.aSince = none ∨ s.ckB 4 = false ∨ s.ckB 2 = false ∨ s.regB R.CLK.CKCFG 5 = false) →
      exec .pllAReturn s = .next s) ∧
    (∀ a, s.clk.aSince = some a → s.ckB 4 = true → s.ckB 2 = true → s.regB R.CLK.CKCFG 5 = true →
      (s.plan.run = false → ∃ t, exec .pllAReturn s = .next t ∧ t.dt64 = (s.reach (a + 16000000)).dt64 ∧ t.ckB 4 = false ∧
        regsBut s t [R.CLK.CKSTA] ∧ t = { s with dt64 := t.dt64, regs := t.regs }) ∧
      (s.plan.run = true → s.clk.ts2 = some s.engCycle → s.passed (a + 16000000) = true →
        exec .pllAReturn s = .next (s.setCk 4 false)) ∧
      (s.plan.run = true → (s.clk.ts2 ≠ some s.engCycle ∨ s.passed (a + 16000000) = false) →
        exec .pllAReturn s = .next s)) ∧
    ((s.ckB 5 = false ∨ s.refAct = 2) → exec .pllTRelock s = .next s) ∧
    (s.ckB 5 = true → s.refAct ≠ 2 → ∃ t, exec .pllTRelock s = .next t ∧ t.ckB 5 = false ∧ t.ckB 3 = true ∧
      t.regB (R.IRQS 2) 1 = true ∧ t.dt64 = s.dt64 ∧
      (s.dstate = 4 → t.dstate = (s.datum.left.getD 0) % 8 ∧ t.datum.left = none ∧
        (s.plan.run = true → t.datum.tvDue = true ∧ t.datum.tv = s.datum.tv) ∧ (s.plan.run = false → t.datum.tv = true)) ∧
      (s.dstate ≠ 4 → t.datum = s.datum) ∧ regsBut s t [R.CLK.CKSTA, R.IRQS 2, R.DTM.DTSTA, R.IRQS 8] ∧
      t = { s with regs := t.regs, datum := t.datum }) ∧
    (∀ q : BitVec 32, (s.ckB 3 = false → exec (.hratioMeasure q) s = .next s) ∧
      (s.ckB 3 = true → exec (.hratioMeasure q) s = .next (s.setReg R.CLK.HRATIO q)))

/-- The lock-out asserting sets BROWN and is a power-on reset, as is the start or loss of the power-on domain: every
register and memory at its reset value but flash, fuses and the spare record; after a brown-out RCAUSE and RLAST say
so. RST_N_FALL, and the host's keys where the lock is open, pull RST_N low. 1 µs after the fall, still low, a core
reset: Level C registers at reset, engines and their data memories cleared, CFGD 0, legs off, a restore due where CFGD
was 1, a load under way back at ENGINES. 100 µs after, a system reset: all but Level P registers, CKSTA and FADJ at
reset, all domains held. RST_N_RISE ends the power-on drive 1 ms after the lock-out's release, with rails and SFB
good; or the pulse with RWIDTH; RLAST gets the level reached and the causes, one under 0.5 µs resets nothing.
TAP_RESET resets the TAP controller. Else nothing changes. (Derived from: 17_power_reset_boot.md: R488, R489, R491,
R492, R493, R495, R496, R510, R514, 00_scope.md: R16.) -/
def Obligations.SupplyAndResets : Prop :=
  (∀ (s : State),
    ((s.rst.powered = false ∨ s.rst.por = true) → exec .vinLockoutAssert s = .next s) ∧
    (s.rst.powered = false → exec .vinLockoutRelease s = .next s ∧ exec .powerOnDomainLoss s = .next s) ∧
    (s.rst.powered = true → exec .powerOnDomainStart s = .next s ∧ (s.rst.por = false → exec .vinLockoutRelease s = .next s) ∧
      (s.rst.por = true → exec .vinLockoutRelease s = .next { s with rst := { s.rst with por := false, porAt := s.rstNow } })) ∧
    (∀ q ∈ ([(.vinLockoutAssert, true, true, s.rst.powered && !s.rst.por), (.powerOnDomainStart, true, s.rst.brown, !s.rst.powered),
        (.powerOnDomainLoss, false, false, s.rst.powered)] : List (Instr × Bool × Bool × Bool)), q.2.2.2 = true →
      ∃ t, exec q.1 s = .next t ∧ t.rst.powered = q.2.1 ∧ t.rst.brown = q.2.2.1 ∧ t.rst.por = true ∧ t.rst.porDrive = q.2.1 ∧ t.rst.clamp = true ∧ t.rst.low = none ∧
      t.rst.held = State.reset.rst.held ∧ t.rst.cold = true ∧
      (q.2.2.1 = true → t.reg R.RST.RCAUSE = 3 ∧ t.reg R.RST.RLAST = 0x33) ∧
      regsBut State.reset t (if q.2.2.1 then [R.RST.RCAUSE, R.RST.RLAST] else []) ∧
      (s.sec.cmd = none → t.sec.slots = s.sec.slots) ∧ (s.sec.raise = none → t.sec.floor = s.sec.floor) ∧
      (s.sec.update = none → t.flash = s.flash) ∧
      t = { State.reset with
        regs := t.regs, flash := t.flash, spare := s.spare, sec := t.sec, free := t.free, pending := s.pending, rst := t.rst }) ∧
    (∃ t, exec .rstNFall s = .next t ∧ t.rst.ext = true ∧
      (s.rstLow = false → t.rst.low = some s.rstNow ∧ t.rst.level = 0 ∧ t.rst.cause = 0) ∧
      (s.rstLow = true → t.rst = { s.rst with ext := true }) ∧ t = { s with rst := t.rst }) ∧
    (s.writable 1 = true → ∀ q ∈ ([(.rcmdCore, 6, 320000), (.rcmdSystem, 7, 8000000)] : List (Instr × Nat × Nat)),
      (s.regB (R.WLCK 1) 0 = false → ∃ t, exec q.1 s = .next t ∧
        t.regF (R.WLCK 1) 8 8 = satInc 8 (s.regF (R.WLCK 1) 8 8) ∧ t.regB (R.IRQS 1) 31 = true ∧
        regsBut s t [R.WLCK 1, R.IRQS 1] ∧ t = { s with regs := t.regs }) ∧
      (s.regB (R.WLCK 1) 0 = true → ∃ t, exec q.1 s = .next t ∧ t.regB R.RST.RCAUSE q.2.1 = true ∧
        t.rst.cause.testBit q.2.1 = true ∧ s.rstNow + q.2.2 ≤ t.rst.drive ∧
        (s.rstLow = false → t.rst.low = some s.rstNow ∧ t.rst.drive = s.rstNow + q.2.2) ∧
        (s.rstLow = true → t.rst.low = s.rst.low ∧ t.rst.drive = Nat.max s.rst.drive (s.rstNow + q.2.2)) ∧
        regsBut s t [R.RST.RCAUSE] ∧ t = { s with regs := t.regs, rst := t.rst })) ∧
    exec .tapReset s = .next { s with rst := { s.rst with tapReset := true } }) ∧
  (∀ (s : State),
    (s.rst.low = none → exec .coreResetStart s = .next s ∧ exec .systemResetStart s = .next s) ∧
    (∀ a, s.rst.low = some a →
      (∀ go : Bool, go = (decide (s.rst.level = 0) && (s.rst.ext || s.rst.silent || Nat.ble (a + 16000) s.rst.drive)) →
        (go = false → exec .coreResetStart s = .next s) ∧
        (go = true → ∃ t, exec .coreResetStart s = .next t ∧ t.dt64 = (s.rstReach (a + 16000)).dt64 ∧ t.rst.level = 1 ∧
          t.regB R.RST.BSTA 4 = false ∧ t.restoring = (s.regB R.RST.BSTA 4 || s.restoring) ∧
          (s.regB R.RST.BSTA 4 = false → s.restoring = false → s.domHeld 0 = false → s.regF R.RST.BSTA 0 4 = 0 →
            t.regF R.RST.BSTA 0 4 = 5) ∧
          s.resetRegs t .C [] [R.RST.BSTA, R.HPR.HSTA, R.IRQS 0x88] ∧ t.reg R.HPR.HSTA = (s.reg R.HPR.HSTA).setBit 6 false ∧
          t.pair.own = [] ∧ t.eng = [] ∧ t.dmem = [] ∧ (∀ k < 12, (t.ll k).side = none) ∧
          (∀ i < 256, (t.inst i).st = if s.regB (R.CLS.RETMAP (i / 32)) (i % 32) && !restoredBy .C (R.CLS.RETMAP (i / 32))
            then 11 else 0) ∧
          t.mem = s.mem ∧ t.sxm = s.sxm ∧ t.flash = s.flash ∧ t.sec = s.sec ∧ t.plan = s.plan ∧ t.datum = s.datum ∧
          t.scribe = s.scribe ∧ t.clk = { s.clk with ts2 := none } ∧ t.pending = s.pending)) ∧
      (∀ go : Bool, go = (Nat.blt s.rst.level 2 && (s.rst.ext || s.rst.silent || Nat.ble (a + 1600000) s.rst.drive)) →
        (go = false → exec .systemResetStart s = .next s) ∧
        (go = true → s.dt64 < 2 ^ 62 → a < 2 ^ 62 → ∃ t, exec .systemResetStart s = .next t ∧
          t.dt64 = (s.rstReach (a + 1600000)).dt64 ∧ t.rst.level = 2 ∧ t.rst.held = 0xAF ∧ t.rst.cold = s.dtmOff ∧
          t.rst.clamp = true ∧
          s.resetRegs t .S [R.CLK.CKSTA, R.DTM.FADJ] [R.PSTA 2] ∧ t.regF (R.PSTA 2) 16 2 = s.refAct ∧
          (s.sec.cmd = none → t.sec.slots = s.sec.slots) ∧ (s.sec.raise = none → t.sec.floor = s.sec.floor) ∧
          t.mem = [] ∧ t.scribe = {} ∧ t.plan = {} ∧ (s.sec.update = none → t.flash = s.flash) ∧ t.spare = s.spare ∧ t.pending = s.pending)))) ∧
  (∀ (s : State) (x : Nat),
    (s.rst.por = true → exec (.rstNRise x) s = .next s) ∧
    (s.rst.por = false → s.rst.porDrive = true →
      ((s.domHeld 7 = true ∨ s.regB R.PWR.PWSTA 0 = false) → exec (.rstNRise x) s = .next s) ∧
      (s.domHeld 7 = false → s.regB R.PWR.PWSTA 0 = true → ∀ u, u = s.rstReach (s.rst.porAt + 16000000) →
        exec (.rstNRise x) s =
          .next { u with rst := { u.rst with porDrive := false, low := none, ext := false, roseAt := u.rstNow } })) ∧
    (s.rst.por = false → s.rst.porDrive = false → s.rst.low = none → exec (.rstNRise x) s = .next s) ∧
    (s.rst.por = false → s.rst.porDrive = false → ∀ a, s.rst.low = some a → ∀ at_, at_ =
      (if s.rst.ext || s.rst.silent then Nat.max (Nat.max x s.rst.drive) a else s.rst.drive) →
      s.dt64 < 2 ^ 62 → at_ < 2 ^ 62 → ∃ t, exec (.rstNRise x) s = .next t ∧ t.dt64 = (s.rstReach at_).dt64 ∧
      t.reg R.RST.RWIDTH = wd (Nat.min ((at_ - a) / 160) 0xFFFFFFFF) ∧ t.rst.low = none ∧ t.rst.ext = false ∧
      t.rst.silent = false ∧ t.rst.drive = 0 ∧ t.rst.cause = 0 ∧ t.rst.level = 0 ∧ t.rst.roseAt = at_ ∧
      (at_ - a < 8000 → s.rst.level = 0 → regsBut s t [R.RST.RWIDTH] ∧ t = { s with dt64 := t.dt64, regs := t.regs, rst := t.rst }) ∧
      (∀ lv, lv = (if 1600000 ≤ at_ - a then 2 else 1) → 16000 ≤ at_ - a → s.rst.level ≤ lv →
        ∀ cause, cause = s.rst.cause ||| (if s.rst.ext then 2 ^ (1 + lv) else 0) →
        t.regF R.RST.RLAST 0 4 = lv ∧ t.reg R.RST.RCAUSE = s.reg R.RST.RCAUSE ||| wd cause ∧
        (cause < 512 → t.regF R.RST.RLAST 4 9 = cause) ∧
        (cause < 4096 → t.regF R.RST.RLAST 16 16 = (s.regF R.RST.RLAST 16 16 + 1) % 65536) ∧
        (s.rst.level = 0 → t.regB R.RST.BSTA 4 = false) ∧
        (lv = 2 → s.rst.level < 2 → t.rst.held = 0xAF))))

/-- DOMAIN_RELEASE of SFB samples the straps and tests the key; of SYS to HST it releases, once all their clocks are good
or 10 ms have passed, those with good clocks, CLK_MISSING for the others. PLL_START_TIMEOUT ends the 10 ms. IMAGE_LOAD
zeroes the memories and takes the first slot in order whose checks pass: STAGE 6, CFGD, its number in BSTA; each
rejected one gives LDREJ and LOAD_FAIL; with none, or BOOTSEL high, it waits for the host. HSTART begins a stream,
LDWIN takes at most 512 words a burst; HEND loads the stream, or rejects it with LOAD_NONE and STAGE 8. RESTORE
reloads the image set in use: CFGD, RST_CORE raised; a failed hash asks for a system reset. Elsewhere nothing changes.
(Derived from: 17_power_reset_boot.md: R497, R498, R500, R501, R502, R503, R504, R505, R507, R508, R509,
18_identity_images.md: R517, R522, R523.) -/
def Obligations.DomainsAndImageLoading : Prop :=
  (∀ (s : State) (h b k : Bool),
    ((s.rst.powered = false ∨ s.rst.por = true ∨ s.rst.low ≠ none ∨ s.domHeld 7 = false) →
      exec (.domainRelease true h b k) s = .next s) ∧
    (s.rst.powered = true → s.rst.por = false → s.rst.low = none → s.domHeld 7 = true → ∃ t, exec (.domainRelease true h b k) s = .next t ∧
      t.domHeld 7 = false ∧ (∀ d < 7, t.domHeld d = s.domHeld d) ∧ t.regB R.HPR.HSTA 3 = h ∧ t.regB R.RST.BSTA 8 = b ∧
      t.rst.bootsel = b ∧ t.regB R.SEC.SSTA 8 = k ∧ t.regB (R.PSTA 0xA0) 16 = k ∧
      (k = false → s.raised t Src.KEY_FAULT 0xA0) ∧ (k = true → t.scribe = s.scribe) ∧
      regsBut s t [R.HPR.HSTA, R.RST.BSTA, R.SEC.SSTA, R.PSTA 0xA0] ∧
      t = { s with regs := t.regs, rst := t.rst, scribe := t.scribe }) ∧
    (∀ due, due = ([0, 1, 2, 3, 5] : List Nat).filter s.domHeld → ∀ good, good = due.filter (fun d => s.ckB (8 + d)) →
      ∀ goes : Bool, goes = (!s.rstLow && !s.domHeld 7 && !good.isEmpty &&
        (decide (good = due) || s.rst.late)) →
      (goes = false → exec (.domainRelease false h b k) s = .next s) ∧
      (goes = true → ∃ t, exec (.domainRelease false h b k) s = .next t ∧
        (∀ d ∈ ([0, 1, 2, 3, 5] : List Nat), t.domHeld d = (s.domHeld d && !s.ckB (8 + d))) ∧
        t.reg R.RST.DOMRST = wd t.rst.held ∧ regsBut s t [R.RST.DOMRST] ∧
        (2 ∈ good → s.rst.cold = true → t.dt64 = 0 ∧ t.rst.cold = false) ∧
        ((2 ∉ good ∨ s.rst.cold = false) → t.dt64 = s.dt64 ∧ t.rst.cold = s.rst.cold) ∧
        (s.domHeld 0 = true → good ≠ due → (t.scribe.inflight.any fun f => f.src == Src.CLK_MISSING && f.page == 2) = true) ∧
        ((s.domHeld 0 = false ∨ good = due) → t.scribe = s.scribe) ∧
        t = { s with dt64 := t.dt64, regs := t.regs, rst := t.rst, scribe := t.scribe })) ∧
    (∀ waits : Bool, waits = (!s.rstLow && !s.rst.late && !s.domHeld 7 && s.domHeld 0) →
      (waits = false → exec .pllStartTimeout s = .next s) ∧
      (waits = true → ∃ t, exec .pllStartTimeout s = .next t ∧ t.rst.late = true ∧
        t.dt64 = (s.rstReach (s.rst.roseAt + 160000000)).dt64 ∧
        (s.rst.cold = false → t = { s with dt64 := t.dt64, rst := { s.rst with late := true } }) ∧
        (s.rst.cold = true → (s.ckB 2 = false → t.ckB 4 = true) ∧ (s.ckB 3 = false → t.ckB 5 = true) ∧
          (s.ckB 2 = false → s.ckB 4 = false → (t.scribe.inflight.any fun f => f.src == Src.CLK_A_LOL && f.page == 2) = true) ∧
          (s.ckB 3 = false → s.ckB 5 = false → (t.scribe.inflight.any fun f => f.src == Src.CLK_T_LOL && f.page == 2) = true) ∧
          t.mem = s.mem)))) ∧
  (∀ (s : State) (took : Nat),
    ∀ may : Bool, may = (!s.domHeld 0 && !s.rstLow && !s.regB R.RST.BSTA 4 && !s.restoring &&
      (decide (s.regF R.RST.BSTA 0 4 = 0) || decide (s.regF R.RST.BSTA 0 4 = 5))) →
    (may = false → exec (.imageLoad took) s = .next s) ∧
    (may = true → ∀ slots, slots = (if s.rst.bootsel then [] else s.slotOrder) → ∃ t, exec (.imageLoad took) s = .next t ∧
      t.dt64 = (s.rstElapse (Nat.min took ((if s.regF R.RST.BSTA 0 4 = 5 then s.rst.roseAt else s.rst.sysAt) +
        (if s.rst.bootsel then 160000000 else 2829440000) - s.rstNow))).dt64 ∧
      (slots.all (fun x => s.sourceCode s.flash (x * slotSize) ≠ 0) = true →
        t.regF R.RST.BSTA 0 4 = 7 ∧ t.regF R.RST.BSTA 5 2 = 2 ∧ t.regB (R.IRQS 1) 2 = true ∧ t.regB R.RST.BSTA 4 = false ∧
        t.mem = [] ∧ t.dmem = [] ∧ t.sxm = [] ∧
        (∀ x, slots.getLast? = some x → t.reg R.SEC.LDREJ = wd (s.sourceCode s.flash (x * slotSize) + x * 16) ∧
          t.regB R.RST.BSTA 7 = true ∧ t.regB (R.IRQS 1) 1 = true ∧
          (t.scribe.inflight.any fun f => f.src == Src.LOAD_FAIL && f.page == 1) = true)) ∧
      (∀ x, slots.find? (fun x => s.sourceCode s.flash (x * slotSize) == 0) = some x →
        t.regB R.RST.BSTA 4 = true ∧ t.regF R.RST.BSTA 0 4 = 6 ∧ t.regF R.RST.BSTA 5 2 = x % 4 ∧
        t.regB (R.IRQS 1) 0 = true) ∧ t.flash = s.flash ∧ t.pending = s.pending)) ∧
  (∀ (s : State), s.writable 1 = true → ∀ wait_ : Bool, wait_ = decide (s.regF R.RST.BSTA 0 4 = 7) →
    (wait_ = false → exec .hstart s = .next s) ∧
    (wait_ = true → ∃ t, exec .hstart s = .next t ∧ t.reg R.RST.LDCNT = 0 ∧ regsBut s t [R.RST.LDCNT] ∧
      t.rst = { s.rst with streaming := true, stream := [] } ∧ t = { s with regs := t.regs, rst := t.rst }) ∧
    (∀ ws : List Word, ((wait_ = false ∨ s.rst.streaming = false) → exec (.ldwinWrite ws) s = .next s) ∧
      (wait_ = true → s.rst.streaming = true → ∀ n, n = s.regN R.RST.LDCNT → ∃ t, exec (.ldwinWrite ws) s = .next t ∧
        t.reg R.RST.LDCNT = wd (n + (ws.take 512).length) ∧ regsBut s t [R.RST.LDCNT] ∧
        (∀ i < (ws.take 512).length, t.rst.stream.readWord (4 * n + 4 * i) = ws.getD i 0) ∧
        (∀ i < 4 * n, t.rst.stream.read i = s.rst.stream.read i) ∧
        t = { s with regs := t.regs, rst := { s.rst with stream := t.rst.stream } })) ∧
    (∀ took : Nat, ((wait_ = false ∨ s.rst.streaming = false) → exec (.hend took) s = .next s) ∧
      (wait_ = true → s.rst.streaming = true → ∀ code, code = s.sourceCode s.rst.stream 0 → ∃ t, exec (.hend took) s = .next t ∧
        t.dt64 = (s.rstElapse (Nat.min took 480000000)).dt64 ∧ t.rst.streaming = false ∧
        (code ≠ 0 → t.regF R.RST.BSTA 0 4 = 8 ∧ t.reg R.SEC.LDREJ = wd (code + 32) ∧ t.regB R.RST.BSTA 7 = true ∧
          t.regB (R.IRQS 1) 1 = true ∧ t.mem = [] ∧ t.dmem = [] ∧ t.sxm = [] ∧
          (t.scribe.inflight.any fun f => f.src == Src.LOAD_NONE && f.page == 1) = true ∧
          regsBut s t [R.RST.BSTA, R.SEC.LDREJ, R.IRQS 1]) ∧
        (code = 0 → t.regB R.RST.BSTA 4 = true ∧ t.regF R.RST.BSTA 0 4 = 6 ∧ t.regF R.RST.BSTA 5 2 = 2 ∧
          t.regB (R.IRQS 1) 0 = true)))) ∧
  (∀ (s : State) (took : Nat), ((s.restoring = false ∨ s.rstLow = true) →
      exec (.restore took) s = .next s) ∧
    (s.restoring = true → s.rstLow = false → ∀ i, i = s.imageInUse →
      ∃ t, exec (.restore took) s = .next t ∧
      t.dt64 = (s.rstElapse (Nat.min took (s.rst.roseAt + 640000000 - s.rstNow))).dt64 ∧
      (hashesOk i.1 i.2 (sections i.1 i.2) = true → t.restoring = false ∧ t.regB R.RST.BSTA 4 = true ∧
        t.regF R.RST.BSTA 0 4 = 6 ∧ t.regB (R.IRQS 1) 0 = true ∧
        (t.scribe.inflight.any fun f => f.src == Src.RST_CORE && f.page == 1) = true) ∧
      (hashesOk i.1 i.2 (sections i.1 i.2) = false → t.restoring = true ∧ t.regB R.RST.RCAUSE 8 = true ∧
        t.rst.low = some t.rstNow ∧ t.rst.drive = t.rstNow + 8000000 ∧ regsBut s t [R.RST.RCAUSE] ∧
        t = { s with dt64 := t.dt64, regs := t.regs, rst := t.rst })))

/-- OKCMD with the lock open, no plan and none busy: a wrong state of the slot ends it with RESULT 1; the first slot needs
no authorisation; else the authorising slot must be another that is ACTIVE, and a signature that does not verify ends
it with RESULT 2, a new AUTHN and AUTH_FAIL; accepted, OKSTA is busy. Else RESULT 3 where none is busy, and IRQS bit
3. FUSE_PROGRAM_DONE: the slot is ACTIVE with its hash, or REVOKED, RESULT 0, OWNER_SLOT; a failed fuse is RESULT 4
and leaves a programmed slot SPOILED. FLRCMD begins the raise where the SVN in use is above the floor;
FLOOR_RAISE_DONE ends it. Else nothing changes. (Derived from: 18_identity_images.md: R518, R519, R520, R524.) -/
def Obligations.SlotsAndFloor : Prop :=
  ∀ (s : State),
    (s.writable 0xA0 = true →
      ∀ busy : Bool, busy = s.regB R.SEC.OKSTA 0 → ∀ open_ : Bool, open_ = (s.regB (R.WLCK 0xA0) 0 && !s.plan.run && !busy) →
      (∀ (v : Word), ∀ q ∈ [(Instr.okcmdProgram v, 1, 0), (.okcmdRevoke v, 2, 1)], ∀ x, x = v.fld 0 2 → ∀ a, a = v.fld 8 2 →
        ∀ first : Bool, first = (decide (q.2.1 = 1) && decide (s.slotBits = 0)) → ∃ t, exec q.1 s = .next t ∧
        (open_ = false → t.regB (R.IRQS 0xA0) 3 = true ∧ (busy = true → t.reg R.SEC.OKSTA = s.reg R.SEC.OKSTA) ∧
          (busy = false → t.regF R.SEC.OKSTA 1 3 = 3) ∧ regsBut s t [R.SEC.OKSTA, R.IRQS 0xA0] ∧ t = { s with regs := t.regs }) ∧
        (open_ = true → ((s.slot x).st ≠ q.2.2 ∨ (first = false ∧ ((s.slot a).st ≠ 1 ∨ a = x))) →
          t.reg R.SEC.OKSTA = 2 ∧ t.regB (R.IRQS 0xA0) 1 = true ∧ regsBut s t [R.SEC.OKSTA, R.IRQS 0xA0] ∧
          t = { s with regs := t.regs }) ∧
        (open_ = true → (s.slot x).st = q.2.2 → (first = true ∨ ((s.slot a).st = 1 ∧ a ≠ x)) →
          ((first = true ∨ s.okAuth q.2.1 x a = true) → t.reg R.SEC.OKSTA = 1 ∧ t.sec.cmd = some (q.2.1, x, s.okBytes 0 32) ∧
            regsBut s t [R.SEC.OKSTA] ∧ t = { s with regs := t.regs, sec := t.sec }) ∧
          (first = false → s.okAuth q.2.1 x a = false → t.reg R.SEC.OKSTA = 4 ∧ t.regB (R.IRQS 0xA0) 1 = true ∧
            s.raised t Src.AUTH_FAIL 0xA0 ∧ t.sec = { s.sec with authnAt := s.free } ∧
            regsBut s t [R.SEC.OKSTA, R.IRQS 0xA0] ∧
            t = { s with regs := t.regs, sec := t.sec, free := s.free + 4, scribe := t.scribe }))) ∧
      (open_ = false → exec .flrcmd s = .next (s.irq 0xA0 3)) ∧
      (open_ = true → s.regF R.SEC.SVNS 8 8 ≤ s.sec.floor → exec .flrcmd s = .next s) ∧
      (open_ = true → s.sec.floor < s.regF R.SEC.SVNS 8 8 → exec .flrcmd s = .next { s.setB R.SEC.OKSTA 0 true with
        sec := { s.sec with raise := some (s.regF R.SEC.SVNS 8 8) } })) ∧
    (s.sec.raise = none → exec .floorRaiseDone s = .next s) ∧
    (∀ v, s.sec.raise = some v → ∃ t, exec .floorRaiseDone s = .next t ∧ t.sec = { s.sec with floor := v, raise := none } ∧
      t.regB R.SEC.OKSTA 0 = false ∧ t.regB (R.IRQS 0xA0) 1 = true ∧ regsBut s t [R.SEC.OKSTA, R.IRQS 0xA0] ∧
      t = { s with regs := t.regs, sec := t.sec }) ∧
    (s.sec.cmd = none → ∀ e : Bool, exec (.fuseProgramDone e) s = .next s) ∧
    (∀ q, s.sec.cmd = some q → ∀ e : Bool, ∃ t, exec (.fuseProgramDone e) s = .next t ∧
      t.slot q.2.1 = (if q.1 = 1 then (if e then { st := 3 } else { st := 1, hash := q.2.2 })
        else if e then s.slot q.2.1 else { s.slot q.2.1 with st := 2 }) ∧
      (∀ j < 4, j ≠ q.2.1 → t.slot j = s.slot j) ∧ t.sec.cmd = none ∧ t.reg R.SEC.OKSTA = (if e then 8 else 0) ∧
      t.regB (R.IRQS 0xA0) 1 = true ∧ t.sec.authnAt = s.free ∧ (e = false → s.raised t Src.OWNER_SLOT 0xA0) ∧
      (e = true → t.scribe = s.scribe) ∧ regsBut s t [R.SEC.OKSTA, R.IRQS 0xA0] ∧
      t = { s with regs := t.regs, sec := t.sec, free := s.free + 4, scribe := t.scribe })

/-- FUSTART, not busy, begins the erase of the slot not in use (before CFGD of the slot named); busy, IRQS bit 3.
FLASH_ERASE_DONE leaves that slot, and no other byte of flash, erased. FUWIN takes at most 512 words a burst up to the
slot's end. FUEND begins the check; UPDATE_CHECK_DONE ends it with DONE, or with the code and FLASH_UPD_REJ, IRQS bit
2. ATTGO, not busy, latches the nonce and DT64; busy, IRQS bit 3. ATTEST_DONE gives the report, its FORMAT, device,
nonce, image hash, counter and instant, with its signature, IRQS bit 0; with a failed key, none. CERTD_READ advances
CERTA. Elsewhere nothing changes. (Derived from: 18_identity_images.md: R517, R522, R525, R526, R527, R532.) -/
def Obligations.UpdatesAndReports : Prop :=
  ∀ (s : State),
    (s.writable 0xA0 = true →
      (∀ v : Word, (s.regB R.SEC.FUSTA 0 = true → exec (.fustart v) s = .next (s.irq 0xA0 3)) ∧
        (s.regB R.SEC.FUSTA 0 = false → ∃ t, exec (.fustart v) s = .next t ∧ t.reg R.SEC.FUSTA = 1 ∧ t.reg R.SEC.FUCNT = 0 ∧
          t.sec.update.map (fun u => (u.slot, u.stage)) = some ((if s.regF R.RST.BSTA 5 2 < 2 ∧ (s.regB R.RST.BSTA 4 = true ∨ s.restoring = true)
            then 1 - s.regF R.RST.BSTA 5 2 else v.fld 2 1), 1) ∧
          regsBut s t [R.SEC.FUSTA, R.SEC.FUCNT] ∧ t = { s with regs := t.regs, sec := { s.sec with update := t.sec.update } })) ∧
      (∀ ws : List Word, (s.sec.update.all (·.stage ≠ 2) = true → exec (.fuwinWrite ws) s = .next s) ∧
        (∀ u, s.sec.update = some u → u.stage = 2 → ∀ n, n = s.regN R.SEC.FUCNT →
          ∀ fit, fit = (ws.take 512).take (0x300000 - n) → ∃ t, exec (.fuwinWrite ws) s = .next t ∧
          t.reg R.SEC.FUCNT = wd (n + fit.length) ∧ regsBut s t [R.SEC.FUCNT] ∧
          (∀ i < fit.length, t.flash.readWord (u.slot * 0xC00000 + 4 * n + 4 * i) = fit.getD i 0) ∧
          (∀ a, a < u.slot * 0xC00000 + 4 * n ∨ u.slot * 0xC00000 + 4 * n + 4 * fit.length ≤ a → t.flash.read a = s.flash.read a) ∧
          t = { s with regs := t.regs, flash := t.flash })) ∧
      (s.sec.update.all (·.stage ≠ 2) = true → exec .fuend s = .next s) ∧
      (∀ u, s.sec.update = some u → u.stage = 2 → exec .fuend s =
        .next { s.setB R.SEC.FUSTA 0 true with sec := { s.sec with update := some { u with stage := 3 } } }) ∧
      (s.regB R.SEC.ATTSTA 0 = true → exec .attgo s = .next (s.irq 0xA0 3)) ∧
      (s.regB R.SEC.ATTSTA 0 = false → ∃ t, exec .attgo s = .next t ∧ t.reg R.SEC.ATTSTA = 1 ∧
        t.sec.attest.map (fun a => (a.nonce, a.dt64, a.modw)) = some ((List.range 8).map fun i => s.reg (R.SEC.ANONCE i), s.dt64, false) ∧
        regsBut s t [R.SEC.ATTSTA] ∧ t = { s with regs := t.regs, sec := { s.sec with attest := t.sec.attest } })) ∧
    (s.sec.update.all (·.stage ≠ 1) = true → exec .flashEraseDone s = .next s) ∧
    (∀ u, s.sec.update = some u → u.stage = 1 → ∃ t, exec .flashEraseDone s = .next t ∧ t.regB R.SEC.FUSTA 0 = false ∧
      t.sec.update = some { u with stage := 2 } ∧
      (∀ a, t.flash.read a = if u.slot * 0xC00000 ≤ a ∧ a < (u.slot + 1) * 0xC00000 then 0 else s.flash.read a) ∧
      regsBut s t [R.SEC.FUSTA] ∧ t = { s with regs := t.regs, flash := t.flash, sec := { s.sec with update := t.sec.update } }) ∧
    (s.sec.update.all (·.stage ≠ 3) = true → exec .updateCheckDone s = .next s) ∧
    (∀ u, s.sec.update = some u → u.stage = 3 → ∀ base, base = u.slot * 0xC00000 →
      ∀ code, code = (if s.verify s.flash base ≠ 0 then s.verify s.flash base
        else if hashesOk s.flash base (sections s.flash base) then 0 else 7) →
      ∃ t, exec .updateCheckDone s = .next t ∧ t.reg R.SEC.FUSTA = wd (if code = 0 then 2 else 4 + code * 16) ∧
      t.sec.update = none ∧ t.regB (R.IRQS 0xA0) 2 = true ∧ (code ≠ 0 → s.raised t Src.FLASH_UPD_REJ 0xA0) ∧
      (code = 0 → t.scribe = s.scribe) ∧ regsBut s t [R.SEC.FUSTA, R.IRQS 0xA0] ∧
      t = { s with regs := t.regs, sec := { s.sec with update := none }, scribe := t.scribe }) ∧
    (s.sec.attest = none → exec .attestDone s = .next s) ∧
    (∀ a, s.sec.attest = some a → ∃ t, exec .attestDone s = .next t ∧ t.sec.attest = none ∧ t.regB (R.IRQS 0xA0) 0 = true ∧
      (s.regB R.SEC.SSTA 8 = false → t.reg R.SEC.ATTSTA = 8 ∧ regsBut s t [R.SEC.ATTSTA, R.IRQS 0xA0]) ∧
      (s.regB R.SEC.SSTA 8 = true → t.reg R.SEC.ATTSTA = wd (2 + 4 * b2n a.modw) ∧ t.reg (R.SEC.ATTREP 0) = 0x00010001 ∧
        t.reg (R.SEC.ATTREP 1) = wd Config.devsn.toNat ∧ t.reg (R.SEC.ATTREP 2) = wd (Config.devsn.toNat / 2 ^ 32) ∧
        (a.nonce.length = 8 → (∀ i < 8, t.reg (R.SEC.ATTREP (3 + i)) = a.nonce.getD i 0) ∧
          (∀ i < 8, t.reg (R.SEC.ATTREP (11 + i)) = s.reg (R.SEC.IMGH i)) ∧
          t.reg (R.SEC.ATTREP 35) = s.reg R.SEC.CFGCTR ∧ t.reg (R.SEC.ATTREP 37) = wd a.dt64 ∧
          t.regB (R.SEC.ATTREP 39) 18 = a.modw) ∧
        regsBut s t ([R.SEC.ATTSTA, R.IRQS 0xA0] ++ (List.range 64).map R.SEC.ATTREP)) ∧
      t = { s with regs := t.regs, sec := { s.sec with attest := none } }) ∧
    (s.pageUp 0xA0 = true → ∃ t, exec .certdRead s = .next t ∧
      t.regF R.SEC.CERTA 2 9 = (s.regF R.SEC.CERTA 2 9 + 1) % 512 ∧ regsBut s t [R.SEC.CERTA] ∧ t = { s with regs := t.regs })

/-- With the SFB domain out of reset: TEMP_MEASURE shows the six readings, excludes a sensor at its tenth deviation of
more than 20 °C from the median with TSENS_FAULT, forms T_die as the highest of those that count, THOT with none; at
THOT it is hot, TDIE_HOT; at 135 °C, measured, the trip hold sets, TDIE_CRIT. RAIL_EXCURSION clears RAILOK and counts;
RAIL_MEASURE shows all rails. DERATE_INTERVAL at the next 100 ms: the target, and a move of n by at most one,
THERM_DERATE as n leaves 32; n is 32 while disabled. COMPENSATION_UPDATE moves both corrections by at most 50 and 20,
unless TS5 is excluded. PRO_MEASURE shows the oscillators and moves MSTEP by at most one. VIN_MEASURE shows VIN, VMIN
and VMAX and both marks. In reset nothing changes. (Derived from: 19_monitors_thermal.md: R533, R534, R535, R538,
R539, R540, R544, R545, R546, R547, R550, 17_power_reset_boot.md: R490.) -/
def Obligations.MonitorsMeasure : Prop :=
  (∀ (s : State), s.domHeld 7 = true → (∀ r : List (BitVec 16), exec (.tempMeasure r) s = .next s ∧
      exec (.railMeasure r) s = .next s) ∧ (∀ (r : Fin 8) (h : Bool), exec (.railExcursion r h) s = .next s) ∧
    exec .derateInterval s = .next s ∧ exec .compensationUpdate s = .next s ∧
    (∀ k : List (BitVec 32), exec (.proMeasure k) s = .next s) ∧ (∀ v : BitVec 16, exec (.vinMeasure v) s = .next s)) ∧
  (∀ (s : State) (r : List (BitVec 16)), s.domHeld 7 = false → r.length = 6 →
    ∀ med, med = median2 (r.map BitVec.toInt) → ∀ hot, hot = signedOf 16 (s.regF R.MON.THOT 0 16) →
    ∃ t, exec (.tempMeasure r) s = .next t ∧ (∀ i < 6, t.reg (R.MON.TSENS i) = wd (r.getD i 0).toNat ∧
        t.regB R.MON.TSTA (8 + i) = (s.regB R.MON.TSTA (8 + i) ||
          (Nat.blt 320 (2 * (r.getD i 0).toInt - med).natAbs && decide (NMap.get 0 s.mon.dev i = 9)))) ∧
      (∀ ins, ins = (List.range 6).filter (fun i => s.regB R.MON.TCFG i && !t.regB R.MON.TSTA (8 + i)) →
        ∀ T, T = signedOf 16 (t.regF R.MON.TDIE 0 16) → (ins = [] → T = hot) ∧
        (∀ i ∈ ins, (r.getD i 0).toInt ≤ T) ∧ (ins ≠ [] → ins.any (fun i => (r.getD i 0).toInt == T) = true) ∧
        signedOf 16 (t.regF R.MON.TMAX 0 16) = max T (signedOf 16 (s.regF R.MON.TMAX 0 16)) ∧
        (hot ≤ T → t.mon.dieHot = true ∧ t.regB R.MON.TSTA 2 = true ∧ (s.mon.dieHot = false → t.regB (R.IRQS 4) 1 = true ∧
          (t.scribe.inflight.any fun f => f.src == Src.TDIE_HOT && f.page == 4) = true)) ∧
        (T < hot - 40 → t.mon.dieHot = false) ∧ t.regB R.MON.TSTA 3 = (decide (1080 ≤ T) && !ins.isEmpty) ∧
        (1080 ≤ T → ins ≠ [] → t.scribe.hold = true ∧ (s.regB R.MON.TSTA 3 = false →
          (t.scribe.inflight.any fun f => f.src == Src.TDIE_CRIT && f.page == 4) = true))) ∧
      regsBut s t ([R.MON.TDIE, R.MON.TMAX, R.MON.TSTA, R.PSTA 4, R.IRQS 4, R.IRQS 0x98] ++ (List.range 6).map R.MON.TSENS) ∧
      t = { s with regs := t.regs, mon := t.mon, scribe := t.scribe, jig := t.jig }) ∧
  (∀ (s : State), s.domHeld 7 = false →
    (∀ (r : Fin 8) (h : Bool), ∃ t, exec (.railExcursion r h) s = .next t ∧ t.regB R.PWR.PWSTA 0 = false ∧
      t.regF R.MON.RAILCNT 0 16 = satInc 16 (s.regF R.MON.RAILCNT 0 16) ∧ t.regB (R.IRQS 4) 3 = true ∧
      s.raised t (if h then Src.RAIL_OV else Src.RAIL_UV) 4 ∧ regsBut s t [R.PWR.PWSTA, R.MON.RAILCNT, R.IRQS 4] ∧
      t = { s with regs := t.regs, scribe := t.scribe }) ∧
    (∀ (mv : List (BitVec 16)), ∃ t, exec (.railMeasure mv) s = .next t ∧
      (∀ i < 8, t.reg (R.MON.RAIL i) = wd (mv.getD i 0).toNat) ∧
      t.regB R.PWR.PWSTA 0 = (List.range 8).all (fun i =>
        decide (100 * (((mv.getD i 0).toNat : Int) - (s.railNominal i).1).natAbs ≤ (s.railNominal i).1 * (s.railNominal i).2)) ∧
      regsBut s t (R.PWR.PWSTA :: (List.range 8).map R.MON.RAIL) ∧ t = { s with regs := t.regs }) ∧
    (∀ k, k = s.nextMultiple (s.mon.interval + 1) 1600000000 → ∀ n, n = s.regF R.MON.TLIM 0 6 →
      ∃ t, exec .derateInterval s = .next t ∧ t.dt64 = (s.reach (k * 1600000000)).dt64 ∧ t.mon.interval = k ∧
      t.mon.maxDie = none ∧ t.mon.maxCell = none ∧ (∀ nt, nt = t.regF R.MON.TLIM 8 6 →
        (s.enabled 4 = false → t.regF R.MON.TLIM 0 6 = 32 ∧ t.regB R.MON.TSTA 0 = false) ∧
        (s.enabled 4 = true → nt < n → t.regF R.MON.TLIM 0 6 = n - 1) ∧
        (s.enabled 4 = true → n < nt → n < 63 → t.regF R.MON.TLIM 0 6 = if s.mon.up = 3 then n + 1 else n) ∧
        (s.enabled 4 = true → nt = n → t.regF R.MON.TLIM 0 6 = n) ∧
        (s.enabled 4 = true → n ≠ t.regF R.MON.TLIM 0 6 → t.regB (R.IRQS 4) 0 = true) ∧
        (s.enabled 4 = true → n = 32 → nt < 32 → s.raised t Src.THERM_DERATE 4 ∧ t.regB R.MON.TSTA 0 = true)) ∧
      regsBut s t [R.MON.TLIM, R.MON.TCELL, R.MON.TSTA, R.IRQS 4] ∧
      t = { s with dt64 := t.dt64, regs := t.regs, mon := t.mon, scribe := t.scribe }) ∧
    (s.regB R.MON.TSTA 13 = true → exec .compensationUpdate s = .next (s.setB R.MON.TSTA 4 true)) ∧
    (s.regB R.MON.TSTA 13 = false → (s.regI R.MON.MEMSCOR).natAbs < 2 ^ 30 → (s.regI R.MON.VREFCOR).natAbs < 2 ^ 30 →
      ∃ t, exec .compensationUpdate s = .next t ∧ t.regB R.MON.TSTA 4 = false ∧
      (t.regI R.MON.MEMSCOR - s.regI R.MON.MEMSCOR).natAbs ≤ 50 ∧ (t.regI R.MON.VREFCOR - s.regI R.MON.VREFCOR).natAbs ≤ 20 ∧
      regsBut s t [R.MON.TSTA, R.MON.MEMSCOR, R.MON.VREFCOR] ∧ t = { s with regs := t.regs }) ∧
    (∀ (khz : List (BitVec 32)), ∃ t, exec (.proMeasure khz) s = .next t ∧
      (∀ q < 4, t.reg (R.MON.PRO q) = khz.getD q 0) ∧ t.mstep ≤ s.mstep + 1 ∧ s.mstep ≤ t.mstep + 1 ∧
      (∀ low : Bool, low = (List.range 4).any (fun q => Nat.blt ((khz.getD q 0).toNat * 100) ((Config.promin q).toNat * 103)) →
        (low = true → 99 ≤ s.mon.low → s.mstep < 8 → t.mstep = s.mstep + 1 ∧ t.regB (R.IRQS 4) 4 = true ∧
          (t.scribe.inflight.any fun f => f.src == Src.ENG_MARGIN && f.page == 4) = true) ∧
        (low = true → (s.mon.low < 99 ∨ 8 ≤ s.mstep) → s.mon.low < 99 → t.mon.low = s.mon.low + 1 ∧ t.mstep ≤ s.mstep) ∧
        (low = false → t.mstep ≤ s.mstep ∧ t.mon.low = 0)) ∧
      (s.plan.run = true → s.mstep ≤ t.mstep) ∧
      regsBut s t ([R.MON.GUARD, R.IRQS 4] ++ (List.range 4).map R.MON.PRO) ∧
      t = { s with regs := t.regs, mon := t.mon, scribe := t.scribe }) ∧
    (∀ (mv : BitVec 16), ∀ v, v = mv.toNat / 10 * 10 → ∃ t, exec (.vinMeasure mv) s = .next t ∧ t.reg R.PWR.VIN = wd v ∧
      t.reg R.PWR.VMIN = wd (Nat.min v (s.regF R.PWR.VMIN 0 16)) ∧ t.reg R.PWR.VMAX = wd (Nat.max v (s.regF R.PWR.VMAX 0 16)) ∧
      (s.regF R.PWR.VWARN 0 16 ≤ v → t.regB R.PWR.PWSTA 1 = false ∧ t.mon.vinLow = 0) ∧
      (v < s.regF R.PWR.VWARN 0 16 → s.mon.vinLow = 9 → t.regB R.PWR.PWSTA 1 = true ∧ t.regB (R.IRQS 3) 0 = true ∧
        (t.scribe.inflight.any fun f => f.src == Src.VIN_WARN && f.page == 3) = true) ∧
      (v ≤ 5500 → t.regB R.PWR.PWSTA 2 = false) ∧
      (5500 < v → s.mon.vinHigh = 9 → t.regB R.PWR.PWSTA 2 = true ∧ t.regB (R.IRQS 3) 1 = true ∧
        (t.scribe.inflight.any fun f => f.src == Src.VIN_HIGH && f.page == 3) = true) ∧
      regsBut s t [R.PWR.VIN, R.PWR.VMIN, R.PWR.VMAX, R.PWR.PWSTA, R.IRQS 3] ∧
      t = { s with regs := t.regs, mon := t.mon, scribe := t.scribe }))

/-- For every data byte and every special symbol of R127 at either running disparity: the code group is no code violation
at that disparity and, where the disparity changes or the group has as many ones as zeros, keeps the disparity's
meaning; two different symbols have different groups; and the group of a special symbol is no group of a data byte at
either disparity. For any row of such symbols sent from negative disparity, the ones sent exceed the zeros by 2 where
the disparity is positive, and equal them where it is negative; the line never runs away. The groups themselves are
those of IEEE 802.3 clause 36 (log 133). (Derived from: 04_exl_lanes.md: R126, R127, R128, 05_exl_frames.md: R153,
notes/assumptions/133.md.) -/
def Obligations.LineCodeBalanced : Prop :=
  (∀ (b c : Byte) (rd : Bool), violates (codeGroup (.d b) rd).1 rd = false ∧
    ((codeGroup (.d b) rd).1 = (codeGroup (.d c) rd).1 → b = c) ∧
    ∀ k ∈ specials, (codeGroup (.k k) rd).1 ≠ (codeGroup (.d b) rd).1 ∧ (codeGroup (.k k) (!rd)).1 ≠ (codeGroup (.d b) rd).1) ∧
  (∀ k ∈ specials, ∀ j ∈ specials, ∀ rd : Bool, violates (codeGroup (.k k) rd).1 rd = false ∧
    ((codeGroup (.k k) rd).1 = (codeGroup (.k j) rd).1 → k = j)) ∧
  (∀ l : List Sym, (∀ x ∈ l, (∃ b, x = .d b) ∨ ∃ k ∈ specials, x = .k k) →
    (codeGroups l false).1.length = l.length ∧
    2 * ((codeGroups l false).1.map fun g => ones 10 g.toNat).sum =
      10 * l.length + (if (codeGroups l false).2 then 2 else 0)) ∧
  (∀ (bytes : List Byte) (ends : Byte), (frameSyms bytes ends).length = bytes.length + 2 ∧
    (frameSyms bytes ends).getLast? = some (.k ends) ∧
    (frameSyms bytes ends).head? = some (.k (startSym ((bytes.getD 0 0).toNat / 16))))

/-- The PLL's period, from a frequency within FMIN to FMAX: its frequency stays within them and its angle below one turn.
TRACK goes to COAST where a² is below AMIN², else its integrator keeps its value or lies within FMIN - FNOM to FMAX -
FNOM; COAST freezes frequency and integrator, counts good periods, and at the eighth goes to SLEW where the error is
at most RSLIM, else resyncs: the angle takes the error, the current integrators are cleared, the ramp begins and it
tracks; SLEW freezes frequency and integrator and goes to COAST, to TRACK within TRKEPS, or moves the angle by the
error limited to the slew. The first period of a head that took over cold is a resync. COAST is announced on every
entry (log 157). Telemetry of a cell: a valid slot gives its voltage and clears its stale count; a stale one is
bridged by the prediction sent, counts, and at the first period beyond STALEMAX with a weight above 0 raises
CELL_LOST. No other cell's record changes. Nothing is computed while no shipped set is loaded (log 54). (Derived from:
07_stack_control.md: R240, R241, R243, R244, R245, R253, R254, R268, 10_jig_lifecycle_spares.md: R328,
11_head_pairing.md: R367, notes/assumptions/54.md, notes/assumptions/150.md, notes/assumptions/157.md.) -/
def Obligations.StackProgramSteps : Prop :=
  (∀ (g : CalPar) (sig : Int) (p : CalState), g.fmin ≤ g.fnom → g.fnom ≤ g.fmax → g.fmin ≤ p.f → p.f ≤ g.fmax →
    ∀ (q : CalState) (coast resync : Bool), pllStep g sig p = (q, coast, resync) →
    ∀ low : Bool, low = decide (p.a2 < qmul g.amin g.amin) →
    ∀ good : Nat, good = (if qmul (g.amin + g.ahys) (g.amin + g.ahys) ≤ p.a2 then p.good + 1 else 0) →
      g.fmin ≤ q.f ∧ q.f ≤ g.fmax ∧ q.theta < 2 ^ 32 ∧ (coast = true → q.pll = 2 ∧ q.good = 0) ∧
      (p.cold = true → resync = true ∧ q.pll = 1 ∧ q.cold = false ∧ q.ramp = some 0 ∧ q.xd = 0 ∧ q.xq = 0) ∧
      (p.cold = false → p.pll = 1 → coast = low ∧ resync = false ∧ q.pll = (if low then 2 else 1) ∧
        (low = true → q.f = p.f ∧ q.x = p.x) ∧ (low = false → q.x = p.x ∨ (g.fmin - g.fnom ≤ q.x ∧ q.x ≤ g.fmax - g.fnom)) ∧
        q.theta = turnAdd p.theta (perSec q.f g.per)) ∧
      (p.cold = false → p.pll = 2 → coast = false ∧ q.f = p.f ∧ q.x = p.x ∧ q.good = good ∧
        resync = (decide (8 ≤ good) && decide (g.rslim < qabs p.err)) ∧
        q.pll = (if good < 8 then 2 else if resync then 1 else 3) ∧
        (resync = true → q.ramp = some 0 ∧ q.xd = 0 ∧ q.xq = 0 ∧
          q.theta = turnAdd (turnAdd p.theta p.err) (perSec p.f g.per)) ∧
        (resync = false → q.ramp = p.ramp ∧ q.xd = p.xd ∧ q.xq = p.xq ∧ q.theta = turnAdd p.theta (perSec p.f g.per))) ∧
      (p.cold = false → p.pll = 3 → coast = low ∧ resync = false ∧ q.f = p.f ∧ q.x = p.x ∧
        q.pll = (if low then 2 else if qabs p.err ≤ g.trkeps then 1 else 3) ∧
        (q.pll ≠ 3 → q.theta = turnAdd p.theta (perSec p.f g.per)) ∧
        (q.pll = 3 → q.theta = turnAdd (turnAdd p.theta (clampInt (-g.slew) g.slew p.err)) (perSec p.f g.per)))) ∧
  (∀ (s : State) (arm addr : Nat) (mean : Int) (t : State), t = s.calTake arm mean addr →
    (∀ b, b ≠ addr → t.ctl b = s.ctl b) ∧
    ((s.recWord addr 9).bit 0 = false → (t.ctl addr).stale = 0 ∧ (t.ctl addr).v = s.recV addr ∧
      t.pset.bridged = s.pset.bridged ∧
      (s.recV addr ≤ s.vcmax arm → t.scribe = s.scribe) ∧
      (s.vcmax arm < s.recV addr → (s.recWord addr 9).bit 5 = false → s.raised t Src.CELL_OV 0x71)) ∧
    ((s.recWord addr 9).bit 0 = true → (t.ctl addr).stale = (s.ctl addr).stale + 1 ∧ (t.ctl addr).i = mean ∧
      ((s.ctl addr).vpred ≠ 0xFFFF → (t.ctl addr).v = 50 * (s.ctl addr).vpred) ∧
      t.pset.bridged = s.pset.bridged + 1 ∧
      ((s.ctl addr).stale = s.staleMax ∧ 0 < s.weight addr → s.raised t Src.CELL_LOST 0x71) ∧
      ((s.ctl addr).stale ≠ s.staleMax ∨ s.weight addr ≤ 0 → t.scribe = s.scribe))) ∧
  (∀ (s : State) (k : Nat), s.shipped.stack = false ∨ s.plan.started = false ∨ (k ≠ 1 ∧ k ≠ 2 ∧ k ≠ 5) →
    s.calRecognised k = s)
end

