-- ==== Sys2Proof/Laws/Maps.lean ====
section
/-!
SUPPORT. Sys2Proof/Laws/Maps.lean: the laws of sparse maps and memories: a read after a write, and every operation keeps
the canonical form.
-/
namespace Sys2Proof.Machine

/-- Keys strictly rising, as a proposition over pairs. -/
def NMap.Rising {α : Type} (m : NMap α) : Prop := m.Pairwise fun p q => p.1 < q.1

theorem NMap.sorted_iff {α : Type} (m : NMap α) : NMap.sorted m = true ↔ NMap.Rising m := by
  unfold NMap.Rising
  induction m with
  | nil => simp [NMap.sorted]
  | cons p t ih =>
    cases t with
    | nil => simp [NMap.sorted]
    | cons q u =>
      obtain ⟨a, v⟩ := p
      obtain ⟨b, w⟩ := q
      rw [NMap.sorted, Bool.and_eq_true, ih, List.pairwise_cons (a := (a, v)), Nat.blt_eq]
      constructor
      · rintro ⟨hab, h⟩
        refine ⟨?_, h⟩
        rintro ⟨c, x⟩ hc
        rcases List.mem_cons.1 hc with hc | hc
        · cases hc; exact hab
        · exact Nat.lt_trans hab ((List.pairwise_cons.1 h).1 _ hc)
      · rintro ⟨h1, h2⟩
        exact ⟨h1 (b, w) (List.mem_cons_self ..), h2⟩

theorem NMap.rising_filter {α : Type} {m : NMap α} (p : Nat × α → Bool) (h : m.Rising) :
    NMap.Rising (m.filter p) := List.Pairwise.filter p h

theorem NMap.mem_ins {α : Type} {m : NMap α} {k : Nat} {v : α} {q : Nat × α} (h : q ∈ m.ins k v) :
    q = (k, v) ∨ q ∈ m := by
  induction m with
  | nil => simpa [NMap.ins] using h
  | cons p t ih =>
    obtain ⟨a, w⟩ := p
    unfold NMap.ins at h
    split at h
    · rcases List.mem_cons.1 h with h | h
      · exact .inl h
      · exact .inr (List.mem_cons_of_mem _ h)
    · split at h
      · rcases List.mem_cons.1 h with h | h
        · exact .inl h
        · exact .inr h
      · rcases List.mem_cons.1 h with h | h
        · exact .inr (h ▸ List.mem_cons_self ..)
        · rcases ih h with h | h
          · exact .inl h
          · exact .inr (List.mem_cons_of_mem _ h)

theorem NMap.rising_ins {α : Type} {m : NMap α} (k : Nat) (v : α) (h : m.Rising) : NMap.Rising (m.ins k v) := by
  unfold NMap.Rising at *
  induction m with
  | nil => simp [NMap.ins]
  | cons p t ih =>
    obtain ⟨a, w⟩ := p
    have ht := List.pairwise_cons.1 h
    unfold NMap.ins
    split
    · rename_i e
      subst e
      exact List.pairwise_cons.2 ⟨ht.1, ht.2⟩
    · split
      · rename_i hk
        refine List.pairwise_cons.2 ⟨?_, h⟩
        intro q hq
        rcases List.mem_cons.1 hq with e | hq
        · rw [e]; exact hk
        · exact Nat.lt_trans hk (ht.1 q hq)
      · refine List.pairwise_cons.2 ⟨?_, ih ht.2⟩
        intro q hq
        rcases NMap.mem_ins hq with e | hq
        · rw [e]; simp only; omega
        · exact ht.1 q hq

theorem NMap.rising_put {α : Type} [DecidableEq α] {m : NMap α} (d : α) (k : Nat) (v : α) (h : m.Rising) :
    NMap.Rising (m.put d k v) := by
  unfold NMap.put NMap.erase
  split
  · exact NMap.rising_filter _ h
  · exact NMap.rising_ins k v h

/-! ### A read after a write -/

theorem NMap.get_ins_same {α : Type} (d : α) (m : NMap α) (k : Nat) (v : α) : NMap.get d (m.ins k v) k = v := by
  induction m with
  | nil => simp [NMap.ins, NMap.get]
  | cons p t ih =>
    obtain ⟨a, w⟩ := p
    unfold NMap.ins
    split
    · simp [NMap.get]
    · split
      · simp [NMap.get]
      · rename_i h _
        simp [NMap.get, h, ih]

theorem NMap.get_ins_ne {α : Type} (d : α) (m : NMap α) {k j : Nat} (v : α) (h : j ≠ k) :
    NMap.get d (m.ins k v) j = NMap.get d m j := by
  induction m with
  | nil => simp [NMap.ins, NMap.get, Ne.symm h]
  | cons p t ih =>
    obtain ⟨a, w⟩ := p
    unfold NMap.ins
    split
    · rename_i e
      subst e
      simp [NMap.get, Ne.symm h]
    · split
      · simp [NMap.get, Ne.symm h]
      · simp [NMap.get, ih]

theorem NMap.get_erase_same {α : Type} (d : α) (m : NMap α) (k : Nat) : NMap.get d (m.erase k) k = d := by
  induction m with
  | nil => rfl
  | cons p t ih =>
    obtain ⟨a, w⟩ := p
    by_cases e : a = k
    · simpa [NMap.erase, e] using ih
    · simpa [NMap.erase, NMap.get, e] using ih

theorem NMap.get_erase_ne {α : Type} (d : α) (m : NMap α) {k j : Nat} (h : j ≠ k) :
    NMap.get d (m.erase k) j = NMap.get d m j := by
  induction m with
  | nil => rfl
  | cons p t ih =>
    obtain ⟨a, w⟩ := p
    by_cases e : a = k
    · have hj : a ≠ j := by rw [e]; exact Ne.symm h
      simpa [NMap.erase, NMap.get, e, Ne.symm h] using ih
    · by_cases e2 : a = j
      · simp [NMap.erase, NMap.get, e2, h]
      · simpa [NMap.erase, NMap.get, e, e2] using ih

@[simp] theorem NMap.get_put_same {α : Type} [DecidableEq α] (d : α) (m : NMap α) (k : Nat) (v : α) :
    NMap.get d (m.put d k v) k = v := by
  unfold NMap.put
  split
  · rename_i e
    rw [NMap.get_erase_same, e]
  · exact NMap.get_ins_same d m k v

theorem NMap.get_put_ne {α : Type} [DecidableEq α] (d : α) (m : NMap α) {k j : Nat} (v : α) (h : j ≠ k) :
    NMap.get d (m.put d k v) j = NMap.get d m j := by
  unfold NMap.put
  split
  · exact NMap.get_erase_ne d m h
  · exact NMap.get_ins_ne d m v h

/-- A put reads back at its own key, and leaves the reads of the others. -/
theorem NMap.get_put {α : Type} [DecidableEq α] (d : α) (m : NMap α) (k j : Nat) (v : α) :
    NMap.get d (m.put d k v) j = if j = k then v else NMap.get d m j := by
  split
  · rename_i e
    rw [e, NMap.get_put_same]
  · rename_i e
    exact NMap.get_put_ne d m v e

/-! ### The canonical form -/

/-- The canonical form as a proposition: keys rising, no listed value at the default. -/
def NMap.Canon {α : Type} (d : α) (m : NMap α) : Prop := m.Rising ∧ ∀ p ∈ m, p.2 ≠ d

theorem NMap.wf_iff {α : Type} [DecidableEq α] (d : α) (m : NMap α) : NMap.wf d m = true ↔ NMap.Canon d m := by
  unfold NMap.wf NMap.Canon
  rw [Bool.and_eq_true, NMap.sorted_iff, List.all_eq_true]
  simp

theorem NMap.canon_nil {α : Type} (d : α) : NMap.Canon d ([] : NMap α) := ⟨List.Pairwise.nil, by simp⟩

theorem NMap.canon_filter {α : Type} {d : α} {m : NMap α} (p : Nat × α → Bool) (h : NMap.Canon d m) :
    NMap.Canon d (m.filter p) :=
  ⟨NMap.rising_filter p h.1, fun q hq => h.2 q (List.mem_filter.1 hq).1⟩

theorem NMap.canon_put {α : Type} [DecidableEq α] {d : α} {m : NMap α} (k : Nat) (v : α) (h : NMap.Canon d m) :
    NMap.Canon d (m.put d k v) := by
  refine ⟨NMap.rising_put d k v h.1, ?_⟩
  unfold NMap.put NMap.erase
  split
  · intro q hq
    exact h.2 q (List.mem_filter.1 hq).1
  · rename_i hv
    intro q hq
    rcases NMap.mem_ins hq with e | hq
    · rw [e]; exact hv
    · exact h.2 q hq

/-! ### Memory -/

@[simp] theorem Memory.read_write_same (m : Memory) (a : Nat) (b : Byte) : (m.write a b).read a = b := by
  simp [Memory.read, Memory.write]

theorem Memory.read_write_ne (m : Memory) {a c : Nat} (b : Byte) (h : c ≠ a) : (m.write a b).read c = m.read c := by
  simp [Memory.read, Memory.write, NMap.get_put_ne _ _ _ h]

theorem Memory.wf_iff (m : Memory) : m.wf = true ↔ NMap.Canon (0 : Byte) m := NMap.wf_iff 0 m

theorem Memory.wf_write {m : Memory} (a : Nat) (b : Byte) (h : m.wf = true) : (m.write a b).wf = true := by
  rw [Memory.wf_iff] at *
  exact NMap.canon_put a b h

theorem Memory.wf_writeBytes {m : Memory} (a : Nat) (l : List Byte) (h : m.wf = true) :
    (m.writeBytes a l).wf = true := by
  induction l generalizing m a with
  | nil => exact h
  | cons b t ih => exact ih (a + 1) (Memory.wf_write a b h)

theorem Memory.wf_writeLE {m : Memory} (a n v : Nat) (h : m.wf = true) : (m.writeLE a n v).wf = true :=
  Memory.wf_writeBytes a _ h

theorem Memory.wf_writeWord {m : Memory} (a : Nat) (w : Word) (h : m.wf = true) : (m.writeWord a w).wf = true :=
  Memory.wf_writeLE a 4 _ h

/-- Every byte outside the bytes written reads as before. -/
theorem Memory.read_writeBytes_out (m : Memory) (a : Nat) (l : List Byte) (c : Nat) (h : c < a ∨ a + l.length ≤ c) :
    (m.writeBytes a l).read c = m.read c := by
  induction l generalizing m a with
  | nil => rfl
  | cons b t ih =>
    rw [List.length_cons] at h
    rw [Memory.writeBytes, ih _ _ (by omega)]
    exact Memory.read_write_ne m b (by omega)

/-- Byte `i` of the bytes written reads back. -/
theorem Memory.read_writeBytes_in (m : Memory) (a : Nat) (l : List Byte) (i : Nat) (h : i < l.length) :
    (m.writeBytes a l).read (a + i) = l[i] := by
  induction l generalizing m a i with
  | nil => simp at h
  | cons b t ih =>
    rw [Memory.writeBytes]
    cases i with
    | zero =>
      rw [Memory.read_writeBytes_out _ _ _ _ (by omega)]
      simp
    | succ j =>
      have hj : j < t.length := by simpa using h
      have e : a + (j + 1) = a + 1 + j := by omega
      rw [e, ih _ _ _ hj]
      simp

theorem natLe_length (n v : Nat) : (natLe n v).length = n := by
  induction n generalizing v with
  | zero => rfl
  | succ n ih => simp [natLe, ih]

theorem Memory.read_writeWord_out (m : Memory) (a : Nat) (w : Word) (c : Nat) (h : c < a ∨ a + 4 ≤ c) :
    (m.writeWord a w).read c = m.read c :=
  Memory.read_writeBytes_out m a _ c (by rw [natLe_length]; exact h)

/-- A word written reads back. -/
@[simp] theorem Memory.readWord_writeWord (m : Memory) (a : Nat) (w : Word) : (m.writeWord a w).readWord a = w := by
  have l : (natLe 4 w.toNat).length = 4 := natLe_length 4 _
  have r (i : Nat) (h : i < 4) : (m.writeWord a w).read (a + i) = (natLe 4 w.toNat)[i]'(by omega) :=
    Memory.read_writeBytes_in m a _ i (by omega)
  have r0 : (m.writeWord a w).read a = (natLe 4 w.toNat)[0]'(by omega) := r 0 (by omega)
  unfold Memory.readWord Memory.readLE
  simp only [Memory.readBytes, Nat.add_assoc, r0, r 1 (by omega), r 2 (by omega), r 3 (by omega), Nat.reduceAdd, natLe,
    List.getElem_cons_zero, List.getElem_cons_succ, leNat, BitVec.toNat_ofNat, wd]
  have hw := w.isLt
  apply BitVec.eq_of_toNat_eq
  rw [BitVec.toNat_ofNat]
  omega

theorem zip_range_map {l : List Byte} {a : Nat} {p : Nat × Byte}
    (h : p ∈ ((List.range l.length).zip l).map fun p => (a + p.1, p.2)) : a ≤ p.1 ∧ p.1 < a + l.length := by
  obtain ⟨q, hq, rfl⟩ := List.mem_map.1 h
  have := List.mem_range.1 (List.of_mem_zip hq).1
  exact ⟨Nat.le_add_right .., Nat.add_lt_add_left this a⟩

theorem zip_range_rising (l : List Byte) (a : Nat) :
    (((List.range l.length).zip l).map fun p => (a + p.1, p.2)).Pairwise fun p q => p.1 < q.1 := by
  rw [List.pairwise_map]
  have h : ((List.range l.length).zip l).Pairwise fun p q => p.1 < q.1 := by
    have e : (((List.range l.length).zip l).map Prod.fst) = List.range l.length :=
      List.map_fst_zip (by simp)
    have hr : (List.range l.length).Pairwise (· < ·) := List.pairwise_lt_range
    rw [← e, List.pairwise_map] at hr
    exact hr
  exact h.imp fun h => Nat.add_lt_add_left h a

theorem memSplice_rising {m : Memory} (a : Nat) (l : List Byte) (h : NMap.Rising m) :
    NMap.Rising (memSplice m a l) := by
  unfold memSplice NMap.Rising
  rw [List.pairwise_append, List.pairwise_append]
  refine ⟨⟨NMap.rising_filter _ h, zip_range_rising l a, ?_⟩, NMap.rising_filter _ h, ?_⟩
  · intro p hp q hq
    have := (List.mem_filter.1 hp).2
    have := (zip_range_map hq).1
    simp at *
    omega
  · intro p hp q hq
    have h2 := (List.mem_filter.1 hq).2
    rcases List.mem_append.1 hp with hp | hp
    · have := (List.mem_filter.1 hp).2
      simp at *
      omega
    · have := (zip_range_map hp).2
      simp at *
      omega

theorem memPut_canon {m : Memory} (a : Nat) (l : List Byte) (h : NMap.Canon (0 : Byte) m) :
    NMap.Canon (0 : Byte) (memPut m a l) := by
  refine ⟨?_, ?_⟩
  · unfold memPut NMap.Rising
    rw [List.pairwise_append, List.pairwise_append]
    refine ⟨⟨NMap.rising_filter _ h.1, (zip_range_rising l a).filter _, ?_⟩, NMap.rising_filter _ h.1, ?_⟩
    · intro p hp q hq
      have := (List.mem_filter.1 hp).2
      have := (zip_range_map (List.mem_filter.1 hq).1).1
      simp at *
      omega
    · intro p hp q hq
      have h2 := (List.mem_filter.1 hq).2
      rcases List.mem_append.1 hp with hp | hp
      · have := (List.mem_filter.1 hp).2
        simp at *
        omega
      · have := (zip_range_map (List.mem_filter.1 hp).1).2
        simp at *
        omega
  · intro p hp
    unfold memPut at hp
    rcases List.mem_append.1 hp with hp | hp
    · rcases List.mem_append.1 hp with hp | hp
      · exact h.2 p (List.mem_filter.1 hp).1
      · simpa using (List.mem_filter.1 hp).2
    · exact h.2 p (List.mem_filter.1 hp).1

theorem Memory.wf_memPut {m : Memory} (a : Nat) (l : List Byte) (h : m.wf = true) :
    Memory.wf (memPut m a l) = true := by
  rw [Memory.wf_iff] at *
  exact memPut_canon a l h

theorem Memory.wf_memClear {m : Memory} (a n : Nat) (h : m.wf = true) : Memory.wf (memClear m a n) = true := by
  rw [Memory.wf_iff] at *
  exact NMap.canon_filter _ h

theorem Memory.wf_filter {m : Memory} (p : Nat × Byte → Bool) (h : m.wf = true) :
    Memory.wf (m.filter p) = true := by
  rw [Memory.wf_iff] at *
  exact NMap.canon_filter p h

theorem Memory.wf_foldl {β : Type} (f : Memory → β → Memory) (hf : ∀ m x, m.wf = true → (f m x).wf = true)
    (l : List β) {m : Memory} (h : m.wf = true) : Memory.wf (l.foldl f m) = true := by
  induction l generalizing m with
  | nil => exact h
  | cons x t ih => exact ih (hf m x h)

theorem NMap.rising_foldl {α β : Type} (f : NMap α → β → NMap α) (hf : ∀ m x, NMap.Rising m → NMap.Rising (f m x))
    (l : List β) {m : NMap α} (h : NMap.Rising m) : NMap.Rising (l.foldl f m) := by
  induction l generalizing m with
  | nil => exact h
  | cons x t ih => exact ih (hf m x h)

end Sys2Proof.Machine
end

