-- ==== Sys2Proof/Laws/State.lean ====
section
/-!
SUPPORT. Sys2Proof/Laws/State.lean: one lemma for each field of State and each named update: the field the update does
not name is what it was.
-/
namespace Sys2Proof.Machine

@[simp] theorem State.setReg_dt64 (s : State) (k : Nat) (v : Word) : (s.setReg k v).dt64 = s.dt64 := rfl
@[simp] theorem State.setReg_shadow (s : State) (k : Nat) (v : Word) : (s.setReg k v).shadow = s.shadow := rfl
@[simp] theorem State.setReg_accepted (s : State) (k : Nat) (v : Word) : (s.setReg k v).accepted = s.accepted := rfl
@[simp] theorem State.setReg_mem (s : State) (k : Nat) (v : Word) : (s.setReg k v).mem = s.mem := rfl
@[simp] theorem State.setReg_dmem (s : State) (k : Nat) (v : Word) : (s.setReg k v).dmem = s.dmem := rfl
@[simp] theorem State.setReg_sxm (s : State) (k : Nat) (v : Word) : (s.setReg k v).sxm = s.sxm := rfl
@[simp] theorem State.setReg_flash (s : State) (k : Nat) (v : Word) : (s.setReg k v).flash = s.flash := rfl
@[simp] theorem State.setReg_plan (s : State) (k : Nat) (v : Word) : (s.setReg k v).plan = s.plan := rfl
@[simp] theorem State.setReg_host (s : State) (k : Nat) (v : Word) : (s.setReg k v).host = s.host := rfl
@[simp] theorem State.setReg_scribe (s : State) (k : Nat) (v : Word) : (s.setReg k v).scribe = s.scribe := rfl
@[simp] theorem State.setReg_datum (s : State) (k : Nat) (v : Word) : (s.setReg k v).datum = s.datum := rfl
@[simp] theorem State.setReg_trav (s : State) (k : Nat) (v : Word) : (s.setReg k v).trav = s.trav := rfl
@[simp] theorem State.setReg_travMs (s : State) (k : Nat) (v : Word) : (s.setReg k v).travMs = s.travMs := rfl
@[simp] theorem State.setReg_eth (s : State) (k : Nat) (v : Word) : (s.setReg k v).eth = s.eth := rfl
@[simp] theorem State.setReg_fq (s : State) (k : Nat) (v : Word) : (s.setReg k v).fq = s.fq := rfl
@[simp] theorem State.setReg_lanes (s : State) (k : Nat) (v : Word) : (s.setReg k v).lanes = s.lanes := rfl
@[simp] theorem State.setReg_rings (s : State) (k : Nat) (v : Word) : (s.setReg k v).rings = s.rings := rfl
@[simp] theorem State.setReg_cells (s : State) (k : Nat) (v : Word) : (s.setReg k v).cells = s.cells := rfl
@[simp] theorem State.setReg_svc (s : State) (k : Nat) (v : Word) : (s.setReg k v).svc = s.svc := rfl
@[simp] theorem State.setReg_jig (s : State) (k : Nat) (v : Word) : (s.setReg k v).jig = s.jig := rfl
@[simp] theorem State.setReg_phases (s : State) (k : Nat) (v : Word) : (s.setReg k v).phases = s.phases := rfl
@[simp] theorem State.setReg_armPh (s : State) (k : Nat) (v : Word) : (s.setReg k v).armPh = s.armPh := rfl
@[simp] theorem State.setReg_spare (s : State) (k : Nat) (v : Word) : (s.setReg k v).spare = s.spare := rfl
@[simp] theorem State.setReg_mon (s : State) (k : Nat) (v : Word) : (s.setReg k v).mon = s.mon := rfl
@[simp] theorem State.setReg_edge (s : State) (k : Nat) (v : Word) : (s.setReg k v).edge = s.edge := rfl
@[simp] theorem State.setReg_ringIds (s : State) (k : Nat) (v : Word) : (s.setReg k v).ringIds = s.ringIds := rfl
@[simp] theorem State.setReg_eng (s : State) (k : Nat) (v : Word) : (s.setReg k v).eng = s.eng := rfl
@[simp] theorem State.setReg_engCycle (s : State) (k : Nat) (v : Word) : (s.setReg k v).engCycle = s.engCycle := rfl
@[simp] theorem State.setReg_ts1Cycle (s : State) (k : Nat) (v : Word) : (s.setReg k v).ts1Cycle = s.ts1Cycle := rfl
@[simp] theorem State.setReg_shadow7 (s : State) (k : Nat) (v : Word) : (s.setReg k v).shadow7 = s.shadow7 := rfl
@[simp] theorem State.setReg_pmc (s : State) (k : Nat) (v : Word) : (s.setReg k v).pmc = s.pmc := rfl
@[simp] theorem State.setReg_loc (s : State) (k : Nat) (v : Word) : (s.setReg k v).loc = s.loc := rfl
@[simp] theorem State.setReg_ssafe (s : State) (k : Nat) (v : Word) : (s.setReg k v).ssafe = s.ssafe := rfl
@[simp] theorem State.setReg_restoring (s : State) (k : Nat) (v : Word) : (s.setReg k v).restoring = s.restoring := rfl
@[simp] theorem State.setReg_meas (s : State) (k : Nat) (v : Word) : (s.setReg k v).meas = s.meas := rfl
@[simp] theorem State.setReg_pair (s : State) (k : Nat) (v : Word) : (s.setReg k v).pair = s.pair := rfl
@[simp] theorem State.setReg_capt (s : State) (k : Nat) (v : Word) : (s.setReg k v).capt = s.capt := rfl
@[simp] theorem State.setReg_sft (s : State) (k : Nat) (v : Word) : (s.setReg k v).sft = s.sft := rfl
@[simp] theorem State.setReg_clk (s : State) (k : Nat) (v : Word) : (s.setReg k v).clk = s.clk := rfl
@[simp] theorem State.setReg_sec (s : State) (k : Nat) (v : Word) : (s.setReg k v).sec = s.sec := rfl
@[simp] theorem State.setReg_rst (s : State) (k : Nat) (v : Word) : (s.setReg k v).rst = s.rst := rfl
@[simp] theorem State.setReg_out (s : State) (k : Nat) (v : Word) : (s.setReg k v).out = s.out := rfl
@[simp] theorem State.setReg_free (s : State) (k : Nat) (v : Word) : (s.setReg k v).free = s.free := rfl
@[simp] theorem State.setReg_pending (s : State) (k : Nat) (v : Word) : (s.setReg k v).pending = s.pending := rfl

@[simp] theorem State.setF_dt64 (s : State) (k lo len v : Nat) : (s.setF k lo len v).dt64 = s.dt64 := rfl
@[simp] theorem State.setF_shadow (s : State) (k lo len v : Nat) : (s.setF k lo len v).shadow = s.shadow := rfl
@[simp] theorem State.setF_accepted (s : State) (k lo len v : Nat) : (s.setF k lo len v).accepted = s.accepted := rfl
@[simp] theorem State.setF_mem (s : State) (k lo len v : Nat) : (s.setF k lo len v).mem = s.mem := rfl
@[simp] theorem State.setF_dmem (s : State) (k lo len v : Nat) : (s.setF k lo len v).dmem = s.dmem := rfl
@[simp] theorem State.setF_sxm (s : State) (k lo len v : Nat) : (s.setF k lo len v).sxm = s.sxm := rfl
@[simp] theorem State.setF_flash (s : State) (k lo len v : Nat) : (s.setF k lo len v).flash = s.flash := rfl
@[simp] theorem State.setF_plan (s : State) (k lo len v : Nat) : (s.setF k lo len v).plan = s.plan := rfl
@[simp] theorem State.setF_host (s : State) (k lo len v : Nat) : (s.setF k lo len v).host = s.host := rfl
@[simp] theorem State.setF_scribe (s : State) (k lo len v : Nat) : (s.setF k lo len v).scribe = s.scribe := rfl
@[simp] theorem State.setF_datum (s : State) (k lo len v : Nat) : (s.setF k lo len v).datum = s.datum := rfl
@[simp] theorem State.setF_trav (s : State) (k lo len v : Nat) : (s.setF k lo len v).trav = s.trav := rfl
@[simp] theorem State.setF_travMs (s : State) (k lo len v : Nat) : (s.setF k lo len v).travMs = s.travMs := rfl
@[simp] theorem State.setF_eth (s : State) (k lo len v : Nat) : (s.setF k lo len v).eth = s.eth := rfl
@[simp] theorem State.setF_fq (s : State) (k lo len v : Nat) : (s.setF k lo len v).fq = s.fq := rfl
@[simp] theorem State.setF_lanes (s : State) (k lo len v : Nat) : (s.setF k lo len v).lanes = s.lanes := rfl
@[simp] theorem State.setF_rings (s : State) (k lo len v : Nat) : (s.setF k lo len v).rings = s.rings := rfl
@[simp] theorem State.setF_cells (s : State) (k lo len v : Nat) : (s.setF k lo len v).cells = s.cells := rfl
@[simp] theorem State.setF_svc (s : State) (k lo len v : Nat) : (s.setF k lo len v).svc = s.svc := rfl
@[simp] theorem State.setF_jig (s : State) (k lo len v : Nat) : (s.setF k lo len v).jig = s.jig := rfl
@[simp] theorem State.setF_phases (s : State) (k lo len v : Nat) : (s.setF k lo len v).phases = s.phases := rfl
@[simp] theorem State.setF_armPh (s : State) (k lo len v : Nat) : (s.setF k lo len v).armPh = s.armPh := rfl
@[simp] theorem State.setF_spare (s : State) (k lo len v : Nat) : (s.setF k lo len v).spare = s.spare := rfl
@[simp] theorem State.setF_mon (s : State) (k lo len v : Nat) : (s.setF k lo len v).mon = s.mon := rfl
@[simp] theorem State.setF_edge (s : State) (k lo len v : Nat) : (s.setF k lo len v).edge = s.edge := rfl
@[simp] theorem State.setF_ringIds (s : State) (k lo len v : Nat) : (s.setF k lo len v).ringIds = s.ringIds := rfl
@[simp] theorem State.setF_eng (s : State) (k lo len v : Nat) : (s.setF k lo len v).eng = s.eng := rfl
@[simp] theorem State.setF_engCycle (s : State) (k lo len v : Nat) : (s.setF k lo len v).engCycle = s.engCycle := rfl
@[simp] theorem State.setF_ts1Cycle (s : State) (k lo len v : Nat) : (s.setF k lo len v).ts1Cycle = s.ts1Cycle := rfl
@[simp] theorem State.setF_shadow7 (s : State) (k lo len v : Nat) : (s.setF k lo len v).shadow7 = s.shadow7 := rfl
@[simp] theorem State.setF_pmc (s : State) (k lo len v : Nat) : (s.setF k lo len v).pmc = s.pmc := rfl
@[simp] theorem State.setF_loc (s : State) (k lo len v : Nat) : (s.setF k lo len v).loc = s.loc := rfl
@[simp] theorem State.setF_ssafe (s : State) (k lo len v : Nat) : (s.setF k lo len v).ssafe = s.ssafe := rfl
@[simp] theorem State.setF_restoring (s : State) (k lo len v : Nat) : (s.setF k lo len v).restoring = s.restoring := rfl
@[simp] theorem State.setF_meas (s : State) (k lo len v : Nat) : (s.setF k lo len v).meas = s.meas := rfl
@[simp] theorem State.setF_pair (s : State) (k lo len v : Nat) : (s.setF k lo len v).pair = s.pair := rfl
@[simp] theorem State.setF_capt (s : State) (k lo len v : Nat) : (s.setF k lo len v).capt = s.capt := rfl
@[simp] theorem State.setF_sft (s : State) (k lo len v : Nat) : (s.setF k lo len v).sft = s.sft := rfl
@[simp] theorem State.setF_clk (s : State) (k lo len v : Nat) : (s.setF k lo len v).clk = s.clk := rfl
@[simp] theorem State.setF_sec (s : State) (k lo len v : Nat) : (s.setF k lo len v).sec = s.sec := rfl
@[simp] theorem State.setF_rst (s : State) (k lo len v : Nat) : (s.setF k lo len v).rst = s.rst := rfl
@[simp] theorem State.setF_out (s : State) (k lo len v : Nat) : (s.setF k lo len v).out = s.out := rfl
@[simp] theorem State.setF_free (s : State) (k lo len v : Nat) : (s.setF k lo len v).free = s.free := rfl
@[simp] theorem State.setF_pending (s : State) (k lo len v : Nat) : (s.setF k lo len v).pending = s.pending := rfl

@[simp] theorem State.setB_dt64 (s : State) (k i : Nat) (b : Bool) : (s.setB k i b).dt64 = s.dt64 := rfl
@[simp] theorem State.setB_shadow (s : State) (k i : Nat) (b : Bool) : (s.setB k i b).shadow = s.shadow := rfl
@[simp] theorem State.setB_accepted (s : State) (k i : Nat) (b : Bool) : (s.setB k i b).accepted = s.accepted := rfl
@[simp] theorem State.setB_mem (s : State) (k i : Nat) (b : Bool) : (s.setB k i b).mem = s.mem := rfl
@[simp] theorem State.setB_dmem (s : State) (k i : Nat) (b : Bool) : (s.setB k i b).dmem = s.dmem := rfl
@[simp] theorem State.setB_sxm (s : State) (k i : Nat) (b : Bool) : (s.setB k i b).sxm = s.sxm := rfl
@[simp] theorem State.setB_flash (s : State) (k i : Nat) (b : Bool) : (s.setB k i b).flash = s.flash := rfl
@[simp] theorem State.setB_plan (s : State) (k i : Nat) (b : Bool) : (s.setB k i b).plan = s.plan := rfl
@[simp] theorem State.setB_host (s : State) (k i : Nat) (b : Bool) : (s.setB k i b).host = s.host := rfl
@[simp] theorem State.setB_scribe (s : State) (k i : Nat) (b : Bool) : (s.setB k i b).scribe = s.scribe := rfl
@[simp] theorem State.setB_datum (s : State) (k i : Nat) (b : Bool) : (s.setB k i b).datum = s.datum := rfl
@[simp] theorem State.setB_trav (s : State) (k i : Nat) (b : Bool) : (s.setB k i b).trav = s.trav := rfl
@[simp] theorem State.setB_travMs (s : State) (k i : Nat) (b : Bool) : (s.setB k i b).travMs = s.travMs := rfl
@[simp] theorem State.setB_eth (s : State) (k i : Nat) (b : Bool) : (s.setB k i b).eth = s.eth := rfl
@[simp] theorem State.setB_fq (s : State) (k i : Nat) (b : Bool) : (s.setB k i b).fq = s.fq := rfl
@[simp] theorem State.setB_lanes (s : State) (k i : Nat) (b : Bool) : (s.setB k i b).lanes = s.lanes := rfl
@[simp] theorem State.setB_rings (s : State) (k i : Nat) (b : Bool) : (s.setB k i b).rings = s.rings := rfl
@[simp] theorem State.setB_cells (s : State) (k i : Nat) (b : Bool) : (s.setB k i b).cells = s.cells := rfl
@[simp] theorem State.setB_svc (s : State) (k i : Nat) (b : Bool) : (s.setB k i b).svc = s.svc := rfl
@[simp] theorem State.setB_jig (s : State) (k i : Nat) (b : Bool) : (s.setB k i b).jig = s.jig := rfl
@[simp] theorem State.setB_phases (s : State) (k i : Nat) (b : Bool) : (s.setB k i b).phases = s.phases := rfl
@[simp] theorem State.setB_armPh (s : State) (k i : Nat) (b : Bool) : (s.setB k i b).armPh = s.armPh := rfl
@[simp] theorem State.setB_spare (s : State) (k i : Nat) (b : Bool) : (s.setB k i b).spare = s.spare := rfl
@[simp] theorem State.setB_mon (s : State) (k i : Nat) (b : Bool) : (s.setB k i b).mon = s.mon := rfl
@[simp] theorem State.setB_edge (s : State) (k i : Nat) (b : Bool) : (s.setB k i b).edge = s.edge := rfl
@[simp] theorem State.setB_ringIds (s : State) (k i : Nat) (b : Bool) : (s.setB k i b).ringIds = s.ringIds := rfl
@[simp] theorem State.setB_eng (s : State) (k i : Nat) (b : Bool) : (s.setB k i b).eng = s.eng := rfl
@[simp] theorem State.setB_engCycle (s : State) (k i : Nat) (b : Bool) : (s.setB k i b).engCycle = s.engCycle := rfl
@[simp] theorem State.setB_ts1Cycle (s : State) (k i : Nat) (b : Bool) : (s.setB k i b).ts1Cycle = s.ts1Cycle := rfl
@[simp] theorem State.setB_shadow7 (s : State) (k i : Nat) (b : Bool) : (s.setB k i b).shadow7 = s.shadow7 := rfl
@[simp] theorem State.setB_pmc (s : State) (k i : Nat) (b : Bool) : (s.setB k i b).pmc = s.pmc := rfl
@[simp] theorem State.setB_loc (s : State) (k i : Nat) (b : Bool) : (s.setB k i b).loc = s.loc := rfl
@[simp] theorem State.setB_ssafe (s : State) (k i : Nat) (b : Bool) : (s.setB k i b).ssafe = s.ssafe := rfl
@[simp] theorem State.setB_restoring (s : State) (k i : Nat) (b : Bool) : (s.setB k i b).restoring = s.restoring := rfl
@[simp] theorem State.setB_meas (s : State) (k i : Nat) (b : Bool) : (s.setB k i b).meas = s.meas := rfl
@[simp] theorem State.setB_pair (s : State) (k i : Nat) (b : Bool) : (s.setB k i b).pair = s.pair := rfl
@[simp] theorem State.setB_capt (s : State) (k i : Nat) (b : Bool) : (s.setB k i b).capt = s.capt := rfl
@[simp] theorem State.setB_sft (s : State) (k i : Nat) (b : Bool) : (s.setB k i b).sft = s.sft := rfl
@[simp] theorem State.setB_clk (s : State) (k i : Nat) (b : Bool) : (s.setB k i b).clk = s.clk := rfl
@[simp] theorem State.setB_sec (s : State) (k i : Nat) (b : Bool) : (s.setB k i b).sec = s.sec := rfl
@[simp] theorem State.setB_rst (s : State) (k i : Nat) (b : Bool) : (s.setB k i b).rst = s.rst := rfl
@[simp] theorem State.setB_out (s : State) (k i : Nat) (b : Bool) : (s.setB k i b).out = s.out := rfl
@[simp] theorem State.setB_free (s : State) (k i : Nat) (b : Bool) : (s.setB k i b).free = s.free := rfl
@[simp] theorem State.setB_pending (s : State) (k i : Nat) (b : Bool) : (s.setB k i b).pending = s.pending := rfl

@[simp] theorem State.bumpAt_dt64 (s : State) (k lo bits : Nat) : (s.bumpAt k lo bits).dt64 = s.dt64 := rfl
@[simp] theorem State.bumpAt_shadow (s : State) (k lo bits : Nat) : (s.bumpAt k lo bits).shadow = s.shadow := rfl
@[simp] theorem State.bumpAt_accepted (s : State) (k lo bits : Nat) : (s.bumpAt k lo bits).accepted = s.accepted := rfl
@[simp] theorem State.bumpAt_mem (s : State) (k lo bits : Nat) : (s.bumpAt k lo bits).mem = s.mem := rfl
@[simp] theorem State.bumpAt_dmem (s : State) (k lo bits : Nat) : (s.bumpAt k lo bits).dmem = s.dmem := rfl
@[simp] theorem State.bumpAt_sxm (s : State) (k lo bits : Nat) : (s.bumpAt k lo bits).sxm = s.sxm := rfl
@[simp] theorem State.bumpAt_flash (s : State) (k lo bits : Nat) : (s.bumpAt k lo bits).flash = s.flash := rfl
@[simp] theorem State.bumpAt_plan (s : State) (k lo bits : Nat) : (s.bumpAt k lo bits).plan = s.plan := rfl
@[simp] theorem State.bumpAt_host (s : State) (k lo bits : Nat) : (s.bumpAt k lo bits).host = s.host := rfl
@[simp] theorem State.bumpAt_scribe (s : State) (k lo bits : Nat) : (s.bumpAt k lo bits).scribe = s.scribe := rfl
@[simp] theorem State.bumpAt_datum (s : State) (k lo bits : Nat) : (s.bumpAt k lo bits).datum = s.datum := rfl
@[simp] theorem State.bumpAt_trav (s : State) (k lo bits : Nat) : (s.bumpAt k lo bits).trav = s.trav := rfl
@[simp] theorem State.bumpAt_travMs (s : State) (k lo bits : Nat) : (s.bumpAt k lo bits).travMs = s.travMs := rfl
@[simp] theorem State.bumpAt_eth (s : State) (k lo bits : Nat) : (s.bumpAt k lo bits).eth = s.eth := rfl
@[simp] theorem State.bumpAt_fq (s : State) (k lo bits : Nat) : (s.bumpAt k lo bits).fq = s.fq := rfl
@[simp] theorem State.bumpAt_lanes (s : State) (k lo bits : Nat) : (s.bumpAt k lo bits).lanes = s.lanes := rfl
@[simp] theorem State.bumpAt_rings (s : State) (k lo bits : Nat) : (s.bumpAt k lo bits).rings = s.rings := rfl
@[simp] theorem State.bumpAt_cells (s : State) (k lo bits : Nat) : (s.bumpAt k lo bits).cells = s.cells := rfl
@[simp] theorem State.bumpAt_svc (s : State) (k lo bits : Nat) : (s.bumpAt k lo bits).svc = s.svc := rfl
@[simp] theorem State.bumpAt_jig (s : State) (k lo bits : Nat) : (s.bumpAt k lo bits).jig = s.jig := rfl
@[simp] theorem State.bumpAt_phases (s : State) (k lo bits : Nat) : (s.bumpAt k lo bits).phases = s.phases := rfl
@[simp] theorem State.bumpAt_armPh (s : State) (k lo bits : Nat) : (s.bumpAt k lo bits).armPh = s.armPh := rfl
@[simp] theorem State.bumpAt_spare (s : State) (k lo bits : Nat) : (s.bumpAt k lo bits).spare = s.spare := rfl
@[simp] theorem State.bumpAt_mon (s : State) (k lo bits : Nat) : (s.bumpAt k lo bits).mon = s.mon := rfl
@[simp] theorem State.bumpAt_edge (s : State) (k lo bits : Nat) : (s.bumpAt k lo bits).edge = s.edge := rfl
@[simp] theorem State.bumpAt_ringIds (s : State) (k lo bits : Nat) : (s.bumpAt k lo bits).ringIds = s.ringIds := rfl
@[simp] theorem State.bumpAt_eng (s : State) (k lo bits : Nat) : (s.bumpAt k lo bits).eng = s.eng := rfl
@[simp] theorem State.bumpAt_engCycle (s : State) (k lo bits : Nat) : (s.bumpAt k lo bits).engCycle = s.engCycle := rfl
@[simp] theorem State.bumpAt_ts1Cycle (s : State) (k lo bits : Nat) : (s.bumpAt k lo bits).ts1Cycle = s.ts1Cycle := rfl
@[simp] theorem State.bumpAt_shadow7 (s : State) (k lo bits : Nat) : (s.bumpAt k lo bits).shadow7 = s.shadow7 := rfl
@[simp] theorem State.bumpAt_pmc (s : State) (k lo bits : Nat) : (s.bumpAt k lo bits).pmc = s.pmc := rfl
@[simp] theorem State.bumpAt_loc (s : State) (k lo bits : Nat) : (s.bumpAt k lo bits).loc = s.loc := rfl
@[simp] theorem State.bumpAt_ssafe (s : State) (k lo bits : Nat) : (s.bumpAt k lo bits).ssafe = s.ssafe := rfl
@[simp] theorem State.bumpAt_restoring (s : State) (k lo bits : Nat) : (s.bumpAt k lo bits).restoring = s.restoring := rfl
@[simp] theorem State.bumpAt_meas (s : State) (k lo bits : Nat) : (s.bumpAt k lo bits).meas = s.meas := rfl
@[simp] theorem State.bumpAt_pair (s : State) (k lo bits : Nat) : (s.bumpAt k lo bits).pair = s.pair := rfl
@[simp] theorem State.bumpAt_capt (s : State) (k lo bits : Nat) : (s.bumpAt k lo bits).capt = s.capt := rfl
@[simp] theorem State.bumpAt_sft (s : State) (k lo bits : Nat) : (s.bumpAt k lo bits).sft = s.sft := rfl
@[simp] theorem State.bumpAt_clk (s : State) (k lo bits : Nat) : (s.bumpAt k lo bits).clk = s.clk := rfl
@[simp] theorem State.bumpAt_sec (s : State) (k lo bits : Nat) : (s.bumpAt k lo bits).sec = s.sec := rfl
@[simp] theorem State.bumpAt_rst (s : State) (k lo bits : Nat) : (s.bumpAt k lo bits).rst = s.rst := rfl
@[simp] theorem State.bumpAt_out (s : State) (k lo bits : Nat) : (s.bumpAt k lo bits).out = s.out := rfl
@[simp] theorem State.bumpAt_free (s : State) (k lo bits : Nat) : (s.bumpAt k lo bits).free = s.free := rfl
@[simp] theorem State.bumpAt_pending (s : State) (k lo bits : Nat) : (s.bumpAt k lo bits).pending = s.pending := rfl

@[simp] theorem State.bump_dt64 (s : State) (k : Nat) : (s.bump k).dt64 = s.dt64 := rfl
@[simp] theorem State.bump_shadow (s : State) (k : Nat) : (s.bump k).shadow = s.shadow := rfl
@[simp] theorem State.bump_accepted (s : State) (k : Nat) : (s.bump k).accepted = s.accepted := rfl
@[simp] theorem State.bump_mem (s : State) (k : Nat) : (s.bump k).mem = s.mem := rfl
@[simp] theorem State.bump_dmem (s : State) (k : Nat) : (s.bump k).dmem = s.dmem := rfl
@[simp] theorem State.bump_sxm (s : State) (k : Nat) : (s.bump k).sxm = s.sxm := rfl
@[simp] theorem State.bump_flash (s : State) (k : Nat) : (s.bump k).flash = s.flash := rfl
@[simp] theorem State.bump_plan (s : State) (k : Nat) : (s.bump k).plan = s.plan := rfl
@[simp] theorem State.bump_host (s : State) (k : Nat) : (s.bump k).host = s.host := rfl
@[simp] theorem State.bump_scribe (s : State) (k : Nat) : (s.bump k).scribe = s.scribe := rfl
@[simp] theorem State.bump_datum (s : State) (k : Nat) : (s.bump k).datum = s.datum := rfl
@[simp] theorem State.bump_trav (s : State) (k : Nat) : (s.bump k).trav = s.trav := rfl
@[simp] theorem State.bump_travMs (s : State) (k : Nat) : (s.bump k).travMs = s.travMs := rfl
@[simp] theorem State.bump_eth (s : State) (k : Nat) : (s.bump k).eth = s.eth := rfl
@[simp] theorem State.bump_fq (s : State) (k : Nat) : (s.bump k).fq = s.fq := rfl
@[simp] theorem State.bump_lanes (s : State) (k : Nat) : (s.bump k).lanes = s.lanes := rfl
@[simp] theorem State.bump_rings (s : State) (k : Nat) : (s.bump k).rings = s.rings := rfl
@[simp] theorem State.bump_cells (s : State) (k : Nat) : (s.bump k).cells = s.cells := rfl
@[simp] theorem State.bump_svc (s : State) (k : Nat) : (s.bump k).svc = s.svc := rfl
@[simp] theorem State.bump_jig (s : State) (k : Nat) : (s.bump k).jig = s.jig := rfl
@[simp] theorem State.bump_phases (s : State) (k : Nat) : (s.bump k).phases = s.phases := rfl
@[simp] theorem State.bump_armPh (s : State) (k : Nat) : (s.bump k).armPh = s.armPh := rfl
@[simp] theorem State.bump_spare (s : State) (k : Nat) : (s.bump k).spare = s.spare := rfl
@[simp] theorem State.bump_mon (s : State) (k : Nat) : (s.bump k).mon = s.mon := rfl
@[simp] theorem State.bump_edge (s : State) (k : Nat) : (s.bump k).edge = s.edge := rfl
@[simp] theorem State.bump_ringIds (s : State) (k : Nat) : (s.bump k).ringIds = s.ringIds := rfl
@[simp] theorem State.bump_eng (s : State) (k : Nat) : (s.bump k).eng = s.eng := rfl
@[simp] theorem State.bump_engCycle (s : State) (k : Nat) : (s.bump k).engCycle = s.engCycle := rfl
@[simp] theorem State.bump_ts1Cycle (s : State) (k : Nat) : (s.bump k).ts1Cycle = s.ts1Cycle := rfl
@[simp] theorem State.bump_shadow7 (s : State) (k : Nat) : (s.bump k).shadow7 = s.shadow7 := rfl
@[simp] theorem State.bump_pmc (s : State) (k : Nat) : (s.bump k).pmc = s.pmc := rfl
@[simp] theorem State.bump_loc (s : State) (k : Nat) : (s.bump k).loc = s.loc := rfl
@[simp] theorem State.bump_ssafe (s : State) (k : Nat) : (s.bump k).ssafe = s.ssafe := rfl
@[simp] theorem State.bump_restoring (s : State) (k : Nat) : (s.bump k).restoring = s.restoring := rfl
@[simp] theorem State.bump_meas (s : State) (k : Nat) : (s.bump k).meas = s.meas := rfl
@[simp] theorem State.bump_pair (s : State) (k : Nat) : (s.bump k).pair = s.pair := rfl
@[simp] theorem State.bump_capt (s : State) (k : Nat) : (s.bump k).capt = s.capt := rfl
@[simp] theorem State.bump_sft (s : State) (k : Nat) : (s.bump k).sft = s.sft := rfl
@[simp] theorem State.bump_clk (s : State) (k : Nat) : (s.bump k).clk = s.clk := rfl
@[simp] theorem State.bump_sec (s : State) (k : Nat) : (s.bump k).sec = s.sec := rfl
@[simp] theorem State.bump_rst (s : State) (k : Nat) : (s.bump k).rst = s.rst := rfl
@[simp] theorem State.bump_out (s : State) (k : Nat) : (s.bump k).out = s.out := rfl
@[simp] theorem State.bump_free (s : State) (k : Nat) : (s.bump k).free = s.free := rfl
@[simp] theorem State.bump_pending (s : State) (k : Nat) : (s.bump k).pending = s.pending := rfl

@[simp] theorem State.irq_dt64 (s : State) (page bit : Nat) : (s.irq page bit).dt64 = s.dt64 := rfl
@[simp] theorem State.irq_shadow (s : State) (page bit : Nat) : (s.irq page bit).shadow = s.shadow := rfl
@[simp] theorem State.irq_accepted (s : State) (page bit : Nat) : (s.irq page bit).accepted = s.accepted := rfl
@[simp] theorem State.irq_mem (s : State) (page bit : Nat) : (s.irq page bit).mem = s.mem := rfl
@[simp] theorem State.irq_dmem (s : State) (page bit : Nat) : (s.irq page bit).dmem = s.dmem := rfl
@[simp] theorem State.irq_sxm (s : State) (page bit : Nat) : (s.irq page bit).sxm = s.sxm := rfl
@[simp] theorem State.irq_flash (s : State) (page bit : Nat) : (s.irq page bit).flash = s.flash := rfl
@[simp] theorem State.irq_plan (s : State) (page bit : Nat) : (s.irq page bit).plan = s.plan := rfl
@[simp] theorem State.irq_host (s : State) (page bit : Nat) : (s.irq page bit).host = s.host := rfl
@[simp] theorem State.irq_scribe (s : State) (page bit : Nat) : (s.irq page bit).scribe = s.scribe := rfl
@[simp] theorem State.irq_datum (s : State) (page bit : Nat) : (s.irq page bit).datum = s.datum := rfl
@[simp] theorem State.irq_trav (s : State) (page bit : Nat) : (s.irq page bit).trav = s.trav := rfl
@[simp] theorem State.irq_travMs (s : State) (page bit : Nat) : (s.irq page bit).travMs = s.travMs := rfl
@[simp] theorem State.irq_eth (s : State) (page bit : Nat) : (s.irq page bit).eth = s.eth := rfl
@[simp] theorem State.irq_fq (s : State) (page bit : Nat) : (s.irq page bit).fq = s.fq := rfl
@[simp] theorem State.irq_lanes (s : State) (page bit : Nat) : (s.irq page bit).lanes = s.lanes := rfl
@[simp] theorem State.irq_rings (s : State) (page bit : Nat) : (s.irq page bit).rings = s.rings := rfl
@[simp] theorem State.irq_cells (s : State) (page bit : Nat) : (s.irq page bit).cells = s.cells := rfl
@[simp] theorem State.irq_svc (s : State) (page bit : Nat) : (s.irq page bit).svc = s.svc := rfl
@[simp] theorem State.irq_jig (s : State) (page bit : Nat) : (s.irq page bit).jig = s.jig := rfl
@[simp] theorem State.irq_phases (s : State) (page bit : Nat) : (s.irq page bit).phases = s.phases := rfl
@[simp] theorem State.irq_armPh (s : State) (page bit : Nat) : (s.irq page bit).armPh = s.armPh := rfl
@[simp] theorem State.irq_spare (s : State) (page bit : Nat) : (s.irq page bit).spare = s.spare := rfl
@[simp] theorem State.irq_mon (s : State) (page bit : Nat) : (s.irq page bit).mon = s.mon := rfl
@[simp] theorem State.irq_edge (s : State) (page bit : Nat) : (s.irq page bit).edge = s.edge := rfl
@[simp] theorem State.irq_ringIds (s : State) (page bit : Nat) : (s.irq page bit).ringIds = s.ringIds := rfl
@[simp] theorem State.irq_eng (s : State) (page bit : Nat) : (s.irq page bit).eng = s.eng := rfl
@[simp] theorem State.irq_engCycle (s : State) (page bit : Nat) : (s.irq page bit).engCycle = s.engCycle := rfl
@[simp] theorem State.irq_ts1Cycle (s : State) (page bit : Nat) : (s.irq page bit).ts1Cycle = s.ts1Cycle := rfl
@[simp] theorem State.irq_shadow7 (s : State) (page bit : Nat) : (s.irq page bit).shadow7 = s.shadow7 := rfl
@[simp] theorem State.irq_pmc (s : State) (page bit : Nat) : (s.irq page bit).pmc = s.pmc := rfl
@[simp] theorem State.irq_loc (s : State) (page bit : Nat) : (s.irq page bit).loc = s.loc := rfl
@[simp] theorem State.irq_ssafe (s : State) (page bit : Nat) : (s.irq page bit).ssafe = s.ssafe := rfl
@[simp] theorem State.irq_restoring (s : State) (page bit : Nat) : (s.irq page bit).restoring = s.restoring := rfl
@[simp] theorem State.irq_meas (s : State) (page bit : Nat) : (s.irq page bit).meas = s.meas := rfl
@[simp] theorem State.irq_pair (s : State) (page bit : Nat) : (s.irq page bit).pair = s.pair := rfl
@[simp] theorem State.irq_capt (s : State) (page bit : Nat) : (s.irq page bit).capt = s.capt := rfl
@[simp] theorem State.irq_sft (s : State) (page bit : Nat) : (s.irq page bit).sft = s.sft := rfl
@[simp] theorem State.irq_clk (s : State) (page bit : Nat) : (s.irq page bit).clk = s.clk := rfl
@[simp] theorem State.irq_sec (s : State) (page bit : Nat) : (s.irq page bit).sec = s.sec := rfl
@[simp] theorem State.irq_rst (s : State) (page bit : Nat) : (s.irq page bit).rst = s.rst := rfl
@[simp] theorem State.irq_out (s : State) (page bit : Nat) : (s.irq page bit).out = s.out := rfl
@[simp] theorem State.irq_free (s : State) (page bit : Nat) : (s.irq page bit).free = s.free := rfl
@[simp] theorem State.irq_pending (s : State) (page bit : Nat) : (s.irq page bit).pending = s.pending := rfl

@[simp] theorem State.setEns_dt64 (s : State) (page : Nat) (b : Bool) : (s.setEns page b).dt64 = s.dt64 := rfl
@[simp] theorem State.setEns_shadow (s : State) (page : Nat) (b : Bool) : (s.setEns page b).shadow = s.shadow := rfl
@[simp] theorem State.setEns_accepted (s : State) (page : Nat) (b : Bool) : (s.setEns page b).accepted = s.accepted := rfl
@[simp] theorem State.setEns_mem (s : State) (page : Nat) (b : Bool) : (s.setEns page b).mem = s.mem := rfl
@[simp] theorem State.setEns_dmem (s : State) (page : Nat) (b : Bool) : (s.setEns page b).dmem = s.dmem := rfl
@[simp] theorem State.setEns_sxm (s : State) (page : Nat) (b : Bool) : (s.setEns page b).sxm = s.sxm := rfl
@[simp] theorem State.setEns_flash (s : State) (page : Nat) (b : Bool) : (s.setEns page b).flash = s.flash := rfl
@[simp] theorem State.setEns_plan (s : State) (page : Nat) (b : Bool) : (s.setEns page b).plan = s.plan := rfl
@[simp] theorem State.setEns_host (s : State) (page : Nat) (b : Bool) : (s.setEns page b).host = s.host := rfl
@[simp] theorem State.setEns_scribe (s : State) (page : Nat) (b : Bool) : (s.setEns page b).scribe = s.scribe := rfl
@[simp] theorem State.setEns_datum (s : State) (page : Nat) (b : Bool) : (s.setEns page b).datum = s.datum := rfl
@[simp] theorem State.setEns_trav (s : State) (page : Nat) (b : Bool) : (s.setEns page b).trav = s.trav := rfl
@[simp] theorem State.setEns_travMs (s : State) (page : Nat) (b : Bool) : (s.setEns page b).travMs = s.travMs := rfl
@[simp] theorem State.setEns_eth (s : State) (page : Nat) (b : Bool) : (s.setEns page b).eth = s.eth := rfl
@[simp] theorem State.setEns_fq (s : State) (page : Nat) (b : Bool) : (s.setEns page b).fq = s.fq := rfl
@[simp] theorem State.setEns_lanes (s : State) (page : Nat) (b : Bool) : (s.setEns page b).lanes = s.lanes := rfl
@[simp] theorem State.setEns_rings (s : State) (page : Nat) (b : Bool) : (s.setEns page b).rings = s.rings := rfl
@[simp] theorem State.setEns_cells (s : State) (page : Nat) (b : Bool) : (s.setEns page b).cells = s.cells := rfl
@[simp] theorem State.setEns_svc (s : State) (page : Nat) (b : Bool) : (s.setEns page b).svc = s.svc := rfl
@[simp] theorem State.setEns_jig (s : State) (page : Nat) (b : Bool) : (s.setEns page b).jig = s.jig := rfl
@[simp] theorem State.setEns_phases (s : State) (page : Nat) (b : Bool) : (s.setEns page b).phases = s.phases := rfl
@[simp] theorem State.setEns_armPh (s : State) (page : Nat) (b : Bool) : (s.setEns page b).armPh = s.armPh := rfl
@[simp] theorem State.setEns_spare (s : State) (page : Nat) (b : Bool) : (s.setEns page b).spare = s.spare := rfl
@[simp] theorem State.setEns_mon (s : State) (page : Nat) (b : Bool) : (s.setEns page b).mon = s.mon := rfl
@[simp] theorem State.setEns_edge (s : State) (page : Nat) (b : Bool) : (s.setEns page b).edge = s.edge := rfl
@[simp] theorem State.setEns_ringIds (s : State) (page : Nat) (b : Bool) : (s.setEns page b).ringIds = s.ringIds := rfl
@[simp] theorem State.setEns_eng (s : State) (page : Nat) (b : Bool) : (s.setEns page b).eng = s.eng := rfl
@[simp] theorem State.setEns_engCycle (s : State) (page : Nat) (b : Bool) : (s.setEns page b).engCycle = s.engCycle := rfl
@[simp] theorem State.setEns_ts1Cycle (s : State) (page : Nat) (b : Bool) : (s.setEns page b).ts1Cycle = s.ts1Cycle := rfl
@[simp] theorem State.setEns_shadow7 (s : State) (page : Nat) (b : Bool) : (s.setEns page b).shadow7 = s.shadow7 := rfl
@[simp] theorem State.setEns_pmc (s : State) (page : Nat) (b : Bool) : (s.setEns page b).pmc = s.pmc := rfl
@[simp] theorem State.setEns_loc (s : State) (page : Nat) (b : Bool) : (s.setEns page b).loc = s.loc := rfl
@[simp] theorem State.setEns_ssafe (s : State) (page : Nat) (b : Bool) : (s.setEns page b).ssafe = s.ssafe := rfl
@[simp] theorem State.setEns_restoring (s : State) (page : Nat) (b : Bool) : (s.setEns page b).restoring = s.restoring := rfl
@[simp] theorem State.setEns_meas (s : State) (page : Nat) (b : Bool) : (s.setEns page b).meas = s.meas := rfl
@[simp] theorem State.setEns_pair (s : State) (page : Nat) (b : Bool) : (s.setEns page b).pair = s.pair := rfl
@[simp] theorem State.setEns_capt (s : State) (page : Nat) (b : Bool) : (s.setEns page b).capt = s.capt := rfl
@[simp] theorem State.setEns_sft (s : State) (page : Nat) (b : Bool) : (s.setEns page b).sft = s.sft := rfl
@[simp] theorem State.setEns_clk (s : State) (page : Nat) (b : Bool) : (s.setEns page b).clk = s.clk := rfl
@[simp] theorem State.setEns_sec (s : State) (page : Nat) (b : Bool) : (s.setEns page b).sec = s.sec := rfl
@[simp] theorem State.setEns_rst (s : State) (page : Nat) (b : Bool) : (s.setEns page b).rst = s.rst := rfl
@[simp] theorem State.setEns_out (s : State) (page : Nat) (b : Bool) : (s.setEns page b).out = s.out := rfl
@[simp] theorem State.setEns_free (s : State) (page : Nat) (b : Bool) : (s.setEns page b).free = s.free := rfl
@[simp] theorem State.setEns_pending (s : State) (page : Nat) (b : Bool) : (s.setEns page b).pending = s.pending := rfl

@[simp] theorem State.setCpend_dt64 (s : State) (page : Nat) (b : Bool) : (s.setCpend page b).dt64 = s.dt64 := rfl
@[simp] theorem State.setCpend_shadow (s : State) (page : Nat) (b : Bool) : (s.setCpend page b).shadow = s.shadow := rfl
@[simp] theorem State.setCpend_accepted (s : State) (page : Nat) (b : Bool) : (s.setCpend page b).accepted = s.accepted := rfl
@[simp] theorem State.setCpend_mem (s : State) (page : Nat) (b : Bool) : (s.setCpend page b).mem = s.mem := rfl
@[simp] theorem State.setCpend_dmem (s : State) (page : Nat) (b : Bool) : (s.setCpend page b).dmem = s.dmem := rfl
@[simp] theorem State.setCpend_sxm (s : State) (page : Nat) (b : Bool) : (s.setCpend page b).sxm = s.sxm := rfl
@[simp] theorem State.setCpend_flash (s : State) (page : Nat) (b : Bool) : (s.setCpend page b).flash = s.flash := rfl
@[simp] theorem State.setCpend_plan (s : State) (page : Nat) (b : Bool) : (s.setCpend page b).plan = s.plan := rfl
@[simp] theorem State.setCpend_host (s : State) (page : Nat) (b : Bool) : (s.setCpend page b).host = s.host := rfl
@[simp] theorem State.setCpend_scribe (s : State) (page : Nat) (b : Bool) : (s.setCpend page b).scribe = s.scribe := rfl
@[simp] theorem State.setCpend_datum (s : State) (page : Nat) (b : Bool) : (s.setCpend page b).datum = s.datum := rfl
@[simp] theorem State.setCpend_trav (s : State) (page : Nat) (b : Bool) : (s.setCpend page b).trav = s.trav := rfl
@[simp] theorem State.setCpend_travMs (s : State) (page : Nat) (b : Bool) : (s.setCpend page b).travMs = s.travMs := rfl
@[simp] theorem State.setCpend_eth (s : State) (page : Nat) (b : Bool) : (s.setCpend page b).eth = s.eth := rfl
@[simp] theorem State.setCpend_fq (s : State) (page : Nat) (b : Bool) : (s.setCpend page b).fq = s.fq := rfl
@[simp] theorem State.setCpend_lanes (s : State) (page : Nat) (b : Bool) : (s.setCpend page b).lanes = s.lanes := rfl
@[simp] theorem State.setCpend_rings (s : State) (page : Nat) (b : Bool) : (s.setCpend page b).rings = s.rings := rfl
@[simp] theorem State.setCpend_cells (s : State) (page : Nat) (b : Bool) : (s.setCpend page b).cells = s.cells := rfl
@[simp] theorem State.setCpend_svc (s : State) (page : Nat) (b : Bool) : (s.setCpend page b).svc = s.svc := rfl
@[simp] theorem State.setCpend_jig (s : State) (page : Nat) (b : Bool) : (s.setCpend page b).jig = s.jig := rfl
@[simp] theorem State.setCpend_phases (s : State) (page : Nat) (b : Bool) : (s.setCpend page b).phases = s.phases := rfl
@[simp] theorem State.setCpend_armPh (s : State) (page : Nat) (b : Bool) : (s.setCpend page b).armPh = s.armPh := rfl
@[simp] theorem State.setCpend_spare (s : State) (page : Nat) (b : Bool) : (s.setCpend page b).spare = s.spare := rfl
@[simp] theorem State.setCpend_mon (s : State) (page : Nat) (b : Bool) : (s.setCpend page b).mon = s.mon := rfl
@[simp] theorem State.setCpend_edge (s : State) (page : Nat) (b : Bool) : (s.setCpend page b).edge = s.edge := rfl
@[simp] theorem State.setCpend_ringIds (s : State) (page : Nat) (b : Bool) : (s.setCpend page b).ringIds = s.ringIds := rfl
@[simp] theorem State.setCpend_eng (s : State) (page : Nat) (b : Bool) : (s.setCpend page b).eng = s.eng := rfl
@[simp] theorem State.setCpend_engCycle (s : State) (page : Nat) (b : Bool) : (s.setCpend page b).engCycle = s.engCycle := rfl
@[simp] theorem State.setCpend_ts1Cycle (s : State) (page : Nat) (b : Bool) : (s.setCpend page b).ts1Cycle = s.ts1Cycle := rfl
@[simp] theorem State.setCpend_shadow7 (s : State) (page : Nat) (b : Bool) : (s.setCpend page b).shadow7 = s.shadow7 := rfl
@[simp] theorem State.setCpend_pmc (s : State) (page : Nat) (b : Bool) : (s.setCpend page b).pmc = s.pmc := rfl
@[simp] theorem State.setCpend_loc (s : State) (page : Nat) (b : Bool) : (s.setCpend page b).loc = s.loc := rfl
@[simp] theorem State.setCpend_ssafe (s : State) (page : Nat) (b : Bool) : (s.setCpend page b).ssafe = s.ssafe := rfl
@[simp] theorem State.setCpend_restoring (s : State) (page : Nat) (b : Bool) : (s.setCpend page b).restoring = s.restoring := rfl
@[simp] theorem State.setCpend_meas (s : State) (page : Nat) (b : Bool) : (s.setCpend page b).meas = s.meas := rfl
@[simp] theorem State.setCpend_pair (s : State) (page : Nat) (b : Bool) : (s.setCpend page b).pair = s.pair := rfl
@[simp] theorem State.setCpend_capt (s : State) (page : Nat) (b : Bool) : (s.setCpend page b).capt = s.capt := rfl
@[simp] theorem State.setCpend_sft (s : State) (page : Nat) (b : Bool) : (s.setCpend page b).sft = s.sft := rfl
@[simp] theorem State.setCpend_clk (s : State) (page : Nat) (b : Bool) : (s.setCpend page b).clk = s.clk := rfl
@[simp] theorem State.setCpend_sec (s : State) (page : Nat) (b : Bool) : (s.setCpend page b).sec = s.sec := rfl
@[simp] theorem State.setCpend_rst (s : State) (page : Nat) (b : Bool) : (s.setCpend page b).rst = s.rst := rfl
@[simp] theorem State.setCpend_out (s : State) (page : Nat) (b : Bool) : (s.setCpend page b).out = s.out := rfl
@[simp] theorem State.setCpend_free (s : State) (page : Nat) (b : Bool) : (s.setCpend page b).free = s.free := rfl
@[simp] theorem State.setCpend_pending (s : State) (page : Nat) (b : Bool) : (s.setCpend page b).pending = s.pending := rfl

@[simp] theorem State.setIdle_dt64 (s : State) (page : Nat) (b : Bool) : (s.setIdle page b).dt64 = s.dt64 := rfl
@[simp] theorem State.setIdle_shadow (s : State) (page : Nat) (b : Bool) : (s.setIdle page b).shadow = s.shadow := rfl
@[simp] theorem State.setIdle_accepted (s : State) (page : Nat) (b : Bool) : (s.setIdle page b).accepted = s.accepted := rfl
@[simp] theorem State.setIdle_mem (s : State) (page : Nat) (b : Bool) : (s.setIdle page b).mem = s.mem := rfl
@[simp] theorem State.setIdle_dmem (s : State) (page : Nat) (b : Bool) : (s.setIdle page b).dmem = s.dmem := rfl
@[simp] theorem State.setIdle_sxm (s : State) (page : Nat) (b : Bool) : (s.setIdle page b).sxm = s.sxm := rfl
@[simp] theorem State.setIdle_flash (s : State) (page : Nat) (b : Bool) : (s.setIdle page b).flash = s.flash := rfl
@[simp] theorem State.setIdle_plan (s : State) (page : Nat) (b : Bool) : (s.setIdle page b).plan = s.plan := rfl
@[simp] theorem State.setIdle_host (s : State) (page : Nat) (b : Bool) : (s.setIdle page b).host = s.host := rfl
@[simp] theorem State.setIdle_scribe (s : State) (page : Nat) (b : Bool) : (s.setIdle page b).scribe = s.scribe := rfl
@[simp] theorem State.setIdle_datum (s : State) (page : Nat) (b : Bool) : (s.setIdle page b).datum = s.datum := rfl
@[simp] theorem State.setIdle_trav (s : State) (page : Nat) (b : Bool) : (s.setIdle page b).trav = s.trav := rfl
@[simp] theorem State.setIdle_travMs (s : State) (page : Nat) (b : Bool) : (s.setIdle page b).travMs = s.travMs := rfl
@[simp] theorem State.setIdle_eth (s : State) (page : Nat) (b : Bool) : (s.setIdle page b).eth = s.eth := rfl
@[simp] theorem State.setIdle_fq (s : State) (page : Nat) (b : Bool) : (s.setIdle page b).fq = s.fq := rfl
@[simp] theorem State.setIdle_lanes (s : State) (page : Nat) (b : Bool) : (s.setIdle page b).lanes = s.lanes := rfl
@[simp] theorem State.setIdle_rings (s : State) (page : Nat) (b : Bool) : (s.setIdle page b).rings = s.rings := rfl
@[simp] theorem State.setIdle_cells (s : State) (page : Nat) (b : Bool) : (s.setIdle page b).cells = s.cells := rfl
@[simp] theorem State.setIdle_svc (s : State) (page : Nat) (b : Bool) : (s.setIdle page b).svc = s.svc := rfl
@[simp] theorem State.setIdle_jig (s : State) (page : Nat) (b : Bool) : (s.setIdle page b).jig = s.jig := rfl
@[simp] theorem State.setIdle_phases (s : State) (page : Nat) (b : Bool) : (s.setIdle page b).phases = s.phases := rfl
@[simp] theorem State.setIdle_armPh (s : State) (page : Nat) (b : Bool) : (s.setIdle page b).armPh = s.armPh := rfl
@[simp] theorem State.setIdle_spare (s : State) (page : Nat) (b : Bool) : (s.setIdle page b).spare = s.spare := rfl
@[simp] theorem State.setIdle_mon (s : State) (page : Nat) (b : Bool) : (s.setIdle page b).mon = s.mon := rfl
@[simp] theorem State.setIdle_edge (s : State) (page : Nat) (b : Bool) : (s.setIdle page b).edge = s.edge := rfl
@[simp] theorem State.setIdle_ringIds (s : State) (page : Nat) (b : Bool) : (s.setIdle page b).ringIds = s.ringIds := rfl
@[simp] theorem State.setIdle_eng (s : State) (page : Nat) (b : Bool) : (s.setIdle page b).eng = s.eng := rfl
@[simp] theorem State.setIdle_engCycle (s : State) (page : Nat) (b : Bool) : (s.setIdle page b).engCycle = s.engCycle := rfl
@[simp] theorem State.setIdle_ts1Cycle (s : State) (page : Nat) (b : Bool) : (s.setIdle page b).ts1Cycle = s.ts1Cycle := rfl
@[simp] theorem State.setIdle_shadow7 (s : State) (page : Nat) (b : Bool) : (s.setIdle page b).shadow7 = s.shadow7 := rfl
@[simp] theorem State.setIdle_pmc (s : State) (page : Nat) (b : Bool) : (s.setIdle page b).pmc = s.pmc := rfl
@[simp] theorem State.setIdle_loc (s : State) (page : Nat) (b : Bool) : (s.setIdle page b).loc = s.loc := rfl
@[simp] theorem State.setIdle_ssafe (s : State) (page : Nat) (b : Bool) : (s.setIdle page b).ssafe = s.ssafe := rfl
@[simp] theorem State.setIdle_restoring (s : State) (page : Nat) (b : Bool) : (s.setIdle page b).restoring = s.restoring := rfl
@[simp] theorem State.setIdle_meas (s : State) (page : Nat) (b : Bool) : (s.setIdle page b).meas = s.meas := rfl
@[simp] theorem State.setIdle_pair (s : State) (page : Nat) (b : Bool) : (s.setIdle page b).pair = s.pair := rfl
@[simp] theorem State.setIdle_capt (s : State) (page : Nat) (b : Bool) : (s.setIdle page b).capt = s.capt := rfl
@[simp] theorem State.setIdle_sft (s : State) (page : Nat) (b : Bool) : (s.setIdle page b).sft = s.sft := rfl
@[simp] theorem State.setIdle_clk (s : State) (page : Nat) (b : Bool) : (s.setIdle page b).clk = s.clk := rfl
@[simp] theorem State.setIdle_sec (s : State) (page : Nat) (b : Bool) : (s.setIdle page b).sec = s.sec := rfl
@[simp] theorem State.setIdle_rst (s : State) (page : Nat) (b : Bool) : (s.setIdle page b).rst = s.rst := rfl
@[simp] theorem State.setIdle_out (s : State) (page : Nat) (b : Bool) : (s.setIdle page b).out = s.out := rfl
@[simp] theorem State.setIdle_free (s : State) (page : Nat) (b : Bool) : (s.setIdle page b).free = s.free := rfl
@[simp] theorem State.setIdle_pending (s : State) (page : Nat) (b : Bool) : (s.setIdle page b).pending = s.pending := rfl

@[simp] theorem State.fault_dt64 (s : State) (src page a m acc d : Nat) : (s.fault src page a m acc d).dt64 = s.dt64 := rfl
@[simp] theorem State.fault_regs (s : State) (src page a m acc d : Nat) : (s.fault src page a m acc d).regs = s.regs := rfl
@[simp] theorem State.fault_shadow (s : State) (src page a m acc d : Nat) : (s.fault src page a m acc d).shadow = s.shadow := rfl
@[simp] theorem State.fault_accepted (s : State) (src page a m acc d : Nat) : (s.fault src page a m acc d).accepted = s.accepted := rfl
@[simp] theorem State.fault_mem (s : State) (src page a m acc d : Nat) : (s.fault src page a m acc d).mem = s.mem := rfl
@[simp] theorem State.fault_dmem (s : State) (src page a m acc d : Nat) : (s.fault src page a m acc d).dmem = s.dmem := rfl
@[simp] theorem State.fault_sxm (s : State) (src page a m acc d : Nat) : (s.fault src page a m acc d).sxm = s.sxm := rfl
@[simp] theorem State.fault_flash (s : State) (src page a m acc d : Nat) : (s.fault src page a m acc d).flash = s.flash := rfl
@[simp] theorem State.fault_plan (s : State) (src page a m acc d : Nat) : (s.fault src page a m acc d).plan = s.plan := rfl
@[simp] theorem State.fault_host (s : State) (src page a m acc d : Nat) : (s.fault src page a m acc d).host = s.host := rfl
@[simp] theorem State.fault_datum (s : State) (src page a m acc d : Nat) : (s.fault src page a m acc d).datum = s.datum := rfl
@[simp] theorem State.fault_trav (s : State) (src page a m acc d : Nat) : (s.fault src page a m acc d).trav = s.trav := rfl
@[simp] theorem State.fault_travMs (s : State) (src page a m acc d : Nat) : (s.fault src page a m acc d).travMs = s.travMs := rfl
@[simp] theorem State.fault_eth (s : State) (src page a m acc d : Nat) : (s.fault src page a m acc d).eth = s.eth := rfl
@[simp] theorem State.fault_fq (s : State) (src page a m acc d : Nat) : (s.fault src page a m acc d).fq = s.fq := rfl
@[simp] theorem State.fault_lanes (s : State) (src page a m acc d : Nat) : (s.fault src page a m acc d).lanes = s.lanes := rfl
@[simp] theorem State.fault_rings (s : State) (src page a m acc d : Nat) : (s.fault src page a m acc d).rings = s.rings := rfl
@[simp] theorem State.fault_cells (s : State) (src page a m acc d : Nat) : (s.fault src page a m acc d).cells = s.cells := rfl
@[simp] theorem State.fault_svc (s : State) (src page a m acc d : Nat) : (s.fault src page a m acc d).svc = s.svc := rfl
@[simp] theorem State.fault_jig (s : State) (src page a m acc d : Nat) : (s.fault src page a m acc d).jig = s.jig := rfl
@[simp] theorem State.fault_phases (s : State) (src page a m acc d : Nat) : (s.fault src page a m acc d).phases = s.phases := rfl
@[simp] theorem State.fault_armPh (s : State) (src page a m acc d : Nat) : (s.fault src page a m acc d).armPh = s.armPh := rfl
@[simp] theorem State.fault_spare (s : State) (src page a m acc d : Nat) : (s.fault src page a m acc d).spare = s.spare := rfl
@[simp] theorem State.fault_mon (s : State) (src page a m acc d : Nat) : (s.fault src page a m acc d).mon = s.mon := rfl
@[simp] theorem State.fault_edge (s : State) (src page a m acc d : Nat) : (s.fault src page a m acc d).edge = s.edge := rfl
@[simp] theorem State.fault_ringIds (s : State) (src page a m acc d : Nat) : (s.fault src page a m acc d).ringIds = s.ringIds := rfl
@[simp] theorem State.fault_eng (s : State) (src page a m acc d : Nat) : (s.fault src page a m acc d).eng = s.eng := rfl
@[simp] theorem State.fault_engCycle (s : State) (src page a m acc d : Nat) : (s.fault src page a m acc d).engCycle = s.engCycle := rfl
@[simp] theorem State.fault_ts1Cycle (s : State) (src page a m acc d : Nat) : (s.fault src page a m acc d).ts1Cycle = s.ts1Cycle := rfl
@[simp] theorem State.fault_shadow7 (s : State) (src page a m acc d : Nat) : (s.fault src page a m acc d).shadow7 = s.shadow7 := rfl
@[simp] theorem State.fault_pmc (s : State) (src page a m acc d : Nat) : (s.fault src page a m acc d).pmc = s.pmc := rfl
@[simp] theorem State.fault_loc (s : State) (src page a m acc d : Nat) : (s.fault src page a m acc d).loc = s.loc := rfl
@[simp] theorem State.fault_ssafe (s : State) (src page a m acc d : Nat) : (s.fault src page a m acc d).ssafe = s.ssafe := rfl
@[simp] theorem State.fault_restoring (s : State) (src page a m acc d : Nat) : (s.fault src page a m acc d).restoring = s.restoring := rfl
@[simp] theorem State.fault_meas (s : State) (src page a m acc d : Nat) : (s.fault src page a m acc d).meas = s.meas := rfl
@[simp] theorem State.fault_pair (s : State) (src page a m acc d : Nat) : (s.fault src page a m acc d).pair = s.pair := rfl
@[simp] theorem State.fault_capt (s : State) (src page a m acc d : Nat) : (s.fault src page a m acc d).capt = s.capt := rfl
@[simp] theorem State.fault_sft (s : State) (src page a m acc d : Nat) : (s.fault src page a m acc d).sft = s.sft := rfl
@[simp] theorem State.fault_clk (s : State) (src page a m acc d : Nat) : (s.fault src page a m acc d).clk = s.clk := rfl
@[simp] theorem State.fault_sec (s : State) (src page a m acc d : Nat) : (s.fault src page a m acc d).sec = s.sec := rfl
@[simp] theorem State.fault_rst (s : State) (src page a m acc d : Nat) : (s.fault src page a m acc d).rst = s.rst := rfl
@[simp] theorem State.fault_out (s : State) (src page a m acc d : Nat) : (s.fault src page a m acc d).out = s.out := rfl
@[simp] theorem State.fault_free (s : State) (src page a m acc d : Nat) : (s.fault src page a m acc d).free = s.free := rfl
@[simp] theorem State.fault_pending (s : State) (src page a m acc d : Nat) : (s.fault src page a m acc d).pending = s.pending := rfl

@[simp] theorem State.elapse_regs (s : State) (d : Nat) : (s.elapse d).regs = s.regs := rfl
@[simp] theorem State.elapse_shadow (s : State) (d : Nat) : (s.elapse d).shadow = s.shadow := rfl
@[simp] theorem State.elapse_accepted (s : State) (d : Nat) : (s.elapse d).accepted = s.accepted := rfl
@[simp] theorem State.elapse_mem (s : State) (d : Nat) : (s.elapse d).mem = s.mem := rfl
@[simp] theorem State.elapse_dmem (s : State) (d : Nat) : (s.elapse d).dmem = s.dmem := rfl
@[simp] theorem State.elapse_sxm (s : State) (d : Nat) : (s.elapse d).sxm = s.sxm := rfl
@[simp] theorem State.elapse_flash (s : State) (d : Nat) : (s.elapse d).flash = s.flash := rfl
@[simp] theorem State.elapse_plan (s : State) (d : Nat) : (s.elapse d).plan = s.plan := rfl
@[simp] theorem State.elapse_host (s : State) (d : Nat) : (s.elapse d).host = s.host := rfl
@[simp] theorem State.elapse_scribe (s : State) (d : Nat) : (s.elapse d).scribe = s.scribe := rfl
@[simp] theorem State.elapse_datum (s : State) (d : Nat) : (s.elapse d).datum = s.datum := rfl
@[simp] theorem State.elapse_trav (s : State) (d : Nat) : (s.elapse d).trav = s.trav := rfl
@[simp] theorem State.elapse_travMs (s : State) (d : Nat) : (s.elapse d).travMs = s.travMs := rfl
@[simp] theorem State.elapse_eth (s : State) (d : Nat) : (s.elapse d).eth = s.eth := rfl
@[simp] theorem State.elapse_fq (s : State) (d : Nat) : (s.elapse d).fq = s.fq := rfl
@[simp] theorem State.elapse_lanes (s : State) (d : Nat) : (s.elapse d).lanes = s.lanes := rfl
@[simp] theorem State.elapse_rings (s : State) (d : Nat) : (s.elapse d).rings = s.rings := rfl
@[simp] theorem State.elapse_cells (s : State) (d : Nat) : (s.elapse d).cells = s.cells := rfl
@[simp] theorem State.elapse_svc (s : State) (d : Nat) : (s.elapse d).svc = s.svc := rfl
@[simp] theorem State.elapse_jig (s : State) (d : Nat) : (s.elapse d).jig = s.jig := rfl
@[simp] theorem State.elapse_phases (s : State) (d : Nat) : (s.elapse d).phases = s.phases := rfl
@[simp] theorem State.elapse_armPh (s : State) (d : Nat) : (s.elapse d).armPh = s.armPh := rfl
@[simp] theorem State.elapse_spare (s : State) (d : Nat) : (s.elapse d).spare = s.spare := rfl
@[simp] theorem State.elapse_mon (s : State) (d : Nat) : (s.elapse d).mon = s.mon := rfl
@[simp] theorem State.elapse_edge (s : State) (d : Nat) : (s.elapse d).edge = s.edge := rfl
@[simp] theorem State.elapse_ringIds (s : State) (d : Nat) : (s.elapse d).ringIds = s.ringIds := rfl
@[simp] theorem State.elapse_eng (s : State) (d : Nat) : (s.elapse d).eng = s.eng := rfl
@[simp] theorem State.elapse_engCycle (s : State) (d : Nat) : (s.elapse d).engCycle = s.engCycle := rfl
@[simp] theorem State.elapse_ts1Cycle (s : State) (d : Nat) : (s.elapse d).ts1Cycle = s.ts1Cycle := rfl
@[simp] theorem State.elapse_shadow7 (s : State) (d : Nat) : (s.elapse d).shadow7 = s.shadow7 := rfl
@[simp] theorem State.elapse_pmc (s : State) (d : Nat) : (s.elapse d).pmc = s.pmc := rfl
@[simp] theorem State.elapse_loc (s : State) (d : Nat) : (s.elapse d).loc = s.loc := rfl
@[simp] theorem State.elapse_ssafe (s : State) (d : Nat) : (s.elapse d).ssafe = s.ssafe := rfl
@[simp] theorem State.elapse_restoring (s : State) (d : Nat) : (s.elapse d).restoring = s.restoring := rfl
@[simp] theorem State.elapse_meas (s : State) (d : Nat) : (s.elapse d).meas = s.meas := rfl
@[simp] theorem State.elapse_pair (s : State) (d : Nat) : (s.elapse d).pair = s.pair := rfl
@[simp] theorem State.elapse_capt (s : State) (d : Nat) : (s.elapse d).capt = s.capt := rfl
@[simp] theorem State.elapse_sft (s : State) (d : Nat) : (s.elapse d).sft = s.sft := rfl
@[simp] theorem State.elapse_clk (s : State) (d : Nat) : (s.elapse d).clk = s.clk := rfl
@[simp] theorem State.elapse_sec (s : State) (d : Nat) : (s.elapse d).sec = s.sec := rfl
@[simp] theorem State.elapse_rst (s : State) (d : Nat) : (s.elapse d).rst = s.rst := rfl
@[simp] theorem State.elapse_out (s : State) (d : Nat) : (s.elapse d).out = s.out := rfl
@[simp] theorem State.elapse_free (s : State) (d : Nat) : (s.elapse d).free = s.free := rfl
@[simp] theorem State.elapse_pending (s : State) (d : Nat) : (s.elapse d).pending = s.pending := rfl

/-- Ring time brought forward is the state as it is, or some ring time later. -/
theorem State.reach_cases (s : State) (x : Nat) : s.reach x = s ∨ ∃ d, s.reach x = s.elapse d := by
  unfold State.reach
  dsimp only
  split
  · exact .inl rfl
  · split
    · exact .inr ⟨_, rfl⟩
    · exact .inl rfl

@[simp] theorem State.reach_regs (s : State) (x : Nat) : (s.reach x).regs = s.regs := by
  rcases s.reach_cases x with h | ⟨d, h⟩ <;> rw [h]
  rfl
@[simp] theorem State.reach_shadow (s : State) (x : Nat) : (s.reach x).shadow = s.shadow := by
  rcases s.reach_cases x with h | ⟨d, h⟩ <;> rw [h]
  rfl
@[simp] theorem State.reach_accepted (s : State) (x : Nat) : (s.reach x).accepted = s.accepted := by
  rcases s.reach_cases x with h | ⟨d, h⟩ <;> rw [h]
  rfl
@[simp] theorem State.reach_mem (s : State) (x : Nat) : (s.reach x).mem = s.mem := by
  rcases s.reach_cases x with h | ⟨d, h⟩ <;> rw [h]
  rfl
@[simp] theorem State.reach_dmem (s : State) (x : Nat) : (s.reach x).dmem = s.dmem := by
  rcases s.reach_cases x with h | ⟨d, h⟩ <;> rw [h]
  rfl
@[simp] theorem State.reach_sxm (s : State) (x : Nat) : (s.reach x).sxm = s.sxm := by
  rcases s.reach_cases x with h | ⟨d, h⟩ <;> rw [h]
  rfl
@[simp] theorem State.reach_flash (s : State) (x : Nat) : (s.reach x).flash = s.flash := by
  rcases s.reach_cases x with h | ⟨d, h⟩ <;> rw [h]
  rfl
@[simp] theorem State.reach_plan (s : State) (x : Nat) : (s.reach x).plan = s.plan := by
  rcases s.reach_cases x with h | ⟨d, h⟩ <;> rw [h]
  rfl
@[simp] theorem State.reach_host (s : State) (x : Nat) : (s.reach x).host = s.host := by
  rcases s.reach_cases x with h | ⟨d, h⟩ <;> rw [h]
  rfl
@[simp] theorem State.reach_scribe (s : State) (x : Nat) : (s.reach x).scribe = s.scribe := by
  rcases s.reach_cases x with h | ⟨d, h⟩ <;> rw [h]
  rfl
@[simp] theorem State.reach_datum (s : State) (x : Nat) : (s.reach x).datum = s.datum := by
  rcases s.reach_cases x with h | ⟨d, h⟩ <;> rw [h]
  rfl
@[simp] theorem State.reach_trav (s : State) (x : Nat) : (s.reach x).trav = s.trav := by
  rcases s.reach_cases x with h | ⟨d, h⟩ <;> rw [h]
  rfl
@[simp] theorem State.reach_travMs (s : State) (x : Nat) : (s.reach x).travMs = s.travMs := by
  rcases s.reach_cases x with h | ⟨d, h⟩ <;> rw [h]
  rfl
@[simp] theorem State.reach_eth (s : State) (x : Nat) : (s.reach x).eth = s.eth := by
  rcases s.reach_cases x with h | ⟨d, h⟩ <;> rw [h]
  rfl
@[simp] theorem State.reach_fq (s : State) (x : Nat) : (s.reach x).fq = s.fq := by
  rcases s.reach_cases x with h | ⟨d, h⟩ <;> rw [h]
  rfl
@[simp] theorem State.reach_lanes (s : State) (x : Nat) : (s.reach x).lanes = s.lanes := by
  rcases s.reach_cases x with h | ⟨d, h⟩ <;> rw [h]
  rfl
@[simp] theorem State.reach_rings (s : State) (x : Nat) : (s.reach x).rings = s.rings := by
  rcases s.reach_cases x with h | ⟨d, h⟩ <;> rw [h]
  rfl
@[simp] theorem State.reach_cells (s : State) (x : Nat) : (s.reach x).cells = s.cells := by
  rcases s.reach_cases x with h | ⟨d, h⟩ <;> rw [h]
  rfl
@[simp] theorem State.reach_svc (s : State) (x : Nat) : (s.reach x).svc = s.svc := by
  rcases s.reach_cases x with h | ⟨d, h⟩ <;> rw [h]
  rfl
@[simp] theorem State.reach_jig (s : State) (x : Nat) : (s.reach x).jig = s.jig := by
  rcases s.reach_cases x with h | ⟨d, h⟩ <;> rw [h]
  rfl
@[simp] theorem State.reach_phases (s : State) (x : Nat) : (s.reach x).phases = s.phases := by
  rcases s.reach_cases x with h | ⟨d, h⟩ <;> rw [h]
  rfl
@[simp] theorem State.reach_armPh (s : State) (x : Nat) : (s.reach x).armPh = s.armPh := by
  rcases s.reach_cases x with h | ⟨d, h⟩ <;> rw [h]
  rfl
@[simp] theorem State.reach_spare (s : State) (x : Nat) : (s.reach x).spare = s.spare := by
  rcases s.reach_cases x with h | ⟨d, h⟩ <;> rw [h]
  rfl
@[simp] theorem State.reach_mon (s : State) (x : Nat) : (s.reach x).mon = s.mon := by
  rcases s.reach_cases x with h | ⟨d, h⟩ <;> rw [h]
  rfl
@[simp] theorem State.reach_edge (s : State) (x : Nat) : (s.reach x).edge = s.edge := by
  rcases s.reach_cases x with h | ⟨d, h⟩ <;> rw [h]
  rfl
@[simp] theorem State.reach_ringIds (s : State) (x : Nat) : (s.reach x).ringIds = s.ringIds := by
  rcases s.reach_cases x with h | ⟨d, h⟩ <;> rw [h]
  rfl
@[simp] theorem State.reach_eng (s : State) (x : Nat) : (s.reach x).eng = s.eng := by
  rcases s.reach_cases x with h | ⟨d, h⟩ <;> rw [h]
  rfl
@[simp] theorem State.reach_engCycle (s : State) (x : Nat) : (s.reach x).engCycle = s.engCycle := by
  rcases s.reach_cases x with h | ⟨d, h⟩ <;> rw [h]
  rfl
@[simp] theorem State.reach_ts1Cycle (s : State) (x : Nat) : (s.reach x).ts1Cycle = s.ts1Cycle := by
  rcases s.reach_cases x with h | ⟨d, h⟩ <;> rw [h]
  rfl
@[simp] theorem State.reach_shadow7 (s : State) (x : Nat) : (s.reach x).shadow7 = s.shadow7 := by
  rcases s.reach_cases x with h | ⟨d, h⟩ <;> rw [h]
  rfl
@[simp] theorem State.reach_pmc (s : State) (x : Nat) : (s.reach x).pmc = s.pmc := by
  rcases s.reach_cases x with h | ⟨d, h⟩ <;> rw [h]
  rfl
@[simp] theorem State.reach_loc (s : State) (x : Nat) : (s.reach x).loc = s.loc := by
  rcases s.reach_cases x with h | ⟨d, h⟩ <;> rw [h]
  rfl
@[simp] theorem State.reach_ssafe (s : State) (x : Nat) : (s.reach x).ssafe = s.ssafe := by
  rcases s.reach_cases x with h | ⟨d, h⟩ <;> rw [h]
  rfl
@[simp] theorem State.reach_restoring (s : State) (x : Nat) : (s.reach x).restoring = s.restoring := by
  rcases s.reach_cases x with h | ⟨d, h⟩ <;> rw [h]
  rfl
@[simp] theorem State.reach_meas (s : State) (x : Nat) : (s.reach x).meas = s.meas := by
  rcases s.reach_cases x with h | ⟨d, h⟩ <;> rw [h]
  rfl
@[simp] theorem State.reach_pair (s : State) (x : Nat) : (s.reach x).pair = s.pair := by
  rcases s.reach_cases x with h | ⟨d, h⟩ <;> rw [h]
  rfl
@[simp] theorem State.reach_capt (s : State) (x : Nat) : (s.reach x).capt = s.capt := by
  rcases s.reach_cases x with h | ⟨d, h⟩ <;> rw [h]
  rfl
@[simp] theorem State.reach_sft (s : State) (x : Nat) : (s.reach x).sft = s.sft := by
  rcases s.reach_cases x with h | ⟨d, h⟩ <;> rw [h]
  rfl
@[simp] theorem State.reach_clk (s : State) (x : Nat) : (s.reach x).clk = s.clk := by
  rcases s.reach_cases x with h | ⟨d, h⟩ <;> rw [h]
  rfl
@[simp] theorem State.reach_sec (s : State) (x : Nat) : (s.reach x).sec = s.sec := by
  rcases s.reach_cases x with h | ⟨d, h⟩ <;> rw [h]
  rfl
@[simp] theorem State.reach_rst (s : State) (x : Nat) : (s.reach x).rst = s.rst := by
  rcases s.reach_cases x with h | ⟨d, h⟩ <;> rw [h]
  rfl
@[simp] theorem State.reach_out (s : State) (x : Nat) : (s.reach x).out = s.out := by
  rcases s.reach_cases x with h | ⟨d, h⟩ <;> rw [h]
  rfl
@[simp] theorem State.reach_free (s : State) (x : Nat) : (s.reach x).free = s.free := by
  rcases s.reach_cases x with h | ⟨d, h⟩ <;> rw [h]
  rfl
@[simp] theorem State.reach_pending (s : State) (x : Nat) : (s.reach x).pending = s.pending := by
  rcases s.reach_cases x with h | ⟨d, h⟩ <;> rw [h]
  rfl

@[simp] theorem State.useFree_dt64 (s : State) : (s.useFree ).dt64 = s.dt64 := rfl
@[simp] theorem State.useFree_regs (s : State) : (s.useFree ).regs = s.regs := rfl
@[simp] theorem State.useFree_shadow (s : State) : (s.useFree ).shadow = s.shadow := rfl
@[simp] theorem State.useFree_accepted (s : State) : (s.useFree ).accepted = s.accepted := rfl
@[simp] theorem State.useFree_mem (s : State) : (s.useFree ).mem = s.mem := rfl
@[simp] theorem State.useFree_dmem (s : State) : (s.useFree ).dmem = s.dmem := rfl
@[simp] theorem State.useFree_sxm (s : State) : (s.useFree ).sxm = s.sxm := rfl
@[simp] theorem State.useFree_flash (s : State) : (s.useFree ).flash = s.flash := rfl
@[simp] theorem State.useFree_plan (s : State) : (s.useFree ).plan = s.plan := rfl
@[simp] theorem State.useFree_host (s : State) : (s.useFree ).host = s.host := rfl
@[simp] theorem State.useFree_scribe (s : State) : (s.useFree ).scribe = s.scribe := rfl
@[simp] theorem State.useFree_datum (s : State) : (s.useFree ).datum = s.datum := rfl
@[simp] theorem State.useFree_trav (s : State) : (s.useFree ).trav = s.trav := rfl
@[simp] theorem State.useFree_travMs (s : State) : (s.useFree ).travMs = s.travMs := rfl
@[simp] theorem State.useFree_eth (s : State) : (s.useFree ).eth = s.eth := rfl
@[simp] theorem State.useFree_fq (s : State) : (s.useFree ).fq = s.fq := rfl
@[simp] theorem State.useFree_lanes (s : State) : (s.useFree ).lanes = s.lanes := rfl
@[simp] theorem State.useFree_rings (s : State) : (s.useFree ).rings = s.rings := rfl
@[simp] theorem State.useFree_cells (s : State) : (s.useFree ).cells = s.cells := rfl
@[simp] theorem State.useFree_svc (s : State) : (s.useFree ).svc = s.svc := rfl
@[simp] theorem State.useFree_jig (s : State) : (s.useFree ).jig = s.jig := rfl
@[simp] theorem State.useFree_phases (s : State) : (s.useFree ).phases = s.phases := rfl
@[simp] theorem State.useFree_armPh (s : State) : (s.useFree ).armPh = s.armPh := rfl
@[simp] theorem State.useFree_spare (s : State) : (s.useFree ).spare = s.spare := rfl
@[simp] theorem State.useFree_mon (s : State) : (s.useFree ).mon = s.mon := rfl
@[simp] theorem State.useFree_edge (s : State) : (s.useFree ).edge = s.edge := rfl
@[simp] theorem State.useFree_ringIds (s : State) : (s.useFree ).ringIds = s.ringIds := rfl
@[simp] theorem State.useFree_eng (s : State) : (s.useFree ).eng = s.eng := rfl
@[simp] theorem State.useFree_engCycle (s : State) : (s.useFree ).engCycle = s.engCycle := rfl
@[simp] theorem State.useFree_ts1Cycle (s : State) : (s.useFree ).ts1Cycle = s.ts1Cycle := rfl
@[simp] theorem State.useFree_shadow7 (s : State) : (s.useFree ).shadow7 = s.shadow7 := rfl
@[simp] theorem State.useFree_pmc (s : State) : (s.useFree ).pmc = s.pmc := rfl
@[simp] theorem State.useFree_loc (s : State) : (s.useFree ).loc = s.loc := rfl
@[simp] theorem State.useFree_ssafe (s : State) : (s.useFree ).ssafe = s.ssafe := rfl
@[simp] theorem State.useFree_restoring (s : State) : (s.useFree ).restoring = s.restoring := rfl
@[simp] theorem State.useFree_meas (s : State) : (s.useFree ).meas = s.meas := rfl
@[simp] theorem State.useFree_pair (s : State) : (s.useFree ).pair = s.pair := rfl
@[simp] theorem State.useFree_capt (s : State) : (s.useFree ).capt = s.capt := rfl
@[simp] theorem State.useFree_sft (s : State) : (s.useFree ).sft = s.sft := rfl
@[simp] theorem State.useFree_clk (s : State) : (s.useFree ).clk = s.clk := rfl
@[simp] theorem State.useFree_sec (s : State) : (s.useFree ).sec = s.sec := rfl
@[simp] theorem State.useFree_rst (s : State) : (s.useFree ).rst = s.rst := rfl
@[simp] theorem State.useFree_out (s : State) : (s.useFree ).out = s.out := rfl
@[simp] theorem State.useFree_pending (s : State) : (s.useFree ).pending = s.pending := rfl

end Sys2Proof.Machine
end

