-- ==== Sys2Proof/Laws/Regs.lean ====
section
/-!
SUPPORT. Sys2Proof/Laws/Regs.lean: the laws of words and registers: a field or a bit read after a write, a register read
after a write, and the updates no register depends on.
-/
namespace Sys2Proof

theorem Word.bit_setBit (w : Word) (i : Nat) (b : Bool) (j : Nat) (hi : i < 32) :
    (w.setBit i b).bit j = if j = i then b else w.bit j := by
  have hone : ∀ x : Nat, (BitVec.ofNat 32 (1 <<< i)).toNat.testBit x = (decide (x = i) && decide (x < 32)) := by
    intro x
    rw [BitVec.toNat_ofNat, Nat.testBit_mod_two_pow, Nat.one_shiftLeft, Nat.testBit_two_pow]
    by_cases h : i = x <;> simp [h, eq_comm]
  unfold Word.setBit Word.bit
  by_cases hb : b = true
  · rw [if_pos hb, BitVec.toNat_or, Nat.testBit_or, hone]
    by_cases hj : j = i
    · subst hj; simp [hb, hi]
    · simp [hj]
  · rw [if_neg hb, BitVec.toNat_and, Nat.testBit_and, BitVec.toNat_not]
    have h2 : (2 ^ 32 - 1 - (BitVec.ofNat 32 (1 <<< i)).toNat).testBit j =
        (decide (j < 32) && !(BitVec.ofNat 32 (1 <<< i)).toNat.testBit j) := by
      rw [Nat.sub_sub, Nat.add_comm 1]
      exact Nat.testBit_two_pow_sub_succ (BitVec.isLt _) j
    rw [h2, hone]
    by_cases hj : j = i
    · subst hj; simp [hi]; simpa using hb
    · by_cases h32 : j < 32
      · simp [hj, h32]
      · have : w.toNat.testBit j = false :=
          Nat.testBit_lt_two_pow (Nat.lt_of_lt_of_le w.isLt (Nat.pow_le_pow_right (by decide) (by omega)))
        simp [hj, h32, this]

@[simp] theorem Word.bit_setBit_same (w : Word) (i : Nat) (b : Bool) (hi : i < 32) : (w.setBit i b).bit i = b := by
  rw [Word.bit_setBit _ _ _ _ hi, if_pos rfl]

theorem Word.bit_setBit_ne (w : Word) {i j : Nat} (b : Bool) (hi : i < 32) (h : j ≠ i) :
    (w.setBit i b).bit j = w.bit j := by
  rw [Word.bit_setBit _ _ _ _ hi, if_neg h]

/-- A field is the number its bits spell. -/
theorem natFld_testBit (n lo len i : Nat) : (natFld n lo len).testBit i = (decide (i < len) && n.testBit (lo + i)) := by
  unfold natFld
  rw [Nat.testBit_mod_two_pow, Nat.testBit_shiftRight]

/-- The field of a word as quotient and remainder. -/
theorem natFld_eq (n lo len : Nat) : natFld n lo len = n / 2 ^ lo % 2 ^ len := by
  unfold natFld
  rw [Nat.shiftRight_eq_div_pow]

theorem Word.fld_setBit_ne (w : Word) {i lo len : Nat} (b : Bool) (hi : i < 32) (h : i < lo ∨ lo + len ≤ i) :
    (w.setBit i b).fld lo len = w.fld lo len := by
  unfold Word.fld
  apply Nat.eq_of_testBit_eq
  intro j
  rw [natFld_testBit, natFld_testBit]
  by_cases hj : j < len
  · have := Word.bit_setBit_ne w b hi (j := lo + j) (by omega)
    unfold Word.bit at this
    rw [this]
  · simp [hj]

/-- A word replaced in a field, as a number: what lies above, the new value, what lies below. -/
theorem Word.setFld_toNat (w : Word) (lo len v : Nat) (h : lo + len ≤ 32) :
    (w.setFld lo len v).toNat =
      w.toNat / 2 ^ (lo + len) * 2 ^ (lo + len) + v % 2 ^ len * 2 ^ lo + w.toNat % 2 ^ lo := by
  unfold Word.setFld
  rw [natFld_eq]
  have hlen : (2 : Nat) ^ (lo + len) = 2 ^ lo * 2 ^ len := Nat.pow_add ..
  have hw : w.toNat < 2 ^ 32 := w.isLt
  have h32 : (2 : Nat) ^ (lo + len) * 2 ^ (32 - (lo + len)) = 2 ^ 32 := by rw [← Nat.pow_add]; congr 1; omega
  have a1 : w.toNat = 2 ^ lo * (w.toNat / 2 ^ lo) + w.toNat % 2 ^ lo := (Nat.div_add_mod _ _).symm
  have a2 : w.toNat / 2 ^ lo = 2 ^ len * (w.toNat / 2 ^ lo / 2 ^ len) + w.toNat / 2 ^ lo % 2 ^ len :=
    (Nat.div_add_mod _ _).symm
  rw [Nat.div_div_eq_div_mul] at a2
  have hlt : v % 2 ^ len < 2 ^ len := Nat.mod_lt _ (Nat.two_pow_pos _)
  have hr : w.toNat % 2 ^ lo < 2 ^ lo := Nat.mod_lt _ (Nat.two_pow_pos _)
  have hq : w.toNat / (2 ^ lo * 2 ^ len) < 2 ^ (32 - (lo + len)) := by
    rw [← hlen]; exact Nat.div_lt_of_lt_mul (by rw [h32]; exact hw)
  rw [hlen] at h32 ⊢
  generalize hA : 2 ^ lo = A at *
  generalize hB : 2 ^ len = B at *
  generalize hC : 2 ^ (32 - (lo + len)) = C at *
  generalize w.toNat / (A * B) = q at *
  generalize w.toNat % A = r at *
  generalize w.toNat / A % B = m at *
  generalize v % B = x at *
  generalize w.toNat / A = y at *
  rw [BitVec.toNat_ofNat]
  have e1 : w.toNat = A * (B * q + m) + r := by rw [← a2]; exact a1
  have e2 : w.toNat - m * A + x * A = q * (A * B) + x * A + r := by
    have t1 : A * (B * q + m) = q * (A * B) + m * A := by ring
    omega
  rw [e2]
  apply Nat.mod_eq_of_lt
  rw [← h32]
  have b1 : x * A + r < A * B := by
    have : (x + 1) * A ≤ B * A := Nat.mul_le_mul_right _ hlt
    rw [Nat.add_mul, Nat.mul_comm B A] at this
    omega
  have b2 : (q + 1) * (A * B) ≤ C * (A * B) := Nat.mul_le_mul_right _ hq
  rw [Nat.add_mul] at b2
  have b3 : A * B * C = C * (A * B) := Nat.mul_comm _ _
  omega

theorem Word.fld_setFld_same (w : Word) (lo len v : Nat) (h : lo + len ≤ 32) :
    (w.setFld lo len v).fld lo len = v % 2 ^ len := by
  unfold Word.fld
  rw [natFld_eq, Word.setFld_toNat _ _ _ _ h]
  have hlen : (2 : Nat) ^ (lo + len) = 2 ^ lo * 2 ^ len := Nat.pow_add ..
  rw [hlen]
  have e : w.toNat / (2 ^ lo * 2 ^ len) * (2 ^ lo * 2 ^ len) + v % 2 ^ len * 2 ^ lo + w.toNat % 2 ^ lo =
      w.toNat % 2 ^ lo + 2 ^ lo * (v % 2 ^ len + 2 ^ len * (w.toNat / (2 ^ lo * 2 ^ len))) := by ring
  rw [e, Nat.add_mul_div_left _ _ (Nat.two_pow_pos _), Nat.mod_div_self, Nat.zero_add, Nat.add_mul_mod_self_left,
    Nat.mod_mod]

theorem Word.bit_setFld (w : Word) (lo len v i : Nat) (h : lo + len ≤ 32) :
    (w.setFld lo len v).bit i =
      if lo ≤ i ∧ i < lo + len then v.testBit (i - lo) else w.bit i := by
  unfold Word.bit
  rw [Word.setFld_toNat _ _ _ _ h]
  have hlen : (2 : Nat) ^ (lo + len) = 2 ^ lo * 2 ^ len := Nat.pow_add ..
  have hr : w.toNat % 2 ^ lo < 2 ^ lo := Nat.mod_lt _ (Nat.two_pow_pos _)
  have hx : v % 2 ^ len < 2 ^ len := Nat.mod_lt _ (Nat.two_pow_pos _)
  have e : w.toNat / 2 ^ (lo + len) * 2 ^ (lo + len) + v % 2 ^ len * 2 ^ lo + w.toNat % 2 ^ lo =
      2 ^ lo * (2 ^ len * (w.toNat / 2 ^ (lo + len)) + v % 2 ^ len) + w.toNat % 2 ^ lo := by rw [hlen]; ring
  rw [e, Nat.testBit_two_pow_mul_add _ hr]
  by_cases h1 : i < lo
  · rw [if_pos h1, if_neg (by omega), Nat.testBit_mod_two_pow]
    simp [h1]
  · rw [if_neg h1, Nat.testBit_two_pow_mul_add _ hx]
    by_cases h2 : i - lo < len
    · rw [if_pos h2, if_pos (by omega), Nat.testBit_mod_two_pow]
      simp [h2]
    · rw [if_neg h2, if_neg (by omega), Nat.testBit_div_two_pow]
      congr 1
      omega

theorem Word.fld_setFld_ne (w : Word) {lo len a n : Nat} (v : Nat) (h : lo + len ≤ 32)
    (hd : a + n ≤ lo ∨ lo + len ≤ a) : (w.setFld lo len v).fld a n = w.fld a n := by
  unfold Word.fld
  apply Nat.eq_of_testBit_eq
  intro j
  rw [natFld_testBit, natFld_testBit]
  by_cases hj : j < n
  · have := Word.bit_setFld w lo len v (a + j) h
    unfold Word.bit at this
    rw [this, if_neg (by omega)]
  · simp [hj]

end Sys2Proof

namespace Sys2Proof.Machine

/-! ### Registers -/

theorem State.reg_setReg (s : State) (k : Nat) (v : Word) (j : Nat) :
    (s.setReg k v).reg j = if j = k then v else s.reg j := by
  unfold State.reg State.setReg
  by_cases h : j = k
  · subst h; rw [if_pos rfl]; exact (NMap.get_put _ _ _ _ _).trans (if_pos rfl)
  · rw [if_neg h]
    show NMap.get (wd (resetOf j)) (NMap.put (wd (resetOf k)) s.regs k v) j = _
    unfold NMap.put
    split
    · exact NMap.get_erase_ne _ _ h
    · exact NMap.get_ins_ne _ _ _ h

@[simp] theorem State.reg_setReg_same (s : State) (k : Nat) (v : Word) : (s.setReg k v).reg k = v := by
  rw [State.reg_setReg, if_pos rfl]

theorem State.reg_setReg_ne (s : State) {k j : Nat} (v : Word) (h : j ≠ k) : (s.setReg k v).reg j = s.reg j := by
  rw [State.reg_setReg, if_neg h]

/-- A register is read from the register file alone. -/
theorem State.reg_congr {s t : State} (h : t.regs = s.regs) (k : Nat) : t.reg k = s.reg k := by
  unfold State.reg; rw [h]

@[simp] theorem State.reg_setB_same (s : State) (k i : Nat) (b : Bool) :
    (s.setB k i b).reg k = (s.reg k).setBit i b := State.reg_setReg_same ..

theorem State.reg_setB_ne (s : State) {k j : Nat} (i : Nat) (b : Bool) (h : j ≠ k) : (s.setB k i b).reg j = s.reg j :=
  State.reg_setReg_ne _ _ h

@[simp] theorem State.reg_setF_same (s : State) (k lo len v : Nat) :
    (s.setF k lo len v).reg k = (s.reg k).setFld lo len v := State.reg_setReg_same ..

theorem State.reg_setF_ne (s : State) {k j : Nat} (lo len v : Nat) (h : j ≠ k) :
    (s.setF k lo len v).reg j = s.reg j := State.reg_setReg_ne _ _ h

@[simp] theorem State.reg_irq_same (s : State) (page bit : Nat) :
    (s.irq page bit).reg (R.IRQS page) = (s.reg (R.IRQS page)).setBit bit true := State.reg_setB_same ..

theorem State.reg_irq_ne (s : State) {page bit k : Nat} (h : k ≠ R.IRQS page) : (s.irq page bit).reg k = s.reg k :=
  State.reg_setB_ne _ _ _ h

theorem State.reg_bumpAt_ne (s : State) {k j : Nat} (lo bits : Nat) (h : j ≠ k) :
    (s.bumpAt k lo bits).reg j = s.reg j := State.reg_setF_ne _ _ _ _ h

theorem State.reg_bump_ne (s : State) {k j : Nat} (h : j ≠ k) : (s.bump k).reg j = s.reg j :=
  State.reg_bumpAt_ne _ _ _ h

theorem State.regF_bumpAt_same (s : State) (k lo bits : Nat) (h : lo + bits ≤ 32) :
    (s.bumpAt k lo bits).regF k lo bits = satInc bits (s.regF k lo bits) % 2 ^ bits := by
  unfold State.regF State.bumpAt
  rw [State.reg_setF_same, Word.fld_setFld_same _ _ _ _ h]
  rfl

@[simp] theorem State.reg_fault (s : State) (src page a m acc d k : Nat) : (s.fault src page a m acc d).reg k = s.reg k :=
  rfl
@[simp] theorem State.reg_elapse (s : State) (d k : Nat) : (s.elapse d).reg k = s.reg k := rfl
@[simp] theorem State.reg_useFree (s : State) (k : Nat) : (s.useFree).reg k = s.reg k := rfl
@[simp] theorem State.reg_reach (s : State) (x k : Nat) : (s.reach x).reg k = s.reg k :=
  State.reg_congr (s.reach_regs x) k

@[simp] theorem State.regB_setB_same (s : State) (k i : Nat) (b : Bool) (hi : i < 32) : (s.setB k i b).regB k i = b := by
  unfold State.regB; rw [State.reg_setB_same, Word.bit_setBit_same _ _ _ hi]

@[simp] theorem State.regF_setF_same (s : State) (k lo len v : Nat) (h : lo + len ≤ 32) :
    (s.setF k lo len v).regF k lo len = v % 2 ^ len := by
  unfold State.regF; rw [State.reg_setF_same, Word.fld_setFld_same _ _ _ _ h]

end Sys2Proof.Machine
end

