-- ==== Sys2Proof/Laws/Host.lean ====
section
/-!
SUPPORT. Sys2Proof/Laws/Host.lean: what a host access does where it reaches its block, and where it does not.
-/
namespace Sys2Proof.Machine

theorem State.pageUp_parts {s : State} {page : Nat} (h : s.pageUp page = true) :
    (blockOf page).isSome = true ∧ s.domHeld 0 = false ∧ s.domHeld (domainOf page) = false := by
  unfold State.pageUp at h
  simp only [Bool.and_eq_true, Bool.not_eq_true'] at h
  exact ⟨h.1.1, h.1.2, h.2⟩

/-- A write that reaches its block acts there. -/
theorem State.hostWr_writable {s : State} {page : Nat} (f : State → State) (h : s.writable page = true) :
    s.hostWr page f = f s := by
  unfold State.writable at h
  rw [Bool.and_eq_true] at h
  obtain ⟨hb, h0, _⟩ := State.pageUp_parts h.1
  unfold State.hostWr
  have hn : (blockOf page).isNone = false := by simpa using hb
  rw [if_neg (by simp [h0, hn]), if_neg (by rcases Bool.or_eq_true _ _ ▸ h.2 with e | e <;> simp [e]), if_pos h.1]

/-- A write before the first configured state is counted, and does nothing else. -/
theorem State.hostWr_preConfig {s : State} {page : Nat} (f : State → State) (h : s.preConfig page = true) :
    s.hostWr page f = s.bump R.RST.PREWCNT := by
  unfold State.preConfig at h
  simp only [Bool.and_eq_true, Bool.not_eq_true'] at h
  obtain ⟨⟨⟨h0, hb⟩, hc⟩, he⟩ := h
  have hn : (blockOf page).isNone = false := by simpa using hb
  unfold State.hostWr
  rw [if_neg (by simp [h0, hn]), if_pos (by simp [hc, he])]

/-- A block in reset ignores a write. -/
theorem State.hostWr_held {s : State} {page : Nat} (f : State → State) (h : s.domHeld 0 = true) : s.hostWr page f = s := by
  unfold State.hostWr
  rw [if_pos (by simp [h])]

/-- A read that reaches its block acts there. -/
theorem State.hostRd_up {s : State} {page : Nat} (f : State → State) (h : s.pageUp page = true) : s.hostRd page f = f s := by
  unfold State.hostRd
  rw [if_pos h]

theorem State.hostRd_down {s : State} {page : Nat} (f : State → State) (h : s.pageUp page = false) : s.hostRd page f = s := by
  unfold State.hostRd
  rw [if_neg (by simp [h])]

/-- An unpaired head has no tie to follow. -/
theorem State.tieSettle_unpaired {s : State} (h : s.paired = false) : s.tieSettle = s := by
  have h1 : s.tieSync = s := by unfold State.tieSync; rw [if_pos (by simp [h])]
  unfold State.tieSettle State.listenCheck State.when
  rw [h1, if_neg (by simp [h])]

end Sys2Proof.Machine
end

