-- ==== Sys2Proof/Tests/Slice0.lean ====
section
/-!
SUPPORT. Sys2Proof/Tests/Slice0.lean: the model's own tests: ill-formed commands, words of the command table, small steps
against the spec's worked examples, and for each statement states and operands that meet its hypotheses.
-/
namespace Sys2Proof.Tests
open Sys2Proof.Machine

/-! ### Small states -/

/-- Every domain out of reset, configured. -/
def up : State := { State.reset with rst := { State.reset.rst with held := 0, cold := false, clamp := false }, dt64 := 1000000007 }.setB R.RST.BSTA 4 true

/-- A state with some registers written. -/
def regs (s : State) (l : List (Nat × Nat)) : State := l.foldl (fun t p => t.setReg p.1 (wd p.2)) s

/-- A frame plan of 10 µs loaded, ring 0 of two cells with lanes 0 and 1 up. -/
def ringed : State :=
  { regs up [(R.TRG.PMIN, 80000), (R.TRG.PMAX, 800000), (R.TRG.PER, 160000), (R.TRG.TCL, 6400), (R.TRG.TTC, 40000),
      (R.TRG.TML, 48000), (R.TRG.TCC, 16000), (R.RNG.RCFG 0, 0x204002), (R.LNE.LNMAP 0, 0x20), (R.LNE.LNMAP 1, 0x40),
      (R.LNE.LNSTA 0, 4), (R.LNE.LNSTA 1, 4), (R.PCTL 0x10, 1), (R.PCTL 0x11, 1)] with
    plan := { State.reset.plan with loaded := true } }

/-- The plan runs and has started. -/
def running : State :=
  { regs ringed [(R.PCTL 9, 1), (R.PSTA 9, 1)] with
    plan := { ringed.plan with run := true, started := true, start := 960000, per := 160000 } }

/-- The plan runs and waits for S(0). -/
def awaiting : State := { running with plan := { running.plan with started := false, start := 1000160000 } }
/-- A stop has been requested; has been accepted. -/
def stopAsked : State := { running with plan := { running.plan with stopReq := true } }
def stopping : State := { running with plan := { running.plan with stopAcc := true } }
/-- t_ML has passed, with slots sent to cells 0 and 8. -/
def pastML : State :=
  { running with plan := { running.plan with pastML := true }, cells := [(0, { sent := [1, 2, 3] }), (1, { sent := List.replicate 20 7 })] }
/-- The stop has left the last output boundary due. -/
def lastDue : State := { running with plan := { running.plan with lastBoundary := some 1234567 } }
/-- Idle, a commit pending on the TRG page with a shadow copy of PER. -/
def committing : State := { regs ringed [(R.PSTA 9, 2)] with shadow := [(R.TRG.PER, some 160001)] }
/-- Configured state not reached. -/
def early : State := { State.reset with rst := { State.reset.rst with held := 0, cold := false, clamp := false } }
/-- Host access on from every source; both Ethernet ports up. -/
def hosted : State := { regs ringed [(R.HSP.HCFG, 15), (R.ETH.ECFG 0, 1), (R.ETH.ECFG 1, 1)] with
  eth := [(0, { link := true }), (1, { link := true })] }
/-- One read outstanding under tag 1, one ready under tag 3. -/
def tagged : State := { hosted with host := { hosted.host with
  tags := [(1, some { src := .hsp, cnt := 2, stat := 1, data := none }), (3, some { src := .hsp, cnt := 2, stat := 1, data := some [5, 6] })] } }
def dgram : Dgram := { port := 29640, ip := 5, udp := 777, ours := true, frag := none }
def opW : HostOp := .write .hsp 0x58000FF4 [1, 2, 3]
def opR : HostOp := .read .hsp 1 0x58000FF4 2
def opX : HostOp := .write .en0 0x58002000 [1]
def oneAt (a : Nat) : HostOp := .write .hsp a [7]
def readAt (a : Nat) : HostOp := .read .hsp 1 a 1
def queued (s : State) (l : List HostOp) : State := { s with host := { s.host with ops := l } }

/-- A one-step Sync, a Follow_Up of it, and one from another master. -/
def syncMsg : PtpMsg := ⟨5, 1, 3, 7, 2000000, 1700000000, 100000, 0, 0, false, 0, false⟩
def twoMsg : PtpMsg := ⟨5, 1, 3, 7, 2000000, 1700000001, 100007, 70000, 3, true, 5, false⟩
def otherMsg : PtpMsg := ⟨6, 1, 3, 8, 2000000, 0, 0, 0, 0, false, 0, false⟩
/-- Both Ethernet ports up as PTP slaves of master 5, their rings at 0x1000 and 0x2000 of CSM. -/
def ethUp (s : State) (x : EthPort) : State :=
  { regs s [(R.ETH.ECFG 0, 0x305), (R.ETH.ECFG 1, 0x315), (R.ETH.MIDL 0, 5), (R.ETH.MIDL 1, 5), (R.ETH.MPORT 0, 1), (R.ETH.MPORT 1, 1),
      (R.ETH.TXRN 0, 4), (R.ETH.RXRN 0, 4), (R.ETH.TXRB 0, 0x1000), (R.ETH.RXRB 0, 0x2000)] with
    eth := [(0, x), (1, x)],
    mem := ((Memory.writeWord [] (csmBase + 0x1004) 0x80000003).writeWord (csmBase + 0x2004) 0x80000004).writeWord (csmBase + 0x2000) 0x5000F000 }
def ethFresh : State := ethUp ringed { link := true, reqAt := some 1000000050 }
def ethOwed : State := ethUp ringed
  { link := true, sync := some (7, 777, -3), req := some (7, 999), txDone := [(2, 12345, true)] }
def ethLate : State := ethUp ringed { link := true, sync := some (8, 777, -3), req := some (8, 999), rxNext := 3 }
def ethDark : State := ethUp running { }
def ethQueued : State := { ethFresh with fq := [(64, { q := [{ target := some 1000000064, desc := some 1 }, { target := none }] })] }
/-- A UDP/IPv4 datagram of four bytes to port 29641, in an Ethernet frame. -/
def rslBytes : List Byte :=
  zeros 12 ++ [8, 0, 0x45] ++ zeros 8 ++ [17] ++ zeros 12 ++ [0x73, 0xC9, 0, 12, 0, 0, 1, 2, 3, 4]
/-- Datum follows PPS_IN, in a state. -/
def pps (s : State) (dt : Nat) (good : Nat) : State :=
  { regs s [(R.DTM.DTCTL, 3), (R.DTM.DTSTA, dt), (R.DTM.STEPLIM, 20)] with datum := { favg := 7, fadj := 1000, good := good } }
/-- Channels 5 to 7 periodic, one-shot and periodic from the output boundary. -/
def channels (s : State) : State := { regs s
  [(R.TRG.TSCFG 0, 1), (R.TRG.TSTGT 0, 159999), (R.TRG.TSCFG 1, 3), (R.TRG.TSCFG 2, 1), (R.TRG.TSTGT 2, 160000)] with dt64 := 960010 }
/-- A ranging frame of ring 0, its launch stamp 900614, in flight. -/
def rangingF : RxFrame :=
  ⟨frameOf (frameHeader 4 false 0 0 24 0 true 2 false false) (natLe 8 900614 ++ List.replicate 16 7), true, softType 4, 1000000,
    1002000, 0⟩
def flying (l : List Nat) (lost : Nat) : State :=
  { regs running [(R.DTM.TRVCTL, 0x41)] with dt64 := 960010, trav := [(0, { inFlight := l, lost := lost })] }
def ranged : State := { flying [] 0 with travMs := 1 }

/-- Lane 0 in a state, with its control word. -/
def laneIn (s : State) (sta ctl : Nat) (l : Lane) : State := { regs s [(R.LNE.LNSTA 0, sta), (R.LNE.LNCTL 0, ctl)] with lanes := [(0, l)] }
/-- A training frame that asks for a tap move, and one with a wrong CRC. -/
def trainF (bad : Nat) : List Byte :=
  let f := frameHeader 9 false 0 0 8 0 true 2 false false ++ [0x34, 0x95, 0x1C, 0x34, 0, 0, 0, 0]
  f ++ natLe 4 (crc32 f + bad)
def commaWord (rd : Bool) : BitVec 10 := (codeGroup (.k kIdle) rd).1
/-- In TRAIN: nothing asked yet; asked, with a far request; complete but for the far side; a far request out of reach. -/
def training : State := laneIn ringed 3 0 {}
def trainAsked : State := regs (laneIn ringed 3 0 { train := { far := some (3, { pre := 1, main := 0, post := 2 }), waiting := true } })
  [(R.LNE.TAPS 0, 0x3C1), (R.LNE.LNCFG 0, 0x01400000)]
def trainDone : State :=
  regs (laneIn ringed 3 0 { train := { far := some (5, { pre := 2, main := 2, post := 1 }), doneSent := 2, done := true }, drop := true })
  [(R.LNE.TAPS 0, 0x0C1), (R.LNE.LNCFG 0, 0x01400000)]
def trainEdge : State := regs (laneIn ringed 3 0 { train := { far := some (3, { pre := 0, main := 1, post := 3 }) } })
  [(R.LNE.TAPS 0, 0x0F0), (R.LNE.LNCFG 0, 0x01400000), (R.LNE.TRNCFG 0, 0x00400000)]
def trainBreak : State := regs (laneIn ringed 3 0 { train := { far := some (3, { pre := 1, main := 2, post := 1 }) } })
  [(R.LNE.TAPS 0, 0x021)]
/-- UP, four violations within 16 symbols; the fill above the middle. -/
def laneNoisy : State := laneIn running 0x24 0x800 { viol := [20, 19, 12, 5], cvMs := 17, cvIn := 63, fill := 16 }
/-- The checker locks with the next bit, works, and unlocks with the next error. -/
def checkNear : State := laneIn running 5 0x42 { chk := { ref := List.replicate 7 true, run := 255 } }
def checkBusy : State := laneIn running 0x45 0x42 { chk := { ref := List.replicate 7 true, errs := List.replicate 31 true }, bitcnt := 2 ^ 48 - 1 }

/-- A slot of a cell, FILLED, and one not. -/
def slotOf (a fl : Nat) : List Byte := [BitVec.ofNat 8 a, BitVec.ofNat 8 fl, 3, 0] ++ (List.range 28).map fun i => BitVec.ofNat 8 (i * 7)
/-- A frame of ring 0. -/
def ringF (ty : Nat) (rev : Bool) (pidx eof : Nat) (p : List Byte) : RxFrame :=
  ⟨frameOf (frameHeader ty rev 0 0 p.length pidx true 2 false false) p, true, softType ty, 1000000, eof, 0⟩
def collector (eof : Nat) : RxFrame := ringF 2 false 5 eof (slotOf 0 1 ++ slotOf 1 1)
/-- Ring 0 with four descriptors, one transaction of tag 5 in flight, and the index 5. -/
def servicing (op desc : Nat) : State :=
  { regs running [(R.TRG.PIDX, 5), (R.RNG.SVRB 0, 0x9000), (R.RNG.SVRN 0, 4), (R.RNG.RCTL 0, 0x1007D), (R.RNG.CAPL 0, 64)] with
    svc := [(5, some { ring := 0, rev := false, desc := some 2, kind := none, pidx := 7, dst := 3, op := op, cnt := 2, buf := csmBase + 0x5000, launch := 999000000, at_ := csmBase + 0x9020 })],
    cells := [(0, { vpred := 33 }), (1, { vpred := 5, ageF := 1 })], rings := [(0, { svScan := true, svNext := 3 })],
    jig := { running.jig with inst := [(0, { st := 7 })] },
    mem := Memory.writeWord [] (csmBase + 0x9034) desc }
/-- The same while no plan runs, and with every tag in flight. -/
def svIdle : State := { servicing 1 0x84010000 with plan := ringed.plan }
def svFull : State := { running with svc := (List.range 64).map fun i => (i, some { ring := 0, rev := false, desc := none, kind := none, pidx := 0, dst := 0, op := 0, cnt := 1, buf := 0, launch := 0, at_ := 0 }) }
def answer (st : Nat) : RxFrame := ringF 6 false 5 999001000 [5, 3, 7, 0, 2, BitVec.ofNat 8 st, 0, 0, 1, 2, 3, 4, 5, 6, 7, 8]
def captured : RxFrame := ringF 8 false 0 1002000 [8, 3, 7, 0, 2, 9, 0, 0, 3, 3, 3]

/-- An instruction word: predicate field, opcode, rd, ra, rb, X. -/
def asm (pred op rd ra rb x : Nat) : Word := wd (pred * 2 ^ 28 + op * 2 ^ 22 + rd * 2 ^ 18 + ra * 2 ^ 14 + rb * 2 ^ 10 + x)
/-- Engine `n` RUNNING at byte 8 with a bundle there. -/
def onEng (s : State) (n : Nat) (wa wm : Word) (e : Eng) : State :=
  regs ({ s with mem := (Memory.writeWord [] (engBase n + 8) wa).writeWord (engBase n + 12) wm }.setEng n e)
    [(R.PE.ESTA (0x60 + n), 2), (R.PE.PC (0x60 + n), 8)]
def someRegs : EngRegs := { g := [(1, 7), (2, 0x80000000)], a := [(0, 5)] }
/-- At its A slot, with an opcode and a predicate field. -/
def aSlot (n op pred x : Nat) : State := onEng ringed n (asm pred op 3 1 2 x) 0 { r := someRegs, nextAt := 30, acct := 30 }
/-- ADD of the most negative word to itself. -/
def satSlot : State := onEng ringed 0 (asm 0 1 3 2 2 0) 0 { r := someRegs, nextAt := 30, acct := 30 }
/-- At its M slot: the A slot has left a jump, a WAIT and a register. -/
def mSlot (n op : Nat) (wait aw : Option Nat) (latch : Nat) : State :=
  onEng ringed n 0 (asm 0 op 3 1 2 0) { r := someRegs, nextAt := 51, latch := latch, pend := [⟨33, .g 5 77, 9⟩], half := some { old := someRegs, at_ := 50, wait := wait, aw := aw } }
/-- One access of engine 0 in flight. -/
def access (n : Nat) (store : Bool) (addr mode : Nat) : State :=
  regs (running.setEng n { acc := [{ due := 32, store := store, addr := addr, rd := 4, val := 9 }] }) [(R.PE.PECFG 0x67, mode)]
/-- Engine 0 in a state, waiting on a channel. -/
def engIn (s : State) (st ch latch : Nat) : State := (s.setEst 0 st ch).setEng 0 { latch := latch, nextAt := 44, rel := 20 }
/-- PE7 in a mode with a target, EN, the lock and SHSTA. -/
def pe7In (s : State) (mode tgt en lock sh : Nat) : State :=
  regs s [(R.PE.PECFG 0x67, mode + 256 * tgt), (R.PCTL 0x67, en), (R.WLCK 0x67, lock), (R.PE.SHSTA 0x67, sh)]

/-- Performance counters of engine 0: one past its range, a sample due, `n` samples waiting, the last bundles issued. -/
def counting (n at_ : Nat) : State :=
  { running.setEng 0 { last := [(70, 8), (60, 16)] } with
    pmc := { running.pmc with ctr := [(5, 2 ^ 48 + 5), (6, 2 ^ 48 - 1)], due := [{ eng := 0, ctr := 5, at_ := at_, pidx := 3, since := 7 }], smpen := [(0, 0x20)], oven := [(0, 0x20)], smp := [(0, List.replicate n (1, 2))], setAt := [(5, some running.dt64)] } }

/-- The Jig engines run; cells 1 and 2 are in the arm map; JG0's table sends state 1 to state 2 at event 3. -/
def jigged (s : State) : State :=
  let t := tblBase + 0x1000
  { regs s [(R.PCTL 0x50, 1), (R.PSTA 0x50, 1), (R.PCTL 0x51, 1), (R.PSTA 0x51, 1), (R.PCTL 0x52, 1), (R.PSTA 0x52, 1),
      (R.JG.TBASE 1 0, 0x1000), (R.JG.TBASE 2 0, 0x1000), (R.STK.SPTB, 0x8000)] with
    mem := (((Memory.writeWord [] (t + 0x100 + (32 + 3) * 4) 2).writeWord (t + 4) 0x91).write (tblBase + 0x8401) 0x80).write (tblBase + 0x8402) 0x80 }
def jigDue (s : State) : State :=
  { (jigged s).setInst 1 { st := 1, pend := 8 } with jig := { ((jigged s).setInst 1 { st := 1, pend := 8 }).jig with jg0Due := true, deferred := [2] } }
def jigTimed (p : Option Nat) : State := (jigged running).setInst 1 { st := 1, tPass := p, tAt := some 1200000000 }
def bankAsked : State := { jigged ringed with jig := { State.reset.jig with check := [(0, some 3), (1, some 0)] } }
/-- Rows of CSM logged for repair, `k` of them. -/
def rowsLogged (k : Nat) : State := { ringed with spare := { ringed.spare with failing := [20 * 2 ^ 20], rows := (List.range k).map (20 * 2 ^ 20 + · + 1) } }

/-- A head of a pair: its role, HSTA besides it, PCFG, its peer's beacon. -/
def paired (role hsta pcfg peer : Nat) : State :=
  { regs running [(R.HPR.HSTA, role + hsta), (R.HPR.PCFG, pcfg + 0x501), (R.LNE.LNSTA 5, 4), (R.PCTL 0x88, 1), (R.PSTA 0x88, 1),
      (R.HPR.PEER, peer), (R.TRG.PIDX, 5), (R.HPR.TXL, 30000), (R.DTM.STEPLIM, 320), (R.HPR.TIEN, 1)] with
    plan := { running.plan with start := 1000000000 }, pair := { runs := true } }
/-- The same with pairing's own state. -/
def pairing (s : State) (p : Pair) : State := { s with pair := { p with runs := true } }
def tieBeacon (role : Nat) : TieBeacon := { pidx := 6, dt64 := 5, digest := 0, per := 160000, role := role, armed := true, hovr := false }
/-- A ring without lanes UP; the tie lane down. -/
def dark (s : State) : State := regs s [(R.LNE.LNSTA 0, 2), (R.LNE.LNSTA 1, 2), (R.LNE.LNSTA 5, 2)]
def afterML (s : State) : State := { s with plan := { s.plan with pastML := true } }
/-- A frame with its start stamp at an instant. -/
def frameAt (ty ring : Nat) (rev : Bool) (pidx sof : Nat) (p : List Byte) : RxFrame :=
  ⟨frameOf (frameHeader ty rev 0 ring p.length pidx true 2 false false) p, true, softType ty, sof, sof + 2000, 0⟩
def resyncF : RxFrame :=
  ⟨frameOf (frameHeader 1 true 0 0 1 6 true 2 true false) [1], true, softType 1, 1000105000, 1000107000, 0⟩
def broken (f : RxFrame) : RxFrame := { f with intact := false }
def beaconF : RxFrame := frameAt 3 0 false 6 999900000 (natLe 8 1000112614 ++ natLe 4 0 ++ natLe 3 160000 ++ [12])
def jigF : RxFrame :=
  ⟨frameHeader 1 false 0 0 260 0 true 2 false false ++ List.replicate 260 9 ++ natLe 4 3189243402, true, false, 999900000, 999902000, 0⟩
def slotsF : RxFrame := frameAt 2 0 false 5 999900000 (slotOf 0 1)
def tieRangeF : RxFrame := frameAt 4 0 false 3 999900000 (natLe 8 999000000 ++ natLe 8 (999000700 * 2 ^ 32 + 999000500))
def rangeCopyF : RxFrame := frameAt 5 0 false 3 999900000 (natLe 8 999000000 ++ zeros 16)
def nodeCell (s : State) : State := { s with cells := [(0, { copy := some { bytes := slotOf 0 1, stamp := 8, rev := false, node := true } }), (1, { copy := some { bytes := slotOf 1 1, stamp := 8, rev := false, node := true } })] }

/-- A leg in its window from 1000000000 on, of 10 µs, at offset 100. -/
def legOf (side : Option Bool) (blank : Option (Nat × Nat)) (mark : Nat) (e : Entry) : LocalLeg :=
  { side := side, blank := blank, mark := mark, loaded := e, start := 1000000000, len := 160000, cur := 100,
    hi := { up := some 5, low := 9 }, lo := { up := some 3, low := 1000000090 } }
/-- Legs 0 and 1 with a blanking window each, leg 2 off; trip inputs, latches and maps as given. -/
def tripping (s : State) (cfg lat tin tmap : Nat) : State :=
  { regs s ([(R.LBR.TLATCH, lat), (R.TRP.TIN, tin)] ++ (List.range 12).flatMap fun n => [(R.TRP.TCFG n, cfg), (R.TRP.TMAP n, tmap),
      (R.LBR.LTIM n, 0x640032), (R.LBR.LBLK n, 100)]) with
    loc := { s.loc with
      legs := [(0, legOf (some true) (some (1000000000, 1000000300)) 0 { mode := 2, lv0 := true, x := [300, 500] }),
        (1, legOf (some false) (some (1000000000, 1000000100)) 3 { mode := 2, x := [300, 500] }),
        (2, legOf none none 0 { mode := 2, x := [100, 300, 500] }),
        (3, legOf (some true) none 0 { mode := 2, lv0 := true, x := [300, 500] })],
      chop := [(0, { by_ := 1, on := true })] } }
/-- Chopper 0 with a channel configuration, latches, a minimum on-time and its own state. -/
def chopping (cfg lat tmin : Nat) (x : Chopper) : State :=
  { regs running [(R.LBR.CHCFG 0, cfg), (R.LBR.CHON 0, 100), (R.LBR.CHOFF 0, 60), (R.LBR.CHTMIN 0, tmin), (R.LBR.TLATCH, lat)] with
    loc := { running.loc with chop := [(0, x)] } }
/-- Converter 0, its configuration and PCTL of the page; channel 5 fired just now. -/
def converting (cfg pc : Nat) (c : Conv) : State :=
  { regs running [(R.CNV.CVCFG 0, cfg), (R.CNV.UCFG 0, 0x510123), (R.CNV.CVREF 0, 1), (R.PCTL 0x80, pc), (R.PSTA 0x80, 1)] with
    meas := { running.meas with conv := [(0, c)] },
    plan := { running.plan with firedAt := [(5, 1000000007)] } }
/-- Modulator input 0 on clock 0. -/
def modding (cfg pc stuck mclk : Nat) (m : ModIn) : State :=
  { regs running [(R.MOD.MDCFG 0, cfg), (R.MOD.MCLKCFG 0, mclk), (R.PCTL 0x81, pc), (R.PSTA 0x81, 1), (R.MOD.MDSTUCK, stuck)] with
    meas := { running.meas with mods := [(0, m)], mclk := if mclk = 0 then [] else [(0, some 999999000)] },
    plan := { running.plan with firedAt := [(5, 1000000007)] } }

/-- A safety PDU of the peer of a connection: its SCV right or one off. -/
def safePdu (cid seq bad dir : Nat) : List Byte :=
  let b := natLe 4 cid ++ natLe 2 seq ++ natLe 2 0 ++ [BitVec.ofNat 8 dir, 4, 0, 0, 9, 9, 9, 9]
  b ++ natLe 4 (crc32c b + bad)
def safeF (rev : Bool) (p : List Byte) : RxFrame := frameAt 7 0 rev 5 999900000 p
/-- The safety blocks on, connection 0 of CID 0x77 over UDP and 1 of 0x99 over ring 0, tests 0 and 1 of path 0 in the table,
with a PCTL of SFT and its own state. -/
def safe (s : State) (pc : Nat) (f : Sft) : State :=
  { regs s [(R.PCTL 0x90, pc), (R.PSTA 0x90, 5), (R.PSTA 0x91, 1), (R.SIO.SCFG, 0xFF), (R.SIO.HREQ, 15), (R.SIO.RBTIM, 0x20003),
      (R.PCTL 0x68, 1), (R.PCTL 0x69, 1), (R.ETH.ECFG 0, 1), (R.ETH.ECFG 1, 1)] with
    eth := [(0, { link := true })],
    sxm := ([(0x6000, 0x77), (0x6004, 0x02010064), (0x6008, 0xC0A80001), (0x600C, 0x04001234), (0x6010, 0x99), (0x6014, 0x01010064),
      (0x601C, 0x04080000), (0x7000, 0x00010008), (0x7004, 0x0001000D)] : List (Nat × Nat)).foldl (fun m p => m.writeWord p.1 (wd p.2)) [],
    sft := f }
/-- Cycle 125 between its tick and its compare point, compared, and applied; both channels permit path 0. -/
def cycled (tick compared applied : Nat) : Sft :=
  { image := 126, tick := tick, compared := compared, applied := applied, permA := 15, permB := 15 }
/-- A copy of SEQ 3 waits on connection 0, alone or with its second; or SEQ 3 came too late. -/
def waitOne : Sft := { cycled 126 125 125 with
  conns := [(0, { waiting := [{ seq := 3, pdu := safePdu 0x77 3 0 4, at_ := 5, path := 0 }], state := 2 }), (1, { state := 2, ack := true })] }
def waitTwo : Sft := { cycled 126 125 125 with
  conns := [(0, { waiting := [{ seq := 3, pdu := safePdu 0x77 3 0 4, at_ := 5, path := 0, second := some ([], 7) }] })] }
def cameLate : Sft := { cycled 126 125 125 with conns := [(0, { late := [3] })] }
/-- Both channels at a place of their loops. -/
def channelsAt (s : State) (st ch : Nat) : State := (s.setEst 8 st ch).setEst 9 st ch

/-- A raise of a source at an instant, and a record of it. -/
def raiseOf (src time : Nat) : Raise := { src := src, page := 2, time := time, pidx := 3, addr := 77 }
def recOf (src sevp : Nat) (esc ack : Bool) : Option FaultRec :=
  some { raise := raiseOf src 5, sevp := sevp, sevt := sevp, esc := esc, first := true, ack := ack, lostb := false, count := 255, tlast := 4,
         seq := 0 }
def outside (src addr : Nat) : ExtRaise := ⟨BitVec.ofNat 8 src, 0x71, BitVec.ofNat 32 addr, 3, 1, 7⟩
/-- Raises on their way, every source's severity `sev`, and the log. -/
def faulty (inf : List Raise) (sev : Nat) (log : NMap (Option FaultRec)) : State :=
  { regs (jigged running) ((List.range 64).map fun i => (R.SCR.SEV i, sev * 0x11111111)) with
    scribe := { running.scribe with inflight := inf, log := log } }
def logFull (ack : Bool) : NMap (Option FaultRec) := (List.range 256).map fun i => (i, recOf Src.LANE_LOS 2 true ack)

/-- Clock status and configuration words, and the clock unit's own state. -/
def clocked (s : State) (sta cfg : Nat) (since ts2 : Option Nat) : State :=
  { regs s [(R.CLK.CKSTA, sta), (R.CLK.CKCFG, cfg)] with clk := { s.clk with aSince := since, ts2 := ts2 } }
/-- The supplies and RST_N. -/
def reseting (s : State) (f : Rst → Rst) : State := { s with rst := f s.rst }

/-- The public key of private key 1: the base point. -/
def testKey : List Byte := natBe 32 P256.gx ++ natBe 32 P256.gy
/-- An image set of one section, under the signature by private key 1 (computed outside);
`bad` added to its section bytes. -/
def imageOf (bad : Byte) : List Byte :=
  let sec : List Byte := natLe 4 0x40004010 ++ natLe 4 5
  natLe 4 1 ++ natLe 4 200 ++ natLe 4 3 ++ [4, 1] ++ natLe 2 1 ++ testKey ++ (natLe 2 3 ++ [0, 0] ++ natLe 4 0 ++ natLe 4 192 ++ natLe 4 8 ++
    sha256 sec) ++ natBe 32 67098458652077576496154924199759453104482917691432697787588797133569850345419 ++
    natBe 32 24037858127724935177623204939505029901871438069707858510839146913176890723263 ++ sec.map (· + bad)
def imageGood : List Byte := imageOf 0
def imageBad : List Byte := imageOf 1
/-- Owner slot 1 holds the key of `imageGood`. -/
def owned (s : State) : State := { s with sec := { s.sec with slots := [(1, { st := 1, hash := sha256 testKey })], floor := 1 } }
/-- Before the image is loaded, a set in flash. -/
def loading (b : List Byte) (bootsel : Bool) : State := owned { early with flash := memPut [] 0 b, rst := { early.rst with sysAt := 4, bootsel := bootsel } }
/-- The loader waits for the host, with a stream. -/
def streaming (b : List Byte) (on : Bool) : State :=
  owned { regs up [(R.RST.BSTA, 7), (R.RST.LDCNT, b.length / 4)] with rst := { up.rst with streaming := on, stream := memPut [] 0 b } }
/-- A restore is due from flash slot 0. -/
def restorable (b : List Byte) : State := { regs up [(R.RST.BSTA, 0)] with restoring := true, flash := memPut [] 0 b }

/-- An owner command with the lock, OKSTA, the key slots and what is being programmed. -/
def owner (s : State) (lock sta : Nat) (slots : NMap Slot) (x : Sec → Sec) : State :=
  { regs s [(R.WLCK 0xA0, lock), (R.SEC.OKSTA, sta), (R.SEC.SVNS, 0x0600)] with sec := x { s.sec with slots := slots } }
/-- A flash update at a stage, or none; FUSTA, ATTSTA and SSTA. -/
def updating (u : Option (Nat × Nat)) (fusta attsta ssta : Nat) (n : Nat) : State :=
  { regs up [(R.SEC.FUSTA, fusta), (R.SEC.ATTSTA, attsta), (R.SEC.SSTA, ssta), (R.SEC.FUCNT, n)] with
    sec := { up.sec with update := u.map fun p => ⟨p.1, p.2⟩, attest := if attsta = 1 then some { nonce := (List.range 8).map wd, dt64 := 5 } else none } }

/-- The monitors with their own state. -/
def watching (l : List (Nat × Nat)) (m : Mon → Mon) : State := { regs up l with mon := m up.mon }
/-- Equal records of cycle 125 that both send SEQ 3 on connection 0. -/
def sending : State :=
  let r := (safePdu 0x77 3 0 4).take 16 ++ zeros 12 ++ natLe 4 1
  let s := safe running 1 { cycled 126 126 125 with equalA := true, equalB := true }
  { s with sxm := memPut s.sxm 0x4100 r, dmem := memSplice s.dmem (mortImage + 0x4100) r }

section
set_option Elab.async false

/-! ### Terms that are not commands that can be sent -/

theorem test_illFormed_plan : (Instr.planStartRequest 4).wellFormed = false ∧ (Instr.planStopRequest 1).wellFormed = false := by
  decide
theorem test_illFormed_channelFire : (Instr.channelFire 4).wellFormed = false ∧ (Instr.channelFire 16).wellFormed = false := by decide
theorem test_illFormed_jigTimeout : (Instr.jigTimeout 257).wellFormed = false := by decide
theorem test_illFormed_pages : (Instr.pctlEnWrite 0xFFF true).wellFormed = false ∧ (Instr.pctlCommit 0xFFF).wellFormed = false ∧
    (Instr.pctlSstop 0xFFF true).wellFormed = false ∧ (Instr.commitIdleAccept 0xFFF).wellFormed = false ∧
    (Instr.blockIdle 0xFFF).wellFormed = false ∧ (Instr.wlckOpen 0xFFF).wellFormed = false ∧
    (Instr.wlckClose 0xFFF 0).wellFormed = false ∧ (Instr.wlckClose 9 0x5A5A).wellFormed = false := by decide
theorem test_illFormed_registers : (Instr.registerWrite .hsp 9 0x102 0).wellFormed = false ∧
    (Instr.registerWrite .hsp 9 0x1000 0).wellFormed = false ∧ (Instr.rocRead 0xFFF 0x100).wellFormed = false := by decide
theorem test_illFormed_requests : (Instr.hostWrite ⟨.hsp, dgram⟩ [1]).wellFormed = false ∧
    (Instr.hostRead ⟨.hsp, dgram⟩ (requestBytes 1 0 0 0 [])).wellFormed = false ∧
    (Instr.hostFetch ⟨.hsp, dgram⟩ (requestBytes 1 0 0 0 []) false).wellFormed = false ∧
    (Instr.hostStatus ⟨.hsp, dgram⟩ (requestBytes 1 0 0 0 [])).wellFormed = false := by decide
theorem test_illFormed_laneCode : (Instr.laneCode 0 [2] [] 0).wellFormed = false := by decide
theorem test_illFormed_snaplRead : (Instr.snaplRead 3).wellFormed = false ∧ (Instr.snaplRead 0x1A).wellFormed = false := by decide
theorem test_illFormed_ptp : ∀ m ∈ [{ syncMsg with ns := 1000000000 }, { syncMsg with rx := 2 ^ 64 }],
    (Instr.ptpSyncRx 0 m).wellFormed = false ∧ (Instr.ptpFollowUpRx 0 m).wellFormed = false ∧
    (Instr.ptpDelayRespRx 0 m).wellFormed = false := by decide
theorem test_illFormed_ppsEdge : (Instr.ppsEdge (2 ^ 64)).wellFormed = false := by decide
theorem test_illFormed_pe7 : (Instr.pe7Free 7).wellFormed = false ∧ (Instr.pe7Shadow 7).wellFormed = false ∧
    (Instr.pe7Replace 7).wellFormed = false := by decide
theorem test_illFormed_rowRepair : (Instr.rowRepair 23 0).wellFormed = false ∧ (Instr.rowRepair 0 4096).wellFormed = false := by decide
theorem test_illFormed_windows : (Instr.ldwinWrite []).wellFormed = false ∧ (Instr.fuwinWrite []).wellFormed = false ∧
    (Instr.fustart 0).wellFormed = false := by decide
theorem test_illFormed_okcmd : (Instr.okcmdProgram 0x20000).wellFormed = false ∧ (Instr.okcmdRevoke 0x10000).wellFormed = false := by
  decide
theorem test_illFormed_readings : (Instr.tempMeasure [1]).wellFormed = false ∧ (Instr.railMeasure [1]).wellFormed = false ∧
    (Instr.proMeasure [1]).wellFormed = false := by decide
theorem test_illFormed_classF : ∀ d, (Instr.classFLaunch 66 d).wellFormed = false := fun _ => rfl

/-! ### The spec's worked examples -/

/-- 00_scope.md, R10: PE3's PSTA is at 0x4006_3008; 15_scribe_faults.md: SEV12 is at 0x4009_8430. -/
theorem test_addresses : placeOf 0x40063008 = some (.page 0x63 8) ∧ R.PSTA 0x63 = 0x63008 ∧ placeOf 0x40098430 = some (.page 0x98 0x430) ∧
    R.SCR.SEV 12 = 0x98430 := by decide

/-- 02_pages_and_host_port.md: PID of RNG05 reads 0x0035_1101. -/
theorem test_pid : regDef 0x35 0 = none ∨ (State.reset.reg (0x35 * 0x1000)) = 0x00351101 := by decide

/-- 02_pages_and_host_port.md: 64 words are left in the page from 0x4006_3F00, 1024 words in the table page from 0x5800_0000. -/
theorem test_room : room 0x40063F00 = 64 ∧ room 0x58000000 = 1024 := by decide

/-- 03_datum_time.md: a receive stamp of 999 158 ru, a transmit stamp of 1 000 614 ru. -/
theorem test_stamps : rxStamp 1000000 23 0 = 999158 ∧ txStamp 1000000 0 = 1000614 := by decide

/-- 15_scribe_faults.md: the numbers of four fault sources. -/
theorem test_sources : Src.LANE_LOL = 0x62 ∧ Src.SIO_RB = 0xEC ∧ Src.LANE_LOS = 0x60 := by decide

/-- 05_exl_frames.md: VPRED 24 000 with CVR 0x1A is 1 203.25 V; the escape with AUX 0x5F65 is 1 221.05 V. -/
theorem test_decodeV : decodeV [0, 1, 0x1A] 24000 125 = some 1203250 ∧
    decodeV [0, 1, 0x80, 0x10, 0, 0, 0, 0, 0, 0, 0, 0x65, 0x5F] 24000 125 = some 1221050 := by decide

/-- The leg of the examples of 06_edge_schedules.md: W_min 12 800 ru, P 160 000 ru. -/
def exampleLeg (policy : Nat) : LegPar :=
  { w := 12800, policy := policy, bootEn := true, bs := true, bootHold := 8, bootWidth := 16000, bootOfs := 80000, cmax := 100000,
    chop := false, theta := 0, p := 160000, pChk := 160000, clamp := false, full := false }
def exampleRequest : RawEntry := { e := { mode := 2, x := [70000, 78000] }, ne := 2 }

/-- A high pulse of 8 000 ru: swallowed; extended to 12 800 ru; extended and 4 800 ru carried. -/
theorem test_edge_policies :
    (schedule (exampleLeg 0) {} exampleRequest).2.1.x = [] ∧
    (schedule (exampleLeg 1) {} exampleRequest).2.1.x = [70000, 82800] ∧
    (schedule (exampleLeg 2) {} exampleRequest).2.1.x = [70000, 82800] ∧
    (schedule (exampleLeg 2) {} exampleRequest).1.carry = 4800 := by decide

/-- A carry of 4 800 ru moves the next falling edge from 100 000 to 95 200 ru and returns to 0. -/
theorem test_edge_carry :
    (schedule (exampleLeg 2) { carry := 4800 } { e := { mode := 2, x := [60000, 100000] }, ne := 2 }).2.1.x = [60000, 95200] ∧
    (schedule (exampleLeg 2) { carry := 4800 } { e := { mode := 2, x := [60000, 100000] }, ne := 2 }).1.carry = 0 := by decide

/-- 07_stack_control.md: with m_i = −0.6 at φ0 = 0.494 049 of 8 periods, L0 starts at 1 and falls at 135 617 ru (one ru of
rounding of the tenth digit of φ0); L1 stays high. -/
theorem test_carrier : (carrierLeg (-6 * one / 10) (carrierAt 3 8 7802) 8 160000) = { mode := 2, lv0 := true, x := [135617] } ∧
    carrierLeg (6 * one / 10) (carrierAt 3 8 7802) 8 160000 = { mode := 2, lv0 := true, x := [] } := by decide

/-- 09_plane_instruction_set.md: NORM of 0x0000_0C00 gives 19. -/
theorem test_norm : normCount 0xC00 = 19 := by decide

/-! ### States and operands that meet the hypotheses of the statements -/

theorem test_wit_jigStates : ∀ i < 256, ((jigDue running).inst i).st < 64 ∧ ((jigDue ringed).inst i).st < 64 := by decide +kernel
theorem test_wit_invariant : 0 < running.plan.per ∧ (∃ t, step running = .next t) := ⟨by decide, _, rfl⟩
theorem test_wit_imageAccepted : ((loading imageGood false).slotOrder.find? fun x =>
      (loading imageGood false).sourceCode (loading imageGood false).flash (x * slotSize) == 0) = some 0 ∧
    (streaming imageGood true).sourceCode (streaming imageGood true).rst.stream 0 = 0 := by decide +kernel
theorem test_wit_signature : (owner ringed 1 0 [(1, { st := 1 })] id).okAuth 1 0 1 = false := by decide +kernel
theorem test_jigF_halves : 
    jigF.bytes.take (jigF.bytes.length - 4) = jigF.bytes.take 138 ++ (jigF.bytes.drop 138).take 130 := by decide +kernel
theorem test_jigF_first : (jigF.bytes.take 138).foldl (crcLsbByte 0xEDB88320) 0xFFFFFFFF = 3329535803 := by decide +kernel
theorem test_jigF_second : ((jigF.bytes.drop 138).take 130).foldl (crcLsbByte 0xEDB88320) 3329535803 = 1105723893 := by decide +kernel
theorem test_jigF_crc : crc32 (jigF.bytes.take (jigF.bytes.length - 4)) = 3189243402 := by
    rw [crc32, test_jigF_halves, List.foldl_append, test_jigF_first, test_jigF_second]; rfl
/-- The frame of the cells' states that TieFrames takes passes the checks of R157. -/
theorem test_wit_TieFrames_jig : frameCheck 0 false jigF = none := by
  unfold frameCheck; dsimp only
  rw [test_jigF_crc, if_neg (by decide +kernel), if_neg (by decide +kernel), if_neg (by decide +kernel), if_neg (by decide +kernel),
    if_neg (by decide +kernel)]


/-- The PLL of the examples of 07_stack_control.md at P = 10 µs: RSLIM 20.0°, TRKEPS 0.099°, 2.0° per ms. -/
def pllPar : CalPar :=
  { State.reset.calPar with per := 160000, fnom := qn 50, fmin := qn 45, fmax := qn 55, amin := q14 3277, ahys := q14 819,
                            rslim := q16 3641, trkeps := q16 18, slew := 238609 }
/-- A PLL in a state of R243 with an error in hundredths of a degree. -/
def pllIn (pll good : Nat) (a2 cdeg : Int) : CalState := { f := qn 50, pll := pll, good := good, a2 := a2, err := cdeg * one / 36000 }

/-- 07_stack_control.md, the feeder fault: the eighth good period with e = −12.4° slews, with −35° resyncs at once; e = −0.08°
tracks; a = 0.12 coasts; 616 periods of SLEWR × P are 12.32°. -/
theorem test_pllFault : (pllStep pllPar 0 (pllIn 2 7 one (-1240))).1.pll = 3 ∧ (pllStep pllPar 0 (pllIn 2 7 one (-3500))).1.pll = 1 ∧
    (pllStep pllPar 0 (pllIn 2 7 one (-3500))).1.ramp = some 0 ∧ (pllStep pllPar 0 (pllIn 3 8 one (-8))).1.pll = 1 ∧
    (pllStep pllPar 0 (pllIn 1 0 61847529 0)).1.pll = 2 ∧ (pllStep pllPar 0 (pllIn 2 6 one (-1240))).1.pll = 2 ∧
    616 * pllPar.slew * 36000 / one = 1231 := by decide

/-- A cell's record of the executing period with the bits of word 9. -/
def recorded (v w9 : Nat) : State :=
  { running with mem := (running.mem.writeWord (recAt (running.regN R.TRG.PIDX) 3) (wd v)).writeWord
                          (recAt (running.regN R.TRG.PIDX) 3 + 36) (wd w9),
                 pset := { cells := [(3, { vpred := 24000, stale := running.staleMax })] } }

/-- Operands and states that meet the hypotheses of StackProgramSteps, and none of LineCodeBalanced is empty. -/
theorem test_wit_StackProgramSteps : pllPar.fmin ≤ pllPar.fnom ∧ pllPar.fnom ≤ pllPar.fmax ∧
    pllPar.fmin ≤ (pllIn 2 7 one 0).f ∧ (pllIn 2 7 one 0).f ≤ pllPar.fmax ∧ ({ pllIn 2 7 one 0 with cold := true } : CalState).cold = true ∧
    ((recorded 1200000 0).recWord 3 9).bit 0 = false ∧ ((recorded 1200000 0).recWord 3 9).bit 5 = false ∧
    (recorded 1200000 0).vcmax 0 < (recorded 1200000 0).recV 3 ∧ (recorded 0 0).recV 3 ≤ (recorded 0 0).vcmax 0 ∧
    ((recorded 0 1).recWord 3 9).bit 0 = true ∧ ((recorded 0 1).ctl 3).vpred ≠ 0xFFFF ∧
    ((recorded 0 1).ctl 3).stale = (recorded 0 1).staleMax ∧ (recorded 0 1).weight 3 ≤ 0 ∧
    (0 : Int) < ({ recorded 0 1 with mem := (recorded 0 1).mem.writeWord (csmBase + 0x20400 + 12) 0x7FFF } : State).weight 3 ∧
    running.shipped.stack = false := by decide +kernel
theorem test_wit_LineCodeBalanced : kIdle ∈ specials ∧ (∀ x ∈ [Sym.k kIdle, Sym.d 0x4A], (∃ b, x = .d b) ∨ ∃ k ∈ specials, x = .k k) := by
  refine ⟨by decide, fun x h => ?_⟩
  rcases List.mem_cons.1 h with rfl | h
  · exact .inr ⟨kIdle, by decide, rfl⟩
  · exact .inl ⟨0x4A, List.mem_singleton.1 h⟩
/-- States and operands that meet the hypotheses of PlanStartJudged. -/
theorem test_wit_PlanStartJudged :
    (regs ringed [(R.TRG.PER, 80000)]).writable 9 = true ∧
    (regs ringed [(R.TRG.PER, 80000)]).plan.run = false ∧
    (regs ringed [(R.TRG.PER, 80000)]).paired = false ∧
    Word.bit (1#32) 0 = true ∧
    Word.bit (1#32) 1 = false ∧
    Word.bit (1#32) 2 = false ∧
    0 < (regs ringed [(R.TRG.PER, 80000)]).regF R.TRG.PER 0 20 ∧
    (regs ringed [(R.TRG.PER, 80000)]).plan.loaded = true ∧
    (regs ringed [(R.TRG.PER, 80000)]).regN R.TRG.PMIN ≤ (regs ringed [(R.TRG.PER, 80000)]).regF R.TRG.PER 0 20 ∧
    (regs ringed [(R.TRG.PER, 80000)]).regF R.TRG.PER 0 20 ≤ (regs ringed [(R.TRG.PER, 80000)]).regN R.TRG.PMAX ∧
    (regs ringed [(R.TRG.PER, 79999)]).writable 9 = true ∧
    (regs ringed [(R.TRG.PER, 79999)]).plan.run = false ∧
    (regs ringed [(R.TRG.PER, 79999)]).paired = false ∧
    0 < (regs ringed [(R.TRG.PER, 79999)]).regF R.TRG.PER 0 20 ∧
    ((regs ringed [(R.TRG.PER, 79999)]).plan.loaded = false ∨
  (regs ringed [(R.TRG.PER, 79999)]).regF R.TRG.PER 0 20 < (regs ringed [(R.TRG.PER, 79999)]).regN R.TRG.PMIN ∨
    (regs ringed [(R.TRG.PER, 79999)]).regN R.TRG.PMAX < (regs ringed [(R.TRG.PER, 79999)]).regF R.TRG.PER 0 20) := by decide +kernel

/-- States and operands that meet the hypotheses of PlanStopRequested. -/
theorem test_wit_PlanStopRequested :
    running.writable 9 = true ∧
    running.plan.run = true ∧
    Word.bit (0#32) 1 = false ∧
    (Word.bit (0#32) 0 = false ∨ Word.bit (0#32) 2 = true) ∧
    Word.bit (1#32) 1 = false ∧
    Word.bit (1#32) 0 = true ∧
    Word.bit (1#32) 2 = false := by decide +kernel

/-- States and operands that meet the hypotheses of PlanStarts. -/
theorem test_wit_PlanStarts :
    awaiting.plan.run = true ∧
    awaiting.plan.started = false ∧
    awaiting.plan.idx0 = none ∧
    0 < 32 ∧
    0 < awaiting.ringCells 0 ∧
    awaiting.paired = false := by decide +kernel

def periodBoundaryAt1 : State := { stopping with jig := { stopping.jig with lastStk := 1 } }
/-- States and operands that meet the hypotheses of PeriodBoundary. -/
theorem test_wit_PeriodBoundary :
    running.plan.run = true ∧
    running.plan.started = true ∧
    running.accepted = [] ∧
    running.paired = false ∧
    running.datum.tvDue = false ∧
    running.plan.stopAcc = false ∧
    stopping.plan.run = true ∧
    stopping.plan.started = true ∧
    stopping.accepted = [] ∧
    stopping.paired = false ∧
    stopping.datum.tvDue = false ∧
    stopping.plan.stopAcc = true ∧
    stopping.plan.restart = false ∧
    stopping.scribe.resetDue = none ∧
    periodBoundaryAt1.plan.run = true ∧
    periodBoundaryAt1.plan.started = true ∧
    periodBoundaryAt1.accepted = [] ∧
    periodBoundaryAt1.paired = false ∧
    periodBoundaryAt1.datum.tvDue = false ∧
    periodBoundaryAt1.plan.stopAcc = true ∧
    periodBoundaryAt1.plan.restart = false ∧
    natFld periodBoundaryAt1.jig.lastStk 0 3 ≠ 0 := by decide +kernel

/-- States and operands that meet the hypotheses of IdleStep. -/
theorem test_wit_IdleStep :
    State.reset.pending = [] ∧
    State.reset.rst.cold = true ∧
    State.reset.domHeld 2 = true ∧
    running.pending = [] ∧
    ¬(running.rst.cold = true ∧ running.domHeld 2 = true) := by decide +kernel

/-- States and operands that meet the hypotheses of PageControl. -/
theorem test_wit_PageControl :
    running.writable 112 = true ∧
    112 ≠ 9 ∧
    plainControl 112 = true ∧
    running.paired = false ∧
    running.stopped 112 = true ∧
    (regs running [(R.PCTL 112, 1)]).writable 112 = true ∧
    (regs running [(R.PCTL 112, 1)]).paired = false ∧
    (regs running [(R.PCTL 112, 1)]).stopped 112 = false := by decide +kernel

/-- States and operands that meet the hypotheses of CommitAppliesWhenIdle. -/
theorem test_wit_CommitAppliesWhenIdle :
    committing.writable 9 = true ∧
    committing.regB (R.PSTA 9) 1 = true ∧
    committing.plan.run = false ∧
    committing.accepted = [] ∧
    9 ≠ 81 ∧
    9 ≠ 82 ∧
    9 ≠ 113 ∧
    (∀ (p : Nat × Option Word), p ∈ committing.shadow → p.fst ≠ R.PSTA 9) ∧
    pageOf 9 ≠ 9 ∧
    (R.TRG.PER, some 160001#32) ∈ committing.shadow ∧
    pageOf R.TRG.PER = 9 ∧
    (∀ (q : Nat × Option Word), q ∈ committing.shadow → q.fst = R.TRG.PER → q = (R.TRG.PER, some 160001#32)) ∧
    (some 160001#32).isSome = true ∧
    (committing.plan.run = true ∨ committing.regB (R.PSTA R.TRG.PER) 1 = false) := by decide +kernel

/-- States and operands that meet the hypotheses of PeriodEvents. -/
theorem test_wit_PeriodEvents :
    running.paired = false ∧
    running.plan.started = true ∧
    (∀ (r : Nat), r < 32 → running.ringCells r ≤ 8) ∧
    0 < 32 ∧
    0 < running.ringCells 0 ∧
    running.txLane 0 true = some 1 ∧
    running.laneUp 1 = true ∧
    running.plan.pastML = false ∧
    running.restoring = false ∧
    (∀ (c : Nat),
  c ∈ running.ringAddrs →
    0 < imageAt running.nextPidx c ∨ imageAt running.nextPidx c + (NMap.get { } running.cells c).sent.length ≤ 0) ∧
    running.plan.lastBoundary = none ∧
    running.plan.boundary ≠ running.plan.start + running.regF R.TRG.PHI 0 20 ∧
    0 < 12 ∧
    running.latched 0 = false ∧
    pastML.paired = false ∧
    pastML.plan.started = true ∧
    (∀ (r : Nat), r < 32 → pastML.ringCells r ≤ 8) ∧
    pastML.plan.pastML = true ∧
    pastML.restoring = false ∧
    (∀ (c : Nat), c ∈ pastML.ringAddrs → (NMap.get { } pastML.cells c).sent.length ≤ 128) ∧
    0 ∈ pastML.ringAddrs ∧
    lastDue.paired = false ∧
    lastDue.plan.started = true ∧
    (∀ (r : Nat), r < 32 → lastDue.ringCells r ≤ 8) := by decide +kernel

/-- States and operands that meet the hypotheses of PeriodEvents. -/
theorem test_wit_PeriodEvents_2 :
    lastDue.plan.lastBoundary.isSome = true := by decide +kernel

/-- States and operands that meet the hypotheses of WriteLock. -/
theorem test_wit_WriteLock :
    running.writable 8 = true ∧
    23131#32 ≠ 23130 ∧
    (regDef 8 256).isSome = true ∧
    256 ≤ 256 ∧
    Option.any (fun (d : RegDef) => decide (d.acc.rwl ≠ 0)) (regDef 8 256) = true ∧
    running.lockOpen 8 = false := by decide +kernel

def registerWriteAccessAt2 : State := { running with shipped := { running.shipped with stack := true } }
/-- States and operands that meet the hypotheses of RegisterWriteAccess. -/
theorem test_wit_RegisterWriteAccess :
    running.paired = false ∧
    running.writable 9 = true ∧
    regDef 9 9 = none ∧
    (regDef 9 256).isSome = true ∧
    plainReg 9 256 = true ∧
    (idleOnly 9 256 && running.plan.run) = false ∧
    (9 = 9 → 256 = 320 ∨ 256 = 324 → (running.shipped.stack && running.plan.run) = false) ∧
    9 < 32 ∧
    Option.any (fun (d : RegDef) => decide (d.acc.rws ≠ 0)) (regDef 9 256) = true ∧
    (regDef 9 16).isSome = true ∧
    plainReg 9 16 = true ∧
    (idleOnly 9 16 && running.plan.run) = false ∧
    (9 = 9 → 16 = 320 ∨ 16 = 324 → (running.shipped.stack && running.plan.run) = false) ∧
    Option.any (fun (d : RegDef) => decide (d.acc.rws = 0)) (regDef 9 16) = true ∧
    (regDef 9 28).isSome = true ∧
    28 = 28 ∧
    running.writable 112 = true ∧
    (regDef 112 4).isSome = true ∧
    4 = 4 ∧
    plainControl 112 = true ∧
    Word.bit (23128#32) 1 = false ∧
    (running.domHeld 0 = true ∨ blockOf 256 = none) ∧
    running.domHeld 0 = false ∧
    running.preConfig 256 = false := by decide +kernel

/-- States and operands that meet the hypotheses of RegisterWriteAccess. -/
theorem test_wit_RegisterWriteAccess_2 :
    running.pageUp 256 = false ∧
    running.writable 16 = true ∧
    (regDef 16 260).isSome = true ∧
    idleOnly 16 260 = true ∧
    running.plan.run = true ∧
    early.preConfig 9 = true ∧
    registerWriteAccessAt2.writable 9 = true ∧
    (regDef 9 320).isSome = true ∧
    9 = 9 ∧
    (320 = 320 ∨ 320 = 324) ∧
    registerWriteAccessAt2.shipped.stack = true ∧
    registerWriteAccessAt2.plan.run = true := by decide +kernel

/-- States and operands that meet the hypotheses of RocReadClears. -/
theorem test_wit_RocReadClears :
    State.reset.pageUp 176 = false ∧
    running.pageUp 176 = true ∧
    (keyDef (176 * 4096 + 16)).isSome = true ∧
    16 < 32 := by decide +kernel

/-- States and operands that meet the hypotheses of PreConfigWritesCounted. -/
theorem test_wit_PreConfigWritesCounted :
    early.preConfig 9 = true ∧
    early.preConfig 82 = true ∧
    early.preConfig 152 = true ∧
    early.preConfig 80 = true ∧
    early.preConfig 120 = true := by decide +kernel

/-- States and operands that meet the hypotheses of HostRequestsServed. -/
theorem test_wit_HostRequestsServed :
    tagged.domHeld 0 = false ∧
    tagged.hears HSrc.hsp dgram = true ∧
    1 < 64 ∧
    1476399100 < 2 ^ 32 ∧
    1476399100 % 4 = 0 ∧
    (placeOf 1476399100).isSome = true ∧
    [1#32] ≠ [] ∧
    [1#32].length ≤ room 1476399100 ∧
    tagged.imemShut 1476399100 = false ∧
    (NMap.get none tagged.host.tags 1).isSome = true ∧
    Option.any (fun (g : Tag) => decide (g.src = HSrc.hsp)) (NMap.get none tagged.host.tags 1) = true ∧
    Option.any (fun (g : Tag) => decide (g.data = none)) (NMap.get none tagged.host.tags 1) = true ∧
    1 < 4096 ∧
    3 < 64 ∧
    (NMap.get none tagged.host.tags 3).isSome = true ∧
    Option.any (fun (g : Tag) => decide (g.data.isSome = true)) (NMap.get none tagged.host.tags 3) = true ∧
    Option.any (fun (g : Tag) => decide (g.src = HSrc.hsp)) (NMap.get none tagged.host.tags 3) = true ∧
    63 < 64 ∧
    1 ≤ room 1476399100 ∧
    NMap.get none tagged.host.tags 63 = none ∧
    Option.all (fun (g : Tag) => decide (g.src ≠ HSrc.hsp)) (NMap.get none tagged.host.tags 63) = true := by decide +kernel

/-- States and operands that meet the hypotheses of BrokenRequests. -/
theorem test_wit_BrokenRequests :
    up.domHeld 0 = false ∧
    HSrc.en0 ≠ HSrc.hsp ∧
    up.hostOn HSrc.en0 = false ∧
    ([] : List Byte).length < reqLen [] ∧
    hosted.domHeld 0 = false ∧
    hosted.hears HSrc.en0 dgram = true ∧
    (([] : List Byte).length < 10 ∨ crc16 (List.take (([] : List Byte).length - 2) []) ≠ beNat (List.drop (([] : List Byte).length - 2) [])) := by decide +kernel

def hostOrderAt1 : State := { queued hosted [oneAt 0x5C000000] with rst := State.reset.rst }
/-- States and operands that meet the hypotheses of HostOrder. -/
theorem test_wit_HostOrder :
    1476399092 % 4 = 0 ∧
    (queued hosted [opX, opW]).paired = false ∧
    (queued hosted [opX, opW]).host.ops = [opX] ++ [HostOp.write HSrc.hsp 1476399092 [1#32, 2#32, 3#32]] ∧
    (∀ (o : HostOp), o ∈ [opX] → writesElsewhere (1476399092 / 4096) o = true) ∧
    (queued hosted [opX, opW]).domHeld 0 = false ∧
    (queued hosted [opX, opW]).cfgd = true ∧
    (∀ (i : Nat), i < [1#32, 2#32, 3#32].length → (queued hosted [opX, opW]).windowTakes (1476399092 + 4 * i) = true) ∧
    1 < [1#32, 2#32, 3#32].length ∧
    1 < 4 * [1#32, 2#32, 3#32].length ∧
    (1 < 1476399092 ∨ 1476399092 + 4 * [1#32, 2#32, 3#32].length ≤ 1) ∧
    (∀ (o : HostOp), o ∈ [opX] → writesElsewhere 1476399092 o = true) ∧
    (queued hosted [opX, opR]).host.ops = [opX] ++ [HostOp.read HSrc.hsp 1 1476399092 2] ∧
    (queued hosted [opW]).host.ops = [HostOp.write HSrc.hsp 1476399092 [1#32, 2#32, 3#32]] ∧
    (queued hosted []).host.ops = [] ∧
    (∀ (o : HostOp), o ∈ [] → writesElsewhere 1476399092 o = true) ∧
    1074200832 % 4 = 0 ∧
    (queued hosted [opX, oneAt 1074200832]).host.ops = [opX] ++ [HostOp.write HSrc.hsp 1074200832 [7#32]] ∧
    (∀ (o : HostOp), o ∈ [opX] → writesElsewhere (1074200832 / 4096) o = true) ∧
    [7#32].length = 1 ∧
    placeOf 1074200832 = some (Place.page 112 256) ∧
    (queued hosted [opX, oneAt 1074200832]).writable 112 = true ∧
    1543503872 % 4 = 0 ∧
    (queued hosted [oneAt 1543503872]).host.ops = [] ++ [HostOp.write HSrc.hsp 1543503872 [7#32]] ∧
    (∀ (o : HostOp), o ∈ [] → writesElsewhere (1543503872 / 4096) o = true) := by decide +kernel

/-- States and operands that meet the hypotheses of HostOrder. -/
theorem test_wit_HostOrder_2 :
    (queued hosted [oneAt 1543503872]).domHeld 0 = false ∧
    (queued hosted [oneAt 1543503872]).cfgd = true ∧
    pageAddr 1543503872 = false ∧
    (queued hosted [oneAt 1543503872]).windowTakes 1543503872 = false ∧
    1610874896 % 4 = 0 ∧
    (queued hosted [oneAt 1610874896]).host.ops = [] ++ [HostOp.write HSrc.hsp 1610874896 [7#32]] ∧
    (∀ (o : HostOp), o ∈ [] → writesElsewhere (1610874896 / 4096) o = true) ∧
    (queued hosted [oneAt 1610874896]).domHeld 0 = false ∧
    (queued hosted [oneAt 1610874896]).cfgd = true ∧
    [7#32] = [7#32] ∧
    placeOf 1610874896 = some (Place.dmem 0 16) ∧
    ¬(0 = 8 ∧ 122880 ≤ 16 ∧ 16 < 125440) ∧
    1619386384 % 4 = 0 ∧
    (queued hosted [oneAt 1619386384]).host.ops = [] ++ [HostOp.write HSrc.hsp 1619386384 [7#32]] ∧
    (∀ (o : HostOp), o ∈ [] → writesElsewhere (1619386384 / 4096) o = true) ∧
    (queued hosted [oneAt 1619386384]).domHeld 0 = false ∧
    (queued hosted [oneAt 1619386384]).cfgd = true ∧
    placeOf 1619386384 = some (Place.dmem 8 122896) ∧
    8 = 8 ∧ 122880 ≤ 122896 ∧ 122896 < 125440 ∧
    hostOrderAt1.host.ops = [] ++ [HostOp.write HSrc.hsp 1543503872 [7#32]] ∧
    hostOrderAt1.domHeld 0 = true ∧
    1476403200 % 4 = 0 ∧
    (queued early [oneAt 1476403200]).host.ops = [] ++ [HostOp.write HSrc.hsp 1476403200 [7#32]] ∧
    (∀ (o : HostOp), o ∈ [] → writesElsewhere (1476403200 / 4096) o = true) := by decide +kernel

/-- States and operands that meet the hypotheses of HostOrder. -/
theorem test_wit_HostOrder_3 :
    (placeOf 1476403200).isSome = true ∧
    pageAddr 1476403200 = false ∧
    (queued early [oneAt 1476403200]).domHeld 0 = false ∧
    (queued early [oneAt 1476403200]).cfgd = false := by decide +kernel

/-- States and operands that meet the hypotheses of HostBurstEdges. -/
theorem test_wit_HostBurstEdges :
    hosted.domHeld 0 = false ∧
    hosted.hears HSrc.hsp dgram = true ∧
    3 < 64 ∧
    1476399100 < 2 ^ 32 ∧
    1476399100 % 4 = 0 ∧
    [1#32, 2#32].length < 4096 ∧
    room 1476399100 < [1#32, 2#32].length ∧
    (placeOf 1476399100).isSome = true ∧
    hosted.imemShut 1476399100 = false ∧
    1879048192 < 2 ^ 32 ∧
    1879048192 % 4 = 0 ∧
    placeOf 1879048192 = none ∧
    [1#32, 2#32] ≠ [] ∧
    [1#32, 2#32].length ≤ room 1879048192 ∧
    NMap.get none hosted.host.tags 3 = none ∧
    (regs hosted [(R.PCTL 96, 1)]).domHeld 0 = false ∧
    (regs hosted [(R.PCTL 96, 1)]).hears HSrc.hsp dgram = true ∧
    1610612736 < 2 ^ 32 ∧
    1610612736 % 4 = 0 ∧
    (regs hosted [(R.PCTL 96, 1)]).imemShut 1610612736 = true ∧
    [1#32, 2#32].length ≤ room 1610612736 := by decide +kernel

/-- States and operands that meet the hypotheses of MeasurementApplied. -/
theorem test_wit_MeasurementApplied :
    running.sourceIs 3 = false ∧
    (pps ringed 2 7).sourceIs 3 = true ∧
    (pps ringed 2 7).dstate ≠ 4 ∧
    (pps ringed 2 7).datum.foreign = none ∧
    (pps ringed 2 7).datum.autostep = false ∧
    (pps ringed 2 7).regN R.DTM.STEPLIM <
  ((↑1000000007 - (pps ringed 2 7).regI R.DTM.PPSCORR + 8000000000) % 16000000000 - 8000000000).natAbs ∧
    ((pps ringed 2 7).plan.run = false ∨
  (pps ringed 2 7).plan.started = false ∧ (pps ringed 2 7).plan.asked = some ((pps ringed 2 7).reach 1000000007).dt64) ∧
    ((↑16000000020 - (pps ringed 2 7).regI R.DTM.PPSCORR + 8000000000) % 16000000000 - 8000000000).natAbs ≤
  (pps ringed 2 7).regN R.DTM.STEPLIM ∧
    (pps running 1 6).sourceIs 3 = true ∧
    (pps running 1 6).dstate ≠ 4 ∧
    (pps running 1 6).datum.foreign = none ∧
    (pps running 1 6).datum.autostep = false ∧
    (pps running 1 6).regN R.DTM.STEPLIM <
  ((↑1000000007 - (pps running 1 6).regI R.DTM.PPSCORR + 8000000000) % 16000000000 - 8000000000).natAbs ∧
    (pps running 1 6).plan.run = true ∧
    ((pps running 1 6).plan.started = true ∨ (pps running 1 6).plan.asked ≠ some ((pps running 1 6).reach 1000000007).dt64) := by decide +kernel

/-- States and operands that meet the hypotheses of DatumCoastAndClear. -/
theorem test_wit_DatumCoastAndClear :
    ((pps running 1 7).dstate = 1 ∨ (pps running 1 7).dstate = 2) ∧
    (pps running 1 7).writable dtmPage = true ∧
    (pps running 1 7).plan.run = true ∧
    (pps ringed 3 0).dstate ≠ 1 ∧
    (pps ringed 3 0).dstate ≠ 2 ∧
    (pps ringed 3 0).writable dtmPage = true ∧
    (pps ringed 3 0).plan.run = false := by decide +kernel

def ptpSlaveAt1 : State := { ethFresh with fq := [(64, { busy := 1000000200 })] }
/-- States and operands that meet the hypotheses of PtpSlave. -/
theorem test_wit_PtpSlave :
    ethFresh.ethUp 0 = true ∧
    ethFresh.regB (R.ETH.ECFG 0) 2 = true ∧
    ethFresh.regB (R.ETH.ECFG 0) 5 = false ∧
    ethFresh.masterIs 0 syncMsg = true ∧
    ethFresh.regF (R.ETH.ECFG 0) 8 8 = syncMsg.domain.toNat ∧
    ethFresh.regB (R.ETH.ECFG 0) 3 = syncMsg.udp ∧
    syncMsg.twoStep = false ∧
    ethFresh.passed 2000000000 = false ∧
    (NMap.get { } ethFresh.eth 0).reqAt.isSome = true ∧
    Option.any (fun (last : Nat) => decide (2000000000 < last + ethFresh.reqEvery 0)) (NMap.get { } ethFresh.eth 0).reqAt =
  true ∧
    0 < 2000000000 ∧
    ethFresh.masterIs 0 twoMsg = true ∧
    ethFresh.regF (R.ETH.ECFG 0) 8 8 = twoMsg.domain.toNat ∧
    ethFresh.regB (R.ETH.ECFG 0) 3 = twoMsg.udp ∧
    twoMsg.twoStep = true ∧
    (ethFresh.masterIs 0 otherMsg = false ∨
  ethFresh.regF (R.ETH.ECFG 0) 8 8 ≠ otherMsg.domain.toNat ∨ ethFresh.regB (R.ETH.ECFG 0) 3 ≠ otherMsg.udp) ∧
    ethOwed.ethUp 0 = true ∧
    ethOwed.regB (R.ETH.ECFG 0) 2 = true ∧
    ethOwed.regB (R.ETH.ECFG 0) 5 = false ∧
    ethOwed.masterIs 0 syncMsg = true ∧
    ethOwed.regF (R.ETH.ECFG 0) 8 8 = syncMsg.domain.toNat ∧
    ethOwed.regB (R.ETH.ECFG 0) 3 = syncMsg.udp ∧
    (NMap.get { } ethOwed.eth 0).sync.isSome = true ∧
    Option.any (fun (x : Nat × Int × Int) => decide (x.fst = syncMsg.seq.toNat)) (NMap.get { } ethOwed.eth 0).sync = true := by decide +kernel

/-- States and operands that meet the hypotheses of PtpSlave. -/
theorem test_wit_PtpSlave_2 :
    ethOwed.passed 2000000000 = false ∧
    (NMap.get { } ethOwed.fq (64 + 0)).busy ≤ 2000000000 ∧
    Option.all (fun (last : Nat) => decide (last + ethOwed.reqEvery 0 ≤ 2000000000)) (NMap.get { } ethOwed.eth 0).reqAt =
  true ∧
    2000000000 ≠ 64 + 0 ∧
    ethOwed.ethUp 1 = true ∧
    ethOwed.regB (R.ETH.ECFG 1) 2 = true ∧
    ethOwed.regB (R.ETH.ECFG 1) 5 = false ∧
    ethOwed.masterIs 1 syncMsg = true ∧
    ethOwed.regF (R.ETH.ECFG 1) 8 8 = syncMsg.domain.toNat ∧
    ethOwed.regB (R.ETH.ECFG 1) 3 = syncMsg.udp ∧
    (NMap.get { } ethOwed.eth 1).req.isSome = true ∧
    Option.any (fun (x : Nat × Int) => decide (x.fst = syncMsg.seq.toNat)) (NMap.get { } ethOwed.eth 1).req = true ∧
    ethOwed.regB (R.ETH.ECFG 1) 4 = true ∧
    ethLate.ethUp 0 = true ∧
    ethLate.regB (R.ETH.ECFG 0) 2 = true ∧
    ethLate.regB (R.ETH.ECFG 0) 5 = false ∧
    ethLate.masterIs 0 syncMsg = true ∧
    ethLate.regF (R.ETH.ECFG 0) 8 8 = syncMsg.domain.toNat ∧
    ethLate.regB (R.ETH.ECFG 0) 3 = syncMsg.udp ∧
    (NMap.get { } ethLate.eth 0).sync.isSome = true ∧
    Option.any (fun (x : Nat × Int × Int) => decide (x.fst ≠ syncMsg.seq.toNat)) (NMap.get { } ethLate.eth 0).sync = true ∧
    (NMap.get { } ethLate.eth 0).req.isSome = true ∧
    Option.any (fun (x : Nat × Int) => decide (x.fst ≠ syncMsg.seq.toNat)) (NMap.get { } ethLate.eth 0).req = true ∧
    ptpSlaveAt1.ethUp 0 = true := by decide +kernel

/-- States and operands that meet the hypotheses of PtpSlave. -/
theorem test_wit_PtpSlave_3 :
    ptpSlaveAt1.regB (R.ETH.ECFG 0) 2 = true ∧
    ptpSlaveAt1.regB (R.ETH.ECFG 0) 5 = false ∧
    ptpSlaveAt1.passed 1000000051 = false ∧
    (NMap.get { } ptpSlaveAt1.fq (64 + 0)).busy > 1000000051 := by decide +kernel

/-- States and operands that meet the hypotheses of ChannelsAndSnapshots. -/
theorem test_wit_ChannelsAndSnapshots :
    0 < 11 ∧
    (channels running).regB (R.TRG.TSCFG 0) 0 = true ∧
    (channels running).regB (R.TRG.TSCFG 0) 1 = false ∧
    (channels running).plan.started = true ∧
    (channels running).regF (R.TRG.TSTGT 0) 0 20 < (channels running).plan.per ∧
    (channels running).plan.fired.testBit (0 + 5) = false ∧
    ((channels running).dt64 ≤
  (if (channels running).regB (R.TRG.TSCFG 0) 2 = true then (channels running).plan.boundary
    else (channels running).plan.start) +
    (channels running).regF (R.TRG.TSTGT 0) 0 20) ∧
    (0 < 3 → (channels running).pageUp dtmPage = true) ∧
    1 ≠ 0 ∧
    1 < 11 ∧
    (channels running).regB (R.TRG.TSCFG 1) 0 = true ∧
    (channels running).regB (R.TRG.TSCFG 1) 1 = true ∧
    2 < 11 ∧
    (channels running).regB (R.TRG.TSCFG 2) 0 = true ∧
    (channels running).regB (R.TRG.TSCFG 2) 1 = false ∧
    ((channels running).plan.per ≤ (channels running).regF (R.TRG.TSTGT 2) 0 20 ∨
  (channels running).plan.fired.testBit (2 + 5) = true) ∧
    3 < 11 ∧
    (channels running).regB (R.TRG.TSCFG 3) 0 = false := by decide +kernel

/-- States and operands that meet the hypotheses of EthernetDescriptors. -/
theorem test_wit_EthernetDescriptors :
    ethFresh.writable (10 + 0) = true ∧
    ethFresh.regB (R.ETH.ECFG 0) 0 = true ∧
    (NMap.get { } ethFresh.eth 0).txNext < ethFresh.regF (R.ETH.TXRN 0) 0 8 ∧
    (NMap.get { } ethFresh.fq (64 + 0)).q = [] ∧
    (NMap.get { } ethFresh.eth 0).txDone = [] ∧
    (ethFresh.mem.readWord (csmBase + ethFresh.regN (R.ETH.TXRB 0) + 16 * (NMap.get { } ethFresh.eth 0).txNext + 4)).bit
    31 =
  true ∧
    (rslPayload rslBytes).isSome = true ∧
    ethFresh.ethUp 0 = true ∧
    rslPayload [1#8, 2#8, 3#8, 4#8, 5#8] = none ∧
    (NMap.get { } ethFresh.eth 0).rxNext < ethFresh.regF (R.ETH.RXRN 0) 0 8 ∧
    (ethFresh.mem.readWord (csmBase + ethFresh.regN (R.ETH.RXRB 0) + 16 * (NMap.get { } ethFresh.eth 0).rxNext + 4)).bit
    31 =
  true ∧
    offMirror (csmBase + ethFresh.regN (R.ETH.RXRB 0) + 16 * (NMap.get { } ethFresh.eth 0).rxNext + 4) 12 = true ∧
    (1000000064 < csmBase + ethFresh.regN (R.ETH.RXRB 0) + 16 * (NMap.get { } ethFresh.eth 0).rxNext + 4 ∨
  csmBase + ethFresh.regN (R.ETH.RXRB 0) + 16 * (NMap.get { } ethFresh.eth 0).rxNext + 16 ≤ 1000000064) ∧
    (1000000064 <
    BitVec.toNat
      (ethFresh.mem.readWord (csmBase + ethFresh.regN (R.ETH.RXRB 0) + 16 * (NMap.get { } ethFresh.eth 0).rxNext)) ∨
  BitVec.toNat
        (ethFresh.mem.readWord (csmBase + ethFresh.regN (R.ETH.RXRB 0) + 16 * (NMap.get { } ethFresh.eth 0).rxNext)) +
      ((ethFresh.mem.readWord
                (csmBase + ethFresh.regN (R.ETH.RXRB 0) + 16 * (NMap.get { } ethFresh.eth 0).rxNext + 4)).fld
            0 14).min
        [1#8, 2#8, 3#8, 4#8, 5#8].length ≤
    1000000064) ∧
    0 < 9 ∧
    (ethFresh.engine 0).acc = [] ∧
    (NMap.get { } ethFresh.eth 0).link ≠ (ethFresh.regB (R.ETH.ECFG 0) 0 && !true) ∧
    (NMap.get { } ethFresh.eth 0).link = (ethFresh.regB (R.ETH.ECFG 0) 0 && !false) ∧
    (NMap.get { } ethOwed.eth 0).txDone.head?.isSome = true ∧
    Option.any
    (fun (x : Nat × Nat × Bool) =>
      decide (offMirror (csmBase + ethOwed.regN (R.ETH.TXRB 0) + 16 * x.fst + 4) 12 = true))
    (NMap.get { } ethOwed.eth 0).txDone.head? =
  true ∧
    (Option.any
    (fun (x : Nat × Nat × Bool) =>
      decide
        (1000000064 < csmBase + ethOwed.regN (R.ETH.TXRB 0) + 16 * x.fst + 4 ∨
          csmBase + ethOwed.regN (R.ETH.TXRB 0) + 16 * x.fst + 16 ≤ 1000000064))
    (NMap.get { } ethOwed.eth 0).txDone.head? =
  true) ∧
    (ethOwed.engine 0).acc = [] ∧
    (NMap.get { } ethQueued.fq (64 + 0)).q.head?.isSome = true ∧
    Option.any
    (fun (e : ClassF) =>
      decide
        (ethQueued.mayLaunch (64 + 0) (NMap.get { } ethQueued.fq (64 + 0)) e 1000000064
            (ethQueued.fBytes (64 + 0) e).length =
          true))
    (NMap.get { } ethQueued.fq (64 + 0)).q.head? =
  true := by decide +kernel

/-- States and operands that meet the hypotheses of EthernetDescriptors. -/
theorem test_wit_EthernetDescriptors_2 :
    ethDark.ethUp 0 = false ∧
    ethLate.ethUp 0 = true ∧
    (NMap.get { } ethLate.eth 0).rxNext < ethLate.regF (R.ETH.RXRN 0) 0 8 ∧
    (ethLate.mem.readWord (csmBase + ethLate.regN (R.ETH.RXRB 0) + 16 * (NMap.get { } ethLate.eth 0).rxNext + 4)).bit 31 =
  false := by decide +kernel

def traverseAt1 : State := regs (flying [] 0) [(R.LNE.LNSTA 0,3),(R.LNE.LNSTA 1, 3)]
/-- States and operands that meet the hypotheses of Traverse. -/
theorem test_wit_Traverse :
    (flying [] 0).paired = false ∧
    (flying [] 0).plan.started = true ∧
    (flying [] 0).regB R.DTM.TRVCTL 0 = true ∧
    (flying [] 0).travMs ≠ (flying [] 0).plan.start / 16000000 + 1 ∧
    0 < 32 ∧
    0 < (flying [] 0).ringCells 0 ∧
    (flying [] 0).txLane 0 false = some 0 ∧
    (flying [] 0).laneUp 0 = true ∧
    (flying [] 0).fitsPlan 0 ((flying [] 0).rangingAt 0 false) (20 + 8 * (flying [] 0).ringCells 0) = true ∧
    ((flying [] 0).trv 0 false).inFlight = [] ∧
    ranged.paired = false ∧
    ranged.plan.started = true ∧
    ranged.travMs = ranged.plan.start / 16000000 + 1 ∧
    (flying [900000] 2).paired = false ∧
    ((flying [900000] 2).rxLane 0 false).isSome = true ∧
    Option.any (fun (n : Nat) => decide ((flying [900000] 2).laneUp n = true)) ((flying [900000] 2).rxLane 0 false) = true ∧
    Option.any (fun (n : Nat) => decide (((flying [900000] 2).lane n).drop = false)) ((flying [900000] 2).rxLane 0 false) =
  true ∧
    frameCheck 0 false rangingF = none ∧
    frameType rangingF.bytes = 4 ∧
    (framePayload rangingF.bytes).length = 8 + 8 * (flying [900000] 2).ringCells 0 ∧
    (List.find? (fun (l : Nat) => bitsOfInt 64 (txStamp l 0) == leAt (framePayload rangingF.bytes) 0 8)
      ((flying [900000] 2).trv 0 false).inFlight).isSome =
  true ∧
    Option.any (fun (l : Nat) => decide ((flying [900000] 2).passed (l + 16000000) = false))
    (List.find? (fun (l : Nat) => bitsOfInt 64 (txStamp l 0) == leAt (framePayload rangingF.bytes) 0 8)
      ((flying [900000] 2).trv 0 false).inFlight) =
  true ∧
    Option.any (fun (l : Nat) => decide (rangingF.sof < l + 16000000))
    (List.find? (fun (l : Nat) => bitsOfInt 64 (txStamp l 0) == leAt (framePayload rangingF.bytes) 0 8)
      ((flying [900000] 2).trv 0 false).inFlight) =
  true ∧
    ((flying [900000] 2).trv 0 false).inFlight.head?.isSome = true := by decide +kernel

/-- States and operands that meet the hypotheses of Traverse. -/
theorem test_wit_Traverse_2 :
    ((flying [900000] 2).trv 0 false).lost = 2 ∧
    (flying [900000, 900001] 1).paired = false ∧
    ((flying [900000, 900001] 1).trv 0 false).inFlight.head?.isSome = true ∧
    ((flying [900000, 900001] 1).trv 0 false).lost ≠ 2 ∧
    traverseAt1.paired = false ∧
    (traverseAt1.rxLane 0 false).isSome = true ∧
    Option.any (fun (n : Nat) => decide (traverseAt1.laneUp n = false)) (traverseAt1.rxLane 0 false) = true := by decide +kernel

def laneTransitionsAt1 : State := laneIn running 4 0 {}
def laneTransitionsAt2 : State := laneIn running 0 0 {}
def laneTransitionsAt3 : State := laneIn ringed 0x22 0 {}
/-- States and operands that meet the hypotheses of LaneTransitions. -/
theorem test_wit_LaneTransitions :
    laneTransitionsAt1.paired = false ∧
    laneTransitionsAt1.svc = [] ∧
    laneTransitionsAt1.fibre 0 = true ∧
    (BitVec.ofInt 16 (-201)).toInt < laneTransitionsAt1.losTh 0 ∧
    2 ≤ laneTransitionsAt1.laneState 0 ∧
    laneTransitionsAt1.laneState 0 ≤ 4 ∧
    laneTransitionsAt1.regB (R.LNE.LNSTA 0) 3 = false ∧
    laneTransitionsAt1.laneState 0 = 4 ∧
    (laneTransitionsAt1.lane 0).inj = none ∧ (laneTransitionsAt1.lane 0).injOn = false ∧
    (Instr.lolSet 0 = Instr.lolSet 0 ∨
  laneTransitionsAt1.regB (R.LNE.LNSTA 0) 5 = true ∧ (laneTransitionsAt1.lane 0).misaligned = true) ∧
    Instr.lolSet 0 = Instr.lolSet 0 ∧
    (laneTransitionsAt1.laneState 0 = 3 ∨ laneTransitionsAt1.laneState 0 = 4) ∧
    Instr.alignmentLoss 0 = Instr.alignmentLoss 0 ∧
    (laneTransitionsAt1.regB (R.LNE.LNSTA 0) 5 = false ∨ (laneTransitionsAt1.lane 0).misaligned = false) ∧
    (BitVec.ofInt 16 (-201)).toInt < laneTransitionsAt1.losTh 0 + 10 ∧
    laneTransitionsAt1.losTh 0 + 10 ≤ (BitVec.ofInt 16 (-190)).toInt ∧
    (laneTransitionsAt1.laneState 0 ≠ 2 ∨ ∀ (rd : Bool), (codeGroup (Sym.k kIdle) rd).fst ≠ 0#10) ∧
    laneNoisy.paired = false ∧
    laneNoisy.svc = [] ∧
    laneNoisy.fibre 0 = true ∧
    (Instr.alignmentLoss 0 = Instr.lolSet 0 ∨ laneNoisy.regB (R.LNE.LNSTA 0) 5 = true ∧ (laneNoisy.lane 0).misaligned = true) ∧
    laneTransitionsAt2.paired = false ∧
    laneTransitionsAt2.svc = [] ∧
    laneTransitionsAt2.fibre 0 = false := by decide +kernel

/-- States and operands that meet the hypotheses of LaneTransitions. -/
theorem test_wit_LaneTransitions_2 :
    laneTransitionsAt3.paired = false ∧
    laneTransitionsAt3.svc = [] ∧
    laneTransitionsAt3.laneState 0 = 2 ∧
    (laneTransitionsAt3.lane 0).inj = none ∧ (laneTransitionsAt3.lane 0).injOn = false := by decide +kernel

def laneTrainingAt1 : State := laneIn running 4 0 {}
/-- States and operands that meet the hypotheses of LaneTraining. -/
theorem test_wit_LaneTraining :
    training.paired = false ∧
    training.svc = [] ∧
    training.laneState 0 = 3 ∧
    (training.laneState 0 = 3 ∨ training.laneState 0 = 4) ∧
    (training.lane 0).drop = false ∧
    kSoftr = kSoftr ∧
    (trainF 0).length = 20 ∧
    frameType (trainF 0) = 9 ∧
    frameLen (trainF 0) = 8 ∧
    crc32 (List.take 16 (trainF 0)) = leAt (trainF 0) 16 4 ∧
    (training.lane 0).inj = none ∧ (training.lane 0).injOn = false ∧
    (training.lane 0).train.far = none ∧
    trainValid kSoftr (trainF 1) = false ∧
    (training.lane 0).train.waiting = false ∧
    (training.lane 0).train.search = SearchAt.first ∧
    (5#6).toNat < training.regF (R.LNE.LNCFG 0) 22 6 ∧
    training.regF (R.LNE.TRNCFG 0) 16 8 ≠ (training.lane 0).train.requests ∧
    trainAsked.paired = false ∧
    trainAsked.svc = [] ∧
    (trainAsked.lane 0).train.far.isSome = true ∧
    Option.any
    (fun (q : Nat × TapReq) => decide ((tapAfter q.snd.pre (trainAsked.regF (R.LNE.TAPS 0) 0 4) 0).isSome = true))
    (trainAsked.lane 0).train.far =
  true ∧
    Option.any
    (fun (q : Nat × TapReq) => decide ((tapAfter q.snd.main (trainAsked.regF (R.LNE.TAPS 0) 4 4) 12).isSome = true))
    (trainAsked.lane 0).train.far =
  true ∧
    Option.any
    (fun (q : Nat × TapReq) => decide ((tapAfter q.snd.post (trainAsked.regF (R.LNE.TAPS 0) 8 4) 3).isSome = true))
    (trainAsked.lane 0).train.far =
  true ∧
    Option.any
    (fun (q : Nat × TapReq) =>
      decide
        (Option.any
            (fun (a : Nat) =>
              decide
                (Option.any
                    (fun (b : Nat) =>
                      decide
                        (Option.any (fun (c : Nat) => decide (a + c ≤ b))
                            (tapAfter q.snd.post (trainAsked.regF (R.LNE.TAPS 0) 8 4) 3) =
                          true))
                    (tapAfter q.snd.main (trainAsked.regF (R.LNE.TAPS 0) 4 4) 12) =
                  true))
            (tapAfter q.snd.pre (trainAsked.regF (R.LNE.TAPS 0) 0 4) 0) =
          true))
    (trainAsked.lane 0).train.far =
  true := by decide +kernel

/-- States and operands that meet the hypotheses of LaneTraining. -/
theorem test_wit_LaneTraining_2 :
    (trainAsked.laneState 0 ≠ 3 ∨ (trainAsked.lane 0).train.waiting = true) ∧
    trainDone.paired = false ∧
    trainDone.svc = [] ∧
    (trainDone.laneState 0 = 3 ∨ trainDone.laneState 0 = 4) ∧
    (trainDone.lane 0).drop = true ∧
    trainDone.laneState 0 = 3 ∧
    (trainDone.lane 0).train.waiting = false ∧
    (trainDone.lane 0).train.search = SearchAt.first ∧
    trainDone.regF (R.LNE.LNCFG 0) 22 6 ≤ (5#6).toNat ∧
    trainEdge.paired = false ∧
    trainEdge.svc = [] ∧
    (trainEdge.lane 0).train.far.isSome = true ∧
    (Option.any
    (fun (q : Nat × TapReq) =>
      decide
        (tapAfter q.snd.pre (trainEdge.regF (R.LNE.TAPS 0) 0 4) 0 = none ∨
          tapAfter q.snd.main (trainEdge.regF (R.LNE.TAPS 0) 4 4) 12 = none ∨
            tapAfter q.snd.post (trainEdge.regF (R.LNE.TAPS 0) 8 4) 3 = none))
    (trainEdge.lane 0).train.far =
  true) ∧
    trainBreak.paired = false ∧
    trainBreak.svc = [] ∧
    (trainBreak.lane 0).train.far.isSome = true ∧
    Option.any
    (fun (q : Nat × TapReq) => decide ((tapAfter q.snd.pre (trainBreak.regF (R.LNE.TAPS 0) 0 4) 0).isSome = true))
    (trainBreak.lane 0).train.far =
  true ∧
    Option.any
    (fun (q : Nat × TapReq) => decide ((tapAfter q.snd.main (trainBreak.regF (R.LNE.TAPS 0) 4 4) 12).isSome = true))
    (trainBreak.lane 0).train.far =
  true ∧
    Option.any
    (fun (q : Nat × TapReq) => decide ((tapAfter q.snd.post (trainBreak.regF (R.LNE.TAPS 0) 8 4) 3).isSome = true))
    (trainBreak.lane 0).train.far =
  true ∧
    Option.any
    (fun (q : Nat × TapReq) =>
      decide
        (Option.any
            (fun (a : Nat) =>
              decide
                (Option.any
                    (fun (b : Nat) =>
                      decide
                        (Option.any (fun (c : Nat) => decide (b < a + c))
                            (tapAfter q.snd.post (trainBreak.regF (R.LNE.TAPS 0) 8 4) 3) =
                          true))
                    (tapAfter q.snd.main (trainBreak.regF (R.LNE.TAPS 0) 4 4) 12) =
                  true))
            (tapAfter q.snd.pre (trainBreak.regF (R.LNE.TAPS 0) 0 4) 0) =
          true))
    (trainBreak.lane 0).train.far =
  true ∧
    laneTrainingAt1.paired = false ∧
    laneTrainingAt1.svc = [] ∧
    laneTrainingAt1.laneState 0 ≠ 3 := by decide +kernel

def laneControlAndCountsAt1 : State := laneIn running 4 0 {}
def laneControlAndCountsAt2 : State := laneIn running 5 6 {}
def laneControlAndCountsAt3 : State := laneIn running 0 0 {}
def laneControlAndCountsAt4 : State := laneIn ringed 0x24 0x102 {}
def laneControlAndCountsAt6 : State := laneIn ringed 5 4 {}
def laneControlAndCountsAt7 : State := laneIn ringed 4 0x100 { inj := some 999999000 }
def laneControlAndCountsAt8 : State := laneIn ringed 5 0x102 {}
def laneControlAndCountsAt9 : State := laneIn ringed 5 0x202 {}
def laneControlAndCountsAt10 : State := laneIn ringed 5 0x302 {}
/-- States and operands that meet the hypotheses of LaneControlAndCounts. -/
theorem test_wit_LaneControlAndCounts :
    laneControlAndCountsAt1.paired = false ∧
    laneControlAndCountsAt1.svc = [] ∧
    laneControlAndCountsAt1.writable (16 + 0) = true ∧
    laneControlAndCountsAt1.laneState 0 = 4 ∧
    (laneControlAndCountsAt1.lane 0).inj = none ∧ (laneControlAndCountsAt1.lane 0).injOn = false ∧
    1#2 ≠ 0 ∧
    laneControlAndCountsAt1.regF (R.LNE.LNMAP 0) 5 2 ≠ 0 ∧
    laneControlAndCountsAt1.plan.run = true ∧
    (laneControlAndCountsAt1.lane 0).injOn = false ∧
    ((decide (laneControlAndCountsAt1.testMode 0 = 1) ||
      decide (laneControlAndCountsAt1.laneState 0 = 4) && laneControlAndCountsAt1.regB (R.LNE.LNCTL 0) 11) =
    false ∨
  laneControlAndCountsAt1.regF (R.LNE.LNCTL 0) 8 2 = 0) ∧
    laneControlAndCountsAt1.fibre 0 = true ∧
    ((laneControlAndCountsAt1.lane 0).cvIn ≠
    laneControlAndCountsAt1.nextMultiple (laneControlAndCountsAt1.lane 0).msAt 16000000 ∨
  (laneControlAndCountsAt1.lane 0).cvMs ≤ laneControlAndCountsAt1.regF (R.LNE.LNCFG 0) 8 8) ∧
    laneControlAndCountsAt1.laneState 0 ≠ 0 ∧
    laneControlAndCountsAt1.laneState 0 ≠ 5 ∧
    (laneControlAndCountsAt1.lane 0).recentre = false ∧
    (laneControlAndCountsAt1.lane 0).fill ≤ 16 ∧
    2 ≤ 2 ∧
    1 < 2 ∧
    (((laneControlAndCountsAt1.lane 0).fill : Int) + -9 < 0 ∨ 16 < ((laneControlAndCountsAt1.lane 0).fill : Int) + -9) ∧
    laneControlAndCountsAt1.testMode 0 ≠ 1 ∧
    violates (0#10) (laneControlAndCountsAt1.lane 0).rxRd = true ∧
    violates (commaWord false) (laneControlAndCountsAt1.lane 0).rxRd = false ∧
    laneControlAndCountsAt1.checking 0 = false ∧
    laneControlAndCountsAt1.testMode 0 ≠ 2 := by decide +kernel

/-- States and operands that meet the hypotheses of LaneControlAndCounts. -/
theorem test_wit_LaneControlAndCounts_2 :
    laneControlAndCountsAt1.testMode 0 ≠ 3 ∧
    laneControlAndCountsAt1.pageUp (16 + 0) = true ∧
    2 ≠ srcNo HSrc.hsp ∧
    laneNoisy.paired = false ∧
    laneNoisy.svc = [] ∧
    laneNoisy.writable (16 + 0) = true ∧
    (laneNoisy.lane 0).cvIn = laneNoisy.nextMultiple (laneNoisy.lane 0).msAt 16000000 ∧
    laneNoisy.regF (R.LNE.LNCFG 0) 8 8 < (laneNoisy.lane 0).cvMs ∧
    laneControlAndCountsAt2.paired = false ∧
    laneControlAndCountsAt2.svc = [] ∧
    laneControlAndCountsAt2.writable (16 + 0) = true ∧
    laneControlAndCountsAt2.laneState 0 ≠ 4 ∧
    0#2 = 0 ∧
    laneControlAndCountsAt2.laneState 0 = 5 ∧
    (laneControlAndCountsAt2.lane 0).inj = none ∧ (laneControlAndCountsAt2.lane 0).injOn = false ∧
    laneControlAndCountsAt2.checking 0 = false ∧
    laneControlAndCountsAt2.testMode 0 = 3 ∧
    laneControlAndCountsAt3.paired = false ∧
    laneControlAndCountsAt3.svc = [] ∧
    laneControlAndCountsAt3.writable (16 + 0) = true ∧
    laneControlAndCountsAt3.fibre 0 = false ∧
    (laneControlAndCountsAt3.fibre 0 = false ∨ laneControlAndCountsAt3.testMode 0 = 1) ∧
    laneControlAndCountsAt4.paired = false ∧
    laneControlAndCountsAt4.svc = [] := by decide +kernel

/-- States and operands that meet the hypotheses of LaneControlAndCounts. -/
theorem test_wit_LaneControlAndCounts_3 :
    laneControlAndCountsAt4.writable (16 + 0) = true ∧
    (laneControlAndCountsAt4.regF (R.LNE.LNMAP 0) 5 2 = 0 ∨ laneControlAndCountsAt4.plan.run = false) ∧
    laneControlAndCountsAt4.laneState 0 ≠ 0 ∧
    laneControlAndCountsAt4.laneState 0 = 4 ∧
    (laneControlAndCountsAt4.lane 0).inj = none ∧ (laneControlAndCountsAt4.lane 0).injOn = false ∧
    1#2 = 1 ∧
    2#2 ≠ 0 ∧
    2#2 ≠ 1 ∧
    2#2 = 2 ∧
    laneControlAndCountsAt6.paired = false ∧
    laneControlAndCountsAt6.svc = [] ∧
    laneControlAndCountsAt6.writable (16 + 0) = true ∧
    laneControlAndCountsAt6.testMode 0 = 2 ∧
    [true].length = [true].length ∧
    laneControlAndCountsAt7.paired = false ∧
    laneControlAndCountsAt7.svc = [] ∧
    laneControlAndCountsAt7.writable (16 + 0) = true ∧
    (laneControlAndCountsAt7.regF (R.LNE.LNMAP 0) 5 2 = 0 ∨ laneControlAndCountsAt7.plan.run = false) ∧
    laneControlAndCountsAt7.laneState 0 ≠ 0 ∧
    (laneControlAndCountsAt7.lane 0).inj.isSome = true ∧
    (laneControlAndCountsAt7.lane 0).injOn = false ∧
    laneControlAndCountsAt8.paired = false ∧
    laneControlAndCountsAt8.svc = [] ∧
    laneControlAndCountsAt8.writable (16 + 0) = true := by decide +kernel

/-- States and operands that meet the hypotheses of LaneControlAndCounts. -/
theorem test_wit_LaneControlAndCounts_4 :
    (laneControlAndCountsAt8.lane 0).injOn = false ∧
    (decide (laneControlAndCountsAt8.testMode 0 = 1) ||
    decide (laneControlAndCountsAt8.laneState 0 = 4) && laneControlAndCountsAt8.regB (R.LNE.LNCTL 0) 11) =
  true ∧
    laneControlAndCountsAt8.regF (R.LNE.LNCTL 0) 8 2 = 1 ∧
    laneControlAndCountsAt9.paired = false ∧
    laneControlAndCountsAt9.svc = [] ∧
    laneControlAndCountsAt9.writable (16 + 0) = true ∧
    (laneControlAndCountsAt9.lane 0).injOn = false ∧
    (decide (laneControlAndCountsAt9.testMode 0 = 1) ||
    decide (laneControlAndCountsAt9.laneState 0 = 4) && laneControlAndCountsAt9.regB (R.LNE.LNCTL 0) 11) =
  true ∧
    laneControlAndCountsAt9.regF (R.LNE.LNCTL 0) 8 2 = 2 ∧
    laneControlAndCountsAt10.paired = false ∧
    laneControlAndCountsAt10.svc = [] ∧
    laneControlAndCountsAt10.writable (16 + 0) = true ∧
    (decide (laneControlAndCountsAt10.testMode 0 = 1) ||
    decide (laneControlAndCountsAt10.laneState 0 = 4) && laneControlAndCountsAt10.regB (R.LNE.LNCTL 0) 11) =
  true ∧
    laneControlAndCountsAt10.regF (R.LNE.LNCTL 0) 8 2 = 3 ∧
    checkNear.paired = false ∧
    checkNear.svc = [] ∧
    checkNear.writable (16 + 0) = true ∧
    checkNear.checking 0 = true ∧
    checkNear.testMode 0 = 1 ∧
    checkNear.regB (R.LNE.LNSTA 0) 6 = false ∧
    prbsBits 0 1 (List.replicate 7 true) =
  prbsBits (checkNear.regF (R.LNE.LNCTL 0) 4 2) (prbsBits 0 1 (List.replicate 7 true)).length (checkNear.lane 0).chk.ref ∧
    (prbsTaps (checkNear.regF (R.LNE.LNCTL 0) 4 2)).fst ≤ (checkNear.lane 0).chk.ref.length ∧
    (checkNear.lane 0).chk.ref.length ≤ 31 ∧
    0 < (prbsBits 0 1 (List.replicate 7 true)).length := by decide +kernel

/-- States and operands that meet the hypotheses of LaneControlAndCounts. -/
theorem test_wit_LaneControlAndCounts_5 :
    (checkNear.lane 0).chk.run + (prbsBits 0 1 (List.replicate 7 true)).length = 256 ∧
    checkBusy.paired = false ∧
    checkBusy.svc = [] ∧
    checkBusy.writable (16 + 0) = true ∧
    checkBusy.checking 0 = true ∧
    checkBusy.testMode 0 = 1 ∧
    checkBusy.regB (R.LNE.LNSTA 0) 6 = true ∧
    true ≠ prbsNext (checkBusy.regF (R.LNE.LNCTL 0) 4 2) (checkBusy.lane 0).chk.ref ∧
    false = prbsNext (checkBusy.regF (R.LNE.LNCTL 0) 4 2) (checkBusy.lane 0).chk.ref := by decide +kernel

/-- States and operands that meet the hypotheses of ServiceTransactions. -/
theorem test_wit_ServiceTransactions :
    (servicing 0 2147549184).writable (48 + 0) = true ∧
    (servicing 0 2147549184).svFreeTag.isSome = true ∧
    (servicing 0 2147549184).svWho = some 0 ∧
    (servicing 0 2147549184).jig.svc = [] ∧
    (NMap.get { } (servicing 0 2147549184).rings 0).svScan = true ∧
    (NMap.get { } (servicing 0 2147549184).rings 0).svNext < (servicing 0 2147549184).regF (R.RNG.SVRN 0) 0 8 ∧
    ((servicing 0 2147549184).mem.readWord
        (csmBase + (servicing 0 2147549184).svDesc 0 (NMap.get { } (servicing 0 2147549184).rings 0).svNext + 4)).bit
    31 =
  true ∧
    ((if
      ((servicing 0 2147549184).mem.readWord
                (csmBase + (servicing 0 2147549184).svDesc 0 (NMap.get { } (servicing 0 2147549184).rings 0).svNext +
                  4)).fld
            29 2 =
          3 ∨
        ((servicing 0 2147549184).mem.readWord
                  (csmBase + (servicing 0 2147549184).svDesc 0 (NMap.get { } (servicing 0 2147549184).rings 0).svNext +
                    4)).fld
              16 7 =
            0 ∨
          64 <
            ((servicing 0 2147549184).mem.readWord
                  (csmBase + (servicing 0 2147549184).svDesc 0 (NMap.get { } (servicing 0 2147549184).rings 0).svNext +
                    4)).fld
              16 7 then
    4
  else
    if
        (servicing 0 2147549184).active = false ∨
          2 ≤
              (NMap.get { } (servicing 0 2147549184).cells
                  (0 * 8 +
                    ((servicing 0 2147549184).mem.readWord
                          (csmBase +
                              (servicing 0 2147549184).svDesc 0 (NMap.get { } (servicing 0 2147549184).rings 0).svNext +
                            4)).fld
                      26 3)).ageF ∧
            2 ≤
              (NMap.get { } (servicing 0 2147549184).cells
                  (0 * 8 +
                    ((servicing 0 2147549184).mem.readWord
                          (csmBase +
                              (servicing 0 2147549184).svDesc 0 (NMap.get { } (servicing 0 2147549184).rings 0).svNext +
                            4)).fld
                      26 3)).ageR then
      5
    else 0) ≠
  0) ∧
    offMirror (csmBase + (servicing 0 2147549184).svDesc 0 (NMap.get { } (servicing 0 2147549184).rings 0).svNext + 4) 12 =
  true ∧
    ((servicing 0 2147549184).rxLane 0 false).isSome = true ∧
    Option.any (fun (n : Nat) => decide ((servicing 0 2147549184).laneUp n = true))
    ((servicing 0 2147549184).rxLane 0 false) =
  true ∧
    Option.any (fun (n : Nat) => decide (((servicing 0 2147549184).lane n).drop = false))
    ((servicing 0 2147549184).rxLane 0 false) =
  true ∧
    frameCheck 0 false (answer 0) = none ∧
    (NMap.get none (servicing 0 2147549184).svc (byteAt (framePayload (answer 0).bytes) 0 % 64)).isSome = true ∧
    Option.any
    (fun (v : Svc) => decide (((servicing 0 2147549184).reach (answer 0).eof).passed (v.launch + 16000000) = false))
    (NMap.get none (servicing 0 2147549184).svc (byteAt (framePayload (answer 0).bytes) 0 % 64)) =
  true ∧
    frameType (answer 0).bytes = 6 := by decide +kernel

/-- States and operands that meet the hypotheses of ServiceTransactions. -/
theorem test_wit_ServiceTransactions_2 :
    Option.any (fun (v : Svc) => decide (byteAt (framePayload (answer 0).bytes) 1 = v.dst))
    (NMap.get none (servicing 0 2147549184).svc (byteAt (framePayload (answer 0).bytes) 0 % 64)) =
  true ∧
    Option.any (fun (v : Svc) => decide (leAt (framePayload (answer 0).bytes) 2 2 = v.pidx))
    (NMap.get none (servicing 0 2147549184).svc (byteAt (framePayload (answer 0).bytes) 0 % 64)) =
  true ∧
    Option.any (fun (v : Svc) => decide (v.ring = 0))
    (NMap.get none (servicing 0 2147549184).svc (byteAt (framePayload (answer 0).bytes) 0 % 64)) =
  true ∧
    Option.any (fun (v : Svc) => decide (v.kind = none))
    (NMap.get none (servicing 0 2147549184).svc (byteAt (framePayload (answer 0).bytes) 0 % 64)) =
  true ∧
    Option.any (fun (v : Svc) => decide (v.desc.isSome = true))
    (NMap.get none (servicing 0 2147549184).svc (byteAt (framePayload (answer 0).bytes) 0 % 64)) =
  true ∧
    Option.any (fun (v : Svc) => decide (offMirror (v.at_ + 4) 12 = true))
    (NMap.get none (servicing 0 2147549184).svc (byteAt (framePayload (answer 0).bytes) 0 % 64)) =
  true ∧
    Option.any (fun (v : Svc) => decide (v.op = 0))
    (NMap.get none (servicing 0 2147549184).svc (byteAt (framePayload (answer 0).bytes) 0 % 64)) =
  true ∧
    byteAt (framePayload (answer 0).bytes) 5 = 0 ∧
    (Option.any
    (fun (v : Svc) =>
      decide
        (v.buf +
              (List.take (4 * v.cnt.min (byteAt (framePayload (answer 0).bytes) 4 % 128))
                  (List.drop 8 (framePayload (answer 0).bytes))).length ≤
            v.at_ ∨
          v.at_ + 16 ≤ v.buf))
    (NMap.get none (servicing 0 2147549184).svc (byteAt (framePayload (answer 0).bytes) 0 % 64)) =
  true) ∧
    Option.any
    (fun (v : Svc) =>
      decide
        (offMirror v.buf
            (List.take (4 * v.cnt.min (byteAt (framePayload (answer 0).bytes) 4 % 128))
                (List.drop 8 (framePayload (answer 0).bytes))).length =
          true))
    (NMap.get none (servicing 0 2147549184).svc (byteAt (framePayload (answer 0).bytes) 0 % 64)) =
  true ∧
    (Option.any (fun (v : Svc) => decide (0 < v.at_ + 4 ∨ v.at_ + 16 ≤ 0))
    (NMap.get none (servicing 0 2147549184).svc (byteAt (framePayload (answer 0).bytes) 0 % 64)) =
  true) ∧
    (Option.any
    (fun (v : Svc) =>
      decide
        (0 < v.buf ∨
          v.buf +
              (List.take (4 * v.cnt.min (byteAt (framePayload (answer 0).bytes) 4 % 128))
                  (List.drop 8 (framePayload (answer 0).bytes))).length ≤
            0))
    (NMap.get none (servicing 0 2147549184).svc (byteAt (framePayload (answer 0).bytes) 0 % 64)) =
  true) ∧
    frameCheck 0 false (answer 9) = none ∧
    (NMap.get none (servicing 0 2147549184).svc (byteAt (framePayload (answer 9).bytes) 0 % 64)).isSome = true ∧
    Option.any
    (fun (v : Svc) => decide (((servicing 0 2147549184).reach (answer 9).eof).passed (v.launch + 16000000) = false))
    (NMap.get none (servicing 0 2147549184).svc (byteAt (framePayload (answer 9).bytes) 0 % 64)) =
  true ∧
    frameType (answer 9).bytes = 6 := by decide +kernel

/-- States and operands that meet the hypotheses of ServiceTransactions. -/
theorem test_wit_ServiceTransactions_3 :
    Option.any (fun (v : Svc) => decide (byteAt (framePayload (answer 9).bytes) 1 = v.dst))
    (NMap.get none (servicing 0 2147549184).svc (byteAt (framePayload (answer 9).bytes) 0 % 64)) =
  true ∧
    Option.any (fun (v : Svc) => decide (leAt (framePayload (answer 9).bytes) 2 2 = v.pidx))
    (NMap.get none (servicing 0 2147549184).svc (byteAt (framePayload (answer 9).bytes) 0 % 64)) =
  true ∧
    Option.any (fun (v : Svc) => decide (v.ring = 0))
    (NMap.get none (servicing 0 2147549184).svc (byteAt (framePayload (answer 9).bytes) 0 % 64)) =
  true ∧
    Option.any (fun (v : Svc) => decide (v.kind = none))
    (NMap.get none (servicing 0 2147549184).svc (byteAt (framePayload (answer 9).bytes) 0 % 64)) =
  true ∧
    Option.any (fun (v : Svc) => decide (v.desc.isSome = true))
    (NMap.get none (servicing 0 2147549184).svc (byteAt (framePayload (answer 9).bytes) 0 % 64)) =
  true ∧
    Option.any (fun (v : Svc) => decide (offMirror (v.at_ + 4) 12 = true))
    (NMap.get none (servicing 0 2147549184).svc (byteAt (framePayload (answer 9).bytes) 0 % 64)) =
  true ∧
    (Option.any (fun (v : Svc) => decide (v.op ≠ 0 ∨ byteAt (framePayload (answer 9).bytes) 5 ≠ 0))
    (NMap.get none (servicing 0 2147549184).svc (byteAt (framePayload (answer 9).bytes) 0 % 64)) =
  true) ∧
    (Option.any (fun (v : Svc) => decide (0 < v.at_ + 4 ∨ v.at_ + 16 ≤ 0))
    (NMap.get none (servicing 0 2147549184).svc (byteAt (framePayload (answer 9).bytes) 0 % 64)) =
  true) ∧
    frameCheck 0 false captured = none ∧
    NMap.get none (servicing 0 2147549184).svc (byteAt (framePayload captured.bytes) 0 % 64) = none ∧
    (NMap.get none (servicing 0 2147549184).svc 5).isSome = true ∧
    Option.any (fun (v : Svc) => decide (v.kind = none)) (NMap.get none (servicing 0 2147549184).svc 5) = true ∧
    Option.any (fun (v : Svc) => decide (v.desc.isSome = true)) (NMap.get none (servicing 0 2147549184).svc 5) = true ∧
    Option.any (fun (v : Svc) => decide (offMirror (v.at_ + 4) 12 = true)) (NMap.get none (servicing 0 2147549184).svc 5) =
  true ∧
    NMap.get none (servicing 0 2147549184).svc 0 = none ∧
    svIdle.svFreeTag.isSome = true ∧
    svIdle.svWho = some 0 ∧
    svIdle.jig.svc = [] ∧
    (NMap.get { } svIdle.rings 0).svScan = true ∧
    (NMap.get { } svIdle.rings 0).svNext < svIdle.regF (R.RNG.SVRN 0) 0 8 ∧
    (svIdle.mem.readWord (csmBase + svIdle.svDesc 0 (NMap.get { } svIdle.rings 0).svNext + 4)).bit 31 = true := by decide +kernel

/-- States and operands that meet the hypotheses of ServiceTransactions. -/
theorem test_wit_ServiceTransactions_4 :
    ((if
      (svIdle.mem.readWord (csmBase + svIdle.svDesc 0 (NMap.get { } svIdle.rings 0).svNext + 4)).fld 29 2 = 3 ∨
        (svIdle.mem.readWord (csmBase + svIdle.svDesc 0 (NMap.get { } svIdle.rings 0).svNext + 4)).fld 16 7 = 0 ∨
          64 < (svIdle.mem.readWord (csmBase + svIdle.svDesc 0 (NMap.get { } svIdle.rings 0).svNext + 4)).fld 16 7 then
    4
  else
    if
        svIdle.active = false ∨
          2 ≤
              (NMap.get { } svIdle.cells
                  (0 * 8 +
                    (svIdle.mem.readWord (csmBase + svIdle.svDesc 0 (NMap.get { } svIdle.rings 0).svNext + 4)).fld 26
                      3)).ageF ∧
            2 ≤
              (NMap.get { } svIdle.cells
                  (0 * 8 +
                    (svIdle.mem.readWord (csmBase + svIdle.svDesc 0 (NMap.get { } svIdle.rings 0).svNext + 4)).fld 26
                      3)).ageR then
      5
    else 0) =
  0) ∧
    svIdle.txUp 0
    (svIdle.svDir 0
      ((svIdle.mem.readWord (csmBase + svIdle.svDesc 0 (NMap.get { } svIdle.rings 0).svNext + 4)).fld 26 3)) =
  true ∧
    svIdle.onRing = true ∧
    (servicing 0 0).svFreeTag.isSome = true ∧
    (servicing 0 0).svWho = some 0 ∧
    (servicing 0 0).jig.svc = [] ∧
    (NMap.get { } (servicing 0 0).rings 0).svScan = true ∧
    (NMap.get { } (servicing 0 0).rings 0).svNext < (servicing 0 0).regF (R.RNG.SVRN 0) 0 8 ∧
    ((servicing 0 0).mem.readWord
        (csmBase + (servicing 0 0).svDesc 0 (NMap.get { } (servicing 0 0).rings 0).svNext + 4)).bit
    31 =
  false ∧
    svFull.svFreeTag = none ∧
    svFull.svWho ≠ some 0 ∧
    ((regs (servicing 0 0) [(R.LNE.LNSTA 1, 2)]).rxLane 0 false).isSome = true ∧
    Option.any (fun (n : Nat) => decide ((regs (servicing 0 0) [(R.LNE.LNSTA 1, 2)]).laneUp n = false))
    ((regs (servicing 0 0) [(R.LNE.LNSTA 1, 2)]).rxLane 0 false) =
  true := by decide +kernel

def telemetryCopiesAt1 : State := regs (servicing 0 0) [(R.LNE.LNSTA 1, 3),(R.LNE.LNSTA 0,3)]
/-- States and operands that meet the hypotheses of TelemetryCopies. -/
theorem test_wit_TelemetryCopies :
    (servicing 0 0).paired = false ∧
    ((servicing 0 0).rxLane 0 false).isSome = true ∧
    Option.any (fun (n : Nat) => decide ((servicing 0 0).laneUp n = true)) ((servicing 0 0).rxLane 0 false) = true ∧
    Option.any
    (fun (n : Nat) =>
      decide
        (frameCheck 0 false
            { bytes := (collector 999386).bytes, intact := (collector 999386).intact && !((servicing 0 0).lane n).drop,
              soft := (collector 999386).soft, sof := (collector 999386).sof, eof := (collector 999386).eof,
              phase := (collector 999386).phase } =
          none))
    ((servicing 0 0).rxLane 0 false) =
  true ∧
    frameType (collector 999386).bytes = 2 ∧
    (servicing 0 0).plan.started = true ∧
    framePidx (collector 999386).bytes = (servicing 0 0).regN R.TRG.PIDX ∧
    Option.any
    (fun (n : Nat) =>
      decide
        (eofStamp
            { bytes := (collector 999386).bytes, intact := (collector 999386).intact && !((servicing 0 0).lane n).drop,
              soft := (collector 999386).soft, sof := (collector 999386).sof, eof := (collector 999386).eof,
              phase := (collector 999386).phase } ≤
          ↑((servicing 0 0).plan.start + (servicing 0 0).regF R.TRG.TTC 0 20)))
    ((servicing 0 0).rxLane 0 false) =
  true ∧
    ((servicing 0 0).regN R.TRG.PIDX = 0 ∨ framePidx (collector 999386).bytes + 1 ≠ (servicing 0 0).regN R.TRG.PIDX) ∧
    0 < (servicing 0 0).ringCells 0 ∧
    slotValid
    (List.take ((servicing 0 0).regF (R.RNG.RCFG 0) 16 8)
      (List.drop (0 * (servicing 0 0).regF (R.RNG.RCFG 0) 16 8) (framePayload (collector 999386).bytes)))
    (0 * 8 + 0) =
  true ∧
    (NMap.get { } (servicing 0 0).cells (0 * 8 + 0)).copy = none ∧
    (decodeV
      (List.take ((servicing 0 0).regF (R.RNG.RCFG 0) 16 8)
        (List.drop (0 * (servicing 0 0).regF (R.RNG.RCFG 0) 16 8) (framePayload (collector 999386).bytes)))
      (NMap.get { } (servicing 0 0).cells (0 * 8 + 0)).vpred ((servicing 0 0).regF (R.RNG.RCTL 0) 0 10)).isSome =
  true ∧
    (servicing 0 0).notRanged (0 * 8 + 0) = false ∧
    8 < 256 ∧
    8 / 8 ≠ 0 ∧
    (servicing 0 0).ringCells 0 ≤ 8 ∧
    Option.any
    (fun (n : Nat) =>
      decide
        (frameCheck 0 false
            { bytes := (collector 1000820).bytes,
              intact := (collector 1000820).intact && !((servicing 0 0).lane n).drop, soft := (collector 1000820).soft,
              sof := (collector 1000820).sof, eof := (collector 1000820).eof, phase := (collector 1000820).phase } =
          none))
    ((servicing 0 0).rxLane 0 false) =
  true ∧
    frameType (collector 1000820).bytes = 2 ∧
    framePidx (collector 1000820).bytes = (servicing 0 0).regN R.TRG.PIDX := by decide +kernel

/-- States and operands that meet the hypotheses of TelemetryCopies. -/
theorem test_wit_TelemetryCopies_2 :
    Option.any
    (fun (n : Nat) =>
      decide
        (↑((servicing 0 0).plan.start + (servicing 0 0).regF R.TRG.TTC 0 20) <
          eofStamp
            { bytes := (collector 1000820).bytes,
              intact := (collector 1000820).intact && !((servicing 0 0).lane n).drop, soft := (collector 1000820).soft,
              sof := (collector 1000820).sof, eof := (collector 1000820).eof, phase := (collector 1000820).phase }))
    ((servicing 0 0).rxLane 0 false) =
  true ∧
    Option.any
    (fun (n : Nat) =>
      decide
        ((frameCheck 0 false
              { bytes := (ringF 2 true 5 0 []).bytes,
                intact := (ringF 2 true 5 0 []).intact && !((servicing 0 0).lane n).drop,
                soft := (ringF 2 true 5 0 []).soft, sof := (ringF 2 true 5 0 []).sof, eof := (ringF 2 true 5 0 []).eof,
                phase := (ringF 2 true 5 0 []).phase }).isSome =
          true))
    ((servicing 0 0).rxLane 0 false) =
  true ∧
    telemetryCopiesAt1.paired = false ∧
    (telemetryCopiesAt1.rxLane 0 false).isSome = true ∧
    Option.any (fun (n : Nat) => decide (telemetryCopiesAt1.laneUp n = false)) (telemetryCopiesAt1.rxLane 0 false) = true := by decide +kernel

def captureAndForceAt1 : State := regs (servicing 0 0) [(R.LNE.LNSTA 1, 3),(R.LNE.LNSTA 0,3)]
/-- States and operands that meet the hypotheses of CaptureAndForce. -/
theorem test_wit_CaptureAndForce :
    ((servicing 0 0).rxLane 0 false).isSome = true ∧
    Option.any (fun (n : Nat) => decide ((servicing 0 0).laneUp n = true)) ((servicing 0 0).rxLane 0 false) = true ∧
    Option.any (fun (n : Nat) => decide (((servicing 0 0).lane n).drop = false)) ((servicing 0 0).rxLane 0 false) = true ∧
    frameCheck 0 false captured = none ∧
    frameType captured.bytes = 8 ∧
    (servicing 0 0).regB (R.RNG.RCTL 0) 16 = true ∧
    (8 + (framePayload captured.bytes).length + 7) / 8 * 8 ≤ (servicing 0 0).regN (R.RNG.CAPL 0) ∧
    ((0 <
    capBase +
      if
          (servicing 0 0).regN (R.RNG.CAPB 0) ≤ (servicing 0 0).regN (R.RNG.CAPWP 0) ∧
            (servicing 0 0).regN (R.RNG.CAPWP 0) + (8 + (framePayload captured.bytes).length + 7) / 8 * 8 ≤
              (servicing 0 0).regN (R.RNG.CAPB 0) + (servicing 0 0).regN (R.RNG.CAPL 0) then
        (servicing 0 0).regN (R.RNG.CAPWP 0)
      else (servicing 0 0).regN (R.RNG.CAPB 0)) ∨
  (capBase +
        if
            (servicing 0 0).regN (R.RNG.CAPB 0) ≤ (servicing 0 0).regN (R.RNG.CAPWP 0) ∧
              (servicing 0 0).regN (R.RNG.CAPWP 0) + (8 + (framePayload captured.bytes).length + 7) / 8 * 8 ≤
                (servicing 0 0).regN (R.RNG.CAPB 0) + (servicing 0 0).regN (R.RNG.CAPL 0) then
          (servicing 0 0).regN (R.RNG.CAPWP 0)
        else (servicing 0 0).regN (R.RNG.CAPB 0)) +
      (8 + (framePayload captured.bytes).length + 7) / 8 * 8 ≤
    0) ∧
    (servicing 0 0).regN (R.RNG.CAPB 0) + (servicing 0 0).regN (R.RNG.CAPL 0) ≤ 2 ^ 32 ∧
    (servicing 0 0).writable (48 + 0) = true ∧
    (servicing 0 0).pageUp 112 = true ∧
    0 < 8 ∧
    8 / 8 ≠ 0 ∧
    (captureAndForceAt1.rxLane 0 false).isSome = true ∧
    Option.any (fun (n : Nat) => decide (captureAndForceAt1.laneUp n = false)) (captureAndForceAt1.rxLane 0 false) = true ∧
    ((regs (servicing 0 0) [(R.RNG.RCTL 0, 0)]).rxLane 0 false).isSome = true ∧
    Option.any (fun (n : Nat) => decide ((regs (servicing 0 0) [(R.RNG.RCTL 0, 0)]).laneUp n = true))
    ((regs (servicing 0 0) [(R.RNG.RCTL 0, 0)]).rxLane 0 false) =
  true ∧
    Option.any (fun (n : Nat) => decide (((regs (servicing 0 0) [(R.RNG.RCTL 0, 0)]).lane n).drop = false))
    ((regs (servicing 0 0) [(R.RNG.RCTL 0, 0)]).rxLane 0 false) =
  true ∧
    (regs (servicing 0 0) [(R.RNG.RCTL 0, 0)]).regB (R.RNG.RCTL 0) 16 = false := by decide +kernel

/-- States and operands that meet the hypotheses of IsaAluResults. -/
theorem test_wit_IsaAluResults :
    (aSlot 0 1 0 0).engState 0 = 2 ∧
    ((aSlot 0 1 0 0).engine 0).half = none ∧
    predValid (insPred ((aSlot 0 1 0 0).imemWord 0 ((aSlot 0 1 0 0).pcOf 0))) = true ∧
    insOp ((aSlot 0 1 0 0).imemWord 0 ((aSlot 0 1 0 0).pcOf 0)) = 1 ∧
    predTrue ((aSlot 0 1 0 0).imemWord 0 ((aSlot 0 1 0 0).pcOf 0)) (((aSlot 0 1 0 0).atIssue 0).engine 0).r.p = true ∧
    (aSlot 0 1 4 0).engState 0 = 2 ∧
    ((aSlot 0 1 4 0).engine 0).half = none ∧
    predValid (insPred ((aSlot 0 1 4 0).imemWord 0 ((aSlot 0 1 4 0).pcOf 0))) = true ∧
    insOp ((aSlot 0 1 4 0).imemWord 0 ((aSlot 0 1 4 0).pcOf 0)) = 1 ∧
    predTrue ((aSlot 0 1 4 0).imemWord 0 ((aSlot 0 1 4 0).pcOf 0)) (((aSlot 0 1 4 0).atIssue 0).engine 0).r.p = false ∧
    satSlot.engState 0 = 2 ∧
    (satSlot.engine 0).half = none ∧
    predValid (insPred (satSlot.imemWord 0 (satSlot.pcOf 0))) = true ∧
    insOp (satSlot.imemWord 0 (satSlot.pcOf 0)) = 1 ∧
    predTrue (satSlot.imemWord 0 (satSlot.pcOf 0)) ((satSlot.atIssue 0).engine 0).r.p = true ∧
    (sat32f
      (BitVec.toInt (((satSlot.atIssue 0).engine 0).r.gr (insRa (satSlot.imemWord 0 (satSlot.pcOf 0)))) +
        BitVec.toInt (((satSlot.atIssue 0).engine 0).r.gr (insRb (satSlot.imemWord 0 (satSlot.pcOf 0)))))).snd ≠
  0 := by decide +kernel

/-- States and operands that meet the hypotheses of IsaPredicatesAndBranches. -/
theorem test_wit_IsaPredicatesAndBranches :
    (aSlot 0 21 0 0).engState 0 = 2 ∧
    ((aSlot 0 21 0 0).engine 0).half = none ∧
    predValid (insPred ((aSlot 0 21 0 0).imemWord 0 ((aSlot 0 21 0 0).pcOf 0))) = true ∧
    insOp ((aSlot 0 21 0 0).imemWord 0 ((aSlot 0 21 0 0).pcOf 0)) = 21 ∧
    predTrue ((aSlot 0 21 0 0).imemWord 0 ((aSlot 0 21 0 0).pcOf 0)) (((aSlot 0 21 0 0).atIssue 0).engine 0).r.p = true ∧
    (aSlot 0 21 4 0).engState 0 = 2 ∧
    ((aSlot 0 21 4 0).engine 0).half = none ∧
    predValid (insPred ((aSlot 0 21 4 0).imemWord 0 ((aSlot 0 21 4 0).pcOf 0))) = true ∧
    insOp ((aSlot 0 21 4 0).imemWord 0 ((aSlot 0 21 4 0).pcOf 0)) = 21 ∧
    predTrue ((aSlot 0 21 4 0).imemWord 0 ((aSlot 0 21 4 0).pcOf 0)) (((aSlot 0 21 4 0).atIssue 0).engine 0).r.p = false ∧
    (aSlot 0 34 0 16).engState 0 = 2 ∧
    ((aSlot 0 34 0 16).engine 0).half = none ∧
    predValid (insPred ((aSlot 0 34 0 16).imemWord 0 ((aSlot 0 34 0 16).pcOf 0))) = true ∧
    insOp ((aSlot 0 34 0 16).imemWord 0 ((aSlot 0 34 0 16).pcOf 0)) = 34 ∧
    insCh ((aSlot 0 34 0 16).imemWord 0 ((aSlot 0 34 0 16).pcOf 0)) ≤ 16 ∧
    (aSlot 0 35 0 15).engState 0 = 2 ∧
    ((aSlot 0 35 0 15).engine 0).half = none ∧
    predValid (insPred ((aSlot 0 35 0 15).imemWord 0 ((aSlot 0 35 0 15).pcOf 0))) = true ∧
    insOp ((aSlot 0 35 0 15).imemWord 0 ((aSlot 0 35 0 15).pcOf 0)) = 35 ∧
    predTrue ((aSlot 0 35 0 15).imemWord 0 ((aSlot 0 35 0 15).pcOf 0)) (((aSlot 0 35 0 15).atIssue 0).engine 0).r.p = true ∧
    0 < 4 ∧
    (aSlot 0 0 0 0).engState 0 = 2 ∧
    ((aSlot 0 0 0 0).engine 0).half = none ∧
    predValid (insPred ((aSlot 0 0 0 0).imemWord 0 ((aSlot 0 0 0 0).pcOf 0))) = true := by decide +kernel

/-- States and operands that meet the hypotheses of IsaPredicatesAndBranches. -/
theorem test_wit_IsaPredicatesAndBranches_2 :
    slotOp false ((aSlot 0 0 0 0).imemWord 0 ((aSlot 0 0 0 0).pcOf 0)) = 0 := by decide +kernel

/-- States and operands that meet the hypotheses of IsaMacResults. -/
theorem test_wit_IsaMacResults :
    (mSlot 0 48 none none 0).engState 0 = 2 ∧
    ((mSlot 0 48 none none 0).engine 0).half.isSome = true ∧
    Option.any (fun (h : Half) => decide (h.wait = none)) ((mSlot 0 48 none none 0).engine 0).half = true ∧
    predValid (insPred ((mSlot 0 48 none none 0).imemWord 0 ((mSlot 0 48 none none 0).pcOf 0 + 4))) = true ∧
    insOp ((mSlot 0 48 none none 0).imemWord 0 ((mSlot 0 48 none none 0).pcOf 0 + 4)) = 48 ∧
    Option.any
    (fun (h : Half) =>
      decide (predTrue ((mSlot 0 48 none none 0).imemWord 0 ((mSlot 0 48 none none 0).pcOf 0 + 4)) h.old.p = true))
    ((mSlot 0 48 none none 0).engine 0).half =
  true ∧
    ((mSlot 0 48 none none 0).engine 0).pend.length = 1 ∧
    (mSlot 0 54 none none 0).engState 0 = 2 ∧
    ((mSlot 0 54 none none 0).engine 0).half.isSome = true ∧
    Option.any (fun (h : Half) => decide (h.wait = none)) ((mSlot 0 54 none none 0).engine 0).half = true ∧
    predValid (insPred ((mSlot 0 54 none none 0).imemWord 0 ((mSlot 0 54 none none 0).pcOf 0 + 4))) = true ∧
    insOp ((mSlot 0 54 none none 0).imemWord 0 ((mSlot 0 54 none none 0).pcOf 0 + 4)) = 54 ∧
    Option.any
    (fun (h : Half) =>
      decide (predTrue ((mSlot 0 54 none none 0).imemWord 0 ((mSlot 0 54 none none 0).pcOf 0 + 4)) h.old.p = true))
    ((mSlot 0 54 none none 0).engine 0).half =
  true ∧
    Option.any
    (fun (h : Half) =>
      decide (h.aw ≠ some (insRd ((mSlot 0 54 none none 0).imemWord 0 ((mSlot 0 54 none none 0).pcOf 0 + 4)))))
    ((mSlot 0 54 none none 0).engine 0).half =
  true ∧
    (mSlot 0 61 none none 0).engState 0 = 2 ∧
    ((mSlot 0 61 none none 0).engine 0).half.isSome = true ∧
    Option.any (fun (h : Half) => decide (h.wait = none)) ((mSlot 0 61 none none 0).engine 0).half = true ∧
    predValid (insPred ((mSlot 0 61 none none 0).imemWord 0 ((mSlot 0 61 none none 0).pcOf 0 + 4))) = true ∧
    insOp ((mSlot 0 61 none none 0).imemWord 0 ((mSlot 0 61 none none 0).pcOf 0 + 4)) = 61 ∧
    Option.any
    (fun (h : Half) =>
      decide (predTrue ((mSlot 0 61 none none 0).imemWord 0 ((mSlot 0 61 none none 0).pcOf 0 + 4)) h.old.p = true))
    ((mSlot 0 61 none none 0).engine 0).half =
  true ∧
    Option.any
    (fun (h : Half) =>
      decide (h.aw ≠ some (insRd ((mSlot 0 61 none none 0).imemWord 0 ((mSlot 0 61 none none 0).pcOf 0 + 4)))))
    ((mSlot 0 61 none none 0).engine 0).half =
  true ∧
    0 ≠ 9 ∧
    (mSlot 9 57 none none 0).engState 9 = 2 ∧
    ((mSlot 9 57 none none 0).engine 9).half.isSome = true := by decide +kernel

/-- States and operands that meet the hypotheses of IsaMacResults. -/
theorem test_wit_IsaMacResults_2 :
    Option.any (fun (h : Half) => decide (h.wait = none)) ((mSlot 9 57 none none 0).engine 9).half = true ∧
    predValid (insPred ((mSlot 9 57 none none 0).imemWord 9 ((mSlot 9 57 none none 0).pcOf 9 + 4))) = true ∧
    insOp ((mSlot 9 57 none none 0).imemWord 9 ((mSlot 9 57 none none 0).pcOf 9 + 4)) = 57 ∧
    Option.any
    (fun (h : Half) =>
      decide (predTrue ((mSlot 9 57 none none 0).imemWord 9 ((mSlot 9 57 none none 0).pcOf 9 + 4)) h.old.p = true))
    ((mSlot 9 57 none none 0).engine 9).half =
  true ∧
    Option.any
    (fun (h : Half) =>
      decide (h.aw ≠ some (insRd ((mSlot 9 57 none none 0).imemWord 9 ((mSlot 9 57 none none 0).pcOf 9 + 4)))))
    ((mSlot 9 57 none none 0).engine 9).half =
  true ∧
    9 = 9 ∧
    (mSlot 0 54 none (some 3) 0).engState 0 = 2 ∧
    ((mSlot 0 54 none (some 3) 0).engine 0).half.isSome = true ∧
    Option.any (fun (h : Half) => decide (h.wait = none)) ((mSlot 0 54 none (some 3) 0).engine 0).half = true ∧
    predValid (insPred ((mSlot 0 54 none (some 3) 0).imemWord 0 ((mSlot 0 54 none (some 3) 0).pcOf 0 + 4))) = true ∧
    insOp ((mSlot 0 54 none (some 3) 0).imemWord 0 ((mSlot 0 54 none (some 3) 0).pcOf 0 + 4)) = 54 ∧
    Option.any
    (fun (h : Half) =>
      decide
        (predTrue ((mSlot 0 54 none (some 3) 0).imemWord 0 ((mSlot 0 54 none (some 3) 0).pcOf 0 + 4)) h.old.p = true))
    ((mSlot 0 54 none (some 3) 0).engine 0).half =
  true ∧
    Option.any
    (fun (h : Half) =>
      decide (h.aw = some (insRd ((mSlot 0 54 none (some 3) 0).imemWord 0 ((mSlot 0 54 none (some 3) 0).pcOf 0 + 4)))))
    ((mSlot 0 54 none (some 3) 0).engine 0).half =
  true ∧
    (mSlot 0 0 none none 0).engState 0 = 2 ∧
    ((mSlot 0 0 none none 0).engine 0).half.isSome = true ∧
    Option.any (fun (h : Half) => decide (h.wait = none)) ((mSlot 0 0 none none 0).engine 0).half = true ∧
    predValid (insPred ((mSlot 0 0 none none 0).imemWord 0 ((mSlot 0 0 none none 0).pcOf 0 + 4))) = true ∧
    slotOp true ((mSlot 0 0 none none 0).imemWord 0 ((mSlot 0 0 none none 0).pcOf 0 + 4)) = 0 := by decide +kernel

/-- States and operands that meet the hypotheses of IsaMemoryAccesses. -/
theorem test_wit_IsaMemoryAccesses :
    (aSlot 0 26 0 0).engState 0 = 2 ∧
    ((aSlot 0 26 0 0).engine 0).half = none ∧
    predValid (insPred ((aSlot 0 26 0 0).imemWord 0 ((aSlot 0 26 0 0).pcOf 0))) = true ∧
    predTrue ((aSlot 0 26 0 0).imemWord 0 ((aSlot 0 26 0 0).pcOf 0)) (((aSlot 0 26 0 0).atIssue 0).engine 0).r.p = true ∧
    insOp ((aSlot 0 26 0 0).imemWord 0 ((aSlot 0 26 0 0).pcOf 0)) = 26 ∧
    (aSlot 0 27 0 0).engState 0 = 2 ∧
    ((aSlot 0 27 0 0).engine 0).half = none ∧
    predValid (insPred ((aSlot 0 27 0 0).imemWord 0 ((aSlot 0 27 0 0).pcOf 0))) = true ∧
    predTrue ((aSlot 0 27 0 0).imemWord 0 ((aSlot 0 27 0 0).pcOf 0)) (((aSlot 0 27 0 0).atIssue 0).engine 0).r.p = true ∧
    insOp ((aSlot 0 27 0 0).imemWord 0 ((aSlot 0 27 0 0).pcOf 0)) = 27 ∧
    (0 <
    dmemAddr 0
      (insAddr ((aSlot 0 27 0 0).imemWord 0 ((aSlot 0 27 0 0).pcOf 0)) (((aSlot 0 27 0 0).atIssue 0).engine 0).r %
        131072) ∨
  dmemAddr 0
        (insAddr ((aSlot 0 27 0 0).imemWord 0 ((aSlot 0 27 0 0).pcOf 0)) (((aSlot 0 27 0 0).atIssue 0).engine 0).r %
          131072) +
      4 ≤
    0) ∧
    (aSlot 0 28 0 0).engState 0 = 2 ∧
    ((aSlot 0 28 0 0).engine 0).half = none ∧
    predValid (insPred ((aSlot 0 28 0 0).imemWord 0 ((aSlot 0 28 0 0).pcOf 0))) = true ∧
    predTrue ((aSlot 0 28 0 0).imemWord 0 ((aSlot 0 28 0 0).pcOf 0)) (((aSlot 0 28 0 0).atIssue 0).engine 0).r.p = true ∧
    0 ≠ 9 ∧
    insOp ((aSlot 0 28 0 0).imemWord 0 ((aSlot 0 28 0 0).pcOf 0)) = 28 ∧
    (aSlot 9 28 0 0).engState 9 = 2 ∧
    ((aSlot 9 28 0 0).engine 9).half = none ∧
    predValid (insPred ((aSlot 9 28 0 0).imemWord 9 ((aSlot 9 28 0 0).pcOf 9))) = true ∧
    predTrue ((aSlot 9 28 0 0).imemWord 9 ((aSlot 9 28 0 0).pcOf 9)) (((aSlot 9 28 0 0).atIssue 9).engine 9).r.p = true ∧
    9 = 9 ∧
    insOp ((aSlot 9 28 0 0).imemWord 9 ((aSlot 9 28 0 0).pcOf 9)) = 28 ∧
    (aSlot 0 29 0 0).engState 0 = 2 := by decide +kernel

/-- States and operands that meet the hypotheses of IsaMemoryAccesses. -/
theorem test_wit_IsaMemoryAccesses_2 :
    ((aSlot 0 29 0 0).engine 0).half = none ∧
    predValid (insPred ((aSlot 0 29 0 0).imemWord 0 ((aSlot 0 29 0 0).pcOf 0))) = true ∧
    predTrue ((aSlot 0 29 0 0).imemWord 0 ((aSlot 0 29 0 0).pcOf 0)) (((aSlot 0 29 0 0).atIssue 0).engine 0).r.p = true ∧
    ((aSlot 0 29 0 0).atIssue 0).pe7Mode ≠ 1 ∧
    insOp ((aSlot 0 29 0 0).imemWord 0 ((aSlot 0 29 0 0).pcOf 0)) = 29 ∧
    (aSlot 9 29 0 0).engState 9 = 2 ∧
    ((aSlot 9 29 0 0).engine 9).half = none ∧
    predValid (insPred ((aSlot 9 29 0 0).imemWord 9 ((aSlot 9 29 0 0).pcOf 9))) = true ∧
    predTrue ((aSlot 9 29 0 0).imemWord 9 ((aSlot 9 29 0 0).pcOf 9)) (((aSlot 9 29 0 0).atIssue 9).engine 9).r.p = true ∧
    insOp ((aSlot 9 29 0 0).imemWord 9 ((aSlot 9 29 0 0).pcOf 9)) = 29 ∧
    (0 <
    insAddr ((aSlot 9 29 0 0).imemWord 9 ((aSlot 9 29 0 0).pcOf 9)) (((aSlot 9 29 0 0).atIssue 9).engine 9).r %
      sxmSize ∨
  insAddr ((aSlot 9 29 0 0).imemWord 9 ((aSlot 9 29 0 0).pcOf 9)) (((aSlot 9 29 0 0).atIssue 9).engine 9).r % sxmSize +
      4 ≤
    0) ∧
    ((access 0 false 256 0).engine 0).acc.head?.isSome = true ∧
    (Option.any (fun (x : CsmAcc) => decide (∀ (y : CsmAcc), y ∈ ((access 0 false 256 0).engine 0).acc.tail → x.due < y.due))
    ((access 0 false 256 0).engine 0).acc.head? =
  true) ∧
    (Option.any
    (fun (x : CsmAcc) =>
      decide (∀ (m : Nat), m < 9 → m ≠ 0 → ∀ (y : CsmAcc), y ∈ ((access 0 false 256 0).engine m).acc → x.due < y.due))
    ((access 0 false 256 0).engine 0).acc.head? =
  true) ∧
    (Option.any (fun (x : CsmAcc) => decide (∀ (y : MPend), y ∈ ((access 0 false 256 0).engine 0).pend → x.due < y.due))
    ((access 0 false 256 0).engine 0).acc.head? =
  true) ∧
    Option.any (fun (x : CsmAcc) => decide (x.store = false)) ((access 0 false 256 0).engine 0).acc.head? = true ∧
    Option.any (fun (x : CsmAcc) => decide (x.got = false)) ((access 0 false 256 0).engine 0).acc.head? = true ∧
    Option.any (fun (x : CsmAcc) => decide (inMirror x.addr = false)) ((access 0 false 256 0).engine 0).acc.head? = true ∧
    ((access 0 true 524284 0).engine 0).acc.head?.isSome = true ∧
    (Option.any
    (fun (x : CsmAcc) => decide (∀ (y : CsmAcc), y ∈ ((access 0 true 524284 0).engine 0).acc.tail → x.due < y.due))
    ((access 0 true 524284 0).engine 0).acc.head? =
  true) ∧
    (Option.any
    (fun (x : CsmAcc) =>
      decide (∀ (m : Nat), m < 9 → m ≠ 0 → ∀ (y : CsmAcc), y ∈ ((access 0 true 524284 0).engine m).acc → x.due < y.due))
    ((access 0 true 524284 0).engine 0).acc.head? =
  true) ∧
    (Option.any (fun (x : CsmAcc) => decide (∀ (y : MPend), y ∈ ((access 0 true 524284 0).engine 0).pend → x.due < y.due))
    ((access 0 true 524284 0).engine 0).acc.head? =
  true) ∧
    Option.any (fun (x : CsmAcc) => decide (x.store = true)) ((access 0 true 524284 0).engine 0).acc.head? = true ∧
    Option.any (fun (x : CsmAcc) => decide (inMirror x.addr = false)) ((access 0 true 524284 0).engine 0).acc.head? = true := by decide +kernel

/-- States and operands that meet the hypotheses of IsaMemoryAccesses. -/
theorem test_wit_IsaMemoryAccesses_3 :
    (0 ≠ 7 ∨ (access 0 true 524284 0).pe7Mode ≠ 1) ∧
    (Option.any (fun (x : CsmAcc) => decide (0 < csmBase + x.addr ∨ csmBase + x.addr + 4 ≤ 0))
    ((access 0 true 524284 0).engine 0).acc.head? =
  true) ∧
    ((access 7 true 256 1).engine 7).acc.head?.isSome = true ∧
    (Option.any (fun (x : CsmAcc) => decide (∀ (y : CsmAcc), y ∈ ((access 7 true 256 1).engine 7).acc.tail → x.due < y.due))
    ((access 7 true 256 1).engine 7).acc.head? =
  true) ∧
    (Option.any
    (fun (x : CsmAcc) =>
      decide (∀ (m : Nat), m < 9 → m ≠ 7 → ∀ (y : CsmAcc), y ∈ ((access 7 true 256 1).engine m).acc → x.due < y.due))
    ((access 7 true 256 1).engine 7).acc.head? =
  true) ∧
    (Option.any (fun (x : CsmAcc) => decide (∀ (y : MPend), y ∈ ((access 7 true 256 1).engine 7).pend → x.due < y.due))
    ((access 7 true 256 1).engine 7).acc.head? =
  true) ∧
    Option.any (fun (x : CsmAcc) => decide (x.store = true)) ((access 7 true 256 1).engine 7).acc.head? = true ∧
    (Option.any (fun (x : CsmAcc) => decide (inMirror x.addr = true ∨ 7 = 7 ∧ (access 7 true 256 1).pe7Mode = 1))
    ((access 7 true 256 1).engine 7).acc.head? =
  true) := by decide +kernel

/-- States and operands that meet the hypotheses of ChannelReleasesEngines. -/
theorem test_wit_ChannelReleasesEngines :
    (engIn running 3 3 65535).shipped.stack = false ∧
    (engIn running 3 3 65535).pe7Mode ≠ 1 ∧
    3 ≠ 2 ∧
    0 < 10 ∧
    ((engIn running 3 3 65535).engCh 0 = 3 ∧
  ((engIn running 3 3 65535).engState 0 = 3 ∨
    (engIn running 3 3 65535).engState 0 = 1 ∧ (engIn running 3 3 65535).regB (R.PCTL (engPage 0)) 2 = false)) ∧
    0 ≠ 9 ∧
    0 < 16 ∧
    7 < 10 ∧
    ((engIn running 3 3 65535).engCh 7 ≠ 3 ∨
  (engIn running 3 3 65535).engState 7 ≠ 3 ∧ (engIn running 3 3 65535).engState 7 ≠ 1) ∧
    2 = 2 ∧
    0 < 8 ∧
    ((engIn running 3 3 65535).engState 0 = 2 ∨ (engIn running 3 3 65535).engState 0 = 3) ∧
    7 < 8 ∧
    (engIn running 3 3 65535).engState 7 ≠ 2 ∧
    (engIn running 3 3 65535).engState 7 ≠ 3 ∧
    (engIn running 3 3 65535).engCh 7 ≠ 2 ∧
    (mSlot 0 0 (some 3) none 8).engState 0 = 2 ∧
    ((mSlot 0 0 (some 3) none 8).engine 0).half.isSome = true ∧
    Option.any (fun (h : Half) => decide (h.wait.isSome = true)) ((mSlot 0 0 (some 3) none 8).engine 0).half = true ∧
    slotOp true ((mSlot 0 0 (some 3) none 8).imemWord 0 ((mSlot 0 0 (some 3) none 8).pcOf 0 + 4)) = 0 ∧
    Option.any (fun (h : Half) => decide (h.jump = none)) ((mSlot 0 0 (some 3) none 8).engine 0).half = true ∧
    Option.any (fun (h : Half) => decide (Option.any (fun (ch : Nat) => decide (ch ≠ 1)) h.wait = true))
    ((mSlot 0 0 (some 3) none 8).engine 0).half =
  true ∧
    Option.any (fun (h : Half) => decide (Option.any (fun (ch : Nat) => decide (ch < 16)) h.wait = true))
    ((mSlot 0 0 (some 3) none 8).engine 0).half =
  true ∧
    Option.any
    (fun (h : Half) =>
      decide
        (Option.any (fun (ch : Nat) => decide (((mSlot 0 0 (some 3) none 8).engine 0).latch.testBit ch = true)) h.wait =
          true))
    ((mSlot 0 0 (some 3) none 8).engine 0).half =
  true := by decide +kernel

/-- States and operands that meet the hypotheses of ChannelReleasesEngines. -/
theorem test_wit_ChannelReleasesEngines_2 :
    (mSlot 0 0 (some 15) none 0).engState 0 = 2 ∧
    ((mSlot 0 0 (some 15) none 0).engine 0).half.isSome = true ∧
    Option.any (fun (h : Half) => decide (h.wait.isSome = true)) ((mSlot 0 0 (some 15) none 0).engine 0).half = true ∧
    slotOp true ((mSlot 0 0 (some 15) none 0).imemWord 0 ((mSlot 0 0 (some 15) none 0).pcOf 0 + 4)) = 0 ∧
    Option.any (fun (h : Half) => decide (h.jump = none)) ((mSlot 0 0 (some 15) none 0).engine 0).half = true ∧
    Option.any (fun (h : Half) => decide (Option.any (fun (ch : Nat) => decide (ch ≠ 1)) h.wait = true))
    ((mSlot 0 0 (some 15) none 0).engine 0).half =
  true ∧
    Option.any (fun (h : Half) => decide (Option.any (fun (ch : Nat) => decide (ch < 16)) h.wait = true))
    ((mSlot 0 0 (some 15) none 0).engine 0).half =
  true ∧
    Option.any
    (fun (h : Half) =>
      decide
        (Option.any (fun (ch : Nat) => decide (((mSlot 0 0 (some 15) none 0).engine 0).latch.testBit ch = false))
            h.wait =
          true))
    ((mSlot 0 0 (some 15) none 0).engine 0).half =
  true ∧
    (mSlot 0 0 (some 1) none 0).engState 0 = 2 ∧
    ((mSlot 0 0 (some 1) none 0).engine 0).half.isSome = true ∧
    Option.any (fun (h : Half) => decide (h.wait.isSome = true)) ((mSlot 0 0 (some 1) none 0).engine 0).half = true ∧
    slotOp true ((mSlot 0 0 (some 1) none 0).imemWord 0 ((mSlot 0 0 (some 1) none 0).pcOf 0 + 4)) = 0 ∧
    Option.any (fun (h : Half) => decide (h.jump = none)) ((mSlot 0 0 (some 1) none 0).engine 0).half = true ∧
    Option.any (fun (h : Half) => decide (Option.any (fun (ch : Nat) => decide (ch = 1)) h.wait = true))
    ((mSlot 0 0 (some 1) none 0).engine 0).half =
  true ∧
    (mSlot 0 0 (some 1) none 0).pe7Mode ≠ 1 ∧
    ((mSlot 0 0 (some 1) none 0).engine 0).latch.testBit 1 = false := by decide +kernel

/-- States and operands that meet the hypotheses of SpareEngineModes. -/
theorem test_wit_SpareEngineModes :
    (pe7In ringed 0 3 0 1 0).writable 103 = true ∧
    (pe7In ringed 0 3 0 1 0).lockOpen 103 = true ∧
    (pe7In ringed 0 3 0 1 0).enabled 103 = false ∧
    (pe7In ringed 0 3 0 1 0).pe7Mode ≠ 2 ∧
    0 < 65536 ∧
    (0 < engBase 7 ∨ engBase 7 + 65536 ≤ 0) ∧
    (pe7In ringed 0 3 0 1 0).plan.run = false ∧
    0 < 131072 ∧
    0 < 8 ∧
    ((pe7In ringed 0 3 0 1 0).pe7Mode ≠ 1 ∨ (pe7In ringed 0 3 0 1 0).shBit 0 = false) ∧
    (pe7In ringed 0 3 1 1 0).writable 103 = true ∧
    ((pe7In ringed 0 3 1 1 0).lockOpen 103 = false ∨ (pe7In ringed 0 3 1 1 0).enabled 103 = true) ∧
    (pe7In running 1 3 0 1 1).writable 103 = true ∧
    (pe7In running 1 3 0 1 1).lockOpen 103 = true ∧
    (pe7In running 1 3 0 1 1).enabled 103 = false ∧
    (pe7In running 1 3 0 1 1).plan.run = true ∧
    (pe7In running 1 3 0 1 1).pe7Mode = 1 ∧
    (pe7In running 1 3 0 1 1).shBit 0 = true ∧
    (pe7In running 1 3 0 1 1).pe7Target ≠ 7 ∧
    (pe7In ringed 2 3 0 1 0).writable 103 = true ∧
    (pe7In ringed 2 3 0 1 0).lockOpen 103 = true ∧
    (pe7In ringed 2 3 0 1 0).enabled 103 = false ∧
    (pe7In ringed 2 3 0 1 0).plan.run = false ∧
    (pe7In ringed 2 3 0 1 0).pe7Mode = 2 := by decide +kernel

/-- States and operands that meet the hypotheses of SpareEngineModes. -/
theorem test_wit_SpareEngineModes_2 :
    (pe7In ringed 2 3 0 1 0).pe7Target ≠ 7 ∧
    (pe7In ringed 1 0 0 1 1).writable 103 = true ∧
    (pe7In ringed 1 0 0 1 1).lockOpen 103 = true ∧
    (pe7In ringed 1 0 0 1 1).enabled 103 = false ∧
    (pe7In ringed 1 0 0 1 1).plan.run = false ∧
    (pe7In ringed 1 0 0 1 1).pe7Mode = 1 := by decide +kernel

def performanceCountersAt1 : State := { counting 0 56 with pmc := { (counting 0 56).pmc with smpen := [] } }
/-- States and operands that meet the hypotheses of PerformanceCounters. -/
theorem test_wit_PerformanceCounters :
    (counting 15 57).writable 168 = true ∧
    0 < 32 ∧
    0 * 32 + 0 ≠ (counting 15 57).regF R.PMC.ESEL 0 3 * 32 + 5 ∧
    (counting 15 57).pageUp 168 = true ∧
    (counting 15 57).presetNow ((counting 15 57).regF R.PMC.ESEL 0 3) 5 = true ∧
    2 ^ 48 ≤ ((counting 15 57).pmcSync 0).pmcGet 0 5 ∧
    (NMap.get 0 (counting 15 57).pmc.oven 0).testBit 5 = true ∧
    (NMap.get 0 (counting 15 57).pmc.smpen 0).testBit 5 = true ∧
    (List.find? (fun (x : SampleDue) => x.eng == 0) (counting 15 57).pmc.due).isSome = true ∧
    (NMap.get [] (counting 15 57).pmc.smp 0).length < 16 ∧
    Option.any
    (fun (x : SampleDue) =>
      decide
        ((List.find? (fun (p : Nat × Nat) => p.fst.ble (x.at_ + 3)) ((counting 15 57).engine 0).last).isSome = true))
    (List.find? (fun (x : SampleDue) => x.eng == 0) (counting 15 57).pmc.due) =
  true ∧
    ((counting 15 57).pmcSync 0).pmcGet 0 6 < 2 ^ 48 ∧
    1#8 ≠ 0 ∧
    0 < 8 ∧
    (1#8).toNat.testBit 0 = true ∧
    1 < 8 ∧
    (1#8).toNat.testBit 1 = false ∧
    1 ≠ (counting 15 57).regF R.PMC.ESEL 0 3 ∧
    (counting 15 57).presetNow ((counting 15 57).regF R.PMC.ESEL 0 3) 6 = false ∧
    (List.find? (fun (x : SampleDue) => x.eng == 0) (counting 16 60).pmc.due).isSome = true ∧
    16 ≤ (NMap.get [] (counting 16 60).pmc.smp 0).length ∧
    (List.find? (fun (x : SampleDue) => x.eng == 0) (counting 0 56).pmc.due).isSome = true ∧
    (NMap.get [] (counting 0 56).pmc.smp 0).length < 16 ∧
    Option.any
    (fun (x : SampleDue) =>
      decide (List.find? (fun (p : Nat × Nat) => p.fst.ble (x.at_ + 3)) ((counting 0 56).engine 0).last = none))
    (List.find? (fun (x : SampleDue) => x.eng == 0) (counting 0 56).pmc.due) =
  true := by decide +kernel

/-- States and operands that meet the hypotheses of PerformanceCounters. -/
theorem test_wit_PerformanceCounters_2 :
    2 ^ 48 ≤ (performanceCountersAt1.pmcSync 0).pmcGet 0 5 ∧
    (NMap.get 0 performanceCountersAt1.pmc.smpen 0).testBit 5 = false := by decide +kernel

def cellAndStackCommandsAt1 : State := regs (jigged running) [(R.CLS.CMDSTA, 0x20001)]
/-- States and operands that meet the hypotheses of CellAndStackCommands. -/
theorem test_wit_CellAndStackCommands :
    (jigged running).writable 80 = true ∧
    (jigged running).regB R.CLS.CMDSTA 0 = false ∧
    (jigged running).inMap (1#8).toNat = true ∧
    20 ≠ (1#8).toNat ∧
    (jigged running).writable 82 = true ∧
    (jigged running).regB (R.JG.JCMDSTA 1) 0 = false ∧
    (jigged running).plan.run = true ∧
    (jigged running).inMap (3#8).toNat = false ∧
    20 ≠ stackInst ∧
    (jigged running).writable (81 + 0) = true ∧
    NMap.get none (jigged running).jig.check 0 = none ∧
    (jigged ringed).writable 80 = true ∧
    (jigged ringed).plan.run = false ∧
    20 < 32 ∧
    20 ≠ (1#8).toNat % 32 ∧
    cellAndStackCommandsAt1.writable 80 = true ∧
    cellAndStackCommandsAt1.regB R.CLS.CMDSTA 0 = true ∧
    (NMap.get none bankAsked.jig.check 0).isSome = true ∧
    Option.any (fun (b : Nat) => decide (b < 4)) (NMap.get none bankAsked.jig.check 0) = true ∧
    (memoryRows 20).isSome = true ∧
    Option.any (fun (q : Nat × Nat × Nat) => decide (0 * 256 < q.snd.fst)) (memoryRows 20) = true ∧
    (rowsLogged 15).spare.failing.contains (20 * 2 ^ 20 + 0) = true ∧
    List.count (20 * 2 ^ 20 + 0) (rowsLogged 15).spare.rows ≤ List.count (20 * 2 ^ 20 + 0) (rowsLogged 15).spare.applied ∧
    Option.any
    (fun (q : Nat × Nat × Nat) =>
      decide ((List.filter (fun (r : Nat) => r / 2 ^ 20 == 20) (rowsLogged 15).spare.rows).length < q.snd.snd))
    (memoryRows 20) =
  true := by decide +kernel

/-- States and operands that meet the hypotheses of CellAndStackCommands. -/
theorem test_wit_CellAndStackCommands_2 :
    (rowsLogged 16).spare.failing.contains (20 * 2 ^ 20 + 0) = true ∧
    List.count (20 * 2 ^ 20 + 0) (rowsLogged 16).spare.rows ≤ List.count (20 * 2 ^ 20 + 0) (rowsLogged 16).spare.applied ∧
    Option.any
    (fun (q : Nat × Nat × Nat) =>
      decide (q.snd.snd ≤ (List.filter (fun (r : Nat) => r / 2 ^ 20 == 20) (rowsLogged 16).spare.rows).length))
    (memoryRows 20) =
  true := by decide +kernel

/-- States and operands that meet the hypotheses of JigPasses. -/
theorem test_wit_JigPasses :
    (jigged running).paired = false ∧
    (jigged running).bankInUse 0 + 8448 ≤ tblBase + 1048576 ∧
    (jigged running).jig.jg0Due = false ∧
    (((jigged running).inst 1).tAt = none ∨ ((jigged running).inst 1).tPass ≠ none) ∧
    (jigDue running).paired = false ∧
    (jigDue running).bankInUse 0 + 8448 ≤ tblBase + 1048576 ∧
    (jigDue running).jig.jg0Due = true ∧
    (jigDue running).jigRuns 0 = true ∧
    2 ∈
  List.take 1
    (List.filter (fun (a : Nat) => (jigDue running).jig.deferred.contains a) (jigDue running).mapCells ++
      List.filter (fun (a : Nat) => !(jigDue running).jig.deferred.contains a) (jigDue running).mapCells) ∧
    1 <
  (List.filter (fun (a : Nat) => (jigDue running).jig.deferred.contains a) (jigDue running).mapCells ++
      List.filter (fun (a : Nat) => !(jigDue running).jig.deferred.contains a) (jigDue running).mapCells).length ∧
    1 ∈
  List.drop 1
    (List.filter (fun (a : Nat) => (jigDue running).jig.deferred.contains a) (jigDue running).mapCells ++
      List.filter (fun (a : Nat) => !(jigDue running).jig.deferred.contains a) (jigDue running).mapCells) ∧
    1 ∈
  List.take 2
    (List.filter (fun (a : Nat) => (jigDue running).jig.deferred.contains a) (jigDue running).mapCells ++
      List.filter (fun (a : Nat) => !(jigDue running).jig.deferred.contains a) (jigDue running).mapCells) ∧
    3 < 20 ∧
    ((jigDue running).inst 1).pend = 2 ^ 3 ∧
    ((jigDue running).inst 1).tPass = none ∧
    ((jigDue running).inst 1).tAt = none ∧
    (entryOf (jigDue running).mem ((jigDue running).bankInUse 0) ((jigDue running).inst 1).st 3).fld 0 6 ≠ 63 ∧
    (entryOf (jigDue running).mem ((jigDue running).bankInUse 0) ((jigDue running).inst 1).st 3).fld 6 8 = 0 ∧
    (entryOf (jigDue running).mem ((jigDue running).bankInUse 0) ((jigDue running).inst 1).st 3).fld 14 3 = 0 ∧
    (entryOf (jigDue running).mem ((jigDue running).bankInUse 0) ((jigDue running).inst 1).st 3).bit 17 = false ∧
    (List.filter (fun (a : Nat) => (jigDue running).jig.deferred.contains a) (jigDue running).mapCells ++
      List.filter (fun (a : Nat) => !(jigDue running).jig.deferred.contains a) (jigDue running).mapCells).length ≤
  2 ∧
    (jigged running).jigRuns 0 = true ∧
    (jigged running).plan.run = true ∧
    (jigged ringed).paired = false := by decide +kernel

/-- States and operands that meet the hypotheses of JigPasses. -/
theorem test_wit_JigPasses_2 :
    (jigged ringed).jigRuns 0 = true ∧
    (jigged ringed).plan.run = false ∧
    0 = 0 ∧
    1 ∈ (jigged ringed).mapCells ∧
    (jigged ringed).jigRuns 1 = true ∧
    1 = 1 ∧
    (jigDue ringed).paired = false ∧
    (jigDue ringed).jigRuns 0 = true ∧
    (jigDue ringed).plan.run = false ∧
    1 ∈ (jigDue ringed).mapCells ∧
    ((jigDue ringed).inst 1).pend = 2 ^ 3 ∧
    ((jigDue ringed).inst 1).tPass = none ∧
    ((jigDue ringed).inst 1).tAt = none ∧
    (entryOf (jigDue ringed).mem ((jigDue ringed).bankInUse 0) ((jigDue ringed).inst 1).st 3).fld 0 6 ≠ 63 ∧
    (entryOf (jigDue ringed).mem ((jigDue ringed).bankInUse 0) ((jigDue ringed).inst 1).st 3).fld 6 8 = 0 ∧
    (entryOf (jigDue ringed).mem ((jigDue ringed).bankInUse 0) ((jigDue ringed).inst 1).st 3).fld 14 3 = 0 ∧
    (entryOf (jigDue ringed).mem ((jigDue ringed).bankInUse 0) ((jigDue ringed).inst 1).st 3).bit 17 = false ∧
    ((jigTimed none).inst 1).tAt.isSome = true ∧
    ((jigTimed none).inst 1).tPass = none := by decide +kernel

def pairRolesAt1 : State := pairing (paired 3 0x10 0 0) { from_ := 2 }
def pairRolesAt2 : State := pairing (paired 3 0x10 0 0) { from_ := 0, init := true }
def pairRolesAt3 : State := pairing (paired 2 0x10 2 0) { request := true }
def pairRolesAt5 : State := pairing (paired 4 0 0x10 0) { quiet := 1, beacon := some (tieBeacon 2) }
def pairRolesAt6 : State := pairing (paired 1 0 0 0) { litAt := some 999 }
/-- States and operands that meet the hypotheses of PairRoles. -/
theorem test_wit_PairRoles :
    running.writable 136 = true ∧
    (running.paired = false ∨ running.role ≠ 4 ∨ running.regF R.HPR.PEER 0 3 ≠ 2 ∨ running.regB R.HPR.PEER 3 = false) ∧
    (running.paired = false ∨ running.role = 0) ∧
    (running.paired = false ∨ running.role ≠ 0) ∧
    (running.paired = false ∨ running.role ≠ 3) ∧
    running.regB R.HPR.HSTA 4 = false ∧
    (running.paired = false ∨ running.role ≠ 2 ∨ running.plan.started = false) ∧
    (running.paired && decide (running.role = 4) && running.plan.started && running.regB R.HPR.PCFG 4 &&
        !running.pair.rlyRx &&
      Option.any (fun (b : TieBeacon) => b.role == 2) running.beaconNow &&
    Nat.ble 1 running.pair.quiet) =
  false ∧
    0 < 8000 ∧
    (running.pair.litAt = none ∨ running.paired = false ∨ running.role ≠ 1) ∧
    (paired 4 0 0 10).writable 136 = true ∧
    (paired 4 0 0 10).paired = true ∧
    (paired 4 0 0 10).role = 4 ∧
    (paired 4 0 0 10).regF R.HPR.PEER 0 3 = 2 ∧
    (paired 4 0 0 10).regB R.HPR.PEER 3 = true ∧
    (paired 4 0 0 10).role ≠ 0 ∧
    (2 ≤ (paired 4 0 0 10).role ∨ (paired 4 0 0 10).role = 1 ∧ (paired 4 0 0 10).pair.litAt ≠ none) ∧
    0 ∈ (paired 4 0 0 10).ringLanes ∧
    0 < 12 ∧
    (paired 4 0 0 10).scribe.resetDue = none ∧
    (paired 0 0 0 0).writable 136 = true ∧
    (paired 0 0 0 0).paired = true ∧
    (paired 0 0 0 0).role = 0 ∧
    (paired 0 0 0 0).scribe.resetDue = none := by decide +kernel

/-- States and operands that meet the hypotheses of PairRoles. -/
theorem test_wit_PairRoles_2 :
    (paired 1 0 0 0).writable 136 = true ∧
    (paired 1 0 0 0).paired = true ∧
    (paired 1 0 0 0).role ≠ 0 ∧
    (paired 1 0 0 0).role = 1 ∧
    (paired 1 0 0 0).pair.litAt = none ∧
    pairRolesAt1.paired = true ∧
    pairRolesAt1.role = 3 ∧
    pairRolesAt1.pair.from_ < 3 ∧
    pairRolesAt1.regB R.HPR.HSTA 4 = true ∧
    (pairRolesAt1.paired && decide (pairRolesAt1.role = 2) && pairRolesAt1.pair.request && pairRolesAt1.regB R.HPR.PCFG 1) =
  false ∧
    ((pairRolesAt1.paired && decide (pairRolesAt1.role = 2) && pairRolesAt1.pair.request && pairRolesAt1.regB R.HPR.PCFG 1) =
    false ∨
  pairRolesAt1.scribe.resetDue = none) ∧
    0 ∈ pairRolesAt1.ringsInMap ∧
    pairRolesAt1.pair.init = false ∧
    pairRolesAt2.paired = true ∧
    pairRolesAt2.role = 3 ∧
    pairRolesAt2.pair.init = true ∧
    (paired 2 16 0 0).paired = true ∧
    (paired 2 16 0 0).role = 2 ∧
    (paired 2 16 0 0).plan.started = true ∧
    ((((paired 2 16 0 0).pair.request ||
            Option.any (fun (b : TieBeacon) => b.role == 4 && b.hovr) (paired 2 16 0 0).pair.beacon ||
          !(paired 2 16 0 0).copyNow && !Option.any (fun (b : TieBeacon) => b.role == 4) (paired 2 16 0 0).beaconNow) &&
        (paired 2 16 0 0).regB R.HPR.PCFG 1 &&
      !(paired 2 16 0 0).regB R.HPR.HSTA 4) =
    false ∨
  (paired 2 16 0 0).scribe.resetDue = none) ∧
    pairRolesAt3.regB R.HPR.HSTA 4 = true ∧
    (pairRolesAt3.paired && decide (pairRolesAt3.role = 2) && pairRolesAt3.pair.request && pairRolesAt3.regB R.HPR.PCFG 1) =
  true ∧
    (pairRolesAt5.paired && decide (pairRolesAt5.role = 4) && pairRolesAt5.plan.started && pairRolesAt5.regB R.HPR.PCFG 4 &&
        !pairRolesAt5.pair.rlyRx &&
      Option.any (fun (b : TieBeacon) => b.role == 2) pairRolesAt5.beaconNow &&
    Nat.ble 1 pairRolesAt5.pair.quiet) =
  true ∧
    0 ∈ pairRolesAt5.ringLanes := by decide +kernel

/-- States and operands that meet the hypotheses of PairRoles. -/
theorem test_wit_PairRoles_3 :
    pairRolesAt6.pair.litAt.isSome = true ∧
    pairRolesAt6.paired = true ∧
    pairRolesAt6.role = 1 ∧
    0 ∈ pairRolesAt6.ringLanes ∧
    pairRolesAt6.scribe.resetDue = none := by decide +kernel

def relayAndComparisonAt1 : State := pairing (paired 2 0x240 8 0) { own := [(0, (false, [1, 2]))], beacon := some (tieBeacon 4), diff := some (0, 2) }
def relayAndComparisonAt2 : State := pairing (paired 2 0x200 8 0) { own := [(0, (false, [1, 2]))], beacon := some (tieBeacon 4), diff := some (0, 2) }
def relayAndComparisonAt3 : State := pairing (paired 2 0x240 8 0) { own := [(0, (true, [1, 2]))], beacon := some (tieBeacon 4) }
/-- States and operands that meet the hypotheses of RelayAndComparison. -/
theorem test_wit_RelayAndComparison :
    (running.paired = false ∨ running.role = 4 ∨ running.role = 0) ∧
    (running.paired && decide (running.role = 2) && running.plan.started && !running.restoring && running.hprRuns &&
              !running.pair.relayed.testBit 0 &&
            !running.pair.subst.testBit 0 &&
          running.regB R.HPR.PCFG 3 &&
        running.regB R.HPR.HSTA 6 &&
      Option.any (fun (b : TieBeacon) => b.role == 4) running.beaconNow &&
    !(running.ownFrame 0).snd.isEmpty) =
  false ∧
    (running.pair.diff = none ∨ running.pair.diffDone = true ∨ running.compared = false) ∧
    (running.paired = false ∨ running.role ≠ 4) ∧
    ((paired 2 0 0 0).rxLane 0 !(paired 2 0 0 0).ownDir).isSome = true ∧
    Option.any (fun (n : Nat) => decide ((paired 2 0 0 0).laneUp n = true))
    ((paired 2 0 0 0).rxLane 0 !(paired 2 0 0 0).ownDir) =
  true ∧
    (paired 2 0 0 0).paired = true ∧
    (paired 2 0 0 0).role ≠ 4 ∧
    (paired 2 0 0 0).role ≠ 0 ∧
    frameType (frameAt 1 0 true 6 (running.relayAt 0) []).bytes = 1 ∧
    (decide ((paired 2 0 0 0).role = 2) && (paired 2 0 0 0).plan.started && (paired 2 0 0 0).hprRuns) = true ∧
    Option.any
    (fun (n : Nat) =>
      decide
        ((decide
              (↑((paired 2 0 0 0).relayAt 0) - 12800 ≤
                sofStamp
                  { bytes := (frameAt 1 0 true 6 (running.relayAt 0) []).bytes,
                    intact := (frameAt 1 0 true 6 (running.relayAt 0) []).intact && !((paired 2 0 0 0).lane n).drop,
                    soft := (frameAt 1 0 true 6 (running.relayAt 0) []).soft,
                    sof := (frameAt 1 0 true 6 (running.relayAt 0) []).sof,
                    eof := (frameAt 1 0 true 6 (running.relayAt 0) []).eof,
                    phase := (frameAt 1 0 true 6 (running.relayAt 0) []).phase }) &&
            decide
              (sofStamp
                  { bytes := (frameAt 1 0 true 6 (running.relayAt 0) []).bytes,
                    intact := (frameAt 1 0 true 6 (running.relayAt 0) []).intact && !((paired 2 0 0 0).lane n).drop,
                    soft := (frameAt 1 0 true 6 (running.relayAt 0) []).soft,
                    sof := (frameAt 1 0 true 6 (running.relayAt 0) []).sof,
                    eof := (frameAt 1 0 true 6 (running.relayAt 0) []).eof,
                    phase := (frameAt 1 0 true 6 (running.relayAt 0) []).phase } ≤
                ↑((paired 2 0 0 0).relayAt 0) - 320)) =
          false))
    ((paired 2 0 0 0).rxLane 0 !(paired 2 0 0 0).ownDir) =
  true := by decide +kernel

/-- States and operands that meet the hypotheses of RelayAndComparison. -/
theorem test_wit_RelayAndComparison_2 :
    (Option.any
    (fun (n : Nat) =>
      decide
        ((decide ((paired 2 0 0 0).role = 2) && (paired 2 0 0 0).plan.started && (paired 2 0 0 0).hprRuns) = false ∨
          (decide
                (↑((paired 2 0 0 0).relayAt 0) - 12800 ≤
                  sofStamp
                    { bytes := (frameAt 1 0 true 6 (running.relayAt 0) []).bytes,
                      intact := (frameAt 1 0 true 6 (running.relayAt 0) []).intact && !((paired 2 0 0 0).lane n).drop,
                      soft := (frameAt 1 0 true 6 (running.relayAt 0) []).soft,
                      sof := (frameAt 1 0 true 6 (running.relayAt 0) []).sof,
                      eof := (frameAt 1 0 true 6 (running.relayAt 0) []).eof,
                      phase := (frameAt 1 0 true 6 (running.relayAt 0) []).phase }) &&
              decide
                (sofStamp
                    { bytes := (frameAt 1 0 true 6 (running.relayAt 0) []).bytes,
                      intact := (frameAt 1 0 true 6 (running.relayAt 0) []).intact && !((paired 2 0 0 0).lane n).drop,
                      soft := (frameAt 1 0 true 6 (running.relayAt 0) []).soft,
                      sof := (frameAt 1 0 true 6 (running.relayAt 0) []).sof,
                      eof := (frameAt 1 0 true 6 (running.relayAt 0) []).eof,
                      phase := (frameAt 1 0 true 6 (running.relayAt 0) []).phase } ≤
                  ↑((paired 2 0 0 0).relayAt 0) - 320)) =
            false))
    ((paired 2 0 0 0).rxLane 0 !(paired 2 0 0 0).ownDir) =
  true) ∧
    Option.any
    (fun (n : Nat) =>
      decide
        ((frameCheck 0 (!(paired 2 0 0 0).ownDir)
              { bytes := (frameAt 1 0 true 6 (running.relayAt 0) []).bytes,
                intact := (frameAt 1 0 true 6 (running.relayAt 0) []).intact && !((paired 2 0 0 0).lane n).drop,
                soft := (frameAt 1 0 true 6 (running.relayAt 0) []).soft,
                sof := (frameAt 1 0 true 6 (running.relayAt 0) []).sof,
                eof := (frameAt 1 0 true 6 (running.relayAt 0) []).eof,
                phase := (frameAt 1 0 true 6 (running.relayAt 0) []).phase }).isSome =
          true))
    ((paired 2 0 0 0).rxLane 0 !(paired 2 0 0 0).ownDir) =
  true ∧
    frameType (frameAt 2 0 true 6 9 [1]).bytes ≠ 1 ∧
    frameType (frameAt 1 0 true 6 1000105000 (List.replicate 128 7)).bytes = 1 := by decide +kernel

/-- States and operands that meet the hypotheses of RelayAndComparison. -/
theorem test_wit_RelayAndComparison_3 :
    Option.any
    (fun (n : Nat) =>
      decide
        ((decide
              (↑((paired 2 0 0 0).relayAt 0) - 12800 ≤
                sofStamp
                  { bytes := (frameAt 1 0 true 6 1000105000 (List.replicate 128 7)).bytes,
                    intact :=
                      (frameAt 1 0 true 6 1000105000 (List.replicate 128 7)).intact && !((paired 2 0 0 0).lane n).drop,
                    soft := (frameAt 1 0 true 6 1000105000 (List.replicate 128 7)).soft,
                    sof := (frameAt 1 0 true 6 1000105000 (List.replicate 128 7)).sof,
                    eof := (frameAt 1 0 true 6 1000105000 (List.replicate 128 7)).eof,
                    phase := (frameAt 1 0 true 6 1000105000 (List.replicate 128 7)).phase }) &&
            decide
              (sofStamp
                  { bytes := (frameAt 1 0 true 6 1000105000 (List.replicate 128 7)).bytes,
                    intact :=
                      (frameAt 1 0 true 6 1000105000 (List.replicate 128 7)).intact && !((paired 2 0 0 0).lane n).drop,
                    soft := (frameAt 1 0 true 6 1000105000 (List.replicate 128 7)).soft,
                    sof := (frameAt 1 0 true 6 1000105000 (List.replicate 128 7)).sof,
                    eof := (frameAt 1 0 true 6 1000105000 (List.replicate 128 7)).eof,
                    phase := (frameAt 1 0 true 6 1000105000 (List.replicate 128 7)).phase } ≤
                ↑((paired 2 0 0 0).relayAt 0) - 320)) =
          true))
    ((paired 2 0 0 0).rxLane 0 !(paired 2 0 0 0).ownDir) =
  true ∧
    ((paired 2 0 0 0).txLane 0 (paired 2 0 0 0).ownDir).isSome = true ∧
    Option.any (fun (m : Nat) => decide ((paired 2 0 0 0).laneUp m = true))
    ((paired 2 0 0 0).txLane 0 (paired 2 0 0 0).ownDir) =
  true ∧
    Option.any
    (fun (n : Nat) =>
      decide
        (frameCheck 0 (!(paired 2 0 0 0).ownDir)
            { bytes := (frameAt 1 0 true 6 1000105000 (List.replicate 128 7)).bytes,
              intact :=
                (frameAt 1 0 true 6 1000105000 (List.replicate 128 7)).intact && !((paired 2 0 0 0).lane n).drop,
              soft := (frameAt 1 0 true 6 1000105000 (List.replicate 128 7)).soft,
              sof := (frameAt 1 0 true 6 1000105000 (List.replicate 128 7)).sof,
              eof := (frameAt 1 0 true 6 1000105000 (List.replicate 128 7)).eof,
              phase := (frameAt 1 0 true 6 1000105000 (List.replicate 128 7)).phase } =
          none))
    ((paired 2 0 0 0).rxLane 0 !(paired 2 0 0 0).ownDir) =
  true ∧
    ((dark (paired 2 0 0 0)).rxLane 0 !(dark (paired 2 0 0 0)).ownDir).isSome = true ∧
    Option.any (fun (n : Nat) => decide ((dark (paired 2 0 0 0)).laneUp n = false))
    ((dark (paired 2 0 0 0)).rxLane 0 !(dark (paired 2 0 0 0)).ownDir) =
  true := by decide +kernel

/-- States and operands that meet the hypotheses of RelayAndComparison. -/
theorem test_wit_RelayAndComparison_4 :
    (relayAndComparisonAt1.paired && decide (relayAndComparisonAt1.role = 2) && relayAndComparisonAt1.plan.started &&
                  !relayAndComparisonAt1.restoring &&
                relayAndComparisonAt1.hprRuns &&
              !relayAndComparisonAt1.pair.relayed.testBit 0 &&
            !relayAndComparisonAt1.pair.subst.testBit 0 &&
          relayAndComparisonAt1.regB R.HPR.PCFG 3 &&
        relayAndComparisonAt1.regB R.HPR.HSTA 6 &&
      Option.any (fun (b : TieBeacon) => b.role == 4) relayAndComparisonAt1.beaconNow &&
    !(relayAndComparisonAt1.ownFrame 0).snd.isEmpty) =
  true ∧
    relayAndComparisonAt1.pair.diff.isSome = true ∧
    relayAndComparisonAt1.pair.diffDone = false ∧
    relayAndComparisonAt1.compared = true ∧
    relayAndComparisonAt1.regB R.HPR.HSTA 6 = true ∧
    relayAndComparisonAt2.pair.diff.isSome = true ∧
    relayAndComparisonAt2.pair.diffDone = false ∧
    relayAndComparisonAt2.compared = true ∧
    relayAndComparisonAt2.regB R.HPR.HSTA 6 = false ∧
    (relayAndComparisonAt3.rxLane 0 !relayAndComparisonAt3.ownDir).isSome = true ∧
    Option.any (fun (n : Nat) => decide (relayAndComparisonAt3.laneUp n = true))
    (relayAndComparisonAt3.rxLane 0 !relayAndComparisonAt3.ownDir) =
  true ∧
    relayAndComparisonAt3.paired = true ∧
    relayAndComparisonAt3.role ≠ 4 ∧
    relayAndComparisonAt3.role ≠ 0 ∧
    frameType resyncF.bytes = 1 ∧
    (decide (relayAndComparisonAt3.role = 2) && relayAndComparisonAt3.plan.started && relayAndComparisonAt3.hprRuns) = true ∧
    Option.any
    (fun (n : Nat) =>
      decide
        ((decide
              (↑(relayAndComparisonAt3.relayAt 0) - 12800 ≤
                sofStamp
                  { bytes := resyncF.bytes, intact := resyncF.intact && !(relayAndComparisonAt3.lane n).drop,
                    soft := resyncF.soft, sof := resyncF.sof, eof := resyncF.eof, phase := resyncF.phase }) &&
            decide
              (sofStamp
                  { bytes := resyncF.bytes, intact := resyncF.intact && !(relayAndComparisonAt3.lane n).drop,
                    soft := resyncF.soft, sof := resyncF.sof, eof := resyncF.eof, phase := resyncF.phase } ≤
                ↑(relayAndComparisonAt3.relayAt 0) - 320)) =
          true))
    (relayAndComparisonAt3.rxLane 0 !relayAndComparisonAt3.ownDir) =
  true ∧
    Option.any
    (fun (n : Nat) =>
      decide
        (wireOk
            { bytes := resyncF.bytes, intact := resyncF.intact && !(relayAndComparisonAt3.lane n).drop,
              soft := resyncF.soft, sof := resyncF.sof, eof := resyncF.eof, phase := resyncF.phase } =
          true))
    (relayAndComparisonAt3.rxLane 0 !relayAndComparisonAt3.ownDir) =
  true ∧
    Option.any relayAndComparisonAt3.laneUp (relayAndComparisonAt3.txLane 0 relayAndComparisonAt3.ownDir) = true ∧
    (byteAt resyncF.bytes 6).testBit 4 = true ∧
    (relayAndComparisonAt3.ownFrame 0).fst = true := by decide +kernel

/-- States and operands that meet the hypotheses of RelayAndComparison. -/
theorem test_wit_RelayAndComparison_5 :
    (relayAndComparisonAt3.paired && decide (relayAndComparisonAt3.role = 2) && relayAndComparisonAt3.plan.started &&
                  !relayAndComparisonAt3.restoring &&
                relayAndComparisonAt3.hprRuns &&
              !relayAndComparisonAt3.pair.relayed.testBit 0 &&
            !relayAndComparisonAt3.pair.subst.testBit 0 &&
          relayAndComparisonAt3.regB R.HPR.PCFG 3 &&
        relayAndComparisonAt3.regB R.HPR.HSTA 6 &&
      Option.any (fun (b : TieBeacon) => b.role == 4) relayAndComparisonAt3.beaconNow &&
    !(relayAndComparisonAt3.ownFrame 0).snd.isEmpty) =
  true ∧
    ((paired 4 0 0 0).rxLane 0 !(paired 4 0 0 0).ownDir).isSome = true ∧
    Option.any (fun (n : Nat) => decide ((paired 4 0 0 0).laneUp n = true))
    ((paired 4 0 0 0).rxLane 0 !(paired 4 0 0 0).ownDir) =
  true ∧
    (paired 4 0 0 0).paired = true ∧
    (paired 4 0 0 0).role = 4 ∧
    Option.any
    (fun (n : Nat) =>
      decide
        ((frameCheck 0 (!(paired 4 0 0 0).ownDir)
              { bytes := (frameAt 1 0 true 6 (running.relayAt 0) []).bytes,
                intact := (frameAt 1 0 true 6 (running.relayAt 0) []).intact && !((paired 4 0 0 0).lane n).drop,
                soft := (frameAt 1 0 true 6 (running.relayAt 0) []).soft,
                sof := (frameAt 1 0 true 6 (running.relayAt 0) []).sof,
                eof := (frameAt 1 0 true 6 (running.relayAt 0) []).eof,
                phase := (frameAt 1 0 true 6 (running.relayAt 0) []).phase }).isSome =
          true))
    ((paired 4 0 0 0).rxLane 0 !(paired 4 0 0 0).ownDir) =
  true ∧
    Option.any
    (fun (n : Nat) =>
      decide
        (frameCheck 0 (!(paired 4 0 0 0).ownDir)
            { bytes := (frameAt 2 0 true 6 9 [1]).bytes,
              intact := (frameAt 2 0 true 6 9 [1]).intact && !((paired 4 0 0 0).lane n).drop,
              soft := (frameAt 2 0 true 6 9 [1]).soft, sof := (frameAt 2 0 true 6 9 [1]).sof,
              eof := (frameAt 2 0 true 6 9 [1]).eof, phase := (frameAt 2 0 true 6 9 [1]).phase } =
          none))
    ((paired 4 0 0 0).rxLane 0 !(paired 4 0 0 0).ownDir) =
  true ∧
    ((paired 1 0 0 0).rxLane 0 !(paired 1 0 0 0).ownDir).isSome = true ∧
    Option.any (fun (n : Nat) => decide ((paired 1 0 0 0).laneUp n = true))
    ((paired 1 0 0 0).rxLane 0 !(paired 1 0 0 0).ownDir) =
  true ∧
    (paired 1 0 0 0).paired = true ∧
    (paired 1 0 0 0).role ≠ 4 ∧
    (paired 1 0 0 0).role ≠ 0 ∧
    (decide ((paired 1 0 0 0).role = 2) && (paired 1 0 0 0).plan.started && (paired 1 0 0 0).hprRuns) = false := by decide +kernel

def tieFramesAt1 : State := pairing (paired 2 0 0 0) { tieRange := some 999000000, rangeFwd := [(0, false, 5, [])] }
def tieFramesAt2 : State := pairing (paired 2 0 0 0) { missed := 3, beacon := some (tieBeacon 4) }
/-- States and operands that meet the hypotheses of TieFrames. -/
theorem test_wit_TieFrames :
    (running.paired = false ∨ running.laneUp running.tieLane = false) ∧
    (running.paired && running.plan.started && (decide (running.role = 2) || decide (running.role = 4)) &&
    !running.pair.slotsTx) =
  false ∧
    running.paired = false ∧
    (running.paired && decide (running.role = 4) && running.plan.started && running.plan.pastML && !running.pair.jigSent) =
  false ∧
    (running.paired && decide (running.role ≠ 4) && running.laneUp running.tieLane &&
    running.pair.tieMs.blt (running.tieFree 0 28 / 16000000 + 1)) =
  false ∧
    (running.paired = false ∨ running.pair.rangeFwd = []) ∧
    ((dark (paired 2 0 0 0)).paired && (dark (paired 2 0 0 0)).plan.started &&
      (decide ((dark (paired 2 0 0 0)).role = 2) || decide ((dark (paired 2 0 0 0)).role = 4)) &&
    !(dark (paired 2 0 0 0)).pair.slotsTx) =
  true ∧
    (dark (paired 2 0 0 0)).paired = true ∧
    (((if (dark (paired 2 0 0 0)).regB R.HPR.HSTA 7 = (dark (paired 2 0 0 0)).laneUp (dark (paired 2 0 0 0)).tieLane then
      (dark (paired 2 0 0 0)).pair.tieDown
    else !(dark (paired 2 0 0 0)).laneUp (dark (paired 2 0 0 0)).tieLane) ||
    !(dark (paired 2 0 0 0)).pair.tieLost && (dark (paired 2 0 0 0)).plan.started &&
        (dark (paired 2 0 0 0)).pair.beacon.isSome &&
      Nat.ble 3 (dark (paired 2 0 0 0)).pair.missed) =
  false) ∧
    (paired 2 0 0 0).paired = true ∧
    (paired 2 0 0 0).laneUp (paired 2 0 0 0).tieLane = true ∧
    (frameCheck (frameRing beaconF.bytes) (frameRev beaconF.bytes)
      { bytes := beaconF.bytes, intact := beaconF.intact && !((paired 2 0 0 0).lane (paired 2 0 0 0).tieLane).drop,
        soft := beaconF.soft, sof := beaconF.sof, eof := beaconF.eof, phase := beaconF.phase }).isNone =
  true ∧
    frameType beaconF.bytes = 3 ∧
    (framePayload beaconF.bytes).length = 16 ∧
    ((frameCheck (frameRing beaconF.bytes) (frameRev beaconF.bytes)
        { bytes := beaconF.bytes, intact := beaconF.intact && !((paired 2 0 0 0).lane (paired 2 0 0 0).tieLane).drop,
          soft := beaconF.soft, sof := beaconF.sof, eof := beaconF.eof, phase := beaconF.phase }).isNone =
    false ∨
  frameType beaconF.bytes ≠ 1 ∨ (framePayload beaconF.bytes).length ≠ 260 ∨ (paired 2 0 0 0).role = 4) ∧
    ((frameCheck (frameRing beaconF.bytes) (frameRev beaconF.bytes)
        { bytes := beaconF.bytes, intact := beaconF.intact && !((paired 2 0 0 0).lane (paired 2 0 0 0).tieLane).drop,
          soft := beaconF.soft, sof := beaconF.sof, eof := beaconF.eof, phase := beaconF.phase }).isNone =
    false ∨
  frameType beaconF.bytes ≠ 2 ∨
    (paired 2 0 0 0).plan.started = false ∨ framePidx beaconF.bytes ≠ (paired 2 0 0 0).regN R.TRG.PIDX) ∧
    ((frameCheck (frameRing beaconF.bytes) (frameRev beaconF.bytes)
        { bytes := beaconF.bytes, intact := beaconF.intact && !((paired 2 0 0 0).lane (paired 2 0 0 0).tieLane).drop,
          soft := beaconF.soft, sof := beaconF.sof, eof := beaconF.eof, phase := beaconF.phase }).isNone =
    false ∨
  frameType beaconF.bytes ≠ 4 ∨ (paired 2 0 0 0).role ≠ 4 ∨ (framePayload beaconF.bytes).length ≠ 16) := by decide +kernel

/-- States and operands that meet the hypotheses of TieFrames. -/
theorem test_wit_TieFrames_2 :
    ((frameCheck (frameRing beaconF.bytes) (frameRev beaconF.bytes)
        { bytes := beaconF.bytes, intact := beaconF.intact && !((paired 2 0 0 0).lane (paired 2 0 0 0).tieLane).drop,
          soft := beaconF.soft, sof := beaconF.sof, eof := beaconF.eof, phase := beaconF.phase }).isNone =
    false ∨
  frameType beaconF.bytes ≠ 4 ∨
    (paired 2 0 0 0).pair.tieRange = none ∨ (paired 2 0 0 0).role = 4 ∨ (framePayload beaconF.bytes).length ≠ 16) ∧
    ((frameCheck (frameRing beaconF.bytes) (frameRev beaconF.bytes)
        { bytes := beaconF.bytes, intact := beaconF.intact && !((paired 2 0 0 0).lane (paired 2 0 0 0).tieLane).drop,
          soft := beaconF.soft, sof := beaconF.sof, eof := beaconF.eof, phase := beaconF.phase }).isNone =
    false ∨
  frameType beaconF.bytes ≠ 5 ∨
    (framePayload beaconF.bytes).length ≠ 8 + 8 * (paired 2 0 0 0).ringCells (frameRing beaconF.bytes) ∨
      (paired 2 0 0 0).ringCells (frameRing beaconF.bytes) = 0) ∧
    (paired 2 0 0 0).regB R.HPR.HSTA 7 ≠ (paired 2 0 0 0).laneUp (paired 2 0 0 0).tieLane ∧
    frameType jigF.bytes = 1 ∧
    (framePayload jigF.bytes).length = 260 ∧
    (paired 2 0 0 0).role ≠ 4 ∧
    (frameCheck (frameRing slotsF.bytes) (frameRev slotsF.bytes)
      { bytes := slotsF.bytes, intact := slotsF.intact && !((paired 2 0 0 0).lane (paired 2 0 0 0).tieLane).drop,
        soft := slotsF.soft, sof := slotsF.sof, eof := slotsF.eof, phase := slotsF.phase }).isNone =
  true ∧
    frameType slotsF.bytes = 2 ∧
    (¬1000000000 ∈ (paired 2 0 0 0).ringAddrs ∨ (NMap.get { } (paired 2 0 0 0).cells 1000000000).copy ≠ none) ∧
    (frameCheck (frameRing rangeCopyF.bytes) (frameRev rangeCopyF.bytes)
      { bytes := rangeCopyF.bytes,
        intact := rangeCopyF.intact && !((paired 2 0 0 0).lane (paired 2 0 0 0).tieLane).drop, soft := rangeCopyF.soft,
        sof := rangeCopyF.sof, eof := rangeCopyF.eof, phase := rangeCopyF.phase }).isNone =
  true ∧
    frameType rangeCopyF.bytes = 5 ∧
    (framePayload rangeCopyF.bytes).length = 8 + 8 * (paired 2 0 0 0).ringCells (frameRing rangeCopyF.bytes) ∧
    (paired 2 0 0 0).ringCells (frameRing rangeCopyF.bytes) ≠ 0 ∧
    ((paired 2 0 0 0).paired && decide ((paired 2 0 0 0).role ≠ 4) && (paired 2 0 0 0).laneUp (paired 2 0 0 0).tieLane &&
    (paired 2 0 0 0).pair.tieMs.blt ((paired 2 0 0 0).tieFree 0 28 / 16000000 + 1)) =
  true ∧
    (paired 4 0 0 0).paired = true ∧
    (paired 4 0 0 0).laneUp (paired 4 0 0 0).tieLane = true ∧
    (frameCheck (frameRing tieRangeF.bytes) (frameRev tieRangeF.bytes)
      { bytes := tieRangeF.bytes, intact := tieRangeF.intact && !((paired 4 0 0 0).lane (paired 4 0 0 0).tieLane).drop,
        soft := tieRangeF.soft, sof := tieRangeF.sof, eof := tieRangeF.eof, phase := tieRangeF.phase }).isNone =
  true ∧
    frameType tieRangeF.bytes = 4 ∧
    (paired 4 0 0 0).role = 4 ∧
    (framePayload tieRangeF.bytes).length = 16 ∧
    tieFramesAt1.paired = true ∧
    tieFramesAt1.laneUp tieFramesAt1.tieLane = true := by decide +kernel

/-- States and operands that meet the hypotheses of TieFrames. -/
theorem test_wit_TieFrames_3 :
    (frameCheck (frameRing tieRangeF.bytes) (frameRev tieRangeF.bytes)
      { bytes := tieRangeF.bytes, intact := tieRangeF.intact && !(tieFramesAt1.lane tieFramesAt1.tieLane).drop,
        soft := tieRangeF.soft, sof := tieRangeF.sof, eof := tieRangeF.eof, phase := tieRangeF.phase }).isNone =
  true ∧
    tieFramesAt1.role ≠ 4 ∧
    tieFramesAt1.pair.tieRange = some (leAt (framePayload tieRangeF.bytes) 0 8) ∧
    tieFramesAt1.dstate ≠ 4 ∧
    tieFramesAt1.pair.rangeFwd.head?.isSome = true ∧
    ((afterML (paired 4 0 0 0)).paired && decide ((afterML (paired 4 0 0 0)).role = 4) &&
        (afterML (paired 4 0 0 0)).plan.started &&
      (afterML (paired 4 0 0 0)).plan.pastML &&
    !(afterML (paired 4 0 0 0)).pair.jigSent) =
  true ∧
    tieFramesAt2.paired = true ∧
    (((if tieFramesAt2.regB R.HPR.HSTA 7 = tieFramesAt2.laneUp tieFramesAt2.tieLane then tieFramesAt2.pair.tieDown
    else !tieFramesAt2.laneUp tieFramesAt2.tieLane) ||
    !tieFramesAt2.pair.tieLost && tieFramesAt2.plan.started && tieFramesAt2.pair.beacon.isSome &&
      Nat.ble 3 tieFramesAt2.pair.missed) =
  true) := by decide +kernel

/-- States and operands that meet the hypotheses of TripsAndBlanking. -/
theorem test_wit_TripsAndBlanking :
    0 < 12 ∧
    (1#12).toNat.testBit 0 = true ∧
    (tripping running 32 0 2 12299).regB R.TRP.TIN 0 = false ∧
    (tripping running 32 0 2 12299).regB (R.TRP.TCFG 0) 5 = true ∧
    0 < 14 ∧
    (tripping running 32 0 2 12299).regB (R.TRP.TMAP 0) 0 = true ∧
    ((tripping running 32 0 2 12299).filterChange
        (List.filter (fun (n : Nat) => (1#12).toNat.testBit n && !(tripping running 32 0 2 12299).regB R.TRP.TIN n)
          (List.range 12))).blanked
    0 =
  true ∧
    (tripping running 32 0 2 12299).regB R.LBR.TLATCH 0 = false ∧
    3 < 14 ∧
    (tripping running 32 0 2 12299).regB (R.TRP.TMAP 0) 3 = true ∧
    (3 < 12 →
  ((tripping running 32 0 2 12299).filterChange
          (List.filter (fun (n : Nat) => (1#12).toNat.testBit n && !(tripping running 32 0 2 12299).regB R.TRP.TIN n)
            (List.range 12))).blanked
      3 =
    false) ∧
    3 < 12 ∧
    12 < 14 ∧
    (tripping running 32 0 2 12299).regB (R.TRP.TMAP 0) 12 = true ∧
    (12 < 12 →
  ((tripping running 32 0 2 12299).filterChange
          (List.filter (fun (n : Nat) => (1#12).toNat.testBit n && !(tripping running 32 0 2 12299).regB R.TRP.TIN n)
            (List.range 12))).blanked
      12 =
    false) ∧
    12 ≤ 12 ∧
    1 < 12 ∧
    1 ≠ 0 ∧
    ((tripping running 32 0 2 12299).ll 0).blank.isSome = true ∧
    Option.any (fun (w : Nat × Nat) => decide (((tripping running 32 0 2 12299).reach w.snd).blanked 0 = false))
    ((tripping running 32 0 2 12299).ll 0).blank =
  true ∧
    ((tripping running 32 0 2 12299).legNext 0).isSome = true ∧
    ((tripping running 32 0 2 12299).ll 0).tripped = false ∧
    Option.any (fun (o : Nat) => decide (entryLevel ((tripping running 32 0 2 12299).ll 0).loaded o = some false))
    ((tripping running 32 0 2 12299).legNext 0) =
  true ∧
    Option.any
    (fun (o : Nat) =>
      decide (entryLevel ((tripping running 32 0 2 12299).ll 0).loaded o ≠ ((tripping running 32 0 2 12299).ll 0).side))
    ((tripping running 32 0 2 12299).legNext 0) =
  true := by decide +kernel

/-- States and operands that meet the hypotheses of TripsAndBlanking. -/
theorem test_wit_TripsAndBlanking_2 :
    ((tripping running 32 0 2 12299).ll 1).blank.isSome = true ∧
    Option.any (fun (w : Nat × Nat) => decide (((tripping running 32 0 2 12299).reach w.snd).blanked 1 = false))
    ((tripping running 32 0 2 12299).ll 1).blank =
  true ∧
    ((tripping running 32 0 2 12299).ll 1).mark &&& (tripping running 32 0 2 12299).regN R.TRP.TIN ≠ 0 ∧
    ((tripping running 32 0 2 12299).legNext 1).isSome = true ∧
    (tripping running 32 0 2 12299).regB R.LBR.TLATCH 1 = false ∧
    ((tripping running 32 0 2 12299).ll 1).tripped = false ∧
    Option.any (fun (o : Nat) => decide (entryLevel ((tripping running 32 0 2 12299).ll 1).loaded o = some true))
    ((tripping running 32 0 2 12299).legNext 1) =
  true ∧
    Option.any
    (fun (o : Nat) =>
      decide (entryLevel ((tripping running 32 0 2 12299).ll 1).loaded o ≠ ((tripping running 32 0 2 12299).ll 1).side))
    ((tripping running 32 0 2 12299).legNext 1) =
  true ∧
    ((tripping running 32 0 2 12299).ll 2).blank = none ∧
    ((tripping running 32 0 2 12299).legNext 3).isSome = true ∧
    (tripping running 32 0 2 12299).regB R.LBR.TLATCH 3 = false ∧
    ((tripping running 32 0 2 12299).ll 3).tripped = false ∧
    Option.any (fun (o : Nat) => decide (entryLevel ((tripping running 32 0 2 12299).ll 3).loaded o ≠ none))
    ((tripping running 32 0 2 12299).legNext 3) =
  true ∧
    ((tripping running 32 0 2 12299).ll 3).side ≠ none ∧
    Option.any
    (fun (o : Nat) =>
      decide (entryLevel ((tripping running 32 0 2 12299).ll 3).loaded o ≠ ((tripping running 32 0 2 12299).ll 3).side))
    ((tripping running 32 0 2 12299).legNext 3) =
  true ∧
    ((tripping running 32 0 2 12299).ll 3).blank = none ∧
    ((tripping running 32 0 2 12299).regN (R.LBR.LBLK 3)).min 64000 ≠ 0 ∧
    (tripping running 32 0 2 12299).writable 120 = true ∧
    (Word.bit (3#32) 0 = false ∨ (tripping running 32 0 2 12299).regB R.LBR.TLATCH 0 = false) ∧
    (tripping running 48 4096 1 12299).regB R.LBR.TLATCH 12 = true ∧
    0 < 2 ∧
    (tripping running 48 4096 1 12299).regB R.LBR.TLATCH (12 + 0) = true ∧
    ((tripping running 32 2 0 1).ll 1).blank.isSome = true ∧
    Option.any (fun (w : Nat × Nat) => decide (((tripping running 32 2 0 1).reach w.snd).blanked 1 = false))
    ((tripping running 32 2 0 1).ll 1).blank =
  true := by decide +kernel

/-- States and operands that meet the hypotheses of TripsAndBlanking. -/
theorem test_wit_TripsAndBlanking_3 :
    ((tripping running 32 2 0 1).ll 1).mark ≠ 0 ∧
    ((tripping running 32 2 0 1).ll 1).mark &&& (tripping running 32 2 0 1).regN R.TRP.TIN = 0 ∧
    (((tripping running 32 2 0 1).legNext 1).isNone || (tripping running 32 2 0 1).regB R.LBR.TLATCH 1 ||
    ((tripping running 32 2 0 1).ll 1).tripped) =
  true ∧
    (tripping running 32 2 0 1).writable 120 = true ∧
    1 < 14 ∧
    Word.bit (3#32) 1 = true ∧
    (tripping running 32 2 0 1).regB R.LBR.TLATCH 1 = true ∧
    (tripping running 32 2 0 1).mapping ((tripping running 32 2 0 1).regN R.TRP.TIN) 1 = 0 ∧
    (tripping running 48 4099 2 2).writable 120 = true ∧
    (tripping running 48 4099 2 2).regB R.LBR.TLATCH 1 = true ∧
    (tripping running 48 4099 2 2).mapping ((tripping running 48 4099 2 2).regN R.TRP.TIN) 1 ≠ 0 := by decide +kernel

def choppersAt1 : State := chopping 1 0 1 {}
def choppersAt2 : State := chopping 1 0 1 { x := [(100, 1000000000)] }
def choppersAt3 : State := chopping 0 0 1 { x := [(100, 1000000000)] }
def choppersAt4 : State := chopping 0x40001 0 1 { ceil := true, a := 100000000000, aAt := 1000000007 }
def choppersAt5 : State := chopping 1 0 1 { on := true, x := [(60, 1000000000)], nosrc := true }
/-- States and operands that meet the hypotheses of Choppers. -/
theorem test_wit_Choppers :
    (choppersAt1.chopper 0).x = [] ∧
    (((choppersAt1.chopSync 0).chopper 0).ceil = false ∨ ((choppersAt1.chopSync 0).chopper 0).on = true) ∧
    (choppersAt1.chopper 0).on = false ∧
    choppersAt1.regB (R.LBR.CHCFG 0) 0 = true ∧
    (choppersAt1.chopper 0).nosrc = false ∧
    (choppersAt2.chopper 0).x.head?.isSome = true ∧
    choppersAt2.regB (R.LBR.CHCFG 0) 0 = true ∧
    Option.any (fun (q : Int × Nat) => decide ((((choppersAt2.reach (q.snd + 128)).chopSync 0).chopper 0).on = false))
    (choppersAt2.chopper 0).x.head? =
  true ∧
    (choppersAt3.chopper 0).x.head?.isSome = true ∧
    choppersAt3.regB (R.LBR.CHCFG 0) 0 = false ∧
    (choppersAt3.regB (R.LBR.CHCFG 0) 0 = false ∨ (choppersAt3.chopper 0).nosrc = true) ∧
    ((choppersAt4.chopSync 0).chopper 0).ceil = true ∧
    ((choppersAt4.chopSync 0).chopper 0).on = false ∧
    choppersAt4.regF (R.LBR.CHCFG 0) 16 5 ≠ 0 ∧
    choppersAt4.dt64 ≤
  ((choppersAt4.chopSync 0).chopper 0).aAt +
    (2 * ((choppersAt4.chopSync 0).chopper 0).a - choppersAt4.chLim 0 + 2 * choppersAt4.regF (R.LBR.CHCFG 0) 16 5 - 1) /
        (2 * choppersAt4.regF (R.LBR.CHCFG 0) 16 5) *
      64 ∧
    ((choppersAt4.chopSync 0).chopper 0).aAt +
    (2 * ((choppersAt4.chopSync 0).chopper 0).a - choppersAt4.chLim 0 + 2 * choppersAt4.regF (R.LBR.CHCFG 0) 16 5 - 1) /
        (2 * choppersAt4.regF (R.LBR.CHCFG 0) 16 5) *
      64 <
  2 ^ 63 ∧
    (choppersAt5.chopper 0).x.head?.isSome = true ∧
    choppersAt5.regB (R.LBR.CHCFG 0) 0 = true ∧
    Option.any (fun (q : Int × Nat) => decide ((((choppersAt5.reach (q.snd + 128)).chopSync 0).chopper 0).on = true))
    (choppersAt5.chopper 0).x.head? =
  true ∧
    (choppersAt5.chopper 0).on = true := by decide +kernel

def convertersAt1 : State := converting 3 1 {}
def convertersAt2 : State := converting 0x50000203 1 { start := 1000000000, busy := true, slot := 0, refOk := true }
def convertersAt3 : State := converting 0x01000203 1 { start := 1000000000, busy := true, slot := 0 }
def convertersAt4 : State := converting 0x01000201 1 { start := 1000000000, busy := true, slot := 1 }
def convertersAt6 : State := converting 0x01000203 0 { start := 1000000000, busy := true, slot := 1 }
def convertersAt7 : State := converting 0x50000203 1 { busy := true, urg := true, resume := true, slot := 1 }
def convertersAt8 : State := converting 0x50000203 1 { busy := true, urg := true, held := true }
def convertersAt9 : State := converting 0x50000203 1 { busy := true, urg := true }
def convertersAt10 : State := converting 0x50000203 1 { wait := true }
def convertersAt11 : State := converting 0x50000203 1 { wait := true, req := some 1000000000, refAt := some 1000200000 }
def convertersAt12 : State := converting 0x50000201 0 { req := some 1000000900, busy := true }
def convertersAt13 : State := converting 0x50000200 1 {}
def convertersAt14 : State := regs (converting 0x50000203 1 {}) [(R.CNV.UCFG 0, 0)]
def convertersAt15 : State := converting 0x50000203 1 { start := 1000000000, busy := true, fired := some 1000000007 }
def convertersAt16 : State := converting 0x50000207 1 { start := 1000000000, busy := true }
/-- States and operands that meet the hypotheses of Converters. -/
theorem test_wit_Converters :
    ((convertersAt1.conv 0).busy = false ∨
  (convertersAt1.conv 0).urg = true ∨
    urgentFirst (convertersAt1.conv 0)
        ((convertersAt1.conv 0).start +
          (convertersAt1.regF (R.CNV.CVCFG 0) 2 3 + convertersAt1.regF (R.CNV.CVCFG 0) 16 8) *
              convertersAt1.regF (R.CNV.CVCFG 0) 5 11 *
            800) =
      true) ∧
    ((convertersAt1.conv 0).busy = false ∨ (convertersAt1.conv 0).urg = false) ∧
    (convertersAt1.regB (R.CNV.UCFG 0) 16 &&
    Option.any (fun (t : Nat) => !convertersAt1.passed t)
      (convertersAt1.firing (convertersAt1.regF (R.CNV.UCFG 0) 20 4))) =
  true ∧
    (convertersAt1.regB (R.CNV.CVCFG 0) 0 && convertersAt1.cnvOn) = true ∧
    ((convertersAt1.conv 0).req.isSome = true ∨ convertersAt1.firedNow (convertersAt1.conv 0) = false) ∧
    (convertersAt1.conv 0).req = none ∧
    (convertersAt1.conv 0).refAt = none ∧
    (convertersAt1.regB (R.CNV.CVCFG 0) 0 && convertersAt1.regB (R.CNV.CVCFG 0) 1 && convertersAt1.cnvOn &&
    decide (convertersAt1.firing (convertersAt1.regF (R.CNV.CVCFG 0) 28 4) = some 1000000007)) =
  false ∧
    convertersAt1.writable 128 = true ∧
    (1#4).toNat.testBit 0 = true ∧
    ((0#4).toNat.testBit 0 = false ∨ (convertersAt1.regB (R.CNV.CVCFG 0) 0 && convertersAt1.cnvOn) = false) ∧
    convertersAt1.regB (R.CNV.CVCFG 0) 0 = true ∧
    Word.bit (1#32) 0 = true ∧
    (convertersAt1.regF (R.CNV.CVREF 0) 0 2 = if Word.fld (1#32) 0 2 = 3 then 0 else Word.fld (1#32) 0 2) ∧
    Word.bit (0#32) 0 = false ∧
    (convertersAt1.regF (R.CNV.CVREF 0) 0 2 ≠ if Word.fld (0#32) 0 2 = 3 then 0 else Word.fld (0#32) 0 2) ∧
    (convertersAt2.conv 0).busy = true ∧
    (convertersAt2.conv 0).urg = false ∧
    urgentFirst (convertersAt2.conv 0)
    ((convertersAt2.conv 0).start +
      (convertersAt2.regF (R.CNV.CVCFG 0) 2 3 + convertersAt2.regF (R.CNV.CVCFG 0) 16 8) *
          convertersAt2.regF (R.CNV.CVCFG 0) 5 11 *
        800) =
  false ∧
    (convertersAt2.conv 0).slot < 8 ∧
    convertersAt2.cnvOn = true ∧
    convertersAt2.regF (R.CNV.CVCFG 0) 24 3 ≤ (convertersAt2.conv 0).slot ∧
    convertersAt2.regB (R.CNV.CVCFG 0) 1 = true ∧
    (convertersAt2.regB (R.CNV.CVCFG 0) 0 && convertersAt2.regB (R.CNV.CVCFG 0) 1 && convertersAt2.cnvOn &&
    decide (convertersAt2.firing (convertersAt2.regF (R.CNV.CVCFG 0) 28 4) = some 1000000007)) =
  true := by decide +kernel

/-- States and operands that meet the hypotheses of Converters. -/
theorem test_wit_Converters_2 :
    (convertersAt2.conv 0).wait = false ∧
    ((convertersAt2.conv 0).urg = false ∨ (convertersAt2.conv 0).resume = true) ∧
    (convertersAt3.conv 0).busy = true ∧
    (convertersAt3.conv 0).urg = false ∧
    urgentFirst (convertersAt3.conv 0)
    ((convertersAt3.conv 0).start +
      (convertersAt3.regF (R.CNV.CVCFG 0) 2 3 + convertersAt3.regF (R.CNV.CVCFG 0) 16 8) *
          convertersAt3.regF (R.CNV.CVCFG 0) 5 11 *
        800) =
  false ∧
    (convertersAt3.conv 0).slot < 8 ∧
    convertersAt3.cnvOn = true ∧
    (convertersAt3.conv 0).slot < convertersAt3.regF (R.CNV.CVCFG 0) 24 3 ∧
    (convertersAt4.conv 0).busy = true ∧
    (convertersAt4.conv 0).urg = false ∧
    urgentFirst (convertersAt4.conv 0)
    ((convertersAt4.conv 0).start +
      (convertersAt4.regF (R.CNV.CVCFG 0) 2 3 + convertersAt4.regF (R.CNV.CVCFG 0) 16 8) *
          convertersAt4.regF (R.CNV.CVCFG 0) 5 11 *
        800) =
  false ∧
    (convertersAt4.conv 0).slot < 8 ∧
    convertersAt4.cnvOn = true ∧
    convertersAt4.regF (R.CNV.CVCFG 0) 24 3 ≤ (convertersAt4.conv 0).slot ∧
    convertersAt4.regB (R.CNV.CVCFG 0) 1 = false ∧
    (convertersAt6.conv 0).busy = true ∧
    (convertersAt6.conv 0).urg = false ∧
    urgentFirst (convertersAt6.conv 0)
    ((convertersAt6.conv 0).start +
      (convertersAt6.regF (R.CNV.CVCFG 0) 2 3 + convertersAt6.regF (R.CNV.CVCFG 0) 16 8) *
          convertersAt6.regF (R.CNV.CVCFG 0) 5 11 *
        800) =
  false ∧
    (convertersAt6.conv 0).slot < 8 ∧
    convertersAt6.cnvOn = false ∧
    (convertersAt6.regB (R.CNV.UCFG 0) 16 &&
    Option.any (fun (t : Nat) => !convertersAt6.passed t)
      (convertersAt6.firing (convertersAt6.regF (R.CNV.UCFG 0) 20 4))) =
  true ∧
    (convertersAt6.regB (R.CNV.CVCFG 0) 0 && convertersAt6.cnvOn) = false ∧
    (convertersAt7.conv 0).busy = true ∧
    (convertersAt7.conv 0).urg = true := by decide +kernel

/-- States and operands that meet the hypotheses of Converters. -/
theorem test_wit_Converters_3 :
    convertersAt7.cnvOn = true ∧
    (convertersAt7.conv 0).resume = true ∧
    (convertersAt7.regB (R.CNV.UCFG 0) 16 &&
    Option.any (fun (t : Nat) => !convertersAt7.passed t)
      (convertersAt7.firing (convertersAt7.regF (R.CNV.UCFG 0) 20 4))) =
  true ∧
    (convertersAt7.regB (R.CNV.CVCFG 0) 0 && convertersAt7.cnvOn) = true ∧
    convertersAt7.writable 128 = true ∧
    (convertersAt8.conv 0).busy = true ∧
    (convertersAt8.conv 0).urg = true ∧
    convertersAt8.cnvOn = true ∧
    (convertersAt8.conv 0).resume = false ∧
    (convertersAt8.conv 0).held = true ∧
    (convertersAt8.regB (R.CNV.CVCFG 0) 0 && convertersAt8.regB (R.CNV.CVCFG 0) 1 && convertersAt8.cnvOn &&
    decide (convertersAt8.firing (convertersAt8.regF (R.CNV.CVCFG 0) 28 4) = some 1000000007)) =
  true ∧
    ((convertersAt8.conv 0).wait = true ∧ (convertersAt8.conv 0).req ≠ none ∨
  (convertersAt8.conv 0).wait = false ∧ (convertersAt8.conv 0).urg = true ∧ (convertersAt8.conv 0).resume = false) ∧
    (convertersAt9.conv 0).busy = true ∧
    (convertersAt9.conv 0).urg = true ∧
    convertersAt9.cnvOn = true ∧
    (convertersAt9.conv 0).resume = false ∧
    (convertersAt9.conv 0).held = false ∧
    (convertersAt10.regB (R.CNV.CVCFG 0) 0 && convertersAt10.regB (R.CNV.CVCFG 0) 1 && convertersAt10.cnvOn &&
    decide (convertersAt10.firing (convertersAt10.regF (R.CNV.CVCFG 0) 28 4) = some 1000000007)) =
  true ∧
    (convertersAt10.conv 0).wait = true ∧
    (convertersAt10.conv 0).req = none ∧
    (convertersAt11.conv 0).req.isSome = true ∧
    (Option.any (fun (r : Nat) => decide ((convertersAt11.conv 0).busy = false ∨ fmodEdge r ≤ (convertersAt11.conv 0).start))
    (convertersAt11.conv 0).req =
  true) ∧
    (convertersAt11.conv 0).refAt.isSome = true ∧
    (convertersAt12.conv 0).req.isSome = true := by decide +kernel

/-- States and operands that meet the hypotheses of Converters. -/
theorem test_wit_Converters_4 :
    (convertersAt12.conv 0).busy = true ∧
    Option.any (fun (r : Nat) => decide ((convertersAt12.conv 0).start < fmodEdge r)) (convertersAt12.conv 0).req = true ∧
    convertersAt13.writable 128 = true ∧
    convertersAt13.regB (R.CNV.CVCFG 0) 0 = false ∧
    convertersAt13.cnvOn = true ∧
    (convertersAt13.conv 0).busy = false ∧
    Word.bit (1#32) 1 = false ∧
    Word.bit (3#32) 0 = true ∧
    Word.bit (3#32) 1 = true ∧
    (convertersAt14.regB (R.CNV.UCFG 0) 16 = false ∨ convertersAt14.firing (convertersAt14.regF (R.CNV.UCFG 0) 20 4) = none) ∧
    convertersAt15.writable 128 = true ∧
    (convertersAt15.regB (R.CNV.CVCFG 0) 0 && convertersAt15.cnvOn) = true ∧
    (convertersAt15.conv 0).req = none ∧
    convertersAt15.firedNow (convertersAt15.conv 0) = true ∧
    (convertersAt15.regB (R.CNV.UCFG 0) 16 &&
    Option.any (fun (t : Nat) => !convertersAt15.passed t)
      (convertersAt15.firing (convertersAt15.regF (R.CNV.UCFG 0) 20 4))) =
  true ∧
    (convertersAt16.conv 0).busy = true ∧
    (convertersAt16.conv 0).urg = false ∧
    urgentFirst (convertersAt16.conv 0)
    ((convertersAt16.conv 0).start +
      (convertersAt16.regF (R.CNV.CVCFG 0) 2 3 + convertersAt16.regF (R.CNV.CVCFG 0) 16 8) *
          convertersAt16.regF (R.CNV.CVCFG 0) 5 11 *
        800) =
  false ∧
    (convertersAt16.conv 0).slot < 8 ∧
    clampInt (-8388608) 8388607
    (roundAway
      (8388608 *
        filterSum (convertersAt16.regF (R.CNV.CVCFG 0) 2 3) (convertersAt16.regF (R.CNV.CVCFG 0) 5 11)
          (convertersAt16.regF (R.CNV.CVCFG 0) 16 8 + 1) (convertersAt16.convBits 0 (List.replicate 64 true)))
      (convertersAt16.regF (R.CNV.CVCFG 0) 5 11 ^ convertersAt16.regF (R.CNV.CVCFG 0) 2 3 *
        (convertersAt16.regF (R.CNV.CVCFG 0) 16 8 + 1))) ≠
  roundAway
    (8388608 *
      filterSum (convertersAt16.regF (R.CNV.CVCFG 0) 2 3) (convertersAt16.regF (R.CNV.CVCFG 0) 5 11)
        (convertersAt16.regF (R.CNV.CVCFG 0) 16 8 + 1) (convertersAt16.convBits 0 (List.replicate 64 true)))
    (convertersAt16.regF (R.CNV.CVCFG 0) 5 11 ^ convertersAt16.regF (R.CNV.CVCFG 0) 2 3 *
      (convertersAt16.regF (R.CNV.CVCFG 0) 16 8 + 1)) := by decide +kernel

def modulatorInputsAt1 : State := modding 0x50001081 1 0 0x51 { base := some 999999000 }
def modulatorInputsAt2 : State := modding 0x50001081 1 0 0x51 {}
def modulatorInputsAt4 : State := modding 0x50001081 1 1 0 {}
def modulatorInputsAt6 : State := modding 0 1 0 0 {}
def modulatorInputsAt7 : State := modding 0x50001081 1 0 0 { wait := true }
def modulatorInputsAt8 : State := modding 0x50001081 1 0 0x51 { base := some 999985000 }
def modulatorInputsAt9 : State := modding 0x50001081 1 1 0x51 { wait := true }
def modulatorInputsAt10 : State := modding 0x50001081 1 1 0x51 {}
def modulatorInputsAt11 : State := modding 0x50001091 1 0 0x51 { base := some 999999000 }
/-- States and operands that meet the hypotheses of ModulatorInputs. -/
theorem test_wit_ModulatorInputs :
    (modulatorInputsAt1.modIn 0).base.isSome = true ∧
    (modulatorInputsAt1.regB (R.MOD.MDCFG 0) 0 && !modulatorInputsAt1.regB R.MOD.MDSTUCK 0 &&
    (modulatorInputsAt1.modEdge0 0).isSome) =
  true ∧
    modulatorInputsAt1.regB R.MOD.MDSTUCK 0 = false ∧
    (modulatorInputsAt1.regB (R.MOD.MDCFG 0) 0 && modulatorInputsAt1.regB (R.MOD.MDCFG 0) 7 &&
    decide (modulatorInputsAt1.firing (modulatorInputsAt1.regF (R.MOD.MDCFG 0) 28 4) = some 1000000007)) =
  true ∧
    (modulatorInputsAt1.modEdge 0 (modulatorInputsAt1.toLam 1000000007)).isSome = true ∧
    Option.any
    (fun (e : Nat) =>
      decide
        (Option.any
            (fun (b : Int) =>
              decide ((↑e - b) % ↑(modulatorInputsAt1.regF (R.MOD.MDCFG 0) 8 11 * modulatorInputsAt1.modT 0) ≠ 0))
            (modulatorInputsAt1.modIn 0).base =
          true))
    (modulatorInputsAt1.modEdge 0 (modulatorInputsAt1.toLam 1000000007)) =
  true ∧
    (modulatorInputsAt1.regB (R.MOD.MDCFG 0) 0 && modulatorInputsAt1.regB (R.MOD.MDCFG 0) 7 &&
    decide (modulatorInputsAt1.firing (modulatorInputsAt1.regF (R.MOD.MDCFG 0) 28 4) = some 5)) =
  false ∧
    modulatorInputsAt1.writable 129 = true ∧
    modulatorInputsAt1.regB (R.MOD.MDCFG 0) 0 = true ∧
    Word.bit (1#32) 0 = true ∧
    modulatorInputsAt1.regB (R.MOD.MCLKCFG 0) 0 = true ∧
    modulatorInputsAt1.mclkAt 0 ≠ none ∧
    modulatorInputsAt1.mclkWanted 0 = true ∧
    1 < 4 ∧
    1 ≠ 0 ∧
    Word.bit (0#32) 0 = false ∧
    (modulatorInputsAt1.mclkAt 0).isSome = true ∧
    0 < 16 ∧
    modulatorInputsAt1.regF (R.MOD.MDCFG 0) 2 2 = 0 ∧
    ((modulatorInputsAt2.regB (R.MOD.MDCFG 0) 0 && !modulatorInputsAt2.regB R.MOD.MDSTUCK 0 &&
      (modulatorInputsAt2.modEdge0 0).isSome) =
    false ∨
  (modulatorInputsAt2.modIn 0).base = none) ∧
    (modulatorInputsAt2.regB (R.MOD.MDCFG 0) 0 && modulatorInputsAt2.regB (R.MOD.MDCFG 0) 7 &&
    decide (modulatorInputsAt2.firing (modulatorInputsAt2.regF (R.MOD.MDCFG 0) 28 4) = some 1000000007)) =
  true ∧
    modulatorInputsAt2.regB R.MOD.MDSTUCK 0 = false ∧
    (modulatorInputsAt2.modEdge 0 (modulatorInputsAt2.toLam 1000000007)).isSome = true ∧
    (modulatorInputsAt2.modIn 0).base = none := by decide +kernel

/-- States and operands that meet the hypotheses of ModulatorInputs. -/
theorem test_wit_ModulatorInputs_2 :
    (modulatorInputsAt4.regB (R.MOD.MDCFG 0) 0 && modulatorInputsAt4.regB (R.MOD.MDCFG 0) 7 &&
    decide (modulatorInputsAt4.firing (modulatorInputsAt4.regF (R.MOD.MDCFG 0) 28 4) = some 1000000007)) =
  true ∧
    modulatorInputsAt4.modEdge 0 (modulatorInputsAt4.toLam 1000000007) = none ∧
    (modulatorInputsAt4.modIn 0).wait = false ∧
    (modulatorInputsAt4.regB (R.MOD.MDCFG 0) 0 && !modulatorInputsAt4.regB R.MOD.MDSTUCK 0 &&
    (modulatorInputsAt4.modEdge0 0).isSome) =
  false ∧
    modulatorInputsAt4.regB R.MOD.MDSTUCK 0 = true ∧
    modulatorInputsAt6.writable 129 = true ∧
    modulatorInputsAt6.regB (R.MOD.MDCFG 0) 0 = false ∧
    Word.bit (1#32) 7 = false ∧
    Word.bit (129#32) 0 = true ∧
    Word.bit (129#32) 7 = true ∧
    (modulatorInputsAt7.regB (R.MOD.MDCFG 0) 0 && modulatorInputsAt7.regB (R.MOD.MDCFG 0) 7 &&
    decide (modulatorInputsAt7.firing (modulatorInputsAt7.regF (R.MOD.MDCFG 0) 28 4) = some 1000000007)) =
  true ∧
    modulatorInputsAt7.modEdge 0 (modulatorInputsAt7.toLam 1000000007) = none ∧
    (modulatorInputsAt7.modIn 0).wait = true ∧
    (modulatorInputsAt8.regB (R.MOD.MDCFG 0) 0 && modulatorInputsAt8.regB (R.MOD.MDCFG 0) 7 &&
    decide (modulatorInputsAt8.firing (modulatorInputsAt8.regF (R.MOD.MDCFG 0) 28 4) = some 1000000007)) =
  true ∧
    modulatorInputsAt8.regB R.MOD.MDSTUCK 0 = false ∧
    (modulatorInputsAt8.modEdge 0 (modulatorInputsAt8.toLam 1000000007)).isSome = true ∧
    (modulatorInputsAt8.modIn 0).base.isSome = true ∧
    Option.any
    (fun (e : Nat) =>
      decide
        (Option.any
            (fun (b : Int) =>
              decide ((↑e - b) % ↑(modulatorInputsAt8.regF (R.MOD.MDCFG 0) 8 11 * modulatorInputsAt8.modT 0) = 0))
            (modulatorInputsAt8.modIn 0).base =
          true))
    (modulatorInputsAt8.modEdge 0 (modulatorInputsAt8.toLam 1000000007)) =
  true ∧
    (modulatorInputsAt9.regB (R.MOD.MDCFG 0) 0 && modulatorInputsAt9.regB (R.MOD.MDCFG 0) 7 &&
    decide (modulatorInputsAt9.firing (modulatorInputsAt9.regF (R.MOD.MDCFG 0) 28 4) = some 1000000007)) =
  true ∧
    modulatorInputsAt9.regB R.MOD.MDSTUCK 0 = true ∧
    (modulatorInputsAt9.modEdge 0 (modulatorInputsAt9.toLam 1000000007)).isSome = true ∧
    (modulatorInputsAt9.modIn 0).wait = true ∧
    modulatorInputsAt10.regB R.MOD.MDSTUCK 0 = true ∧
    (modulatorInputsAt10.modIn 0).wait = false := by decide +kernel

/-- States and operands that meet the hypotheses of ModulatorInputs. -/
theorem test_wit_ModulatorInputs_3 :
    (modulatorInputsAt10.modEdge 0 modulatorInputsAt10.lam).isSome = true ∧
    (modulatorInputsAt11.modIn 0).base.isSome = true ∧
    (modulatorInputsAt11.regB (R.MOD.MDCFG 0) 0 && !modulatorInputsAt11.regB R.MOD.MDSTUCK 0 &&
    (modulatorInputsAt11.modEdge0 0).isSome) =
  true ∧
    clampInt (-8388608) 8388607
    (roundAway
      (8388608 *
        filterSum (modulatorInputsAt11.regF (R.MOD.MDCFG 0) 4 3) (modulatorInputsAt11.regF (R.MOD.MDCFG 0) 8 11)
          (modulatorInputsAt11.regF (R.MOD.MDCFG 0) 19 8 + 1) (modulatorInputsAt11.modBits 0 (List.replicate 64 true)))
      (modulatorInputsAt11.regF (R.MOD.MDCFG 0) 8 11 ^ modulatorInputsAt11.regF (R.MOD.MDCFG 0) 4 3 *
        (modulatorInputsAt11.regF (R.MOD.MDCFG 0) 19 8 + 1))) ≠
  roundAway
    (8388608 *
      filterSum (modulatorInputsAt11.regF (R.MOD.MDCFG 0) 4 3) (modulatorInputsAt11.regF (R.MOD.MDCFG 0) 8 11)
        (modulatorInputsAt11.regF (R.MOD.MDCFG 0) 19 8 + 1) (modulatorInputsAt11.modBits 0 (List.replicate 64 true)))
    (modulatorInputsAt11.regF (R.MOD.MDCFG 0) 8 11 ^ modulatorInputsAt11.regF (R.MOD.MDCFG 0) 4 3 *
      (modulatorInputsAt11.regF (R.MOD.MDCFG 0) 19 8 + 1)) ∧
    modulatorInputsAt4.writable 129 = true ∧
    modulatorInputsAt4.regB (R.MOD.MCLKCFG 0) 0 = false ∧
    modulatorInputsAt4.enabled 129 = true ∧
    modulatorInputsAt4.regB (R.PCTL 129) 2 = false ∧
    modulatorInputsAt4.mclkAt 0 = none := by decide +kernel

def safetyCyclesAt1 : State := { safe running 1 {} with dt64 := 15999999995 }
def safetyCyclesAt4 : State := channelsAt (safe running 1 (cycled 125 125 125)) 3 16
def safetyCyclesAt5 : State := channelsAt (safe running 1 (cycled 126 125 125)) 2 16
def safetyCyclesAt6 : State := channelsAt (safe running 1 (cycled 126 125 125)) 3 16
def safetyCyclesAt8 : State := safe running 1 { cycled 126 126 125 with equalA := true, equalB := true, divA := true, divB := true }
def safetyCyclesAt10 : State := safe running 1 { cycled 126 126 125 with lastTick := some 1000000000 }
/-- States and operands that meet the hypotheses of SafetyCycles. -/
theorem test_wit_SafetyCycles :
    running.sftRuns = false ∧
    (running.sft.compared = 0 ∨ running.sft.compared ≤ running.sft.applied) ∧
    running.sft.image ≠ running.nextCycle running.sft.tick + 1 ∧
    (running.sft.tick = 0 ∨ running.sft.tick ≤ running.sft.compared) ∧
    (running.enabled 144 = false ∨ running.sft.lastTick = none) ∧
    safetyCyclesAt1.sftRuns = true ∧
    0 < 160 ∧
    (safetyCyclesAt1.conn 0).waiting = [] ∧
    0 < 16388 ∧
    16388 ≤ 20000 ∧
    (safetyCyclesAt1.sftRuns = true ∨ safetyCyclesAt1.sft.image = safetyCyclesAt1.nextCycle safetyCyclesAt1.sft.tick + 1) ∧
    0 < 8 ∧
    (safetyCyclesAt1.testWord 0).bit 3 = true ∧
    2000 * (safetyCyclesAt1.testWord 0).fld 16 16 ≠ 0 ∧
    (safetyCyclesAt1.nextCycle safetyCyclesAt1.sft.tick + 2000 * (safetyCyclesAt1.testWord 0).fld 16 16 * 250 - 250 * 0) %
    (2000 * (safetyCyclesAt1.testWord 0).fld 16 16) =
  0 ∧
    0 < sending.sft.compared ∧
    sending.sft.applied < sending.sft.compared ∧
    (sending.sft.equalA || sending.sft.equalB) = true ∧
    (sending.sft.equalA && !sending.sft.divA && !sending.sft.tickA && sending.enabled 144 ||
    sending.sft.equalB && !sending.sft.divB && !sending.sft.tickB && sending.enabled 144) =
  true ∧
    (sending.sft.equalA && !sending.sft.divA && !sending.sft.tickA && sending.enabled 144) = true ∧
    (sending.sft.equalB && !sending.sft.divB && !sending.sft.tickB && sending.enabled 144) = true ∧
    sending.sioRole = true ∧
    sending.connTrans 0 = 2 ∧
    (pduOf sending.recA sending.recB 0).isSome = true := by decide +kernel

/-- States and operands that meet the hypotheses of SafetyCycles. -/
theorem test_wit_SafetyCycles_2 :
    (safetyCyclesAt4.sftRuns = true ∨ safetyCyclesAt4.sft.image = safetyCyclesAt4.nextCycle safetyCyclesAt4.sft.tick + 1) ∧
    (safetyCyclesAt4.engState 8 = 1 ∨ safetyCyclesAt4.engState 8 = 3) ∧
    safetyCyclesAt4.engCh 8 = 16 ∧
    safetyCyclesAt4.regB (R.PCTL (engPage 8)) 2 = false ∧
    0 < safetyCyclesAt5.sft.tick ∧
    safetyCyclesAt5.sft.compared < safetyCyclesAt5.sft.tick ∧
    safetyCyclesAt5.overran 8 = true ∧
    0 < safetyCyclesAt6.sft.tick ∧
    safetyCyclesAt6.sft.compared < safetyCyclesAt6.sft.tick ∧
    safetyCyclesAt6.shipped.safety = false ∧
    safetyCyclesAt6.overran 8 = false ∧
    safetyCyclesAt6.overran 9 = false ∧
    0 < (safe running 1 (cycled 126 126 125)).sft.compared ∧
    (safe running 1 (cycled 126 126 125)).sft.applied < (safe running 1 (cycled 126 126 125)).sft.compared ∧
    ((safe running 1 (cycled 126 126 125)).sft.equalA || (safe running 1 (cycled 126 126 125)).sft.equalB) = false ∧
    0 < safetyCyclesAt8.sft.compared ∧
    safetyCyclesAt8.sft.applied < safetyCyclesAt8.sft.compared ∧
    (safetyCyclesAt8.sft.equalA || safetyCyclesAt8.sft.equalB) = true ∧
    (safetyCyclesAt8.sft.equalA && !safetyCyclesAt8.sft.divA && !safetyCyclesAt8.sft.tickA && safetyCyclesAt8.enabled 144 ||
    safetyCyclesAt8.sft.equalB && !safetyCyclesAt8.sft.divB && !safetyCyclesAt8.sft.tickB &&
      safetyCyclesAt8.enabled 144) =
  false ∧
    (safetyCyclesAt8.sft.equalA && !safetyCyclesAt8.sft.divA && !safetyCyclesAt8.sft.tickA && safetyCyclesAt8.enabled 144 &&
      (safetyCyclesAt8.sft.equalB && !safetyCyclesAt8.sft.divB && !safetyCyclesAt8.sft.tickB &&
        safetyCyclesAt8.enabled 144) &&
    safetyCyclesAt8.sioRole) =
  false ∧
    safetyCyclesAt10.enabled 144 = true ∧
    safetyCyclesAt10.sft.lastTick.isSome = true := by decide +kernel

def safetyInputsAndTestsAt1 : State := safe up 1 {}
def safetyInputsAndTestsAt2 : State := safe up 0 {}
def safetyInputsAndTestsAt3 : State := safe running 1 { cycled 126 125 125 with tests := [(0, some { due := 5 })], divA := true }
def safetyInputsAndTestsAt4 : State := safe running 1 { cycled 126 125 125 with tests := [(0, some { due := 5, raised := true })] }
def safetyInputsAndTestsAt5 : State := safe running 1 { cycled 126 125 125 with test := some (0, 1000000000) }
def safetyInputsAndTestsAt7 : State := safe running 1 { cycled 126 125 125 with test := some (0, 1000000000), testLost := true }
def safetyInputsAndTestsAt10 : State := regs (safe up 1 {}) [(R.SIO.SLATCH, 3)]
/-- States and operands that meet the hypotheses of SafetyInputsAndTests. -/
theorem test_wit_SafetyInputsAndTests :
    running.ethUp 0 = false ∧
    ((running.enabled 144 && decide (running.sft.tick ≠ 0) && running.sft.test.isNone &&
      decide (running.dt64 ≤ (running.sft.tick - 1) * 8000000 + 480000)) =
    false ∨
  running.testReady = none) ∧
    Option.all (fun (x : TestWait) => x.raised) (NMap.get none running.sft.tests 0) = true ∧
    running.writable 144 = true ∧
    running.plan.run = true ∧
    running.pageUp 144 = true ∧
    (running.rxLane 0 true).isSome = true ∧
    Option.any (fun (n : Nat) => decide (running.laneUp n = true)) (running.rxLane 0 true) = true ∧
    Option.any
    (fun (n : Nat) =>
      decide
        ((frameCheck 0 true
              { bytes := (safeF false (safePdu 119 4 0 4)).bytes,
                intact := (safeF false (safePdu 119 4 0 4)).intact && !(running.lane n).drop,
                soft := (safeF false (safePdu 119 4 0 4)).soft, sof := (safeF false (safePdu 119 4 0 4)).sof,
                eof := (safeF false (safePdu 119 4 0 4)).eof,
                phase := (safeF false (safePdu 119 4 0 4)).phase }).isSome =
          true))
    (running.rxLane 0 true) =
  true ∧
    (running.rxLane 0 false).isSome = true ∧
    Option.any (fun (n : Nat) => decide (running.laneUp n = true)) (running.rxLane 0 false) = true ∧
    Option.any
    (fun (n : Nat) =>
      decide
        (frameCheck 0 false
            { bytes := (safeF false (safePdu 119 4 0 4)).bytes,
              intact := (safeF false (safePdu 119 4 0 4)).intact && !(running.lane n).drop,
              soft := (safeF false (safePdu 119 4 0 4)).soft, sof := (safeF false (safePdu 119 4 0 4)).sof,
              eof := (safeF false (safePdu 119 4 0 4)).eof, phase := (safeF false (safePdu 119 4 0 4)).phase } =
          none))
    (running.rxLane 0 false) =
  true ∧
    frameType (safeF false (safePdu 119 4 0 4)).bytes = 7 ∧
    (running.paired = false ∨ running.role ≠ 2 ∨ frameRelay (safeF false (safePdu 119 4 0 4)).bytes = true) ∧
    Option.any
    (fun (n : Nat) =>
      decide
        (frameCheck 0 false
            { bytes := slotsF.bytes, intact := slotsF.intact && !(running.lane n).drop, soft := slotsF.soft,
              sof := slotsF.sof, eof := slotsF.eof, phase := slotsF.phase } =
          none))
    (running.rxLane 0 false) =
  true ∧
    frameType slotsF.bytes ≠ 7 ∧
    running.sft.test = none ∧
    (!Option.any (fun (q : Nat × Nat) => (running.testWord q.fst).fld 0 2 == 0) running.sft.test &&
        (1#4).toNat.testBit 0 != running.energised 0 &&
      !running.regB R.SIO.SLATCH 0 &&
    (16000000 * running.regF R.SIO.RBTIM 0 16).blt 0) =
  false ∧
    (160 ≤ (0#8).toNat ∨ (running.conn (0#8).toNat).state % 4 ≠ 2) ∧
    running.writable 145 = true ∧
    0 < 4 ∧
    safetyInputsAndTestsAt1.ethUp 0 = true ∧
    safetyInputsAndTestsAt1.enabled 144 = true ∧
    (safetyInputsAndTestsAt1.connOf (safePdu 119 3 0 4)).isSome = true := by decide +kernel

/-- States and operands that meet the hypotheses of SafetyInputsAndTests. -/
theorem test_wit_SafetyInputsAndTests_2 :
    scvOk (safePdu 119 3 0 4) = true ∧
    Option.any
    (fun (j : Nat) =>
      decide
        (List.find? (fun (q : PduIn) => q.seq == leAt (safePdu 119 3 0 4) 4 2)
            (safetyInputsAndTestsAt1.conn j).waiting =
          none))
    (safetyInputsAndTestsAt1.connOf (safePdu 119 3 0 4)) =
  true ∧
    Option.any (fun (j : Nat) => decide ¬leAt (safePdu 119 3 0 4) 4 2 ∈ (safetyInputsAndTestsAt1.conn j).late)
    (safetyInputsAndTestsAt1.connOf (safePdu 119 3 0 4)) =
  true ∧
    safetyInputsAndTestsAt1.writable 144 = true ∧
    safetyInputsAndTestsAt1.plan.run = false ∧
    (safetyInputsAndTestsAt1.connOf (safePdu 119 4 1 4)).isSome = true ∧
    scvOk (safePdu 119 4 1 4) = false ∧
    safetyInputsAndTestsAt1.connOf (safePdu 120 3 0 4) = none ∧
    (!Option.any (fun (q : Nat × Nat) => (safetyInputsAndTestsAt1.testWord q.fst).fld 0 2 == 0)
            safetyInputsAndTestsAt1.sft.test &&
        (1#4).toNat.testBit 0 != safetyInputsAndTestsAt1.energised 0 &&
      !safetyInputsAndTestsAt1.regB R.SIO.SLATCH 0 &&
    (16000000 * safetyInputsAndTestsAt1.regF R.SIO.RBTIM 0 16).blt 160000000) =
  true ∧
    safetyInputsAndTestsAt2.ethUp 0 = true ∧
    safetyInputsAndTestsAt2.enabled 144 = false ∧
    (safe running 1 waitOne).ethUp 0 = true ∧
    (safe running 1 waitOne).enabled 144 = true ∧
    ((safe running 1 waitOne).connOf (safePdu 119 3 0 4)).isSome = true ∧
    Option.any
    (fun (j : Nat) =>
      decide
        ((List.find? (fun (q : PduIn) => q.seq == leAt (safePdu 119 3 0 4) 4 2)
              ((safe running 1 waitOne).conn j).waiting).isSome =
          true))
    ((safe running 1 waitOne).connOf (safePdu 119 3 0 4)) =
  true ∧
    Option.any
    (fun (j : Nat) =>
      decide
        (Option.any (fun (q : PduIn) => decide (q.second = none))
            (List.find? (fun (q : PduIn) => q.seq == leAt (safePdu 119 3 0 4) 4 2)
              ((safe running 1 waitOne).conn j).waiting) =
          true))
    ((safe running 1 waitOne).connOf (safePdu 119 3 0 4)) =
  true ∧
    ((safe running 1 waitOne).rxLane 0 false).isSome = true ∧
    Option.any (fun (n : Nat) => decide ((safe running 1 waitOne).laneUp n = true))
    ((safe running 1 waitOne).rxLane 0 false) =
  true ∧
    Option.any
    (fun (n : Nat) =>
      decide
        (frameCheck 0 false
            { bytes := (safeF false (safePdu 119 4 0 4)).bytes,
              intact := (safeF false (safePdu 119 4 0 4)).intact && !((safe running 1 waitOne).lane n).drop,
              soft := (safeF false (safePdu 119 4 0 4)).soft, sof := (safeF false (safePdu 119 4 0 4)).sof,
              eof := (safeF false (safePdu 119 4 0 4)).eof, phase := (safeF false (safePdu 119 4 0 4)).phase } =
          none))
    ((safe running 1 waitOne).rxLane 0 false) =
  true ∧
    ((safe running 1 waitOne).connOf (framePayload (safeF false (safePdu 119 4 0 4)).bytes)).isSome = true := by decide +kernel

/-- States and operands that meet the hypotheses of SafetyInputsAndTests. -/
theorem test_wit_SafetyInputsAndTests_3 :
    (Option.any
    (fun (j : Nat) =>
      decide
        (∀ (q : PduIn),
          q ∈ ((safe running 1 waitOne).conn j).waiting →
            q.seq ≠ leAt (framePayload (safeF false (safePdu 119 4 0 4)).bytes) 4 2))
    ((safe running 1 waitOne).connOf (framePayload (safeF false (safePdu 119 4 0 4)).bytes)) =
  true) ∧
    Option.any
    (fun (j : Nat) =>
      decide ¬leAt (framePayload (safeF false (safePdu 119 4 0 4)).bytes) 4 2 ∈ ((safe running 1 waitOne).conn j).late)
    ((safe running 1 waitOne).connOf (framePayload (safeF false (safePdu 119 4 0 4)).bytes)) =
  true ∧
    (safe running 1 waitOne).writable 144 = true ∧
    (0#8).toNat < 160 ∧
    ((safe running 1 waitOne).conn (0#8).toNat).state % 4 = 2 ∧
    1 < 160 ∧
    1 ≠ (0#8).toNat ∧
    (safe running 1 waitTwo).ethUp 0 = true ∧
    (safe running 1 waitTwo).enabled 144 = true ∧
    ((safe running 1 waitTwo).connOf (safePdu 119 3 0 4)).isSome = true ∧
    (Option.any
    (fun (j : Nat) =>
      decide
        (Option.any (fun (x : PduIn) => x.second.isSome)
              (List.find? (fun (q : PduIn) => q.seq == leAt (safePdu 119 3 0 4) 4 2)
                ((safe running 1 waitTwo).conn j).waiting) =
            true ∨
          List.find? (fun (q : PduIn) => q.seq == leAt (safePdu 119 3 0 4) 4 2)
                ((safe running 1 waitTwo).conn j).waiting =
              none ∧
            leAt (safePdu 119 3 0 4) 4 2 ∈ ((safe running 1 waitTwo).conn j).late))
    ((safe running 1 waitTwo).connOf (safePdu 119 3 0 4)) =
  true) ∧
    (NMap.get none safetyInputsAndTestsAt3.sft.tests 0).isSome = true ∧
    Option.any (fun (w : TestWait) => decide (w.raised = false)) (NMap.get none safetyInputsAndTestsAt3.sft.tests 0) = true ∧
    (safetyInputsAndTestsAt4.enabled 144 && decide (safetyInputsAndTestsAt4.sft.tick ≠ 0) &&
      safetyInputsAndTestsAt4.sft.test.isNone &&
    decide (safetyInputsAndTestsAt4.dt64 ≤ (safetyInputsAndTestsAt4.sft.tick - 1) * 8000000 + 480000)) =
  true ∧
    safetyInputsAndTestsAt4.testReady.isSome = true ∧
    safetyInputsAndTestsAt5.sft.test.isSome = true ∧
    Option.any (fun (q : Nat × Nat) => decide (q.fst < 8)) safetyInputsAndTestsAt5.sft.test = true ∧
    safetyInputsAndTestsAt5.sft.testLost = false ∧
    (true && Option.any (fun (d : Nat) => d.ble (16000 * safetyInputsAndTestsAt5.regF R.SIO.RBTIM 16 16)) none) = false ∧
    (true && Option.any (fun (d : Nat) => d.ble (16000 * safetyInputsAndTestsAt5.regF R.SIO.RBTIM 16 16)) (some 5)) = true ∧
    safetyInputsAndTestsAt7.sft.test.isSome = true ∧
    Option.any (fun (q : Nat × Nat) => decide (q.fst < 8)) safetyInputsAndTestsAt7.sft.test = true ∧
    safetyInputsAndTestsAt7.sft.testLost = true ∧
    ((dark (safe running 1 waitOne)).rxLane 0 true).isSome = true := by decide +kernel

/-- States and operands that meet the hypotheses of SafetyInputsAndTests. -/
theorem test_wit_SafetyInputsAndTests_4 :
    Option.any (fun (n : Nat) => decide ((dark (safe running 1 waitOne)).laneUp n = false))
    ((dark (safe running 1 waitOne)).rxLane 0 true) =
  true ∧
    safetyInputsAndTestsAt10.writable 145 = true ∧
    Word.bit (1#32) 0 = true ∧
    safetyInputsAndTestsAt10.regB R.SIO.SLATCH 0 = true ∧
    (1#4).toNat.testBit 0 = true := by decide +kernel

def faultsRecordedAt1 : State := faulty [raiseOf Src.CLK_MISSING 5] 2 [(0, recOf Src.CLK_MISSING 2 false false)]
def faultsRecordedAt2 : State := faulty [raiseOf Src.CLK_MISSING 5] 2 [(0, recOf Src.CLK_MISSING 2 true false)]
def faultsRecordedAt3 : State := faulty [raiseOf Src.CLK_MISSING 5] 2 [(0, recOf Src.CLK_REF_LOST 2 false false)]
def faultsRecordedAt5 : State := { faulty [] 2 [] with scribe := { (faulty [] 2 []).scribe with resetDue := some 999999000 } }
def faultsRecordedAt6 : State := { faulty [] 2 [] with scribe := { (faulty [] 2 []).scribe with resetDue := some 999999000, heldAt := some 1000 } }
def faultsRecordedAt7 : State := { faulty [] 2 [] with scribe := { (faulty [] 2 []).scribe with resetDue := some 999999000, freeAt := some 999999500 } }
def faultsRecordedAt8 : State := (faulty [] 2 [(0, recOf Src.CLK_MISSING 4 false false)]).setInst stackInst { st := 1 }
/-- States and operands that meet the hypotheses of FaultsRecorded. -/
theorem test_wit_FaultsRecorded :
    running.scribe.inflight = [] ∧
    ((outside 162 50331939).src = 162 ∨ (outside 162 50331939).src = 163) ∧
    (outside 162 50331939).addr.toNat / 16777216 % 16 < 10 ∧
    decide ((outside 162 50331939).src = 163) = false ∧
    running.writable 152 = true ∧
    (decide ((running.inst stackInst).st = 0) && !running.unacked.any fun (p : Nat × Nat × Nat) => Nat.ble 4 p.snd.snd) =
  true ∧
    Option.all (fun (e : ExtRaise) => decide (e.src ≠ 162 ∧ e.src ≠ 163 ∧ e.src ≠ 152 ∧ e.src ≠ 153)) none = true ∧
    (nextRaises (faulty [raiseOf Src.CLK_MISSING 5] 0 []).scribe.inflight).length = 1 ∧
    Option.any (fun (x : Raise) => decide ((faulty [raiseOf Src.CLK_MISSING 5] 0 []).sevOf x.src = 0))
    (nextRaises (faulty [raiseOf Src.CLK_MISSING 5] 0 []).scribe.inflight).head? =
  true ∧
    (nextRaises faultsRecordedAt1.scribe.inflight).length = 1 ∧
    Option.any (fun (x : Raise) => decide (faultsRecordedAt1.sevOf x.src ≠ 0))
    (nextRaises faultsRecordedAt1.scribe.inflight).head? =
  true ∧
    Option.any (fun (x : Raise) => decide ((faultsRecordedAt1.recOf x.src).isSome = true))
    (nextRaises faultsRecordedAt1.scribe.inflight).head? =
  true ∧
    (nextRaises faultsRecordedAt2.scribe.inflight).length = 1 ∧
    Option.any (fun (x : Raise) => decide (faultsRecordedAt2.sevOf x.src ≠ 0))
    (nextRaises faultsRecordedAt2.scribe.inflight).head? =
  true ∧
    Option.any (fun (x : Raise) => decide ((faultsRecordedAt2.recOf x.src).isSome = true))
    (nextRaises faultsRecordedAt2.scribe.inflight).head? =
  true ∧
    Option.any
    (fun (x : Raise) =>
      decide
        (Option.any (fun (q : Nat × FaultRec) => decide ((!q.snd.esc && q.snd.sevp.blt 5) = false))
            (faultsRecordedAt2.recOf x.src) =
          true))
    (nextRaises faultsRecordedAt2.scribe.inflight).head? =
  true ∧
    (nextRaises (faulty [raiseOf Src.CLK_MISSING 5] 2 []).scribe.inflight).length = 1 ∧
    Option.any (fun (x : Raise) => decide ((faulty [raiseOf Src.CLK_MISSING 5] 2 []).sevOf x.src ≠ 0))
    (nextRaises (faulty [raiseOf Src.CLK_MISSING 5] 2 []).scribe.inflight).head? =
  true ∧
    Option.any (fun (x : Raise) => decide ((faulty [raiseOf Src.CLK_MISSING 5] 2 []).recOf x.src = none))
    (nextRaises (faulty [raiseOf Src.CLK_MISSING 5] 2 []).scribe.inflight).head? =
  true ∧
    Option.all (fun (x : FaultRec) => x.ack)
    ((faulty [raiseOf Src.CLK_MISSING 5] 2 []).logAt ((faulty [raiseOf Src.CLK_MISSING 5] 2 []).regF R.SCR.LOGWP 0 8)) =
  true ∧
    Option.any
    (fun (x : Raise) =>
      decide
        ((!(faulty [raiseOf Src.CLK_MISSING 5] 2 []).unacked.any fun (p : Nat × Nat × Nat) =>
              p.fst == Src.classOf x.src) =
          true))
    (nextRaises (faulty [raiseOf Src.CLK_MISSING 5] 2 []).scribe.inflight).head? =
  true := by decide +kernel

/-- States and operands that meet the hypotheses of FaultsRecorded. -/
theorem test_wit_FaultsRecorded_2 :
    (Option.any
    (fun (x : Raise) =>
      decide
        ((if
              ((!!(faulty [raiseOf Src.CLK_MISSING 5] 2 []).unacked.any fun (p : Nat × Nat × Nat) =>
                        p.fst == Src.classOf x.src) &&
                  decide ((faulty [raiseOf Src.CLK_MISSING 5] 2 []).sevOf x.src < 5)) =
                true then
            (faulty [raiseOf Src.CLK_MISSING 5] 2 []).sevOf x.src + 1
          else (faulty [raiseOf Src.CLK_MISSING 5] 2 []).sevOf x.src) <
          3))
    (nextRaises (faulty [raiseOf Src.CLK_MISSING 5] 2 []).scribe.inflight).head? =
  true) ∧
    (nextRaises faultsRecordedAt3.scribe.inflight).length = 1 ∧
    Option.any (fun (x : Raise) => decide (faultsRecordedAt3.sevOf x.src ≠ 0))
    (nextRaises faultsRecordedAt3.scribe.inflight).head? =
  true ∧
    Option.any (fun (x : Raise) => decide (faultsRecordedAt3.recOf x.src = none))
    (nextRaises faultsRecordedAt3.scribe.inflight).head? =
  true ∧
    Option.all (fun (x : FaultRec) => x.ack) (faultsRecordedAt3.logAt (faultsRecordedAt3.regF R.SCR.LOGWP 0 8)) = false ∧
    oldestAcked faultsRecordedAt3.scribe.log = none ∧
    Option.any
    (fun (x : Raise) =>
      decide ((!faultsRecordedAt3.unacked.any fun (p : Nat × Nat × Nat) => p.fst == Src.classOf x.src) = false))
    (nextRaises faultsRecordedAt3.scribe.inflight).head? =
  true ∧
    (Option.any
    (fun (x : Raise) =>
      decide
        ((if
              ((!!faultsRecordedAt3.unacked.any fun (p : Nat × Nat × Nat) => p.fst == Src.classOf x.src) &&
                  decide (faultsRecordedAt3.sevOf x.src < 5)) =
                true then
            faultsRecordedAt3.sevOf x.src + 1
          else faultsRecordedAt3.sevOf x.src) =
          3))
    (nextRaises faultsRecordedAt3.scribe.inflight).head? =
  true) ∧
    faultsRecordedAt3.active = true ∧
    (nextRaises (faulty [raiseOf Src.CLK_MISSING 5] 4 []).scribe.inflight).length = 1 ∧
    Option.any (fun (x : Raise) => decide ((faulty [raiseOf Src.CLK_MISSING 5] 4 []).sevOf x.src ≠ 0))
    (nextRaises (faulty [raiseOf Src.CLK_MISSING 5] 4 []).scribe.inflight).head? =
  true ∧
    Option.any (fun (x : Raise) => decide ((faulty [raiseOf Src.CLK_MISSING 5] 4 []).recOf x.src = none))
    (nextRaises (faulty [raiseOf Src.CLK_MISSING 5] 4 []).scribe.inflight).head? =
  true ∧
    (Option.any
    (fun (x : Raise) =>
      decide
        (4 ≤
          if
              ((!!(faulty [raiseOf Src.CLK_MISSING 5] 4 []).unacked.any fun (p : Nat × Nat × Nat) =>
                        p.fst == Src.classOf x.src) &&
                  decide ((faulty [raiseOf Src.CLK_MISSING 5] 4 []).sevOf x.src < 5)) =
                true then
            (faulty [raiseOf Src.CLK_MISSING 5] 4 []).sevOf x.src + 1
          else (faulty [raiseOf Src.CLK_MISSING 5] 4 []).sevOf x.src))
    (nextRaises (faulty [raiseOf Src.CLK_MISSING 5] 4 []).scribe.inflight).head? =
  true) ∧
    (faulty [raiseOf Src.CLK_MISSING 5] 4 []).active = true ∧
    (nextRaises (faulty [raiseOf Src.CLK_MISSING 5] 5 []).scribe.inflight).length = 1 := by decide +kernel

/-- States and operands that meet the hypotheses of FaultsRecorded. -/
theorem test_wit_FaultsRecorded_3 :
    Option.any (fun (x : Raise) => decide ((faulty [raiseOf Src.CLK_MISSING 5] 5 []).sevOf x.src ≠ 0))
    (nextRaises (faulty [raiseOf Src.CLK_MISSING 5] 5 []).scribe.inflight).head? =
  true ∧
    Option.any (fun (x : Raise) => decide ((faulty [raiseOf Src.CLK_MISSING 5] 5 []).recOf x.src = none))
    (nextRaises (faulty [raiseOf Src.CLK_MISSING 5] 5 []).scribe.inflight).head? =
  true ∧
    (Option.any
    (fun (x : Raise) =>
      decide
        ((if
              ((!!(faulty [raiseOf Src.CLK_MISSING 5] 5 []).unacked.any fun (p : Nat × Nat × Nat) =>
                        p.fst == Src.classOf x.src) &&
                  decide ((faulty [raiseOf Src.CLK_MISSING 5] 5 []).sevOf x.src < 5)) =
                true then
            (faulty [raiseOf Src.CLK_MISSING 5] 5 []).sevOf x.src + 1
          else (faulty [raiseOf Src.CLK_MISSING 5] 5 []).sevOf x.src) =
          5))
    (nextRaises (faulty [raiseOf Src.CLK_MISSING 5] 5 []).scribe.inflight).head? =
  true) ∧
    ((outside 163 117440803).src = 162 ∨ (outside 163 117440803).src = 163) ∧
    (outside 163 117440803).addr.toNat / 16777216 % 16 < 10 ∧
    decide ((outside 163 117440803).src = 163) = true ∧
    ((outside 152 1).src = 152 ∨ (outside 152 1).src = 153) ∧
    (faulty [raiseOf Src.CLK_MISSING 5] 0 []).inMap ((outside 152 1).addr.toNat % 256) = true ∧
    3 < 16 ∧
    faultsRecordedAt8.writable 152 = true ∧
    (decide ((faultsRecordedAt8.inst stackInst).st = 0) &&
    !faultsRecordedAt8.unacked.any fun (p : Nat × Nat × Nat) => Nat.ble 4 p.snd.snd) =
  false ∧
    running.pageUp 152 = true ∧
    running.scribe.resetDue = none ∧
    faultsRecordedAt5.scribe.resetDue.isSome = true ∧
    faultsRecordedAt5.rstLow = false ∧
    faultsRecordedAt5.scribe.heldAt = none ∧
    faultsRecordedAt5.scribe.freeAt = none ∧
    faultsRecordedAt6.scribe.resetDue.isSome = true ∧
    faultsRecordedAt6.scribe.heldAt.isSome = true ∧
    Option.any (fun (b : Nat) => decide (b + 16000 ≤ faultsRecordedAt6.dt64)) faultsRecordedAt6.scribe.heldAt = true ∧
    faultsRecordedAt6.dt64 < 2 ^ 63 ∧
    faultsRecordedAt7.scribe.resetDue.isSome = true ∧
    faultsRecordedAt7.scribe.heldAt = none ∧
    faultsRecordedAt7.scribe.freeAt.isSome = true := by decide +kernel

def clockReferencesAt1 : State := reseting (clocked running 0x3FFBC 0x10 none none) fun r => { r with held := 0xAF }
def clockReferencesAt2 : State := reseting (clocked running 0x300BC 0x10 none none) fun r => { r with low := some 5 }
/-- States and operands that meet the hypotheses of ClockReferences. -/
theorem test_wit_ClockReferences :
    (running.refAct = 2 ∨ (0#2).toNat.testBit running.refAct = false) ∧
    1 < 2 ∧
    running.writable 2 = true ∧
    (running.plan.run = true ∨ running.ckB (refOkBit (running.regF R.CLK.CKCFG 0 1)) = false) ∧
    running.ckB 7 = false ∧
    running.refAct < 2 ∧
    (1#2).toNat.testBit running.refAct = true ∧
    (running.ckB (refOkBit (1 - running.refAct)) && !(1#2).toNat.testBit (1 - running.refAct) &&
      decide (running.refAct = running.regF R.CLK.CKCFG 0 1) &&
    running.regB R.CLK.CKCFG 4) =
  false ∧
    3 < 32 ∧
    3 ≠ 7 ∧
    (3 ≠ if true = true then 16 else 17) ∧
    (watched 0 = false ∨ running.ckB (8 + 0) = false) ∧
    watched 0 = true ∧
    running.ckB (8 + 0) = false ∧
    (watched 4 = false ∨ running.ckB (8 + 4) = true) ∧
    (clocked running 196796 16 none none).refAct < 2 ∧
    (1#2).toNat.testBit (clocked running 196796 16 none none).refAct = true ∧
    ((clocked running 196796 16 none none).ckB (refOkBit (1 - (clocked running 196796 16 none none).refAct)) &&
        !(1#2).toNat.testBit (1 - (clocked running 196796 16 none none).refAct) &&
      decide
        ((clocked running 196796 16 none none).refAct = (clocked running 196796 16 none none).regF R.CLK.CKCFG 0 1) &&
    (clocked running 196796 16 none none).regB R.CLK.CKCFG 4) =
  true ∧
    (clocked running 196796 16 none none).ckB 7 = true ∧
    (clocked running 196796 16 none none).rstLow = false ∧
    (3#2).toNat.testBit (clocked running 196796 16 none none).refAct = true ∧
    ((clocked running 196796 16 none none).ckB (refOkBit (1 - (clocked running 196796 16 none none).refAct)) &&
        !(3#2).toNat.testBit (1 - (clocked running 196796 16 none none).refAct) &&
      decide
        ((clocked running 196796 16 none none).refAct = (clocked running 196796 16 none none).regF R.CLK.CKCFG 0 1) &&
    (clocked running 196796 16 none none).regB R.CLK.CKCFG 4) =
  false ∧
    (clocked running 196796 16 none none).ckB 2 = true ∧
    (clocked running 196796 16 none none).ckB 3 = true := by decide +kernel

/-- States and operands that meet the hypotheses of ClockReferences. -/
theorem test_wit_ClockReferences_2 :
    ((89999#32).toNat < 90000 ∨ 110000 < (89999#32).toNat) ∧
    90000 ≤ (90000#32).toNat ∧
    (90000#32).toNat ≤ 110000 ∧
    (clocked ringed 196796 16 none none).writable 2 = true ∧
    (clocked ringed 196796 16 none none).plan.run = false ∧
    (clocked ringed 196796 16 none none).ckB (refOkBit ((clocked ringed 196796 16 none none).regF R.CLK.CKCFG 0 1)) = true ∧
    (clocked ringed 196796 16 none none).refAct = (clocked ringed 196796 16 none none).regF R.CLK.CKCFG 0 1 ∧
    (clocked ringed 196797 16 none none).writable 2 = true ∧
    (clocked ringed 196797 16 none none).plan.run = false ∧
    (clocked ringed 196797 16 none none).ckB (refOkBit ((clocked ringed 196797 16 none none).regF R.CLK.CKCFG 0 1)) = true ∧
    (clocked ringed 196797 16 none none).refAct ≠ (clocked ringed 196797 16 none none).regF R.CLK.CKCFG 0 1 ∧
    (clocked ringed 196797 16 none none).refAct ≠ 2 ∧
    (clocked ringed 196606 0 none none).writable 2 = true ∧
    (clocked ringed 196606 0 none none).plan.run = false ∧
    (clocked ringed 196606 0 none none).ckB (refOkBit ((clocked ringed 196606 0 none none).regF R.CLK.CKCFG 0 1)) = true ∧
    (clocked ringed 196606 0 none none).refAct ≠ (clocked ringed 196606 0 none none).regF R.CLK.CKCFG 0 1 ∧
    (clocked ringed 196606 0 none none).refAct = 2 ∧
    (clocked ringed 196606 0 none none).ckB (8 + 0) = true ∧
    (clocked ringed 196606 0 none none).rst.held.testBit 0 = false ∧
    clockReferencesAt1.ckB (8 + 0) = true ∧
    clockReferencesAt1.rst.held.testBit 0 = true ∧
    clockReferencesAt2.ckB 7 = true ∧
    clockReferencesAt2.rstLow = true := by decide +kernel

def pllLockAt2 : State := clocked running 0x300B4 0x30 (some 900000000) (some running.engCycle)
def pllLockAt3 : State := clocked running 0x300B4 0x30 (some 999999999) none
def pllLockAt4 : State := clocked ringed 0x300B4 0x30 (some 999999999) none
def pllLockAt5 : State := regs (clocked ringed 0x300A0 0 none none) [(R.DTM.DTSTA, 4)]
def pllLockAt6 : State := regs (clocked running 0x300A0 0 none none) [(R.DTM.DTSTA, 4)]
/-- States and operands that meet the hypotheses of PllLock. -/
theorem test_wit_PllLock :
    running.ckB 2 = false ∧
    running.ckB 3 = false ∧
    running.refAct ≠ 2 ∧
    running.ckB 5 = false ∧
    (running.clk.aSince = none ∨ running.ckB 4 = false ∨ running.ckB 2 = false ∨ running.regB R.CLK.CKCFG 5 = false) ∧
    (running.ckB 5 = false ∨ running.refAct = 2) ∧
    (clocked running 196796 16 none none).ckB 2 = true ∧
    ((clocked running 196796 16 none none).paired = false ∨ (clocked running 196796 16 none none).role ≠ 4) ∧
    (clocked running 196796 16 none none).ckB 3 = true ∧
    (clocked running 196796 16 none none).dstate ≠ 4 ∧
    (clocked running 196796 16 none none).refAct ≠ 2 ∧
    ((clocked running 196796 16 none none).ckB 3 = true ∨ (clocked running 196796 16 none none).ckB 5 = true) ∧
    (clocked running 196796 16 none none).ckB 5 = true ∧
    pllLockAt2.clk.aSince.isSome = true ∧
    pllLockAt2.ckB 4 = true ∧
    pllLockAt2.ckB 2 = true ∧
    pllLockAt2.regB R.CLK.CKCFG 5 = true ∧
    pllLockAt2.plan.run = true ∧
    pllLockAt2.clk.ts2 = some pllLockAt2.engCycle ∧
    Option.any (fun (a : Nat) => decide (pllLockAt2.passed (a + 16000000) = true)) pllLockAt2.clk.aSince = true ∧
    pllLockAt3.clk.aSince.isSome = true ∧
    pllLockAt3.ckB 4 = true ∧
    pllLockAt3.ckB 2 = true ∧
    pllLockAt3.regB R.CLK.CKCFG 5 = true := by decide +kernel

/-- States and operands that meet the hypotheses of PllLock. -/
theorem test_wit_PllLock_2 :
    pllLockAt3.plan.run = true ∧
    (Option.any
    (fun (a : Nat) => decide (pllLockAt3.clk.ts2 ≠ some pllLockAt3.engCycle ∨ pllLockAt3.passed (a + 16000000) = false))
    pllLockAt3.clk.aSince =
  true) ∧
    pllLockAt4.clk.aSince.isSome = true ∧
    pllLockAt4.ckB 4 = true ∧
    pllLockAt4.ckB 2 = true ∧
    pllLockAt4.regB R.CLK.CKCFG 5 = true ∧
    pllLockAt4.plan.run = false ∧
    (clocked ringed 65666 0 none none).refAct = 2 ∧
    pllLockAt5.ckB 5 = true ∧
    pllLockAt5.refAct ≠ 2 ∧
    pllLockAt5.dstate = 4 ∧
    pllLockAt5.plan.run = false ∧
    pllLockAt6.ckB 5 = true ∧
    pllLockAt6.refAct ≠ 2 ∧
    pllLockAt6.dstate = 4 ∧
    pllLockAt6.plan.run = true := by decide +kernel

def supplyAndResetsAt1 : State := reseting up fun r => { r with powered := false }
def supplyAndResetsAt2 : State := reseting up fun r => { r with por := true }
def supplyAndResetsAt3 : State := reseting up fun r => { r with porDrive := true }
def supplyAndResetsAt4 : State := regs (reseting up fun r => { r with porDrive := true }) [(R.PWR.PWSTA, 1)]
def supplyAndResetsAt5 : State := regs (reseting up fun r => { r with low := some 999980000, ext := true }) [(R.RST.BSTA, 0)]
def supplyAndResetsAt7 : State := regs (reseting up fun r => { r with low := some 999980000, ext := true }) [(R.WLCK 1, 1)]
def supplyAndResetsAt8 : State := reseting up fun r => { r with low := some 999980000, ext := true, level := 2 }
def supplyAndResetsAt10 : State := reseting up fun r => { r with low := some 998000000, ext := true }
/-- States and operands that meet the hypotheses of SupplyAndResets. -/
theorem test_wit_SupplyAndResets :
    up.rst.powered = true ∧
    up.rst.por = false ∧
    (up.rst.powered && !up.rst.por) = true ∧
    true = true ∧
    up.sec.cmd = none ∧
    up.sec.raise = none ∧
    up.sec.update = none ∧
    up.rstLow = false ∧
    up.writable 1 = true ∧
    up.regB (R.WLCK 1) 0 = false ∧
    up.rst.low = none ∧
    up.rst.porDrive = false ∧
    (supplyAndResetsAt1.rst.powered = false ∨ supplyAndResetsAt1.rst.por = true) ∧
    supplyAndResetsAt1.rst.powered = false ∧
    supplyAndResetsAt1.rstLow = true ∧
    supplyAndResetsAt2.rst.powered = true ∧
    supplyAndResetsAt2.rst.por = true ∧
    (regs up [(R.WLCK 1, 1)]).writable 1 = true ∧
    (regs up [(R.WLCK 1, 1)]).regB (R.WLCK 1) 0 = true ∧
    (regs up [(R.WLCK 1, 1)]).rstLow = false ∧
    supplyAndResetsAt7.writable 1 = true ∧
    supplyAndResetsAt7.regB (R.WLCK 1) 0 = true ∧
    supplyAndResetsAt7.rstLow = true ∧
    supplyAndResetsAt5.rst.low.isSome = true := by decide +kernel

/-- States and operands that meet the hypotheses of SupplyAndResets. -/
theorem test_wit_SupplyAndResets_2 :
    Option.any
    (fun (a : Nat) =>
      decide
        ((decide (supplyAndResetsAt5.rst.level = 0) &&
            (supplyAndResetsAt5.rst.ext || supplyAndResetsAt5.rst.silent ||
              (a + 16000).ble supplyAndResetsAt5.rst.drive)) =
          true))
    supplyAndResetsAt5.rst.low =
  true ∧
    supplyAndResetsAt5.regB R.RST.BSTA 4 = false ∧
    supplyAndResetsAt5.restoring = false ∧
    supplyAndResetsAt5.domHeld 0 = false ∧
    supplyAndResetsAt5.regF R.RST.BSTA 0 4 = 0 ∧
    3 < 12 ∧
    3 < 256 ∧
    Option.any
    (fun (a : Nat) =>
      decide
        ((supplyAndResetsAt5.rst.level.blt 2 &&
            (supplyAndResetsAt5.rst.ext || supplyAndResetsAt5.rst.silent ||
              (a + 1600000).ble supplyAndResetsAt5.rst.drive)) =
          true))
    supplyAndResetsAt5.rst.low =
  true ∧
    supplyAndResetsAt5.dt64 < 2 ^ 62 ∧
    Option.any (fun (a : Nat) => decide (a < 2 ^ 62)) supplyAndResetsAt5.rst.low = true ∧
    supplyAndResetsAt5.sec.cmd = none ∧
    supplyAndResetsAt5.sec.raise = none ∧
    supplyAndResetsAt5.sec.update = none ∧
    supplyAndResetsAt8.rst.low.isSome = true ∧
    Option.any
    (fun (a : Nat) =>
      decide
        ((decide (supplyAndResetsAt8.rst.level = 0) &&
            (supplyAndResetsAt8.rst.ext || supplyAndResetsAt8.rst.silent ||
              (a + 16000).ble supplyAndResetsAt8.rst.drive)) =
          false))
    supplyAndResetsAt8.rst.low =
  true ∧
    Option.any
    (fun (a : Nat) =>
      decide
        ((supplyAndResetsAt8.rst.level.blt 2 &&
            (supplyAndResetsAt8.rst.ext || supplyAndResetsAt8.rst.silent ||
              (a + 1600000).ble supplyAndResetsAt8.rst.drive)) =
          false))
    supplyAndResetsAt8.rst.low =
  true ∧
    supplyAndResetsAt3.rst.por = false ∧
    supplyAndResetsAt3.rst.porDrive = true ∧
    (supplyAndResetsAt3.domHeld 7 = true ∨ supplyAndResetsAt3.regB R.PWR.PWSTA 0 = false) ∧
    supplyAndResetsAt4.rst.por = false ∧
    supplyAndResetsAt4.rst.porDrive = true ∧
    supplyAndResetsAt4.domHeld 7 = false ∧
    supplyAndResetsAt4.regB R.PWR.PWSTA 0 = true ∧
    supplyAndResetsAt5.rst.por = false := by decide +kernel

/-- States and operands that meet the hypotheses of SupplyAndResets. -/
theorem test_wit_SupplyAndResets_3 :
    supplyAndResetsAt5.rst.porDrive = false ∧
    (Option.any
    (fun (a : Nat) =>
      decide
        ((if (supplyAndResetsAt5.rst.ext || supplyAndResetsAt5.rst.silent) = true then
            (Nat.max 4000000 supplyAndResetsAt5.rst.drive).max a
          else supplyAndResetsAt5.rst.drive) <
          2 ^ 62))
    supplyAndResetsAt5.rst.low =
  true) ∧
    (Option.any
    (fun (a : Nat) =>
      decide
        ((if (supplyAndResetsAt5.rst.ext || supplyAndResetsAt5.rst.silent) = true then
              (Nat.max 4000000 supplyAndResetsAt5.rst.drive).max a
            else supplyAndResetsAt5.rst.drive) -
            a <
          8000))
    supplyAndResetsAt5.rst.low =
  true) ∧
    supplyAndResetsAt5.rst.level = 0 ∧
    (Option.any
    (fun (a : Nat) =>
      decide
        ((if (supplyAndResetsAt5.rst.ext || supplyAndResetsAt5.rst.silent) = true then
            (Nat.max 1000000007 supplyAndResetsAt5.rst.drive).max a
          else supplyAndResetsAt5.rst.drive) <
          2 ^ 62))
    supplyAndResetsAt5.rst.low =
  true) ∧
    (Option.any
    (fun (a : Nat) =>
      decide
        (16000 ≤
          (if (supplyAndResetsAt5.rst.ext || supplyAndResetsAt5.rst.silent) = true then
              (Nat.max 1000000007 supplyAndResetsAt5.rst.drive).max a
            else supplyAndResetsAt5.rst.drive) -
            a))
    supplyAndResetsAt5.rst.low =
  true) ∧
    (Option.any
    (fun (a : Nat) =>
      decide
        (supplyAndResetsAt5.rst.level ≤
          if
              1600000 ≤
                (if (supplyAndResetsAt5.rst.ext || supplyAndResetsAt5.rst.silent) = true then
                    (Nat.max 1000000007 supplyAndResetsAt5.rst.drive).max a
                  else supplyAndResetsAt5.rst.drive) -
                  a then
            2
          else 1))
    supplyAndResetsAt5.rst.low =
  true) ∧
    (Option.any
    (fun (a : Nat) =>
      decide
        ((supplyAndResetsAt5.rst.cause |||
            if supplyAndResetsAt5.rst.ext = true then
              2 ^
                (1 +
                  if
                      1600000 ≤
                        (if (supplyAndResetsAt5.rst.ext || supplyAndResetsAt5.rst.silent) = true then
                            (Nat.max 1000000007 supplyAndResetsAt5.rst.drive).max a
                          else supplyAndResetsAt5.rst.drive) -
                          a then
                    2
                  else 1)
            else 0) <
          512))
    supplyAndResetsAt5.rst.low =
  true) := by decide +kernel

/-- States and operands that meet the hypotheses of SupplyAndResets. -/
theorem test_wit_SupplyAndResets_4 :
    (Option.any
    (fun (a : Nat) =>
      decide
        ((supplyAndResetsAt5.rst.cause |||
            if supplyAndResetsAt5.rst.ext = true then
              2 ^
                (1 +
                  if
                      1600000 ≤
                        (if (supplyAndResetsAt5.rst.ext || supplyAndResetsAt5.rst.silent) = true then
                            (Nat.max 1000000007 supplyAndResetsAt5.rst.drive).max a
                          else supplyAndResetsAt5.rst.drive) -
                          a then
                    2
                  else 1)
            else 0) <
          4096))
    supplyAndResetsAt5.rst.low =
  true) ∧
    supplyAndResetsAt10.rst.por = false ∧
    supplyAndResetsAt10.rst.porDrive = false ∧
    supplyAndResetsAt10.rst.low.isSome = true ∧
    supplyAndResetsAt10.dt64 < 2 ^ 62 ∧
    (Option.any
    (fun (a : Nat) =>
      decide
        ((if (supplyAndResetsAt10.rst.ext || supplyAndResetsAt10.rst.silent) = true then
            (Nat.max 1000000007 supplyAndResetsAt10.rst.drive).max a
          else supplyAndResetsAt10.rst.drive) <
          2 ^ 62))
    supplyAndResetsAt10.rst.low =
  true) ∧
    (Option.any
    (fun (a : Nat) =>
      decide
        (16000 ≤
          (if (supplyAndResetsAt10.rst.ext || supplyAndResetsAt10.rst.silent) = true then
              (Nat.max 1000000007 supplyAndResetsAt10.rst.drive).max a
            else supplyAndResetsAt10.rst.drive) -
            a))
    supplyAndResetsAt10.rst.low =
  true) ∧
    (Option.any
    (fun (a : Nat) =>
      decide
        (supplyAndResetsAt10.rst.level ≤
          if
              1600000 ≤
                (if (supplyAndResetsAt10.rst.ext || supplyAndResetsAt10.rst.silent) = true then
                    (Nat.max 1000000007 supplyAndResetsAt10.rst.drive).max a
                  else supplyAndResetsAt10.rst.drive) -
                  a then
            2
          else 1))
    supplyAndResetsAt10.rst.low =
  true) ∧
    (Option.any
    (fun (a : Nat) =>
      decide
        ((if
              1600000 ≤
                (if (supplyAndResetsAt10.rst.ext || supplyAndResetsAt10.rst.silent) = true then
                    (Nat.max 1000000007 supplyAndResetsAt10.rst.drive).max a
                  else supplyAndResetsAt10.rst.drive) -
                  a then
            2
          else 1) =
          2))
    supplyAndResetsAt10.rst.low =
  true) ∧
    supplyAndResetsAt10.rst.level < 2 := by decide +kernel

def slotsAndFloorAt1 : State := owner ringed 1 0 [(1, { st := 1 })] id
def slotsAndFloorAt3 : State := owner ringed 1 0 [] fun x => { x with floor := 6 }
def slotsAndFloorAt4 : State := owner ringed 1 1 [] fun x => { x with cmd := some (1, 2, [3]) }
def slotsAndFloorAt6 : State := owner ringed 1 1 [] fun x => { x with raise := some 5 }
/-- States and operands that meet the hypotheses of SlotsAndFloor. -/
theorem test_wit_SlotsAndFloor :
    up.writable 160 = true ∧
    (up.regB (R.WLCK 160) 0 && !up.plan.run && !up.regB R.SEC.OKSTA 0) = false ∧
    up.regB R.SEC.OKSTA 0 = false ∧
    up.sec.raise = none ∧
    up.sec.cmd = none ∧
    (owner ringed 1 1 [] id).writable 160 = true ∧
    ((owner ringed 1 1 [] id).regB (R.WLCK 160) 0 && !(owner ringed 1 1 [] id).plan.run &&
    !(owner ringed 1 1 [] id).regB R.SEC.OKSTA 0) =
  false ∧
    (owner ringed 1 1 [] id).regB R.SEC.OKSTA 0 = true ∧
    (owner ringed 1 0 [] id).writable 160 = true ∧
    ((owner ringed 1 0 [] id).regB (R.WLCK 160) 0 && !(owner ringed 1 0 [] id).plan.run &&
    !(owner ringed 1 0 [] id).regB R.SEC.OKSTA 0) =
  true ∧
    ((owner ringed 1 0 [] id).slot (Word.fld (0#32) 0 2)).st = 0 ∧
    ((decide (1 = 1) && decide ((owner ringed 1 0 [] id).slotBits = 0)) = true ∨
  ((owner ringed 1 0 [] id).slot (Word.fld (0#32) 8 2)).st = 1 ∧ Word.fld (0#32) 8 2 ≠ Word.fld (0#32) 0 2) ∧
    ((decide (1 = 1) && decide ((owner ringed 1 0 [] id).slotBits = 0)) = true ∨
  (owner ringed 1 0 [] id).okAuth 1 (Word.fld (0#32) 0 2) (Word.fld (0#32) 8 2) = true) ∧
    (((owner ringed 1 0 [] id).slot (Word.fld (0#32) 0 2)).st ≠ 1 ∨
  (decide (2 = 1) && decide ((owner ringed 1 0 [] id).slotBits = 0)) = false ∧
    (((owner ringed 1 0 [] id).slot (Word.fld (0#32) 8 2)).st ≠ 1 ∨ Word.fld (0#32) 8 2 = Word.fld (0#32) 0 2)) ∧
    (owner ringed 1 0 [] id).sec.floor < (owner ringed 1 0 [] id).regF R.SEC.SVNS 8 8 ∧
    slotsAndFloorAt1.writable 160 = true ∧
    (slotsAndFloorAt1.regB (R.WLCK 160) 0 && !slotsAndFloorAt1.plan.run && !slotsAndFloorAt1.regB R.SEC.OKSTA 0) = true ∧
    (slotsAndFloorAt1.slot (Word.fld (256#32) 0 2)).st = 0 ∧
    ((decide (1 = 1) && decide (slotsAndFloorAt1.slotBits = 0)) = true ∨
  (slotsAndFloorAt1.slot (Word.fld (256#32) 8 2)).st = 1 ∧ Word.fld (256#32) 8 2 ≠ Word.fld (256#32) 0 2) ∧
    (decide (1 = 1) && decide (slotsAndFloorAt1.slotBits = 0)) = false ∧
    slotsAndFloorAt1.okAuth 1 (Word.fld (256#32) 0 2) (Word.fld (256#32) 8 2) = false ∧
    slotsAndFloorAt3.writable 160 = true ∧
    (slotsAndFloorAt3.regB (R.WLCK 160) 0 && !slotsAndFloorAt3.plan.run && !slotsAndFloorAt3.regB R.SEC.OKSTA 0) = true ∧
    slotsAndFloorAt3.regF R.SEC.SVNS 8 8 ≤ slotsAndFloorAt3.sec.floor := by decide +kernel

/-- States and operands that meet the hypotheses of SlotsAndFloor. -/
theorem test_wit_SlotsAndFloor_2 :
    slotsAndFloorAt4.sec.cmd.isSome = true ∧
    0 < 4 ∧
    Option.any (fun (q : Nat × Nat × List Byte) => decide (0 ≠ q.snd.fst)) slotsAndFloorAt4.sec.cmd = true ∧
    true = true ∧
    false = false ∧
    slotsAndFloorAt6.sec.raise.isSome = true := by decide +kernel

def updatesAndReportsAt1 : State := { owned (updating (some (0, 3)) 1 0 0 0) with flash := memPut [] 0 imageGood }
/-- States and operands that meet the hypotheses of UpdatesAndReports. -/
theorem test_wit_UpdatesAndReports :
    up.writable 160 = true ∧
    up.regB R.SEC.FUSTA 0 = false ∧
    Option.all (fun (x : Update) => decide (x.stage ≠ 2)) up.sec.update = true ∧
    up.regB R.SEC.ATTSTA 0 = false ∧
    Option.all (fun (x : Update) => decide (x.stage ≠ 1)) up.sec.update = true ∧
    Option.all (fun (x : Update) => decide (x.stage ≠ 3)) up.sec.update = true ∧
    up.sec.attest = none ∧
    up.pageUp 160 = true ∧
    updatesAndReportsAt1.writable 160 = true ∧
    updatesAndReportsAt1.regB R.SEC.FUSTA 0 = true ∧
    updatesAndReportsAt1.sec.update.isSome = true ∧
    Option.any (fun (u : Update) => decide (u.stage = 3)) updatesAndReportsAt1.sec.update = true ∧
    (Option.any
    (fun (u : Update) =>
      decide
        ((if updatesAndReportsAt1.verify updatesAndReportsAt1.flash (u.slot * 12582912) ≠ 0 then
            updatesAndReportsAt1.verify updatesAndReportsAt1.flash (u.slot * 12582912)
          else
            if
                hashesOk updatesAndReportsAt1.flash (u.slot * 12582912)
                    (sections updatesAndReportsAt1.flash (u.slot * 12582912)) =
                  true then
              0
            else 7) =
          0))
    updatesAndReportsAt1.sec.update =
  true) ∧
    (updating (some (0, 1)) 1 0 0 0).sec.update.isSome = true ∧
    Option.any (fun (u : Update) => decide (u.stage = 1)) (updating (some (0, 1)) 1 0 0 0).sec.update = true ∧
    (updating (some (1, 2)) 2 0 0 60).writable 160 = true ∧
    (updating (some (1, 2)) 2 0 0 60).sec.update.isSome = true ∧
    Option.any (fun (u : Update) => decide (u.stage = 2)) (updating (some (1, 2)) 2 0 0 60).sec.update = true ∧
    0 < (List.take (3145728 - (updating (some (1, 2)) 2 0 0 60).regN R.SEC.FUCNT) (List.take 512 [1, 2, 3])).length ∧
    (Option.any
    (fun (u : Update) =>
      decide
        (0 < u.slot * 12582912 + 4 * (updating (some (1, 2)) 2 0 0 60).regN R.SEC.FUCNT ∨
          u.slot * 12582912 + 4 * (updating (some (1, 2)) 2 0 0 60).regN R.SEC.FUCNT +
              4 *
                (List.take (3145728 - (updating (some (1, 2)) 2 0 0 60).regN R.SEC.FUCNT)
                    (List.take 512 [1, 2, 3])).length ≤
            0))
    (updating (some (1, 2)) 2 0 0 60).sec.update =
  true) ∧
    (updating (some (0, 3)) 1 1 0 0).writable 160 = true ∧
    (updating (some (0, 3)) 1 1 0 0).regB R.SEC.ATTSTA 0 = true ∧
    (updating (some (0, 3)) 1 1 0 0).sec.update.isSome = true ∧
    Option.any (fun (u : Update) => decide (u.stage = 3)) (updating (some (0, 3)) 1 1 0 0).sec.update = true := by decide +kernel

/-- States and operands that meet the hypotheses of UpdatesAndReports. -/
theorem test_wit_UpdatesAndReports_2 :
    (Option.any
    (fun (u : Update) =>
      decide
        ((if (updating (some (0, 3)) 1 1 0 0).verify (updating (some (0, 3)) 1 1 0 0).flash (u.slot * 12582912) ≠ 0 then
            (updating (some (0, 3)) 1 1 0 0).verify (updating (some (0, 3)) 1 1 0 0).flash (u.slot * 12582912)
          else
            if
                hashesOk (updating (some (0, 3)) 1 1 0 0).flash (u.slot * 12582912)
                    (sections (updating (some (0, 3)) 1 1 0 0).flash (u.slot * 12582912)) =
                  true then
              0
            else 7) ≠
          0))
    (updating (some (0, 3)) 1 1 0 0).sec.update =
  true) ∧
    (updating (some (0, 3)) 1 1 0 0).sec.attest.isSome = true ∧
    (updating (some (0, 3)) 1 1 0 0).regB R.SEC.SSTA 8 = false ∧
    (updating (some (0, 2)) 2 1 256 0).sec.attest.isSome = true ∧
    (updating (some (0, 2)) 2 1 256 0).regB R.SEC.SSTA 8 = true ∧
    Option.any (fun (a : Attest) => decide (a.nonce.length = 8)) (updating (some (0, 2)) 2 1 256 0).sec.attest = true ∧
    0 < 8 := by decide +kernel

def monitorsMeasureAt1 : State := watching [(R.MON.TCFG, 0x3F), (R.MON.THOT, 1000), (R.MON.TLIM, 32), (R.PWR.VWARN, 4500)] id
def monitorsMeasureAt2 : State := watching [(R.MON.TCFG, 0), (R.MON.THOT, 1000), (R.MON.TSTA, 0x2000)] id
def monitorsMeasureAt3 : State := watching [(R.MON.TCFG, 0x3F), (R.MON.THOT, 400), (R.PCTL 4, 1), (R.PSTA 4, 1), (R.MON.TLIM, 20), (R.PWR.VWARN, 5500)] fun m => { m with low := 99, vinLow := 9, vinHigh := 9 }
def monitorsMeasureAt6 : State := { running with mon := { running.mon with mstep := some 8, low := 200 } }
/-- States and operands that meet the hypotheses of MonitorsMeasure. -/
theorem test_wit_MonitorsMeasure :
    State.reset.domHeld 7 = true ∧
    monitorsMeasureAt1.domHeld 7 = false ∧
    [400, 401, 402, 403, 404, 405].length = 6 ∧
    3 < 6 ∧
    3 < 8 ∧
    monitorsMeasureAt1.enabled 4 = false ∧
    monitorsMeasureAt1.regB R.MON.TSTA 13 = false ∧
    (monitorsMeasureAt1.regI R.MON.MEMSCOR).natAbs < 2 ^ 30 ∧
    (monitorsMeasureAt1.regI R.MON.VREFCOR).natAbs < 2 ^ 30 ∧
    3 < 4 ∧
    (4444#16).toNat / 10 * 10 ≤ 5500 ∧
    monitorsMeasureAt1.regF R.PWR.VWARN 0 16 ≤ (5510#16).toNat / 10 * 10 ∧
    monitorsMeasureAt2.domHeld 7 = false ∧
    monitorsMeasureAt2.regB R.MON.TSTA 13 = true ∧
    monitorsMeasureAt3.domHeld 7 = false ∧
    (4444#16).toNat / 10 * 10 < monitorsMeasureAt3.regF R.PWR.VWARN 0 16 ∧
    monitorsMeasureAt3.mon.vinLow = 9 ∧
    5500 < (5510#16).toNat / 10 * 10 ∧
    monitorsMeasureAt3.mon.vinHigh = 9 ∧
    monitorsMeasureAt6.domHeld 7 = false ∧
    monitorsMeasureAt6.plan.run = true := by decide +kernel

def domainsAndImageLoadingAt2 : State := reseting (clocked up 0xFF00 0 none none) fun r => { r with held := 0x2F, cold := true }
def domainsAndImageLoadingAt3 : State := reseting (clocked up 0x2300 0 none none) fun r => { r with held := 0x2F, late := true }
def domainsAndImageLoadingAt6 : State := reseting (clocked up 0x2300 0 none none) fun r => { r with held := 0x2F }
/-- States and operands that meet the hypotheses of DomainsAndImageLoading. -/
theorem test_wit_DomainsAndImageLoading :
    State.reset.rst.powered = true ∧
    State.reset.rst.por = false ∧
    State.reset.rst.low = none ∧
    State.reset.domHeld 7 = true ∧
    0 < 7 ∧
    true = true ∧
    (!State.reset.rstLow && !State.reset.domHeld 7 &&
      !(List.filter (fun (d : Nat) => State.reset.ckB (8 + d))
            (List.filter State.reset.domHeld [0, 1, 2, 3, 5])).isEmpty &&
    (decide
        (List.filter (fun (d : Nat) => State.reset.ckB (8 + d)) (List.filter State.reset.domHeld [0, 1, 2, 3, 5]) =
          List.filter State.reset.domHeld [0, 1, 2, 3, 5]) ||
      State.reset.rst.late)) =
  false ∧
    (!State.reset.rstLow && !State.reset.rst.late && !State.reset.domHeld 7 && State.reset.domHeld 0) = false ∧
    false = false ∧
    (up.rst.powered = false ∨ up.rst.por = true ∨ up.rst.low ≠ none ∨ up.domHeld 7 = false) ∧
    up.writable 1 = true ∧
    decide (up.regF R.RST.BSTA 0 4 = 7) = false ∧
    (!domainsAndImageLoadingAt2.rstLow && !domainsAndImageLoadingAt2.domHeld 7 &&
      !(List.filter (fun (d : Nat) => domainsAndImageLoadingAt2.ckB (8 + d))
            (List.filter domainsAndImageLoadingAt2.domHeld [0, 1, 2, 3, 5])).isEmpty &&
    (decide
        (List.filter (fun (d : Nat) => domainsAndImageLoadingAt2.ckB (8 + d))
            (List.filter domainsAndImageLoadingAt2.domHeld [0, 1, 2, 3, 5]) =
          List.filter domainsAndImageLoadingAt2.domHeld [0, 1, 2, 3, 5]) ||
      domainsAndImageLoadingAt2.rst.late)) =
  true ∧
    2 ∈
  List.filter (fun (d : Nat) => domainsAndImageLoadingAt2.ckB (8 + d))
    (List.filter domainsAndImageLoadingAt2.domHeld [0, 1, 2, 3, 5]) ∧
    domainsAndImageLoadingAt2.rst.cold = true ∧
    (domainsAndImageLoadingAt2.domHeld 0 = false ∨
  List.filter (fun (d : Nat) => domainsAndImageLoadingAt2.ckB (8 + d))
      (List.filter domainsAndImageLoadingAt2.domHeld [0, 1, 2, 3, 5]) =
    List.filter domainsAndImageLoadingAt2.domHeld [0, 1, 2, 3, 5]) ∧
    (!domainsAndImageLoadingAt2.rstLow && !domainsAndImageLoadingAt2.rst.late && !domainsAndImageLoadingAt2.domHeld 7 &&
    domainsAndImageLoadingAt2.domHeld 0) =
  true ∧
    domainsAndImageLoadingAt2.ckB 2 = false ∧
    domainsAndImageLoadingAt2.ckB 3 = false ∧
    domainsAndImageLoadingAt2.ckB 4 = false ∧
    domainsAndImageLoadingAt2.ckB 5 = false ∧
    (!domainsAndImageLoadingAt3.rstLow && !domainsAndImageLoadingAt3.domHeld 7 &&
      !(List.filter (fun (d : Nat) => domainsAndImageLoadingAt3.ckB (8 + d))
            (List.filter domainsAndImageLoadingAt3.domHeld [0, 1, 2, 3, 5])).isEmpty &&
    (decide
        (List.filter (fun (d : Nat) => domainsAndImageLoadingAt3.ckB (8 + d))
            (List.filter domainsAndImageLoadingAt3.domHeld [0, 1, 2, 3, 5]) =
          List.filter domainsAndImageLoadingAt3.domHeld [0, 1, 2, 3, 5]) ||
      domainsAndImageLoadingAt3.rst.late)) =
  true ∧
    (¬2 ∈
      List.filter (fun (d : Nat) => domainsAndImageLoadingAt3.ckB (8 + d))
        (List.filter domainsAndImageLoadingAt3.domHeld [0, 1, 2, 3, 5]) ∨
  domainsAndImageLoadingAt3.rst.cold = false) ∧
    domainsAndImageLoadingAt3.domHeld 0 = true := by decide +kernel

/-- States and operands that meet the hypotheses of DomainsAndImageLoading. -/
theorem test_wit_DomainsAndImageLoading_2 :
    List.filter (fun (d : Nat) => domainsAndImageLoadingAt3.ckB (8 + d))
    (List.filter domainsAndImageLoadingAt3.domHeld [0, 1, 2, 3, 5]) ≠
  List.filter domainsAndImageLoadingAt3.domHeld [0, 1, 2, 3, 5] ∧
    (!domainsAndImageLoadingAt6.rstLow && !domainsAndImageLoadingAt6.rst.late && !domainsAndImageLoadingAt6.domHeld 7 &&
    domainsAndImageLoadingAt6.domHeld 0) =
  true ∧
    domainsAndImageLoadingAt6.rst.cold = false ∧
    (!State.reset.domHeld 0 && !State.reset.rstLow && !State.reset.regB R.RST.BSTA 4 && !State.reset.restoring &&
    (decide (State.reset.regF R.RST.BSTA 0 4 = 0) || decide (State.reset.regF R.RST.BSTA 0 4 = 5))) =
  false ∧
    (State.reset.restoring = false ∨ State.reset.rstLow = true) ∧
    (!(loading [] true).domHeld 0 && !(loading [] true).rstLow && !(loading [] true).regB R.RST.BSTA 4 &&
      !(loading [] true).restoring &&
    (decide ((loading [] true).regF R.RST.BSTA 0 4 = 0) || decide ((loading [] true).regF R.RST.BSTA 0 4 = 5))) =
  true ∧
    (((if (loading [] true).rst.bootsel = true then [] else (loading [] true).slotOrder).all fun (x : Nat) =>
    decide ((loading [] true).sourceCode (loading [] true).flash (x * slotSize) ≠ 0)) =
  true) ∧
    (!(loading imageBad false).domHeld 0 && !(loading imageBad false).rstLow &&
        !(loading imageBad false).regB R.RST.BSTA 4 &&
      !(loading imageBad false).restoring &&
    (decide ((loading imageBad false).regF R.RST.BSTA 0 4 = 0) ||
      decide ((loading imageBad false).regF R.RST.BSTA 0 4 = 5))) =
  true ∧
    (((if (loading imageBad false).rst.bootsel = true then [] else (loading imageBad false).slotOrder).all fun (x : Nat) =>
    decide ((loading imageBad false).sourceCode (loading imageBad false).flash (x * slotSize) ≠ 0)) =
  true) ∧
    ((if (loading imageBad false).rst.bootsel = true then [] else (loading imageBad false).slotOrder).getLast?.isSome = true) ∧
    (decide (up.regF R.RST.BSTA 0 4 = 7) = false ∨ up.rst.streaming = false) ∧
    (streaming [] true).writable 1 = true ∧
    decide ((streaming [] true).regF R.RST.BSTA 0 4 = 7) = true ∧
    (streaming [] true).rst.streaming = true ∧
    0 < (List.take 512 [1, 2, 3]).length ∧
    (streaming [] true).sourceCode (streaming [] true).rst.stream 0 ≠ 0 ∧
    (streaming imageBad true).writable 1 = true ∧
    decide ((streaming imageBad true).regF R.RST.BSTA 0 4 = 7) = true ∧
    (streaming imageBad true).rst.streaming = true ∧
    0 < 4 * (streaming imageBad true).regN R.RST.LDCNT ∧
    (restorable imageGood).restoring = true ∧
    (restorable imageGood).rstLow = false ∧
    hashesOk (restorable imageGood).imageInUse.fst (restorable imageGood).imageInUse.snd
    (sections (restorable imageGood).imageInUse.fst (restorable imageGood).imageInUse.snd) =
  true ∧
    (restorable imageBad).restoring = true := by decide +kernel

/-- States and operands that meet the hypotheses of DomainsAndImageLoading. -/
theorem test_wit_DomainsAndImageLoading_3 :
    (restorable imageBad).rstLow = false ∧
    hashesOk (restorable imageBad).imageInUse.fst (restorable imageBad).imageInUse.snd
    (sections (restorable imageBad).imageInUse.fst (restorable imageBad).imageInUse.snd) =
  false := by decide +kernel

def hostReadsAt1 : State := queued { tagged with dmem := [(0x60040010,1#8),(0x60040011,1#8),(0x60040012,1#8),(0x60040013,1#8)] } [readAt 0x60040010]
/-- States and operands that meet the hypotheses of HostOrder. -/
theorem test_wit_HostReads :
    1476399092 % 4 = 0 ∧
    (queued tagged [opR]).paired = false ∧
    (∀ (o : HostOp), o ∈ [] → writesElsewhere 1476399092 o = true) ∧
    (queued tagged [opR]).host.ops = [] ++ [HostOp.read HSrc.hsp 1 1476399092 2] ∧
    (queued tagged [opR]).host.ops = [HostOp.read HSrc.hsp 1 1476399092 2] ∧
    (NMap.get none (queued tagged [opR]).host.tags 1).isSome = true ∧
    (∀ (i : Nat), i < 2 → i < room 1476399092 → (queued tagged [opR]).windowShows (1476399092 + 4 * i) = true) ∧
    1 < 2 ∧
    1 < room 1476399092 ∧
    1074200832 % 4 = 0 ∧
    (queued tagged [readAt 1074200832]).host.ops = [HostOp.read HSrc.hsp 1 1074200832 1] ∧
    (NMap.get none (queued tagged [readAt 1074200832]).host.tags 1).isSome = true ∧
    1 = 1 ∧
    placeOf 1074200832 = some (Place.page 112 256) ∧
    (regDef 112 256).isSome = true ∧
    (queued tagged [readAt 1074200832]).pageUp 112 = true ∧
    256 ≤ 256 ∧
    (queued tagged [readAt 1074200832]).blockRead HSrc.hsp 112 256 = none ∧
    1 < 32 ∧
    (queued tagged [HostOp.read HSrc.hsp 1 1476399092 4]).host.ops = [HostOp.read HSrc.hsp 1 1476399092 4] ∧
    (NMap.get none (queued tagged [HostOp.read HSrc.hsp 1 1476399092 4]).host.tags 1).isSome = true ∧
    3 < 4 ∧
    room 1476399092 ≤ 3 ∧
    1074201084 % 4 = 0 := by decide +kernel

/-- States and operands that meet the hypotheses of HostOrder. -/
theorem test_wit_HostReads_2 :
    (queued tagged [readAt 1074201084]).host.ops = [HostOp.read HSrc.hsp 1 1074201084 1] ∧
    (NMap.get none (queued tagged [readAt 1074201084]).host.tags 1).isSome = true ∧
    placeOf 1074201084 = some (Place.page 112 508) ∧
    (regDef 112 508 = none ∨ (queued tagged [readAt 1074201084]).pageUp 112 = false) ∧
    1610874896 % 4 = 0 ∧
    hostReadsAt1.host.ops = [HostOp.read HSrc.hsp 1 1610874896 1] ∧
    (NMap.get none hostReadsAt1.host.tags 1).isSome = true ∧
    placeOf 1610874896 = some (Place.dmem 0 16) ∧
    (hostReadsAt1.dmemWord 0 16).isSome = true := by decide +kernel

end

end Sys2Proof.Tests
end

section
/-! Proofs: writes and reads of registers by their access codes (chapter 00, R13 to R15). -/

namespace Sys2Proof

/-- A bit of a register, as Mathlib names it. -/
theorem Word.bit_eq_getLsbD (w : Word) (i : Nat) : w.bit i = w.getLsbD i := BitVec.testBit_toNat w

theorem bit_wd (n : Nat) {i : Nat} (hi : i < 32) : (wd n).bit i = n.testBit i := by
  rw [Word.bit_eq_getLsbD, wd, BitVec.getLsbD_ofNat, decide_eq_true hi, Bool.true_and]

/-- Bits of `b` under a mask, bits of `a` elsewhere. -/
theorem Word.bit_merge (a b m : Word) {i : Nat} (hi : i < 32) :
    ((a &&& ~~~ m) ||| (b &&& m)).bit i = if m.bit i then b.bit i else a.bit i := by
  simp only [Word.bit_eq_getLsbD, BitVec.getLsbD_or, BitVec.getLsbD_and, BitVec.getLsbD_not, hi, decide_true,
    Bool.true_and]
  cases m.getLsbD i <;> simp

end Sys2Proof

namespace Sys2Proof.Machine

/-! ### Reads that clear (R13 ROC, R60) -/

/-- A register without ROC bits is left as it is; in another the ROC bits return to the reset value. -/
theorem State.rocRead_of_keyDef (s : State) {k : Nat} {d : RegDef} (hd : keyDef k = some d) :
    s.rocRead k = if d.acc.roc = 0 then s
      else s.setReg k ((s.reg k &&& ~~~ wd d.acc.roc) ||| (wd d.reset &&& wd d.acc.roc)) := by
  unfold State.rocRead
  rw [hd]

theorem State.bit_reg_rocRead (s : State) {k i : Nat} {d : RegDef} (hd : keyDef k = some d) (hi : i < 32) :
    ((s.rocRead k).reg k).bit i = if d.acc.roc.testBit i then d.reset.testBit i else (s.reg k).bit i := by
  rw [s.rocRead_of_keyDef hd]
  by_cases h0 : d.acc.roc = 0
  · simp [h0]
  · rw [if_neg h0, State.reg_setReg_same, Word.bit_merge _ _ _ hi, bit_wd _ hi, bit_wd _ hi]

theorem State.reg_rocRead_ne (s : State) {k j : Nat} (h : j ≠ k) : (s.rocRead k).reg j = s.reg j := by
  cases hd : keyDef k with
  | none => simp [State.rocRead, hd]
  | some d =>
    rw [s.rocRead_of_keyDef hd]
    split
    · rfl
    · exact State.reg_setReg_ne _ _ h

theorem State.rocRead_eq_regs (s : State) (k : Nat) : s.rocRead k = { s with regs := (s.rocRead k).regs } := by
  cases hd : keyDef k with
  | none => simp [State.rocRead, hd]
  | some d =>
    rw [s.rocRead_of_keyDef hd]
    split <;> rfl

theorem exec_rocRead (page off : Nat) (s : State) :
    exec (.rocRead page off) s = .next (s.hostRd page fun t => t.rocRead (page * 0x1000 + off)) := rfl

/-- Settles O15: the read acts on the one register, where it merges the reset value under the mask of the ROC bits. -/
theorem rocReadClears : Obligations.RocReadClears := by
  intro s page off
  refine ⟨fun hdown => ?_, fun hup d hd => ⟨s.rocRead (page * 0x1000 + off), ?_, fun i hi => ?_, fun k hk => ?_, ?_⟩⟩
  · rw [exec_rocRead, State.hostRd_down _ hdown]
  · rw [exec_rocRead, State.hostRd_up _ hup]
  · exact s.bit_reg_rocRead hd hi
  · exact s.reg_rocRead_ne (by simpa using hk)
  · exact s.rocRead_eq_regs _

/-! ### Writes into LDWIN (R15, R503) -/

theorem exec_registerWrite (src : HSrc) (page off : Nat) (v : Word) (s : State) :
    exec (.registerWrite src page off v) s =
      .next (s.hostWr page fun t => (t.hostRegWrite (srcNo src) page off v).tieSettle) := rfl

/-- The RST page takes every write from 0x800 upward for a word of the host stream, whether or not LDWIN has a register at
the offset. -/
theorem State.hostRegWrite_ldwin (s : State) (src : Nat) {off : Nat} (v : Word) (h : 0x800 ≤ off) :
    s.hostRegWrite src rstPage off v = s.ldwin [v] := by
  unfold State.hostRegWrite
  rw [if_neg (by simp; omega), if_neg (by simp; omega), if_pos (by simpa using h)]

/-- While a host stream is open a word written to LDWIN advances LDCNT. -/
theorem State.reg_ldwin_ldcnt (s : State) (v : Word) (hstage : s.stage = 7) (hopen : s.rst.streaming = true) :
    (s.ldwin [v]).reg R.RST.LDCNT = wd (s.regN R.RST.LDCNT + 1) := by
  unfold State.ldwin
  rw [if_neg (by simp [hstage, hopen])]
  exact State.reg_setReg_same ..

/-- Every domain out of reset, no image set found in flash, and the host's stream open (HOSTWAIT, R503). -/
def hostStreaming : State :=
  { State.reset with rst := { State.reset.rst with held := 0, streaming := true } }.setStage 7

/-- Refutes O14: its clause of unassigned offsets. Offset 0x801 of the RST page is unassigned (LDWIN has registers at
multiples of 4; a command with this offset is ill-formed, but the statement asks for every offset), and a write to it while
a host stream is open is taken for a word of the stream, so that LDCNT advances from 0 to 1. -/
theorem not_registerWriteAccess : ¬ Obligations.RegisterWriteAccess := by
  intro h
  obtain ⟨-, -, -, -, hwrites⟩ := h hostStreaming .hsp rstPage 0x801 0
  have hw : hostStreaming.writable rstPage = true := by decide
  obtain ⟨u, hu, hunassigned, -⟩ := hwrites hw
  obtain rfl : u = hostStreaming := hunassigned (by decide)
  have hunpaired : hostStreaming.paired = false := by decide
  have hunpaired' : (hostStreaming.ldwin [0]).paired = false := by decide
  rw [exec_registerWrite, State.hostWr_writable _ hw, State.hostRegWrite_ldwin _ _ _ (by decide),
    State.tieSettle_unpaired hunpaired, State.tieSettle_unpaired hunpaired'] at hu
  have hsame : hostStreaming.ldwin [0] = hostStreaming := by injection hu
  have hcnt := hostStreaming.reg_ldwin_ldcnt 0 (by decide) (by decide)
  rw [hsame] at hcnt
  exact absurd hcnt (by decide)

end Sys2Proof.Machine
end

section
/-! Proofs: the instant at which a period begins (chapter 01, R35, R36, R48, R49; chapter 03, R610). -/

namespace Sys2Proof.Machine

/-! ### Steps that do nothing where their condition does not hold -/

/-- Ring time brought forward changes ring time alone. -/
theorem State.reach_eq (s : State) (x : Nat) : s.reach x = { s with dt64 := (s.reach x).dt64 } := by
  rcases s.reach_cases x with h | ⟨d, h⟩ <;> rw [h]
  rfl

theorem State.paired_congr {s t : State} (h : t.reg R.HPR.PCFG = s.reg R.HPR.PCFG) : t.paired = s.paired := by
  unfold State.paired State.regB
  rw [h]

@[simp] theorem State.paired_reach (s : State) (x : Nat) : (s.reach x).paired = s.paired :=
  State.paired_congr (State.reg_reach ..)

theorem State.pairPeriodEnd_unpaired {s : State} (h : s.paired = false) : s.pairPeriodEnd = s := by
  unfold State.pairPeriodEnd
  rw [h]
  rfl

theorem State.hprBegin_unpaired {s : State} (h : s.paired = false) : s.hprBegin = s := by
  unfold State.hprBegin
  rw [h]
  rfl

theorem State.listenCheck_unpaired {s : State} (h : s.paired = false) : s.listenCheck = s := by
  unfold State.listenCheck State.when
  rw [h]
  rfl

/-- With no accepted value waiting nothing takes effect, and the injection runs on as it did. -/
theorem State.applyAccepted_none {s : State} (p : Nat → Bool) (h : s.accepted = []) : s.applyAccepted p = s := by
  unfold State.applyAccepted State.injCommit
  simp [h]

theorem State.tvBoundary_not_due {s : State} (h : s.datum.tvDue = false) : s.tvBoundary = s := by
  unfold State.tvBoundary
  rw [h]
  rfl

/-! ### The start of the next period -/

/-- The state as period n has become period n + 1, before TRG shows it. -/
def State.nextPeriod (s : State) : State :=
  { s.reach (s.plan.start + s.plan.per) with
    plan := { s.plan with start := s.plan.start + s.plan.per, per := s.regF R.TRG.PER 0 20, pastML := false, fired := 0 } }

@[simp] theorem State.reg_nextPeriod (s : State) (k : Nat) : s.nextPeriod.reg k = s.reg k :=
  State.reg_congr (State.reach_regs ..) k

/-- TRG shows the index and the start of the next period, and the slots' copies are forgotten. -/
def State.showPeriod (s : State) : State :=
  ((s.nextPeriod.setReg R.TRG.PIDX (wd s.nextPidx)).setReg R.TRG.PSTART (wd (s.plan.start + s.plan.per))).clearCopies

theorem State.reg_showPeriod (s : State) (k : Nat) : s.showPeriod.reg k =
    if k = R.TRG.PSTART then wd (s.plan.start + s.plan.per) else if k = R.TRG.PIDX then wd s.nextPidx else s.reg k := by
  have hclear : s.showPeriod.reg k = ((s.nextPeriod.setReg R.TRG.PIDX (wd s.nextPidx)).setReg R.TRG.PSTART
    (wd (s.plan.start + s.plan.per))).reg k := rfl
  rw [hclear, State.reg_setReg, State.reg_setReg, State.reg_nextPeriod]

@[simp] theorem State.paired_showPeriod (s : State) : s.showPeriod.paired = s.paired :=
  State.paired_congr (s.reg_showPeriod _)

/-- The state that a period boundary starts from where the head is unpaired, no accepted value waits and time-valid is not
due to return: the present state, at that instant. -/
theorem State.boundary_settles {s : State} (x : Nat) (hacc : s.accepted = []) (hpaired : s.paired = false)
    (htv : s.datum.tvDue = false) :
    ((s.reach x).pairPeriodEnd.applyAccepted fun _ => true).tvBoundary = s.reach x := by
  rw [State.pairPeriodEnd_unpaired (by simpa), State.applyAccepted_none _ (by simpa), State.tvBoundary_not_due (by simpa)]

theorem State.periodStart_goes_on {s : State} (hstarted : s.plan.started = true) (hacc : s.accepted = [])
    (hpaired : s.paired = false) (htv : s.datum.tvDue = false) (hstop : s.plan.stopAcc = false) :
    s.periodStart = s.showPeriod := by
  have hshow : s.periodStart = s.showPeriod.hprBegin.listenCheck := by
    have hidx : s.nextPeriod.nextPidx = s.nextPidx := by simp [State.nextPidx, State.regN]
    have hper : (s.reach (s.plan.start + s.plan.per)).regF R.TRG.PER 0 20 = s.regF R.TRG.PER 0 20 := by
      simp [State.regF]
    unfold State.periodStart
    rw [if_neg (by simp [hstarted])]
    dsimp only
    rw [State.boundary_settles _ hacc hpaired htv, if_neg (by simp [hstop]), hper, State.reach_plan]
    unfold State.showPeriod
    rw [← hidx]
    rfl
  rw [hshow, State.hprBegin_unpaired (by simpa), State.listenCheck_unpaired (by simpa)]

/-! ### The plan stops -/

/-- A free instant concerns Scribe's drive of RST_N alone, and only where it is due. -/
theorem State.resetFree_frame (s : State) : ∃ c, s.resetFree = { s with scribe := c } ∧
    (s.scribe.resetDue = none → c = s.scribe) := by
  unfold State.resetFree
  split
  · rename_i h
    refine ⟨_, rfl, fun hnone => ?_⟩
    simp [hnone] at h
  · exact ⟨_, rfl, fun _ => rfl⟩

/-- Leg k, held off, keeps no carry. -/
def State.legRecordedOff (s : State) (k : Nat) : State :=
  s.setLeg (0x1000 + k) (legOff (s.leg (0x1000 + k)) s.perNext)

theorem State.foldl_legRecordedOff_frame (l : List Nat) (s : State) :
    ∃ e, l.foldl State.legRecordedOff s = { s with edge := e } := by
  induction l generalizing s with
  | nil => exact ⟨s.edge, rfl⟩
  | cons k l ih =>
    obtain ⟨e, he⟩ := ih (s.legRecordedOff k)
    exact ⟨e, he⟩

/-- The plan no longer runs, and what belongs to it is cleared. -/
def Plan.halted (p : Plan) : Plan :=
  { p with run := false, started := false, stopReq := false, stopAcc := false, restart := false, pastML := false, fired := 0,
           idx0 := none }

/-- The plan and Datum at a stop, before the legs and the registers follow. -/
def State.planDropped (s : State) : State :=
  { s with plan := s.plan.halted,
           datum := { s.datum with autostep := s.datum.foreign.isSome && s.regB R.DTM.DTCTL 4 } }

/-- At a stop the plan is dropped and the legs are recorded off; no register shows it yet. -/
def State.planOff (s : State) : State := (List.range 12).foldl State.legRecordedOff s.planDropped.resetFree

theorem State.planOff_frame (s : State) : ∃ d e c, s.planOff =
    { s with plan := s.plan.halted, datum := d, edge := e, scribe := c } ∧ (s.scribe.resetDue = none → c = s.scribe) := by
  obtain ⟨c, hc, hkeep⟩ := s.planDropped.resetFree_frame
  obtain ⟨e, he⟩ := State.foldl_legRecordedOff_frame (List.range 12) s.planDropped.resetFree
  refine ⟨s.planDropped.datum, e, c, ?_, hkeep⟩
  unfold State.planOff
  rw [he, hc]
  rfl

/-- The TRG page goes idle. -/
def State.trgIdle (s : State) : State := ((s.setEns 9 false).setIdle 9 true).irq 9 1

@[simp] theorem State.jig_trgIdle (s : State) : s.trgIdle.jig = s.jig := rfl

theorem State.trgIdle_frame (s : State) : ∃ r, s.trgIdle = { s with regs := r } := ⟨_, rfl⟩

theorem State.reg_trgIdle_ne (s : State) {k : Nat} (hp : k ≠ R.PSTA 9) (hi : k ≠ R.IRQS 9) :
    s.trgIdle.reg k = s.reg k := by
  unfold State.trgIdle
  rw [State.reg_irq_ne _ hi]
  exact (State.reg_setB_ne _ _ _ hp).trans (State.reg_setB_ne _ _ _ hp)

theorem State.ens_trgIdle (s : State) : s.trgIdle.regB (R.PSTA 9) 0 = false := by
  unfold State.trgIdle State.regB
  rw [State.reg_irq_ne _ (by decide)]
  exact (congrArg (fun w => Word.bit w 0) (State.reg_setB_same ..)).trans
    ((Word.bit_setBit_ne _ _ (by decide) (by decide)).trans (State.regB_setB_same _ _ _ _ (by decide)))

theorem State.idle_trgIdle (s : State) : s.trgIdle.regB (R.PSTA 9) 2 = true := by
  unfold State.trgIdle State.regB
  rw [State.reg_irq_ne _ (by decide)]
  exact State.regB_setB_same _ _ _ _ (by decide)

theorem State.irq_trgIdle (s : State) : s.trgIdle.regB (R.IRQS 9) 1 = true :=
  State.regB_setB_same _ _ _ _ (by decide)

/-- The PLL goes OFF; where it was not, the stack page shows it. -/
def State.pllOff (s : State) : State :=
  s.when (natFld s.jig.lastStk 0 3 ≠ 0) fun t =>
    { t with jig := { t.jig with lastStk := t.jig.lastStk - natFld t.jig.lastStk 0 3 } }.irq 0x71 0

theorem State.pllOff_frame (s : State) : ∃ r j, s.pllOff = { s with regs := r, jig := j } := by
  unfold State.pllOff State.when
  split
  · exact ⟨_, _, rfl⟩
  · exact ⟨_, _, rfl⟩

theorem State.reg_pllOff_ne (s : State) {k : Nat} (hs : k ≠ R.IRQS 0x71) : s.pllOff.reg k = s.reg k := by
  unfold State.pllOff State.when
  split
  · exact State.reg_irq_ne _ hs
  · rfl

theorem State.irq_pllOff {s : State} (h : natFld s.jig.lastStk 0 3 ≠ 0) : s.pllOff.regB (R.IRQS 0x71) 0 = true := by
  unfold State.pllOff State.when
  rw [if_pos (by simpa using h)]
  exact State.regB_setB_same _ _ _ _ (by decide)

theorem State.planHalt_running {s : State} (h : s.plan.run = true) : s.planHalt = s.planOff.trgIdle.pllOff := by
  unfold State.planHalt
  rw [if_neg (by simp [h])]
  rfl

theorem State.planHalt_frame {s : State} (h : s.plan.run = true) : ∃ r d e j c, s.planHalt =
    { s with regs := r, plan := s.plan.halted, datum := d, edge := e, jig := j, scribe := c } ∧
    (s.scribe.resetDue = none → c = s.scribe) := by
  obtain ⟨d, e, c, hoff, hkeep⟩ := s.planOff_frame
  obtain ⟨r, hr⟩ := s.planOff.trgIdle_frame
  obtain ⟨r', j, hj⟩ := s.planOff.trgIdle.pllOff_frame
  exact ⟨r', d, e, j, c, by rw [State.planHalt_running h, hj, hr, hoff], hkeep⟩

theorem State.reg_planOff (s : State) (k : Nat) : s.planOff.reg k = s.reg k := by
  obtain ⟨_, _, _, hoff, -⟩ := s.planOff_frame
  rw [hoff]
  rfl

theorem State.reg_planHalt {s : State} (h : s.plan.run = true) {k : Nat} (hp : k ≠ R.PSTA 9) (hi : k ≠ R.IRQS 9)
    (hs : k ≠ R.IRQS 0x71) : s.planHalt.reg k = s.reg k := by
  rw [State.planHalt_running h, State.reg_pllOff_ne _ hs, State.reg_trgIdle_ne _ hp hi, State.reg_planOff]

theorem State.regB_planHalt {s : State} (h : s.plan.run = true) {k : Nat} (i : Nat) (hk : k ≠ R.IRQS 0x71) :
    s.planHalt.regB k i = s.planOff.trgIdle.regB k i := by
  unfold State.regB
  rw [State.planHalt_running h, State.reg_pllOff_ne _ hk]

theorem State.irq_planHalt {s : State} (h : s.plan.run = true) (hpll : natFld s.jig.lastStk 0 3 ≠ 0) :
    s.planHalt.regB (R.IRQS 0x71) 0 = true := by
  obtain ⟨_, _, _, hoff, -⟩ := s.planOff_frame
  rw [State.planHalt_running h]
  exact State.irq_pllOff (by rwa [State.jig_trgIdle, hoff])

/-- The state after a stop that no new start follows: the last output boundary is due. -/
def State.haltedAt (s : State) (x : Nat) : State :=
  { (s.reach x).planHalt with
    plan := { (s.reach x).planHalt.plan with
      start := x, lastBoundary := some (x + (s.reach x).planHalt.regF R.TRG.PHI 0 20) } }

theorem State.periodStart_stops {s : State} (hstarted : s.plan.started = true) (hacc : s.accepted = [])
    (hpaired : s.paired = false) (htv : s.datum.tvDue = false) (hstop : s.plan.stopAcc = true)
    (hrestart : s.plan.restart = false) : s.periodStart = s.haltedAt (s.plan.start + s.plan.per) := by
  unfold State.periodStart
  rw [if_neg (by simp [hstarted])]
  dsimp only
  rw [State.boundary_settles _ hacc hpaired htv, if_pos (by simp [hstop]), if_neg (by simp [hrestart])]
  rfl

/-- After the halt no plan runs, TRG and the stack page show it, and the boundary at φ_out is due. -/
theorem State.haltedAt_stops (s : State) (hrun : s.plan.run = true) (x : Nat) :
    (s.haltedAt x).plan.run = false ∧ (s.haltedAt x).plan.started = false ∧
      (s.haltedAt x).plan.lastBoundary = some (x + s.regF R.TRG.PHI 0 20) ∧ (s.haltedAt x).ens 9 = false ∧
      (s.haltedAt x).regB (R.PSTA 9) 2 = true ∧ (s.haltedAt x).regB (R.IRQS 9) 1 = true ∧
      (natFld s.jig.lastStk 0 3 ≠ 0 → (s.haltedAt x).regB (R.IRQS 0x71) 0 = true) ∧
      regsBut s (s.haltedAt x) [R.PSTA 9, R.IRQS 9, R.IRQS 0x71] ∧
      s.haltedAt x = { s with
        dt64 := (s.haltedAt x).dt64, regs := (s.haltedAt x).regs, plan := (s.haltedAt x).plan,
        datum := (s.haltedAt x).datum, edge := (s.haltedAt x).edge, jig := (s.haltedAt x).jig,
        scribe := (s.haltedAt x).scribe } ∧
      (s.scribe.resetDue = none → (s.haltedAt x).scribe = s.scribe) := by
  have hrun' : (s.reach x).plan.run = true := by simpa
  have hregB : ∀ (k i : Nat), k ≠ R.IRQS 0x71 → (s.haltedAt x).regB k i = (s.reach x).planOff.trgIdle.regB k i :=
    fun k i hk => State.regB_planHalt hrun' i hk
  have hphi : (s.reach x).planHalt.regF R.TRG.PHI 0 20 = s.regF R.TRG.PHI 0 20 := by
    unfold State.regF
    rw [State.reg_planHalt hrun' (by decide) (by decide) (by decide), State.reg_reach]
  obtain ⟨r, d, e, j, c, hhalt, hkeep⟩ := State.planHalt_frame hrun'
  have hframe : s.haltedAt x = { s with
      dt64 := (s.reach x).dt64, regs := r, datum := d, edge := e, jig := j, scribe := c,
      plan := { s.plan.halted with start := x, lastBoundary := some (x + s.regF R.TRG.PHI 0 20) } } := by
    unfold State.haltedAt
    rw [hphi, hhalt, State.reach_eq]
  refine ⟨?_, ?_, ?_, ?_, ?_, ?_, fun hpll => ?_, fun k hk => ?_, ?_, fun hdue => ?_⟩
  · rw [hframe]; rfl
  · rw [hframe]; rfl
  · rw [hframe]
  · exact (hregB _ _ (by decide)).trans (State.ens_trgIdle _)
  · exact (hregB _ _ (by decide)).trans (State.idle_trgIdle _)
  · exact (hregB _ _ (by decide)).trans (State.irq_trgIdle _)
  · exact State.irq_planHalt hrun' (by simpa)
  · obtain ⟨hp, hi, hs⟩ : k ≠ R.PSTA 9 ∧ k ≠ R.IRQS 9 ∧ k ≠ R.IRQS 0x71 := by simpa using hk
    exact (State.reg_planHalt hrun' hp hi hs).trans (State.reg_reach ..)
  · rw [hframe]
  · rw [hframe]
    exact (hkeep (by simpa)).trans (State.reach_scribe ..)

/-- Settles O9: the boundary is the showing of the next period, or the halt of the plan. -/
theorem periodBoundary : Obligations.PeriodBoundary := by
  intro s hrun hstarted hacc hpaired htv
  refine ⟨fun hstop => ⟨s.showPeriod, ?_, rfl, rfl, hstarted, rfl, rfl, ?_, ?_, fun k hk => ?_, ?_⟩, fun hstop hrestart =>
    ⟨s.haltedAt (s.plan.start + s.plan.per), ?_, ?_⟩⟩
  · rw [← State.periodStart_goes_on hstarted hacc hpaired htv hstop]
    rfl
  · exact s.reg_showPeriod _
  · exact s.reg_showPeriod _
  · obtain ⟨hidx, hstart⟩ : k ≠ R.TRG.PIDX ∧ k ≠ R.TRG.PSTART := by simpa using hk
    rw [State.reg_showPeriod, if_neg hstart, if_neg hidx]
  · unfold State.showPeriod State.nextPeriod
    rw [State.reach_eq]
    rfl
  · rw [← State.periodStart_stops hstarted hacc hpaired htv hstop hrestart]
    rfl
  · exact s.haltedAt_stops hrun _

end Sys2Proof.Machine
end

section
/-! Proofs: the recognition of a channel and the comparison of a shadow pair (chapter 08, R276, R281, R287 to R289). -/

namespace Sys2Proof.Machine

theorem exec_channelRecognised_ts2 (d : Nat) (s : State) :
    exec (.channelRecognised 2 d) s = .next ((s.channelRecognised 2 d).calRecognised 2) := rfl

/-- Without a shipped program set no stage of it is released. -/
theorem State.calRecognised_unshipped {s : State} (k : Nat) (h : s.shipped.stack = false) : s.calRecognised k = s := by
  unfold State.calRecognised
  simp [h]

/-! ### TS2 ends the comparison of a period -/

@[simp] theorem State.setPc_shadow7 (s : State) (n a : Nat) : (s.setPc n a).shadow7 = s.shadow7 := rfl
@[simp] theorem State.setEng_shadow7 (s : State) (n : Nat) (e : Eng) : (s.setEng n e).shadow7 = s.shadow7 := rfl
@[simp] theorem State.setSh_shadow7 (s : State) (i : Nat) (b : Bool) : (s.setSh i b).shadow7 = s.shadow7 := rfl
@[simp] theorem State.setEst_shadow7 (s : State) (n st ch : Nat) : (s.setEst n st ch).shadow7 = s.shadow7 := rfl

@[simp] theorem State.pe7Home_shadow7 (s : State) : s.pe7Home.shadow7 = s.shadow7 := by
  unfold State.pe7Home
  dsimp only
  split <;> simp

/-- A difference ends the comparison (R289). -/
theorem State.shadowFail_live (s : State) (addr : Option Nat) : (s.shadowFail addr).shadow7.live = false := by
  unfold State.shadowFail
  simp

/-- After TS2 no comparison goes on, in whatever mode PE7 is. -/
theorem State.shadowTs2_live (s : State) (overT overS : Bool) : (s.shadowTs2 overT overS).shadow7.live = false := by
  have hend : ∀ u : State, (if u.pe7Mode = 1 && u.shadow7.waiting && u.engState u.pe7Target = 1 then
      { u with shadow7 := { u.shadow7 with waiting := false } }.setSh 0 true else u).shadow7.live = u.shadow7.live := by
    intro u
    split <;> simp
  unfold State.shadowTs2
  dsimp only
  rw [hend]
  split
  · split
    · rfl
    · exact State.shadowFail_live _ _
  · rename_i hidle
    simpa using hidle

theorem State.channelRecognised_ts2_live (s : State) (d : Nat) : (s.channelRecognised 2 d).shadow7.live = false := by
  unfold State.channelRecognised
  exact State.shadowTs2_live _ _ _

/-- The reset state, in which PE7 is FREE, with the mark of a comparison under way in which a store of TARGET's waits for its
match. -/
def comparingFree : State := { State.reset with shadow7 := { live := true, tgt := [(0, 0)] } }

theorem comparingFree_ts2_unshipped : (comparingFree.channelRecognised 2 0).shipped.stack = false := by decide +kernel

/-- Refutes O37: its frame at TS2, which names no part of PE7's comparison. Of PE7 the statement asks only that it is not in
SHADOW; the state may still hold the mark `shadow7.live` of a comparison under way, and TS2 ends a comparison whatever the
mode is, so that the mark does not stay as it was. (The commands that take PE7 out of SHADOW clear the mark; no hypothesis
of the statement says so.) -/
theorem not_channelReleasesEngines : ¬ Obligations.ChannelReleasesEngines := by
  rintro ⟨hrecognised, -⟩
  obtain ⟨t, hnext, -, -, -, -, hframe⟩ := hrecognised comparingFree 2 0 (by decide) (by decide) _ rfl
  have hkept : t.shadow7.live = true := by rw [hframe]; rfl
  rw [exec_channelRecognised_ts2, State.calRecognised_unshipped 2 comparingFree_ts2_unshipped] at hnext
  obtain rfl : comparingFree.channelRecognised 2 0 = t := by injection hnext
  have hended := comparingFree.channelRecognised_ts2_live 0
  exact absurd (hkept.symm.trans hended) (by decide)

end Sys2Proof.Machine
end

section
/-! Proofs: the frames that a head launches (chapter 05, R153, R154; chapter 03, R116; chapter 04, R137). -/

namespace Sys2Proof.Machine

/-! ### The header of a frame -/

/-- The header's fields as the readers of a frame find them (R154). -/
theorem frame_header_fields (type : Nat) (rev : Bool) (hid ring len pidx : Nat) (tv : Bool) (dstate : Nat)
    (resync relay : Bool) (payload : List Byte) (htype : type < 16) (hhid : hid < 2) (hring : ring < 32) :
    ∀ f, f = frameOf (frameHeader type rev hid ring len pidx tv dstate resync relay) payload →
      frameType f = type ∧ frameRev f = rev ∧ frameRing f = ring ∧ framePidx f = pidx % 65536 ∧
      frameLen f = len % 2048 := by
  rintro f rfl
  have hfirst : type * 16 + b2n rev * 8 + hid * 2 < 256 := by cases rev <;> simp [b2n] <;> omega
  have hrev : (type * 16 + b2n rev * 8 + hid * 2) / 8 % 2 = b2n rev := by cases rev <;> simp [b2n] <;> omega
  refine ⟨?_, ?_, ?_, ?_, ?_⟩
  · simp [frameType, byteAt, frameOf, frameHeader, Nat.mod_eq_of_lt hfirst]
    cases rev <;> simp [b2n] <;> omega
  · simp [frameRev, byteAt, frameOf, frameHeader, Nat.mod_eq_of_lt hfirst, Nat.testBit_eq_decide_div_mod_eq, hrev]
    cases rev <;> rfl
  · simp [frameRing, byteAt, frameOf, frameHeader]
    omega
  · simp [framePidx, leAt, frameOf, frameHeader, natLe, leNat]
    omega
  · simp [frameLen, leAt, frameOf, frameHeader, natLe, leNat]
    omega

theorem State.hid_lt (s : State) : s.hid < 2 := Nat.mod_lt _ (by decide)

/-! ### What is sent -/

@[simp] theorem State.send_out (s : State) (l : List OutFrame) : (s.send l).out = l := rfl

/-- Of the state, sending concerns the lanes' transmitters and what stands in `out`. -/
theorem State.send_frame (s : State) (l : List OutFrame) : ∃ x, s.send l = { s with lanes := x, out := l } := by
  have hline : ∀ (u : State) (f : OutFrame), ∃ x, u.txLine f = { u with lanes := x } := by
    intro u f
    cases f <;> exact ⟨_, rfl⟩
  have hfold : ∀ u : State, ∃ x, l.foldl State.txLine u = { u with lanes := x } := by
    induction l with
    | nil => exact fun u => ⟨u.lanes, rfl⟩
    | cons f l ih =>
      intro u
      obtain ⟨x, hx⟩ := hline u f
      obtain ⟨y, hy⟩ := ih (u.txLine f)
      exact ⟨y, by rw [List.foldl_cons, hy, hx]⟩
  obtain ⟨x, hx⟩ := hfold s
  exact ⟨x, by rw [State.send, hx]⟩

theorem State.paired_launch (s : State) (t : Nat) (fs : List (Nat × Bool × List Byte)) :
    (s.launch t fs).paired = s.paired := by
  obtain ⟨x, hx⟩ := s.send_frame (fs.map fun p => s.exlOut p.1 p.2.1 t p.2.2).flatten
  rw [State.launch, hx]
  rfl

/-- A frame for a ring direction whose lane is UP leaves on that lane, from a head whose ring transmitters are lit. -/
theorem State.exl_mem_launch {s : State} {fs : List (Nat × Bool × List Byte)} {r n : Nat} {rev : Bool} {b : List Byte}
    (t : Nat) (hmem : (r, rev, b) ∈ fs) (hlane : s.txLane r rev = some n) (hup : s.laneUp n = true)
    (hlit : s.onRing = true) : OutFrame.exl n t b ∈ (s.launch t fs).out := by
  rw [State.launch, State.send_out, List.mem_flatten]
  refine ⟨s.exlOut r rev t b, List.mem_map.2 ⟨_, hmem, rfl⟩, ?_⟩
  simp [State.exlOut, hlane, hup, hlit]

theorem State.mem_ringsInMap {s : State} {r : Nat} : r ∈ s.ringsInMap ↔ r < 32 ∧ 0 < s.ringCells r := by
  simp [State.ringsInMap, Nat.blt_eq]

theorem State.mem_ringDirs {s : State} {r : Nat} (hr : r < 32) (hcells : 0 < s.ringCells r) (rev : Bool) :
    (r, rev) ∈ s.ringDirs := by
  rw [State.ringDirs, List.mem_flatten]
  refine ⟨_, List.mem_map.2 ⟨r, State.mem_ringsInMap.2 ⟨hr, hcells⟩, rfl⟩, ?_⟩
  cases rev <;> simp

theorem State.onRing_unpaired {s : State} (h : s.paired = false) : s.onRing = true := by
  unfold State.onRing
  simp [h]

theorem State.active_unpaired {s : State} (h : s.paired = false) : s.active = true := by
  unfold State.active
  simp [h]

/-! ### What a launch reads of the state -/

/-- The registers that a launch of the plan's frames reads are among these: those of the pages below the rings', a ring's
configuration, and the configuration and status of the pairing. -/
abbrev launchKey (k : Nat) : Prop :=
  0x100 ≤ k % 0x1000 ∧ (k < 0x30000 ∨ k < 0x50000 ∧ k % 0x1000 = 0x100 ∨ 0x88000 ≤ k ∧ k % 0x1000 < 0x108)

/-- `t` is as `s` in what a launch of the plan's frames reads. -/
structure SameLaunch (s t : State) : Prop where
  plan : t.plan = s.plan
  restoring : t.restoring = s.restoring
  reg : ∀ k, launchKey k → t.reg k = s.reg k

namespace SameLaunch

theorem refl (s : State) : SameLaunch s s := ⟨rfl, rfl, fun _ _ => rfl⟩

theorem trans {s t u : State} (h : SameLaunch s t) (h' : SameLaunch t u) : SameLaunch s u :=
  ⟨h'.plan.trans h.plan, h'.restoring.trans h.restoring, fun k hk => (h'.reg k hk).trans (h.reg k hk)⟩

/-- Steps that change no register at all. -/
theorem of_regs {s t : State} (hplan : t.plan = s.plan) (hrestoring : t.restoring = s.restoring) (hregs : t.regs = s.regs) :
    SameLaunch s t := ⟨hplan, hrestoring, fun k _ => State.reg_congr hregs k⟩

theorem setReg (s : State) {k : Nat} (v : Word) (hk : ¬ launchKey k) : SameLaunch s (s.setReg k v) :=
  ⟨rfl, rfl, fun _ hj => State.reg_setReg_ne _ _ fun e => hk (e ▸ hj)⟩

theorem setF (s : State) {k : Nat} (lo len v : Nat) (hk : ¬ launchKey k) : SameLaunch s (s.setF k lo len v) := setReg s _ hk

theorem setB (s : State) {k : Nat} (i : Nat) (b : Bool) (hk : ¬ launchKey k) : SameLaunch s (s.setB k i b) := setReg s _ hk

theorem irq (s : State) (page bit : Nat) : SameLaunch s (s.irq page bit) :=
  setB s _ _ (by unfold launchKey R.IRQS; omega)

theorem fault (s : State) (src page a m acc d : Nat) : SameLaunch s (s.fault src page a m acc d) := of_regs rfl rfl rfl

theorem reach (s : State) (x : Nat) : SameLaunch s (s.reach x) :=
  of_regs (State.reach_plan ..) (State.reach_restoring ..) (State.reach_regs ..)

theorem when (s : State) (c : Bool) {f : State → State} (hf : ∀ t, SameLaunch t (f t)) : SameLaunch s (s.when c f) := by
  unfold State.when
  split
  · exact hf s
  · exact refl s

theorem foldl {α : Type} {f : State → α → State} (hf : ∀ t x, SameLaunch t (f t x)) (l : List α) (s : State) :
    SameLaunch s (l.foldl f s) := by
  induction l generalizing s with
  | nil => exact refl s
  | cons x l ih => exact (hf s x).trans (ih (f s x))

section
variable {s t : State} (h : SameLaunch s t)
include h

theorem paired : t.paired = s.paired := State.paired_congr (h.reg _ (by decide))

theorem regF {k : Nat} (lo len : Nat) (hk : launchKey k) : t.regF k lo len = s.regF k lo len := by
  unfold State.regF
  rw [h.reg k hk]

theorem pidx : t.regN R.TRG.PIDX = s.regN R.TRG.PIDX := congrArg BitVec.toNat (h.reg _ (by decide))

theorem nextPidx : t.nextPidx = s.nextPidx := by
  unfold State.nextPidx
  rw [h.pidx]

theorem tML : t.tML = s.tML := by
  unfold State.tML
  rw [h.plan, h.regF _ _ (by decide)]

theorem tCC : t.tCC = s.tCC := by
  unfold State.tCC
  rw [h.plan, h.regF _ _ (by decide)]

theorem ringCells {r : Nat} (hr : r < 32) : t.ringCells r = s.ringCells r :=
  h.regF _ _ (by unfold launchKey R.RNG.RCFG; omega)

theorem ringsInMap : t.ringsInMap = s.ringsInMap :=
  List.filter_congr fun _ hr => by rw [h.ringCells (List.mem_range.1 hr)]

theorem ringDirs : t.ringDirs = s.ringDirs := by
  unfold State.ringDirs
  rw [h.ringsInMap]

theorem lnmap {n : Nat} (hn : n < 32) : t.lnmap n = s.lnmap n := by
  unfold State.lnmap State.isTie State.tieLane
  rw [h.paired, h.regF _ _ (by decide), h.reg _ (by unfold launchKey R.LNE.LNMAP; omega)]

theorem laneIn (ring : Nat) (roles : List Nat) : t.laneIn ring roles = s.laneIn ring roles := by
  unfold State.laneIn State.lnRole
  refine List.find?_congr fun n hn => ?_
  rw [h.lnmap (List.mem_range.1 hn)]

theorem txLane (ring : Nat) (rev : Bool) : t.txLane ring rev = s.txLane ring rev := by
  unfold State.txLane State.regB
  rw [h.laneIn, h.laneIn, h.reg _ (by decide)]

theorem laneUp {n : Nat} (hn : n < 32) : t.laneUp n = s.laneUp n := by
  unfold State.laneUp State.laneState
  rw [h.regF _ _ (by unfold launchKey R.LNE.LNSTA; omega)]

end
end SameLaunch

theorem State.laneIn_lt {s : State} {ring n : Nat} {roles : List Nat} (h : s.laneIn ring roles = some n) : n < 32 :=
  List.mem_range.1 (List.mem_of_find?_eq_some h)

theorem State.txLane_lt {s : State} {ring n : Nat} {rev : Bool} (h : s.txLane ring rev = some n) : n < 32 := by
  unfold State.txLane at h
  split at h
  · cases h
    exact State.laneIn_lt ‹_›
  · split at h
    · exact State.laneIn_lt h
    · cases h

/-- A launch from a state that is as `s` in what it reads puts its frames on the lanes that are UP in `s`. -/
theorem SameLaunch.exl_mem_launch {s u : State} (h : SameLaunch s u) (hpaired : s.paired = false)
    {fs : List (Nat × Bool × List Byte)} {r n : Nat} {rev : Bool} {b : List Byte} (t : Nat) (hmem : (r, rev, b) ∈ fs)
    (hlane : s.txLane r rev = some n) (hup : s.laneUp n = true) : OutFrame.exl n t b ∈ (u.launch t fs).out :=
  State.exl_mem_launch t hmem ((h.txLane ..).trans hlane) ((h.laneUp (State.txLane_lt hlane)).trans hup)
    (State.onRing_unpaired (h.paired.trans hpaired))

/-! ### The collectors and the beacons -/

/-- The collector of a direction carries the index of the executing period (R168). -/
theorem State.mem_collectors {s : State} {r : Nat} (hr : r < 32) (hcells : 0 < s.ringCells r) (rev : Bool) :
    ∃ b, (r, rev, b) ∈ s.collectors ∧ frameType b = 2 ∧ framePidx b = s.regN R.TRG.PIDX % 65536 ∧ frameRing b = r ∧
      frameRev b = rev := by
  obtain ⟨htype, hrev, hring, hpidx, -⟩ := frame_header_fields 2 rev s.hid r _ (s.regN R.TRG.PIDX) s.datum.tv s.dstate
    false false _ (by decide) s.hid_lt hr _ rfl
  exact ⟨_, List.mem_map.2 ⟨(r, rev), State.mem_ringDirs hr hcells rev, rfl⟩, htype, hpidx, hring, hrev⟩

/-- The beacon of a direction carries the index of the executing period, and 8 bytes where that is a multiple of 16
(R106, R180). -/
theorem State.mem_beacons {s : State} {r : Nat} (hr : r < 32) (hcells : 0 < s.ringCells r) (rev : Bool) :
    ∃ b, (r, rev, b) ∈ s.beacons ∧ frameType b = 3 ∧ framePidx b = s.regN R.TRG.PIDX % 65536 ∧
      frameLen b = if s.regN R.TRG.PIDX % 16 = 0 then 8 else 0 := by
  obtain ⟨htype, -, -, hpidx, hlen⟩ := frame_header_fields 3 rev s.hid r _ (s.regN R.TRG.PIDX) s.datum.tv s.dstate
    false false _ (by decide) s.hid_lt hr _ rfl
  refine ⟨_, List.mem_map.2 ⟨(r, rev), State.mem_ringDirs hr hcells rev, rfl⟩, htype, hpidx, hlen.trans ?_⟩
  split
  · rw [natLe_length]
  · rfl

/-- A command frame of a ring carries the index of the period it is framed for (R165). -/
theorem State.mem_commands {s : State} {m r : Nat} (hr : r < 32) {l : List (Nat × Bool × List Byte)}
    (hmem : r ∈ l.map Prod.fst) (rev : Bool) :
    ∃ b, (r, rev, b) ∈ s.commands m l ∧ frameType b = 1 ∧ framePidx b = m % 65536 ∧ frameRing b = r ∧ frameRev b = rev := by
  obtain ⟨q, hq, rfl⟩ := List.mem_map.1 hmem
  obtain ⟨htype, hrev, hring, hpidx, -⟩ := frame_header_fields 1 rev s.hid q.1 q.2.2.length m s.datum.tv s.dstate
    q.2.1 false q.2.2 (by decide) s.hid_lt hr _ rfl
  refine ⟨_, ?_, htype, hpidx, hring, hrev⟩
  rw [State.commands, List.mem_flatten]
  refine ⟨_, List.mem_map.2 ⟨q, hq, rfl⟩, ?_⟩
  cases rev
  · exact List.mem_cons_self ..
  · exact List.mem_cons_of_mem _ (List.mem_cons_self ..)

end Sys2Proof.Machine
end

section
/-! Proofs: the events of a period that launch frames outside t_ML (chapter 05, R168; chapter 03, R106), and the pass of JG1
at t_CC, which sends nothing (chapter 10). -/

namespace Sys2Proof.Machine

/-! ### What every part of an operation leaves alone, the operation leaves alone -/

theorem State.foldl_keeps {α β : Type} (view : State → β) {f : State → α → State} (hf : ∀ t x, view (f t x) = view t)
    (l : List α) (s : State) : view (l.foldl f s) = view s := by
  induction l generalizing s with
  | nil => rfl
  | cons x l ih => exact (ih (f s x)).trans (hf s x)

/-! ### JG1's pass and the P_thermal write send nothing -/

@[simp] theorem State.out_setInst (s : State) (i : Nat) (j : JInst) : (s.setInst i j).out = s.out := rfl
@[simp] theorem State.out_jigEvent (s : State) (i e : Nat) : (s.jigEvent i e).out = s.out := rfl
@[simp] theorem State.out_srsyncAt (s : State) (a : Nat) : (s.srsyncAt a).out = s.out := rfl

/-- A claim by a port from 9 upward changes the engines' accesses that coincide with it. -/
theorem State.csmClaim_frame (s : State) (a len : Nat) : ∃ e, s.csmClaim a len = { s with eng := e } := by
  have hclaim : ∀ (ns : List Nat) (u : State), ∃ e, ns.foldl (fun t n =>
      if (t.engine n).acc.any fun x => x.meets a len then
        t.setEng n { t.engine n with acc := s.claimed a len (t.engine n).acc }
      else t) u = { u with eng := e } := by
    intro ns
    induction ns with
    | nil => exact fun u => ⟨u.eng, rfl⟩
    | cons n ns ih =>
      intro u
      rw [List.foldl_cons]
      split
      · obtain ⟨e, he⟩ := ih (u.setEng n { u.engine n with acc := s.claimed a len (u.engine n).acc })
        exact ⟨e, he⟩
      · exact ih u
  exact hclaim (List.range 9) s

/-- A store by a port from 9 upward changes memory beside. -/
theorem State.portBytes_frame (s : State) (a : Nat) (l : List Byte) :
    ∃ e, s.portBytes a l = { s with mem := s.mem.portBytes a l, eng := e } := by
  obtain ⟨e, he⟩ := s.csmClaim_frame a l.length
  refine ⟨e, ?_⟩
  unfold State.portBytes
  rw [he]

@[simp] theorem State.out_portWord (s : State) (a : Nat) (w : Word) : (s.portWord a w).out = s.out := by
  obtain ⟨e, he⟩ := s.portBytes_frame a (natLe 4 w.toNat)
  rw [State.portWord, he]

@[simp] theorem State.reg_portWord (s : State) (a : Nat) (w : Word) (k : Nat) : (s.portWord a w).reg k = s.reg k := by
  obtain ⟨e, he⟩ := s.portBytes_frame a (natLe 4 w.toNat)
  rw [State.portWord, he]
  rfl

@[simp] theorem State.out_allCells (s : State) (e : Nat) : (s.allCells e).out = s.out :=
  State.foldl_keeps State.out (fun t a => State.out_jigEvent t a e) _ _

@[simp] theorem State.out_rampDown (s : State) : s.rampDown.out = s.out := by
  unfold State.rampDown
  split <;> rfl

@[simp] theorem State.out_rampOff (s : State) : s.rampOff.out = s.out := by
  unfold State.rampOff
  split <;> rfl

@[simp] theorem State.out_jigAction (s : State) (i code : Nat) : (s.jigAction i code).out = s.out := by
  unfold State.jigAction
  split <;> simp

@[simp] theorem State.out_cmdDone (s : State) (i result : Nat) : (s.cmdDone i result).out = s.out := by
  unfold State.cmdDone
  simp [State.when, apply_ite State.out]

@[simp] theorem State.out_takeEntry (s : State) (i : Nat) (w : Word) : (s.takeEntry i w).out = s.out := by
  unfold State.takeEntry
  simp [State.when, apply_ite State.out]

@[simp] theorem State.out_takeEvents (s : State) (i fuel e : Nat) : (s.takeEvents i fuel e).out = s.out := by
  induction fuel generalizing s e with
  | zero => rfl
  | succ fuel ih =>
    unfold State.takeEvents
    simp [apply_ite State.out, ih]

@[simp] theorem State.out_jigTimer (s : State) (i : Nat) (pass : Bool) : (s.jigTimer i pass).out = s.out := by
  unfold State.jigTimer
  simp [apply_ite State.out]

@[simp] theorem State.out_passTime (s : State) (eng cycles : Nat) : (s.passTime eng cycles).out = s.out := by
  unfold State.passTime
  simp [State.when, apply_ite State.out]

@[simp] theorem State.out_stackEvents (s : State) : s.stackEvents.out = s.out := by
  unfold State.stackEvents
  simp [apply_ite State.out]

@[simp] theorem State.out_thermWrite (s : State) : s.thermWrite.out = s.out := by
  unfold State.thermWrite
  simp [State.when, apply_ite State.out]

theorem State.paired_thermWrite (s : State) : s.thermWrite.paired = s.paired := by
  refine State.paired_congr ?_
  have hmon : ∀ (u : State) (v : Nat) (c : Bool),
      ((u.setF R.MON.TLIM 16 16 v).when c fun t => t.jigEvent stackInst 11).reg R.HPR.PCFG = u.reg R.HPR.PCFG := by
    intro u v c
    unfold State.when
    split <;> exact State.reg_setF_ne _ _ _ _ (by decide)
  unfold State.thermWrite
  exact (hmon _ _ _).trans (State.reg_portWord ..)

theorem State.jigFollow_unpaired {s : State} (h : s.paired = false) : s.jigFollow = s := by
  unfold State.jigFollow
  rw [if_pos (by simp [h])]

theorem State.out_jg1Pass {s : State} (cycles : Nat) (h : s.paired = false) : (s.jg1Pass cycles).out = s.out := by
  unfold State.jg1Pass
  rw [State.jigFollow_unpaired h]
  simp [apply_ite State.out]

/-! ### The collectors and the beacons leave -/

theorem State.collectorLaunch_sends {s : State} (hpaired : s.paired = false) (hstarted : s.plan.started = true) {r n : Nat}
    {rev : Bool} (hr : r < 32) (hcells : 0 < s.ringCells r) (hlane : s.txLane r rev = some n) (hup : s.laneUp n = true) :
    ∃ b, OutFrame.exl n (s.plan.start + s.regF R.TRG.TCL 0 20) b ∈ s.collectorLaunch.out ∧ frameType b = 2 ∧
      framePidx b = s.regN R.TRG.PIDX % 65536 ∧ frameRing b = r ∧ frameRev b = rev := by
  have hat := SameLaunch.reach s (s.plan.start + s.regF R.TRG.TCL 0 20)
  obtain ⟨b, hmem, htype, hpidx, hring, hrev⟩ := State.mem_collectors hr (hat.ringCells hr ▸ hcells) rev
  refine ⟨b, ?_, htype, hat.pidx ▸ hpidx, hring, hrev⟩
  unfold State.collectorLaunch
  rw [if_neg (by simp [hstarted])]
  exact hat.exl_mem_launch hpaired _ hmem hlane hup

/-- TS3 of an unpaired head: its beacons leave, and what follows sends nothing. -/
theorem State.out_commandClose {s : State} (cycles : Nat) (hpaired : s.paired = false) (hstarted : s.plan.started = true) :
    (s.commandClose cycles).out = ((s.reach s.tCC).launch s.tCC (s.reach s.tCC).beacons).out := by
  have hactive : (s.reach s.tCC).active = true := State.active_unpaired (by simpa)
  have hstill : ((s.reach s.tCC).launch s.tCC (s.reach s.tCC).beacons).thermWrite.paired = false := by
    rw [State.paired_thermWrite, State.paired_launch, State.paired_reach, hpaired]
  unfold State.commandClose
  rw [if_neg (by simp [hstarted])]
  dsimp only
  rw [if_pos hactive]
  exact (State.out_jg1Pass cycles hstill).trans (State.out_thermWrite _)

theorem State.commandClose_sends {s : State} (cycles : Nat) (hpaired : s.paired = false) (hstarted : s.plan.started = true)
    {r n : Nat} {rev : Bool} (hr : r < 32) (hcells : 0 < s.ringCells r) (hlane : s.txLane r rev = some n)
    (hup : s.laneUp n = true) :
    ∃ b, OutFrame.exl n s.tCC b ∈ (s.commandClose cycles).out ∧ frameType b = 3 ∧
      framePidx b = s.regN R.TRG.PIDX % 65536 ∧ frameLen b = (if s.regN R.TRG.PIDX % 16 = 0 then 8 else 0) := by
  have hat := SameLaunch.reach s s.tCC
  obtain ⟨b, hmem, htype, hpidx, hlen⟩ := State.mem_beacons hr (hat.ringCells hr ▸ hcells) rev
  refine ⟨b, ?_, htype, hat.pidx ▸ hpidx, hat.pidx ▸ hlen⟩
  rw [State.out_commandClose cycles hpaired hstarted]
  exact hat.exl_mem_launch hpaired _ hmem hlane hup

end Sys2Proof.Machine
end

section
/-! Proofs: the slots as sent stand in their images (chapter 06, R203; chapter 05, R165). -/

namespace Sys2Proof.Machine

/-! ### Bytes stored by a crossbar port -/

/-- A store by a port changes no byte outside the bytes it names. -/
theorem Memory.read_portBytes_out (m : Memory) (a : Nat) (l : List Byte) (c : Nat) (h : c < a ∨ a + l.length ≤ c) :
    (m.portBytes a l).read c = m.read c := by
  unfold Memory.portBytes
  dsimp only
  split
  · exact Memory.read_writeBytes_out _ _ _ _ h
  · have hhead : c < a ∨ a + (l.take (csmBase + 0x34000 - a)).length ≤ c := by
      rw [List.length_take]
      omega
    have htail : c < Nat.max a (csmBase + 0x34180) ∨
        Nat.max a (csmBase + 0x34180) + (l.drop (csmBase + 0x34180 - a)).length ≤ c := by
      have hmax : Nat.max a (csmBase + 0x34180) = max a (csmBase + 0x34180) := rfl
      rw [List.length_drop, hmax]
      omega
    rw [Memory.read_writeBytes_out _ _ _ _ htail, Memory.read_writeBytes_out _ _ _ _ hhead]

/-- Below the result mirror the bytes stored read back. -/
theorem Memory.read_portBytes_in (m : Memory) (a : Nat) (l : List Byte) (hbelow : a + l.length ≤ csmBase + 0x34000) (i : Nat)
    (hi : i < l.length) : (m.portBytes a l).read (a + i) = l[i] := by
  unfold Memory.portBytes
  rw [if_pos (by simp [hbelow])]
  exact Memory.read_writeBytes_in _ _ _ _ hi

theorem Memory.readBytes_eq {m : Memory} {a : Nat} {l : List Byte} (h : ∀ (i : Nat) (hi : i < l.length), m.read (a + i) = l[i]) :
    m.readBytes a l.length = l := by
  induction l generalizing a with
  | nil => rfl
  | cons b l ih =>
    rw [List.length_cons, Memory.readBytes]
    refine congrArg₂ List.cons (h 0 (Nat.succ_pos _)) (ih fun i hi => ?_)
    have := h (i + 1) (Nat.succ_lt_succ hi)
    rwa [← Nat.add_assoc, Nat.add_right_comm] at this

/-! ### The images of a period -/

/-- Every cell's bytes stored in its image of the period of index `m`. -/
def Memory.putImages (mem : Memory) (m : Nat) (bytes : Nat → List Byte) (cells : List Nat) : Memory :=
  cells.foldl (fun t c => t.portBytes (imageAt m c) (bytes c)) mem

theorem Memory.read_putImages_out (mem : Memory) (m : Nat) (bytes : Nat → List Byte) (cells : List Nat) (a : Nat)
    (h : ∀ c ∈ cells, a < imageAt m c ∨ imageAt m c + (bytes c).length ≤ a) :
    (mem.putImages m bytes cells).read a = mem.read a := by
  induction cells generalizing mem with
  | nil => rfl
  | cons c cells ih =>
    have hrest := ih (mem.portBytes (imageAt m c) (bytes c)) fun d hd => h d (List.mem_cons_of_mem _ hd)
    exact hrest.trans (Memory.read_portBytes_out _ _ _ _ (h c (List.mem_cons_self ..)))

/-- Images of at most 0x80 bytes do not meet one another, nor the result mirror. -/
theorem Memory.read_putImages_in (mem : Memory) (m : Nat) {bytes : Nat → List Byte} {cells : List Nat}
    (hlen : ∀ c ∈ cells, (bytes c).length ≤ 0x80) (haddr : ∀ c ∈ cells, c < 256) :
    ∀ c ∈ cells, ∀ (i : Nat) (hi : i < (bytes c).length),
      (mem.putImages m bytes cells).read (imageAt m c + i) = (bytes c)[i] := by
  induction cells generalizing mem with
  | nil => simp
  | cons d cells ih =>
    intro c hc i hi
    have hlen' := fun x hx => hlen x (List.mem_cons_of_mem _ hx)
    have haddr' := fun x hx => haddr x (List.mem_cons_of_mem _ hx)
    by_cases hlater : c ∈ cells
    · exact ih (mem.portBytes (imageAt m d) (bytes d)) hlen' haddr' c hlater i hi
    · obtain rfl : c = d := by simpa [hlater] using hc
      have hc256 := haddr c hc
      have hclen := hlen c hc
      have hbelow : imageAt m c + (bytes c).length ≤ csmBase + 0x34000 := by
        have := Nat.mod_lt m (y := 2) (by decide)
        unfold imageAt
        omega
      refine (Memory.read_putImages_out _ m bytes cells _ fun x hx => ?_).trans
        (Memory.read_portBytes_in mem _ _ hbelow i hi)
      have hne : x ≠ c := fun e => hlater (e ▸ hx)
      have := hlen' x hx
      unfold imageAt
      omega

theorem Memory.readBytes_putImages (mem : Memory) (m : Nat) {bytes : Nat → List Byte} {cells : List Nat}
    (hlen : ∀ c ∈ cells, (bytes c).length ≤ 0x80) (haddr : ∀ c ∈ cells, c < 256) {c : Nat} (hc : c ∈ cells) :
    (mem.putImages m bytes cells).readBytes (imageAt m c) (bytes c).length = bytes c :=
  Memory.readBytes_eq fun i hi => Memory.read_putImages_in mem m hlen haddr c hc i hi

/-! ### The write-back -/

theorem State.mem_ringAddrs {s : State} {a : Nat} :
    a ∈ s.ringAddrs ↔ ∃ r < 32, ∃ p < s.ringCells r, a = r * 8 + p := by
  simp only [State.ringAddrs, List.mem_flatten, List.mem_map, List.mem_range, exists_exists_and_eq_and]
  simp only [eq_comm (a := a)]

theorem State.ringAddrs_lt {s : State} (hcells : ∀ r < 32, s.ringCells r ≤ 8) : ∀ a ∈ s.ringAddrs, a < 256 := by
  intro a ha
  obtain ⟨r, hr, p, hp, rfl⟩ := State.mem_ringAddrs.1 ha
  have := hcells r hr
  omega

/-- The bytes of a cell's slot as sent. -/
def State.sentOf (s : State) (c : Nat) : List Byte := (NMap.get {} s.cells c).sent

theorem State.writeBackSlots_frame (s : State) (m : Nat) :
    ∃ e, s.writeBackSlots m = { s with mem := s.mem.putImages m s.sentOf s.ringAddrs, eng := e } := by
  have hfold : ∀ (l : List Nat) (u : State), ∃ e, l.foldl (fun t a => t.portBytes (imageAt m a) (s.sentOf a)) u =
      { u with mem := u.mem.putImages m s.sentOf l, eng := e } := by
    intro l
    induction l with
    | nil => exact fun u => ⟨u.eng, rfl⟩
    | cons a l ih =>
      intro u
      obtain ⟨e, he⟩ := u.portBytes_frame (imageAt m a) (s.sentOf a)
      obtain ⟨e', he'⟩ := ih (u.portBytes (imageAt m a) (s.sentOf a))
      refine ⟨e', ?_⟩
      rw [List.foldl_cons, he', he]
      rfl
  exact hfold s.ringAddrs s

theorem State.slotWriteBack_past {s : State} (hstarted : s.plan.started = true) (hml : s.plan.pastML = true)
    (hrestore : s.restoring = false) : s.slotWriteBack = s.writeBackSlots s.nextPidx := by
  unfold State.slotWriteBack State.framesNothing State.inRestore
  rw [if_pos (by simp [hstarted, hml, hrestore])]

theorem State.slotWriteBack_before {s : State} (hml : s.plan.pastML = false) : s.slotWriteBack = s := by
  unfold State.slotWriteBack
  rw [if_neg (by simp [hml])]

/-- The slots as sent stand in their images of the next period, and no other byte changes. -/
theorem State.slotWriteBack_images {s : State} (hstarted : s.plan.started = true)
    (hcells : ∀ r < 32, s.ringCells r ≤ 8) (hrestore : s.restoring = false) :
    s.slotWriteBack = { s with mem := s.slotWriteBack.mem, eng := s.slotWriteBack.eng } ∧
      (s.plan.pastML = true → (∀ c ∈ s.ringAddrs, (s.sentOf c).length ≤ 0x80) → ∀ c ∈ s.ringAddrs,
        s.slotWriteBack.mem.readBytes (imageAt s.nextPidx c) (s.sentOf c).length = s.sentOf c) ∧
      ∀ a, (∀ c ∈ s.ringAddrs, a < imageAt s.nextPidx c ∨ imageAt s.nextPidx c + (s.sentOf c).length ≤ a) →
        s.slotWriteBack.mem.read a = s.mem.read a := by
  cases hml : s.plan.pastML with
  | false =>
    rw [State.slotWriteBack_before hml]
    exact ⟨rfl, by simp, fun _ _ => rfl⟩
  | true =>
    obtain ⟨e, he⟩ := s.writeBackSlots_frame s.nextPidx
    rw [State.slotWriteBack_past hstarted hml hrestore, he]
    exact ⟨rfl, fun _ hlen c hc => Memory.readBytes_putImages s.mem _ hlen (State.ringAddrs_lt hcells) hc,
      fun a ha => Memory.read_putImages_out s.mem _ _ _ a ha⟩

end Sys2Proof.Machine
end

section
/-! Proofs: the output boundary at the local legs (chapter 01, R46; chapter 12, R375). -/

namespace Sys2Proof.Machine

@[simp] theorem State.ll_setLl (s : State) (k j : Nat) (l : LocalLeg) :
    (s.setLl k l).ll j = if j = k then l else s.ll j := NMap.get_put ..

@[simp] theorem LocalLeg.loaded_drive (l : LocalLeg) (side : Option Bool) (t td edge : Nat) :
    (l.drive side t td edge).loaded = l.loaded := by
  unfold LocalLeg.drive
  split
  · rfl
  · split <;> rfl

@[simp] theorem LocalLeg.loaded_blankFrom (l : LocalLeg) (t td blk : Nat) : (l.blankFrom t td blk).loaded = l.loaded := by
  unfold LocalLeg.blankFrom
  split
  · rfl
  · dsimp only
    split
    · split <;> rfl
    · rfl

/-- Taking the level of its entry changes a leg's lands, not its entry, and no other leg. -/
theorem State.legLevel_frame (s : State) (k t : Nat) (release : Bool) :
    ∃ l, s.legLevel k t release = s.setLl k l ∧ l.loaded = (s.ll k).loaded := by
  unfold State.legLevel
  dsimp only
  refine ⟨_, rfl, ?_⟩
  split <;> simp

/-! ### One leg -/

/-- The entry a leg loads at a boundary while it is not latched: none where it is off. -/
def State.boundaryEntry (s : State) (stop : Bool) (k : Nat) : Entry :=
  if stop || s.legsHeld || !s.regB (R.LBR.LCFG k) 5 then {} else (s.ll k).shadow.headD {}

/-- From `s` to `t` nothing that the entries of other legs than k depend on has changed. -/
structure OtherLegsSame (k : Nat) (s t : State) : Prop where
  legs : ∀ j ≠ k, t.ll j = s.ll j
  latch : ∀ j ≠ k, t.latched j = s.latched j
  held : t.legsHeld = s.legsHeld
  on : ∀ j, t.regB (R.LBR.LCFG j) 5 = s.regB (R.LBR.LCFG j) 5
  plan : t.plan = s.plan

namespace OtherLegsSame

theorem trans {k : Nat} {s t u : State} (h : OtherLegsSame k s t) (h' : OtherLegsSame k t u) : OtherLegsSame k s u :=
  ⟨fun j hj => (h'.legs j hj).trans (h.legs j hj), fun j hj => (h'.latch j hj).trans (h.latch j hj),
    h'.held.trans h.held, fun j => (h'.on j).trans (h.on j), h'.plan.trans h.plan⟩

theorem setLl (s : State) (k : Nat) (l : LocalLeg) : OtherLegsSame k s (s.setLl k l) :=
  ⟨fun _ hj => by rw [State.ll_setLl, if_neg hj], fun _ _ => rfl, rfl, fun _ => rfl, rfl⟩

/-- The release of a leg's latch (R380). -/
theorem unlatch (s : State) {k : Nat} (hk : k < 12) :
    OtherLegsSame k s ((s.setB R.LBR.TLATCH k false).setB (R.PSTA 0x78) (16 + k) false) := by
  have hreg : ∀ j, j ≠ R.PSTA 0x78 → j ≠ R.LBR.TLATCH →
      ((s.setB R.LBR.TLATCH k false).setB (R.PSTA 0x78) (16 + k) false).reg j = s.reg j :=
    fun j hp ht => (State.reg_setB_ne _ _ _ hp).trans (State.reg_setB_ne _ _ _ ht)
  refine ⟨fun _ _ => rfl, fun j hj => ?_, ?_, fun j => ?_, rfl⟩
  · unfold State.latched State.regB
    rw [State.reg_setB_ne _ _ _ (by decide), State.reg_setB_same, Word.bit_setBit_ne _ _ (by omega) hj]
  · unfold State.legsHeld State.active State.paired State.role State.regB State.regF
    rw [hreg _ (by decide) (by decide), hreg _ (by decide) (by decide)]
    rfl
  · unfold State.regB
    rw [hreg _ (by unfold R.LBR.LCFG R.PSTA; omega) (by unfold R.LBR.LCFG R.LBR.TLATCH; omega)]

theorem boundaryEntry {k j : Nat} {s t : State} (h : OtherLegsSame k s t) (hj : j ≠ k) (stop : Bool) :
    t.boundaryEntry stop j = s.boundaryEntry stop j := by
  unfold State.boundaryEntry
  rw [h.held, h.on, h.legs j hj]

end OtherLegsSame

/-- A leg is set, and takes the level at the start of its window where nothing is held on (R219). -/
theorem State.setLl_start_spec (s : State) (k : Nat) (l : LocalLeg) (hold : Nat) (release : Bool) :
    OtherLegsSame k s (if hold = 0 then (s.setLl k l).legLevel k 0 release else s.setLl k l) ∧
      ((if hold = 0 then (s.setLl k l).legLevel k 0 release else s.setLl k l).ll k).loaded = l.loaded := by
  split
  · obtain ⟨l', hl', hloaded⟩ := (s.setLl k l).legLevel_frame k 0 release
    rw [hl']
    exact ⟨(OtherLegsSame.setLl s k l).trans (OtherLegsSame.setLl _ k l'), by simpa using hloaded⟩
  · exact ⟨OtherLegsSame.setLl s k l, by simp⟩

/-- A boundary at leg k leaves the other legs alone, and loads the leg's entry where it is not latched. -/
theorem State.legBoundary_spec (s : State) (b : Nat) (stop : Bool) {k : Nat} (hk : k < 12) :
    OtherLegsSame k s (s.legBoundary b stop k) ∧
      (stop = true ∨ s.latched k = false → ((s.legBoundary b stop k).ll k).loaded = s.boundaryEntry stop k) := by
  unfold State.legBoundary
  extract_lets l ins free s1 held e hold l1 s2
  have hfree : OtherLegsSame k s s1 := by
    unfold s1
    split
    · exact OtherLegsSame.unlatch s hk
    · exact ⟨fun _ _ => rfl, fun _ _ => rfl, rfl, fun _ => rfl, rfl⟩
  obtain ⟨hothers, hloaded⟩ := s1.setLl_start_spec k l1 hold (l.tripped && !s1.latched k)
  refine ⟨hfree.trans hothers, fun hlatch => hloaded.trans ?_⟩
  have hheld : held = (stop || s.legsHeld || !s.regB (R.LBR.LCFG k) 5) := by
    unfold held
    rw [hfree.held, hfree.on]
    rcases hlatch with hstop | hlatched
    · simp [hstop]
    · have hs1 : s1 = s := by
        unfold s1
        rw [hlatched]
        rfl
      simp [hs1, hlatched]
  show e = _
  unfold e
  rw [hheld]
  rfl

/-! ### Every leg -/

theorem State.foldl_legBoundary_loaded (b : Nat) (stop : Bool) {k : Nat} {ks : List Nat} (hks : ∀ j ∈ ks, j < 12)
    (hnodup : ks.Nodup) (s : State) (hlatch : stop = true ∨ s.latched k = false) (hk : k ∈ ks) :
    ((ks.foldl (fun t j => t.legBoundary b stop j) s).ll k).loaded = s.boundaryEntry stop k := by
  have hkeep : ∀ (ks : List Nat) (u : State), (∀ j ∈ ks, j < 12) → k ∉ ks →
      (ks.foldl (fun t j => t.legBoundary b stop j) u).ll k = u.ll k := by
    intro ks
    induction ks with
    | nil => exact fun _ _ _ => rfl
    | cons j ks ih =>
      intro u hlt hnot
      rw [List.mem_cons, not_or] at hnot
      exact (ih _ (fun i hi => hlt i (List.mem_cons_of_mem _ hi)) hnot.2).trans
        ((u.legBoundary_spec b stop (hlt j (List.mem_cons_self ..))).1.legs k hnot.1)
  induction ks generalizing s with
  | nil => cases hk
  | cons j ks ih =>
    obtain ⟨hjnot, hnodup⟩ := List.nodup_cons.1 hnodup
    have hlt := fun i hi => hks i (List.mem_cons_of_mem _ hi)
    obtain ⟨hothers, hown⟩ := s.legBoundary_spec b stop (hks j (List.mem_cons_self ..))
    rw [List.foldl_cons]
    by_cases hkj : k = j
    · subst hkj
      rw [hkeep ks _ hlt hjnot]
      exact hown hlatch
    · have hk' : k ∈ ks := (List.mem_cons.1 hk).resolve_left hkj
      rw [ih hlt hnodup _ (by rwa [hothers.latch k hkj]) hk']
      exact hothers.boundaryEntry hkj stop

theorem State.ll_withTrips (s : State) (m : NMap TripIn) (k : Nat) :
    ({ s with loc := { s.loc with trips := m } } : State).ll k = s.ll k := rfl

theorem State.localBoundary_loaded (s : State) (b : Nat) (stop : Bool) {k : Nat} (hk : k < 12)
    (hlatch : stop = true ∨ s.latched k = false) : ((s.localBoundary b stop).ll k).loaded = s.boundaryEntry stop k := by
  unfold State.localBoundary
  dsimp only
  rw [State.ll_withTrips]
  exact State.foldl_legBoundary_loaded b stop (fun _ hj => List.mem_range.1 hj) List.nodup_range s hlatch
    (List.mem_range.2 hk)

theorem State.localBoundary_plan (s : State) (b : Nat) (stop : Bool) : (s.localBoundary b stop).plan = s.plan := by
  have hfold : ∀ (ks : List Nat) (u : State), (∀ j ∈ ks, j < 12) →
      (ks.foldl (fun t j => t.legBoundary b stop j) u).plan = u.plan := by
    intro ks
    induction ks with
    | nil => exact fun _ _ => rfl
    | cons j ks ih =>
      intro u hlt
      exact (ih _ fun i hi => hlt i (List.mem_cons_of_mem _ hi)).trans
        (u.legBoundary_spec b stop (hlt j (List.mem_cons_self ..))).1.plan
  unfold State.localBoundary
  dsimp only
  exact hfold _ s fun _ hj => List.mem_range.1 hj

/-! ### The boundary -/

/-- Ring time has come to the boundary `b`, and the plan holds it. -/
def State.atBoundary (s : State) (b : Nat) : State :=
  { s.reach b with plan := { (s.reach b).plan with boundary := b } }

theorem State.reg_atBoundary (s : State) (b k : Nat) : (s.atBoundary b).reg k = s.reg k := State.reg_reach ..

theorem State.latched_atBoundary (s : State) (b k : Nat) : (s.atBoundary b).latched k = s.latched k := by
  unfold State.latched State.regB
  rw [State.reg_atBoundary]

theorem State.boundaryEntry_atBoundary (s : State) (b : Nat) (stop : Bool) (k : Nat) :
    (s.atBoundary b).boundaryEntry stop k = s.boundaryEntry stop k := by
  have hrun : (s.atBoundary b).plan.run = s.plan.run := (congrArg Plan.run (s.reach_plan b) :)
  have hrestoring : (s.atBoundary b).restoring = s.restoring := State.reach_restoring ..
  have hloc : (s.atBoundary b).loc = s.loc := State.reach_loc ..
  unfold State.boundaryEntry State.legsHeld State.active State.paired State.role State.inRestore State.regB State.regF State.ll
  simp only [State.reg_atBoundary, hrun, hrestoring, hloc]

theorem State.outputBoundary_new {s : State} (hstarted : s.plan.started = true) (hnone : s.plan.lastBoundary = none)
    (hnew : s.plan.boundary ≠ s.plan.start + s.regF R.TRG.PHI 0 20) :
    s.outputBoundary = (s.atBoundary (s.plan.start + s.regF R.TRG.PHI 0 20)).localBoundary
      (s.plan.start + s.regF R.TRG.PHI 0 20) false := by
  unfold State.outputBoundary
  rw [hnone]
  dsimp only
  rw [if_pos (by simp [hstarted, hnew])]
  rfl

/-- The boundary of a period loads the entry of every leg that is not latched. -/
theorem State.outputBoundary_loads {s : State} (hstarted : s.plan.started = true) (hnone : s.plan.lastBoundary = none)
    (hnew : s.plan.boundary ≠ s.plan.start + s.regF R.TRG.PHI 0 20) :
    s.outputBoundary.plan.boundary = s.plan.start + s.regF R.TRG.PHI 0 20 ∧
      ∀ k < 12, s.latched k = false → (s.outputBoundary.ll k).loaded =
        if s.legsHeld || !s.regB (R.LBR.LCFG k) 5 then {} else (s.ll k).shadow.headD {} := by
  rw [State.outputBoundary_new hstarted hnone hnew]
  refine ⟨congrArg Plan.boundary (State.localBoundary_plan ..), fun k hk hlatch => ?_⟩
  rw [State.localBoundary_loaded _ _ _ hk (.inr ((s.latched_atBoundary ..).trans hlatch)),
    State.boundaryEntry_atBoundary]
  rfl

/-- The boundary that a stop left due turns every leg off. -/
theorem State.outputBoundary_last {s : State} {b : Nat} (hlast : s.plan.lastBoundary = some b) :
    s.outputBoundary.plan.boundary = b ∧ s.outputBoundary.plan.lastBoundary = none ∧
      ∀ k < 12, (s.outputBoundary.ll k).loaded = {} := by
  unfold State.outputBoundary
  rw [hlast]
  dsimp only
  refine ⟨congrArg Plan.boundary (State.localBoundary_plan ..), congrArg Plan.lastBoundary (State.localBoundary_plan ..),
    fun k hk => ?_⟩
  rw [State.localBoundary_loaded _ _ _ hk (.inl rfl)]
  rfl

end Sys2Proof.Machine
end

section
/-! Proofs: the close of telemetry and the marks of stale slots (chapter 01, R44; chapter 05, R172, R193). -/

namespace Sys2Proof.Machine

/-! ### What leaves the slots and their marks alone -/

/-- From `s` to `t` no slot has changed, no ring's status, and not whether the head is paired. -/
structure SameMarks (s t : State) : Prop where
  cells : t.cells = s.cells
  rsta : ∀ r, t.reg (R.RNG.RSTA r) = s.reg (R.RNG.RSTA r)
  pcfg : t.reg R.HPR.PCFG = s.reg R.HPR.PCFG

namespace SameMarks

theorem refl (s : State) : SameMarks s s := ⟨rfl, fun _ => rfl, rfl⟩

theorem trans {s t u : State} (h : SameMarks s t) (h' : SameMarks t u) : SameMarks s u :=
  ⟨h'.cells.trans h.cells, fun r => (h'.rsta r).trans (h.rsta r), h'.pcfg.trans h.pcfg⟩

theorem of_regs {s t : State} (hcells : t.cells = s.cells) (hregs : t.regs = s.regs) : SameMarks s t :=
  ⟨hcells, fun _ => State.reg_congr hregs _, State.reg_congr hregs _⟩

/-- The registers that say so: the rings' status, and the configuration of the pairing. -/
abbrev markKey (k : Nat) : Prop := k % 0x1000 = 0x108 ∨ k = R.HPR.PCFG

theorem setReg (s : State) {k : Nat} (v : Word) (hk : ¬ markKey k) : SameMarks s (s.setReg k v) :=
  ⟨rfl, fun r => State.reg_setReg_ne _ _ fun e => hk (.inl (by rw [← e]; unfold R.RNG.RSTA; omega)),
    State.reg_setReg_ne _ _ fun e => hk (.inr e.symm)⟩

theorem setB (s : State) {k : Nat} (i : Nat) (b : Bool) (hk : ¬ markKey k) : SameMarks s (s.setB k i b) := setReg s _ hk

theorem irq (s : State) (page bit : Nat) : SameMarks s (s.irq page bit) :=
  setB s _ _ (by unfold markKey R.IRQS R.HPR.PCFG; omega)

theorem bumpBy (s : State) {k : Nat} (n : Nat) (hk : ¬ markKey k) : SameMarks s (s.bumpBy k n) := by
  unfold State.bumpBy
  split
  · exact refl s
  · exact setReg s _ hk

theorem fault (s : State) (src page a m acc d : Nat) : SameMarks s (s.fault src page a m acc d) := of_regs rfl rfl

theorem jigEvent (s : State) (i e : Nat) : SameMarks s (s.jigEvent i e) := of_regs rfl rfl

theorem portBytes (s : State) (a : Nat) (l : List Byte) : SameMarks s (s.portBytes a l) := by
  obtain ⟨e, he⟩ := s.portBytes_frame a l
  rw [he]
  exact of_regs rfl rfl

theorem csmClaim (s : State) (a len : Nat) : SameMarks s (s.csmClaim a len) := by
  obtain ⟨e, he⟩ := s.csmClaim_frame a len
  rw [he]
  exact of_regs rfl rfl

theorem when (s : State) (c : Bool) {f : State → State} (hf : ∀ t, SameMarks t (f t)) : SameMarks s (s.when c f) := by
  unfold State.when
  split
  · exact hf s
  · exact refl s

theorem foldl {α : Type} {f : State → α → State} {l : List α} (hf : ∀ t, ∀ x ∈ l, SameMarks t (f t x)) (s : State) :
    SameMarks s (l.foldl f s) := by
  induction l generalizing s with
  | nil => exact refl s
  | cons x l ih =>
    exact (hf s x (List.mem_cons_self ..)).trans (ih (fun t y hy => hf t y (List.mem_cons_of_mem _ hy)) _)

/-! ### Service transactions, phases and the undervoltage check -/

theorem headSvcDone (s : State) (addr : Nat) (kind : HeadSvc) (ok : Bool) (data : List Byte) :
    SameMarks s (s.headSvcDone addr kind ok data) := by
  unfold State.headSvcDone
  cases kind with
  | idRead =>
    dsimp only
    split
    · split
      · exact of_regs rfl rfl
      · exact of_regs rfl rfl
    · exact refl s
  | cfg n =>
    dsimp only
    split
    · split
      · exact refl s
      · exact jigEvent s _ _
    · exact of_regs rfl rfl
  | delay => exact of_regs rfl rfl
  | proof => exact refl s

theorem svComplete (s : State) (tag status nstat : Nat) (data : List Byte) :
    SameMarks s (s.svComplete tag status nstat data) := by
  unfold State.svComplete
  split
  · exact refl s
  · rename_i t _
    extract_lets s0 s1 s2 s3
    have h0 : SameMarks s s0 := of_regs rfl rfl
    have h1 : SameMarks s0 s1 := by
      unfold s1
      split
      · exact (portBytes s0 _ _).trans (irq _ _ _)
      · exact refl s0
    have h2 : SameMarks s1 s2 := by
      unfold s2
      split
      · exact headSvcDone s1 _ _ _ _
      · exact refl s1
    have h3 : SameMarks s2 s3 := when s2 _ fun u => fault u _ _ _ _ _ _
    exact (((h0.trans h1).trans h2).trans h3).trans (when s3 _ fun u => fault u _ _ _ _ _ _)

theorem svLinkLost (s : State) (p : Nat → Svc → Bool) : SameMarks s (s.svLinkLost p) := by
  refine foldl (fun t tag _ => ?_) s
  split
  · exact when t _ fun u => svComplete u _ _ _ _
  · exact refl t

/-- An arm's move of phases shows on the EDG page. -/
theorem showMove (s : State) {arm : Nat} (harm : arm < 6) (v : Word) (b : Bool) :
    SameMarks s ((s.setReg (R.EDG.ANACT arm) v).setB (R.PSTA 0x70) (16 + arm) b) :=
  (setReg s v (by unfold markKey R.EDG.ANACT R.HPR.PCFG; omega)).trans (setB _ _ _ (by decide))

theorem phaseArm (s : State) {arm : Nat} (harm : arm < 6) : SameMarks s (s.phaseArm arm) := by
  unfold State.phaseArm
  extract_lets ms n aofs tgt ap cellsA old change k ended step ph mem k' left claimed s1 s2
  have hclaim : SameMarks s claimed := foldl (fun t a _ => csmClaim t _ _) s
  have hmove : SameMarks claimed s1 := of_regs rfl rfl
  exact ((hclaim.trans hmove).trans (showMove s1 harm _ _)).trans (when s2 _ fun t => irq t _ _)

theorem bootUv (s : State) (arm : Nat) : SameMarks s (s.bootUv arm) := by
  unfold State.bootUv
  dsimp only
  split
  · exact bumpBy s _ (by decide)
  · split
    · exact ((setB s _ _ (by decide)).trans (irq _ _ _)).trans (fault _ _ _ _ _ _ _)
    · exact refl s

end SameMarks

/-! ### One slot -/

/-- A slot without a valid copy at t_TC. -/
def State.slotStale (s : State) (c : Nat) : Bool := (NMap.get {} s.cells c).bad || (NMap.get {} s.cells c).copy.isNone

theorem State.slotStale_congr {s t : State} (h : t.cells = s.cells) (c : Nat) : t.slotStale c = s.slotStale c := by
  unfold State.slotStale
  rw [h]

/-- A slot whose ages and runs are counted keeps its copy. -/
theorem State.slotStale_put (s : State) (a c : Nat) (x : CellRx)
    (hbad : x.bad = (NMap.get {} s.cells a).bad) (hcopy : x.copy = (NMap.get {} s.cells a).copy) :
    ({ s with cells := NMap.put {} s.cells a x } : State).slotStale c = s.slotStale c := by
  unfold State.slotStale
  dsimp only
  rw [NMap.get_put]
  split
  · rename_i e
    rw [hbad, hcopy, e]
  · rfl

/-- A slot's bit in its ring's status is set as `b` says, and nothing else that concerns slots and marks happens. -/
theorem State.mark_spec {s u t : State} (a : Nat) (b : Bool) (hstale : ∀ c, u.slotStale c = s.slotStale c)
    (hrsta : ∀ r, u.reg (R.RNG.RSTA r) = s.reg (R.RNG.RSTA r)) (hpcfg : u.reg R.HPR.PCFG = s.reg R.HPR.PCFG)
    (h : SameMarks (u.setB (R.RNG.RSTA (a / 8)) (16 + a % 8) b) t) :
    (∀ c, t.slotStale c = s.slotStale c) ∧ t.paired = s.paired ∧
      ∀ r, t.reg (R.RNG.RSTA r) =
        if r = a / 8 then (s.reg (R.RNG.RSTA r)).setBit (16 + a % 8) b else s.reg (R.RNG.RSTA r) := by
  refine ⟨fun c => (State.slotStale_congr h.cells c).trans (hstale c), State.paired_congr ?_, fun r => ?_⟩
  · rw [h.pcfg, State.reg_setB_ne _ _ _ (by unfold R.RNG.RSTA R.HPR.PCFG; omega), hpcfg]
  rw [h.rsta]
  split
  · rename_i e
    rw [e, State.reg_setB_same, hrsta]
  · rename_i e
    rw [State.reg_setB_ne _ _ _ (by unfold R.RNG.RSTA; omega), hrsta]

/-- The close of one slot: every slot keeps its copy, and of the rings' status the slot's bit is set or cleared. -/
theorem State.closeCell_spec (s : State) (a : Nat) :
    (∀ c, (s.closeCell a).slotStale c = s.slotStale c) ∧ (s.closeCell a).paired = s.paired ∧
      ∀ r, (s.closeCell a).reg (R.RNG.RSTA r) =
        if r = a / 8 then (s.reg (R.RNG.RSTA r)).setBit (16 + a % 8) (s.slotStale a) else s.reg (R.RNG.RSTA r) := by
  unfold State.closeCell
  extract_lets ring c put inc
  split
  · rename_i p hcopy
    have hfresh : s.slotStale a = false := by
      unfold State.slotStale
      cases hbad : (NMap.get {} s.cells a).bad <;> simp_all [c]
    extract_lets f r
    rw [hfresh]
    refine State.mark_spec a false ?_ (fun _ => ?_) ?_ (SameMarks.refl _)
    · exact fun d => s.slotStale_put a d _ rfl rfl
    · rfl
    · rfl
  · rename_i run pidx s1 w9 s1m s2 s3 _ hcopy
    have hstale : s.slotStale a = true := by
      unfold State.slotStale
      cases hbad : (NMap.get {} s.cells a).bad <;> simp_all [c]
    have hstore : SameMarks s1 s1m := SameMarks.portBytes s1 _ _
    have hcount : SameMarks (s1m.setB (R.RNG.RSTA ring) (16 + a % 8) true) s2 :=
      SameMarks.setReg _ _ (by unfold SameMarks.markKey R.RNG.STALECNT R.HPR.PCFG; omega)
    have hlost : SameMarks s2 s3 :=
      (SameMarks.when s2 _ fun t => SameMarks.fault t _ _ _ _ _ _).trans
        (SameMarks.when _ _ fun t => SameMarks.svLinkLost t _)
    have hevent := SameMarks.when s3 (run = s.staleMax && s.inMap a && s.plan.run) fun t => SameMarks.jigEvent t a 5
    rw [hstale]
    exact State.mark_spec a true
      (fun d => (State.slotStale_congr hstore.cells d).trans (s.slotStale_put a d _ rfl rfl))
      hstore.rsta hstore.pcfg ((hcount.trans hlost).trans hevent)

/-! ### Every slot -/

/-- After the slots of some cells have been closed, the marks of these cells say which slots are stale. -/
theorem State.foldl_closeCell_mark (cells : List Nat) (s : State) (r : Nat) {p : Nat} (hp : p < 8) :
    (cells.foldl State.closeCell s).regB (R.RNG.RSTA r) (16 + p) =
      if r * 8 + p ∈ cells then s.slotStale (r * 8 + p) else s.regB (R.RNG.RSTA r) (16 + p) := by
  induction cells generalizing s with
  | nil => simp
  | cons a cells ih =>
    obtain ⟨hstale, -, hrsta⟩ := s.closeCell_spec a
    have hmark : (s.closeCell a).regB (R.RNG.RSTA r) (16 + p) =
        if r * 8 + p = a then s.slotStale a else s.regB (R.RNG.RSTA r) (16 + p) := by
      unfold State.regB
      rw [hrsta]
      by_cases hr : r = a / 8
      · rw [if_pos hr, Word.bit_setBit _ _ _ _ (by omega)]
        by_cases hbit : 16 + p = 16 + a % 8
        · rw [if_pos hbit, if_pos (by omega)]
        · rw [if_neg hbit, if_neg (by omega)]
      · rw [if_neg hr, if_neg (by omega)]
    rw [List.foldl_cons, ih, hstale, hmark]
    by_cases ha : r * 8 + p = a
    · subst ha
      simp
    · simp [ha]

/-- What follows the close of the slots leaves their marks. -/
theorem State.telemetryClose_after (s : State) : SameMarks (s.ringAddrs.foldl State.closeCell s) s.telemetryClose := by
  unfold State.telemetryClose
  extract_lets arms s1 s2 below
  have harm : ∀ x ∈ arms, x < 6 := fun x hx =>
    (List.mem_range.1 hx).trans_le (Nat.min_le_right ..)
  have hbeside : SameMarks s1 s2 :=
    (SameMarks.foldl (fun t x _ => SameMarks.bootUv t x) s1).trans
      (SameMarks.foldl (fun t x hx => SameMarks.phaseArm t (harm x hx)) _)
  exact hbeside.trans (SameMarks.of_regs rfl rfl)

theorem State.paired_telemetryClose (s : State) : s.telemetryClose.paired = s.paired :=
  (State.paired_congr s.telemetryClose_after.pcfg).trans
    (State.foldl_keeps State.paired (fun t a => (t.closeCell_spec a).2.1) s.ringAddrs s)

theorem State.digestNow_unpaired {s : State} (h : s.paired = false) : s.digestNow = s := by
  unfold State.digestNow
  rw [h]
  rfl

/-- TS1 at t_TC marks the slots without a valid copy stale, and clears the marks of the others. -/
theorem State.closeTelemetry_marks {s : State} (hpaired : s.paired = false) (hstarted : s.plan.started = true) {r p : Nat}
    (hr : r < 32) (hp : p < s.ringCells r) (hp8 : p < 8) :
    s.closeTelemetry.regB (R.RNG.RSTA r) (16 + p) = s.slotStale (r * 8 + p) := by
  have hat := SameLaunch.reach s (s.plan.start + s.regF R.TRG.TTC 0 20)
  have hcells := s.reach_cells (s.plan.start + s.regF R.TRG.TTC 0 20)
  unfold State.closeTelemetry
  rw [if_neg (by simp [hstarted]), State.digestNow_unpaired (by simpa [State.paired_telemetryClose])]
  generalize s.reach (s.plan.start + s.regF R.TRG.TTC 0 20) = u at hat hcells
  have hmap : r * 8 + p ∈ u.ringAddrs := State.mem_ringAddrs.2 ⟨r, hr, p, hat.ringCells hr ▸ hp, rfl⟩
  have hclosed := State.foldl_closeCell_mark u.ringAddrs u r hp8
  unfold State.regB at hclosed ⊢
  rw [if_pos hmap] at hclosed
  rw [u.telemetryClose_after.rsta, hclosed, State.slotStale_congr hcells]

end Sys2Proof.Machine
end

section
/-! Proofs: what happens at t_ML leaves alone what a launch reads, and the command frames leave (chapter 01, R48; chapter 03,
R116, R610; chapter 05, R165; chapter 06, R204). -/

namespace Sys2Proof.Machine

namespace SameLaunch

theorem portBytes (s : State) (a : Nat) (l : List Byte) : SameLaunch s (s.portBytes a l) := by
  obtain ⟨e, he⟩ := s.portBytes_frame a l
  rw [he]
  exact of_regs rfl rfl rfl

theorem bumpBy (s : State) {k : Nat} (n : Nat) (hk : ¬ launchKey k) : SameLaunch s (s.bumpBy k n) := by
  unfold State.bumpBy
  split
  · exact refl s
  · exact setF s _ _ _ hk

/-! ### Commits and the stack's loops -/

theorem withShadow (s : State) (m : NMap (Option Word)) : SameLaunch s { s with shadow := m } := of_regs rfl rfl rfl

theorem acceptBank (s : State) {eng : Nat} (heng : eng ≤ 1) : SameLaunch s (s.acceptBank eng) := by
  unfold State.acceptBank
  dsimp only
  split
  · exact refl s
  · split
    · exact refl s
    · refine (withShadow s _).trans (setB _ (k := R.JG.TBSTA (1 + eng)) _ _ ?_)
      unfold launchKey R.JG.TBSTA
      omega

theorem acceptPage (s : State) (page : Nat) (tick : Bool) : SameLaunch s (s.acceptPage page tick) := by
  unfold State.acceptPage
  extract_lets s0 per s1 l
  have h0 : SameLaunch s s0 := setB s _ _ (by unfold launchKey R.PSTA; omega)
  have h1 : SameLaunch s0 s1 := by
    unfold s1
    split
    · exact acceptBank s0 (by decide)
    · split
      · exact acceptBank s0 (by decide)
      · exact refl s0
  split
  · exact h0.trans (fault s0 _ _ _ _ _ _)
  · exact (h0.trans h1).trans (of_regs rfl rfl rfl)

theorem jigEvent (s : State) (i e : Nat) : SameLaunch s (s.jigEvent i e) := of_regs rfl rfl rfl

theorem stackWatch (s : State) : SameLaunch s s.stackWatch := by
  unfold State.stackWatch
  extract_lets w i old rt jig s1 s2 s3 s4 s5 sat s6
  have h1 : SameLaunch s s1 := of_regs rfl rfl rfl
  have h2 : SameLaunch s1 s2 := when s1 _ fun t => irq t _ _
  have h3 : SameLaunch s2 s3 := when s2 _ fun t => (jigEvent t _ _).trans (irq _ _ _)
  have h4 : SameLaunch s3 s4 := when s3 _ fun t => (jigEvent t _ _).trans (irq _ _ _)
  have h5 : SameLaunch s4 s5 := when s4 _ fun t => irq t _ _
  have h6 : SameLaunch s5 s6 := when s5 _ fun t => (setReg t _ (by decide)).trans (irq _ _ _)
  exact (((((h1.trans h2).trans h3).trans h4).trans h5).trans h6).trans (setF s6 _ _ _ (by decide))

theorem captureSet (s : State) : SameLaunch s s.captureSet := by
  unfold State.captureSet
  split
  · exact refl s
  · extract_lets dec
    split
    · exact of_regs rfl rfl rfl
    · rename_i b end_ wp full set_ n t0 m1 m2 m3 s1 s2 _
      have hfull : ∀ t, SameLaunch t (full t) := fun t =>
        ((setB t _ _ (by decide)).trans (setB _ _ _ (by decide))).trans (irq _ _ _)
      have h1 : SameLaunch s s1 :=
        (of_regs rfl rfl rfl : SameLaunch s { s with mem := m3, capt := { sets := n } }).trans (setReg _ _ (by decide))
      have h2 : SameLaunch s1 s2 := by
        unfold s2
        split
        · exact ((setReg s1 _ (by decide)).trans (setReg _ _ (by decide))).trans (setB _ _ _ (by decide))
        · exact refl s1
      split
      · exact hfull s
      · split
        · exact (h1.trans h2).trans (hfull s2)
        · exact h1.trans h2

/-! ### The framing (R204, R374) -/

theorem withEdge (s : State) (e : Edge) : SameLaunch s { s with edge := e } := of_regs rfl rfl rfl

theorem setLeg (s : State) (k : Nat) (l : LegSt) : SameLaunch s (s.setLeg k l) := withEdge s _

theorem frameLeg (s : State) (addr ch imgP : Nat) (full off frz : Bool) (n : Nat) :
    SameLaunch s (s.frameLeg addr ch imgP full off frz n).1 := by
  unfold State.frameLeg
  dsimp only
  split
  · exact setLeg s _ _
  · exact setLeg s _ _

theorem frameGroup (s : State) (addr : Nat) (full frz : Bool) (n : Nat) : SameLaunch s (s.frameGroup addr full frz n).1 :=
  withEdge s _

theorem cellOff (s : State) (addr : Nat) : SameLaunch s (s.cellOff addr) := withEdge s _

theorem withCells (s : State) (c : NMap CellRx) : SameLaunch s { s with cells := c } := of_regs rfl rfl rfl

/-- The four legs of a slot without a group, framed one after another. -/
theorem foldl_fst {α β : Type} {f : State × β → α → State × β} (hf : ∀ t y x, SameLaunch t (f (t, y) x).1) (l : List α)
    (s : State) (y : β) : SameLaunch s (l.foldl f (s, y)).1 := by
  induction l generalizing s y with
  | nil => exact refl s
  | cons x l ih => exact (hf s y x).trans (ih (f (s, y) x).1 (f (s, y) x).2)

theorem frameCell (s : State) (addr m cslot : Nat) (resync : Bool) :
    SameLaunch s (s.frameCell addr m cslot resync).1 := by
  unfold State.frameCell
  extract_lets life c p img stopped valid
  split
  · exact (cellOff s addr).trans (withCells _ _)
  · rename_i byp safe sr full vpred imgP head dabg chop frz done a b d e _
    have hdone : ∀ t slot y, SameLaunch t (done t slot y).1 := fun t _ _ => withCells t _
    have ha : SameLaunch s a.1 := frameLeg s _ _ _ _ _ _ _
    have hb : SameLaunch a.1 b.1 := frameLeg a.1 _ _ _ _ _ _ _
    have hd : SameLaunch b.1 d.1 := by
      unfold d
      split
      · exact frameGroup b.1 _ _ _ _
      · refine foldl_fst (fun t y ch => ?_) _ _ _
        dsimp only
        exact frameLeg t _ _ _ _ _ _ _
    have he : SameLaunch d.1 e.1 := by
      unfold e
      split
      · exact frameLeg d.1 _ _ _ _ _ _ _
      · exact refl d.1
    split
    · exact (cellOff s addr).trans (hdone _ _ _)
    · exact (((ha.trans hb).trans hd).trans he).trans (hdone _ _ _)

theorem frameRingCmd (s : State) (ring m : Nat) (resync : Bool) : SameLaunch s (s.frameRingCmd ring m resync).1 := by
  unfold State.frameRingCmd
  refine foldl_fst (fun t y p => ?_) _ _ _
  exact frameCell t _ _ _ _

theorem frameAll (s : State) (m : Nat) : SameLaunch s (s.frameAll m).1 := by
  unfold State.frameAll
  extract_lets r
  have hr : SameLaunch s r.1 := by
    refine foldl_fst (fun q y ring => ?_) _ _ _
    extract_lets resync a t
    have ha : SameLaunch q a.1 := frameRingCmd q _ _ _
    have ht : SameLaunch a.1 t := by
      unfold t
      split
      · exact (setB a.1 _ _ (by unfold launchKey R.RNG.RSTA; omega)).trans (irq _ _ _)
      · exact refl a.1
    exact ha.trans ht
  exact hr.trans (withEdge _ _)

theorem setPair (s : State) (p : Pair) : SameLaunch s (s.setPair p) := of_regs rfl rfl rfl

theorem withScribe (s : State) (x : Scribe) : SameLaunch s { s with scribe := x } := of_regs rfl rfl rfl

theorem putLocal (s : State) (k : Nat) (e : Entry) : SameLaunch s (s.putLocal k e) := of_regs rfl rfl rfl

theorem frameLocal1 (s : State) (m k : Nat) : SameLaunch s (s.frameLocal1 m k).1 := by
  unfold State.frameLocal1
  extract_lets key cfg host img
  split
  · dsimp only
    exact ((setLeg s _ _).trans (putLocal _ _ _)).trans (when _ _ fun t => portBytes t _ _)
  · rename_i imgP n raw r t held s1 s2 _
    have h1 : SameLaunch s s1 := (setLeg s _ _).trans (putLocal _ _ _)
    have h2 : SameLaunch s1 s2 := by
      unfold s2
      split
      · exact refl s1
      · exact portBytes s1 _ _
    exact h1.trans h2

theorem frameLocal (s : State) (m : Nat) : SameLaunch s (s.frameLocal m).1 := by
  unfold State.frameLocal
  extract_lets r
  have hr : SameLaunch s r.1 := by
    unfold r
    split
    · exact foldl (fun t k => (setLeg t _ _).trans (putLocal _ _ _)) _ s
    · refine foldl_fst (fun t y k => ?_) _ _ _
      exact frameLocal1 t _ _
  exact hr.trans (withEdge _ _)

theorem edgeTally (s : State) (t : Tally) (m : Nat) : SameLaunch s (s.edgeTally t m) := by
  unfold State.edgeTally
  extract_lets s1 s2 s3
  have h1 : SameLaunch s s1 := (((((bumpBy s _ (by decide)).trans (bumpBy _ _ (by decide))).trans
    (bumpBy _ _ (by decide))).trans (bumpBy _ _ (by decide))).trans (bumpBy _ _ (by decide))).trans (bumpBy _ _ (by decide))
  have h2 : SameLaunch s1 s2 := by
    unfold s2
    split
    · exact ((setB s1 _ _ (by decide)).trans (irq _ _ _)).trans (fault _ _ _ _ _ _ _)
    · exact refl s1
  have h3 : SameLaunch s2 s3 := by
    unfold s3
    split
    · exact ((setB s2 _ _ (by decide)).trans (irq _ _ _)).trans (fault _ _ _ _ _ _ _)
    · exact refl s2
  refine ((h1.trans h2).trans h3).trans ?_
  split
  · exact (((setB s3 _ _ (by decide)).trans (setF _ _ _ _ (by decide))).trans (irq _ _ _)).trans (fault _ _ _ _ _ _ _)
  · exact refl s3

theorem frameNext (s : State) (m : Nat) : SameLaunch s (s.frameNext m).1 := by
  unfold State.frameNext
  extract_lets e a b s1 s2
  have ha : SameLaunch s a.1 := by
    unfold a
    split
    · exact withEdge s _
    · exact frameAll s m
  have h2 : SameLaunch s1 s2 := when s1 _ fun t => withScribe t _
  exact (((ha.trans (frameLocal a.1 m)).trans (edgeTally _ _ _)).trans h2).trans (setPair _ _)

theorem acceptCommits (s : State) (l : List Nat) : SameLaunch s (l.foldl (fun t p => t.acceptPage p true) s) :=
  foldl (fun t p => acceptPage t p true) l s

end SameLaunch

/-! ### The frames framed, and their launch -/

/-- One entry per ring of the map is framed (R204). -/
theorem State.frameAll_rings (s : State) (m : Nat) : (s.frameAll m).2.1.map Prod.fst = s.ringsInMap := by
  unfold State.frameAll
  dsimp only
  refine (List.foldl_hom (fun q : State × List (Nat × Bool × List Byte) × Tally => q.2.1.map Prod.fst)
    (g₂ := fun a r => a ++ [r]) fun q r => ?_).symm.trans ?_
  · simp
  · simp [← List.flatMap_def]

/-- Outside a restore every ring of the map is framed. -/
theorem State.frameNext_rings {s : State} (hr : s.restoring = false) (m : Nat) :
    (s.frameNext m).2.map Prod.fst = s.ringsInMap := by
  rw [← s.frameAll_rings m]
  unfold State.frameNext State.framesNothing State.inRestore
  simp [hr]

/-- What a step sends comes beside what has been sent, and the plan goes on. -/
theorem State.also_send (s : State) (f : State → List OutFrame) :
    (s.also fun t => t.send (f t)).plan = s.plan ∧ ∀ o ∈ s.out, o ∈ (s.also fun t => t.send (f t)).out := by
  obtain ⟨x, hx⟩ := State.send_frame { s with out := [] } (f { s with out := [] })
  unfold State.also
  dsimp only
  rw [hx]
  exact ⟨rfl, fun o ho => List.mem_append_left _ ho⟩

theorem State.plan_launch (s : State) (t : Nat) (fs : List (Nat × Bool × List Byte)) : (s.launch t fs).plan = s.plan := by
  obtain ⟨x, hx⟩ := s.send_frame (fs.map fun p => s.exlOut p.1 p.2.1 t p.2.2).flatten
  rw [State.launch, hx]

/-- An unpaired head launches its command frames, and the plan goes on. -/
theorem State.launchNext_unpaired {s : State} (hp : s.paired = false) (m : Nat) (fs : List (Nat × Bool × List Byte)) :
    (s.launchNext m fs).plan = s.plan ∧
      ∀ o ∈ (s.launch s.tML (s.commands m fs)).out, o ∈ (s.launchNext m fs).out := by
  have hlaunch := s.paired_launch s.tML (s.commands m fs)
  have hnext : s.launchNext m fs = (s.launch s.tML (s.commands m fs)).also fun t => t.send (t.tieBeacon false) := by
    unfold State.launchNext
    simp [State.active_unpaired hp, hlaunch, hp]
  obtain ⟨hplan, hout⟩ := (s.launch s.tML (s.commands m fs)).also_send fun t => t.tieBeacon false
  rw [hnext]
  exact ⟨hplan.trans (s.plan_launch _ _), hout⟩

/-! ### The command launch (R48, R116) -/

/-- The plan after t_ML: compute is closed, and a stop requested is accepted (R610). -/
def Plan.afterML (p : Plan) : Plan := { p with pastML := true, stopReq := false, stopAcc := p.stopAcc || p.stopReq }

theorem State.acceptStop_plan (s : State) :
    s.acceptStop.plan = { s.plan with stopReq := false, stopAcc := s.plan.stopAcc || s.plan.stopReq } := by
  unfold State.acceptStop
  split
  · simp [*]
  · cases h : s.plan
    simp_all

theorem State.acceptStop_rest (s : State) : s.acceptStop.regs = s.regs ∧ s.acceptStop.restoring = s.restoring := by
  unfold State.acceptStop
  split
  · exact ⟨rfl, rfl⟩
  · exact ⟨rfl, rfl⟩

/-- The state in which compute closes. -/
def State.pastCompute (s : State) : State := { s with plan := { s.plan with pastML := true } }.reach s.tML

/-- The state that the framing at t_ML finds: the stop and the commits accepted, the stack's loops run. -/
def State.toFrame (s : State) : State :=
  (s.pastCompute.cpendPages.foldl (fun t p => t.acceptPage p true) s.pastCompute.acceptStop).stackWatch.captureSet

theorem State.toFrame_sameLaunch (s : State) : SameLaunch { s with plan := s.plan.afterML } s.toFrame := by
  obtain ⟨hregs, hrestoring⟩ := s.pastCompute.acceptStop_rest
  have hplan : s.pastCompute.acceptStop.plan = s.plan.afterML := by
    rw [State.acceptStop_plan, State.pastCompute, State.reach_plan]
    rfl
  have hstop : SameLaunch { s with plan := s.plan.afterML } s.pastCompute.acceptStop :=
    .of_regs hplan (hrestoring.trans (State.reach_restoring ..)) (hregs.trans (State.reach_regs ..))
  exact ((hstop.trans (SameLaunch.acceptCommits _ _)).trans (SameLaunch.stackWatch _)).trans (SameLaunch.captureSet _)

theorem State.commandLaunch_past {s : State} (hpast : s.plan.pastML = true) : s.commandLaunch = s := by
  unfold State.commandLaunch
  simp [hpast]

theorem State.commandLaunch_first {s : State} (hstarted : s.plan.started = true) (hpast : s.plan.pastML = false) :
    s.commandLaunch =
      (s.toFrame.frameNext s.nextPidx).1.launchNext s.nextPidx (s.toFrame.frameNext s.nextPidx).2 := by
  have hnext : s.toFrame.nextPidx = s.nextPidx := s.toFrame_sameLaunch.nextPidx
  rw [← hnext, State.commandLaunch, if_neg (by simp [hstarted, hpast])]
  dsimp only [State.toFrame, State.pastCompute]

/-- In the first command launch of a period the plan passes t_ML, and each direction of a ring of the map whose lane is UP
takes one command frame of the next period. -/
theorem State.commandLaunch_sends {s : State} (hpaired : s.paired = false) (hstarted : s.plan.started = true)
    (hpast : s.plan.pastML = false) (hrestoring : s.restoring = false) :
    s.commandLaunch.plan = s.plan.afterML ∧
      ∀ r < 32, ∀ (rev : Bool) (n : Nat), 0 < s.ringCells r → s.txLane r rev = some n → s.laneUp n = true →
        ∃ b, OutFrame.exl n s.tML b ∈ s.commandLaunch.out ∧ frameType b = 1 ∧
          framePidx b = (s.regN R.TRG.PIDX + 1) % 65536 ∧ frameRing b = r ∧ frameRev b = rev := by
  have hframe := s.toFrame_sameLaunch
  have hsame := hframe.trans (SameLaunch.frameNext s.toFrame s.nextPidx)
  obtain ⟨hplan, hout⟩ := State.launchNext_unpaired (hsame.paired.trans hpaired) s.nextPidx (s.toFrame.frameNext s.nextPidx).2
  rw [State.commandLaunch_first hstarted hpast]
  refine ⟨hplan.trans hsame.plan, fun r hr rev n hcells hlane hup => ?_⟩
  have hring : r ∈ (s.toFrame.frameNext s.nextPidx).2.map Prod.fst := by
    rw [State.frameNext_rings (hframe.restoring.trans hrestoring), hframe.ringsInMap]
    exact State.mem_ringsInMap.2 ⟨hr, hcells⟩
  obtain ⟨b, hb, htype, hpidx, hbring, hbrev⟩ :=
    State.mem_commands (s := (s.toFrame.frameNext s.nextPidx).1) (m := s.nextPidx) hr hring rev
  have htML : (s.toFrame.frameNext s.nextPidx).1.tML = s.tML := hsame.tML
  refine ⟨b, hout _ ?_, htype, hpidx.trans (Nat.mod_mod _ _), hbring, hbrev⟩
  rw [htML]
  exact hsame.exl_mem_launch hpaired s.tML hb hlane hup

end Sys2Proof.Machine
end

section
/-! Proofs: the events of a period (chapter 01, R36, R44, R46). -/

namespace Sys2Proof.Machine

/-- Settles O12: each event of a period is a lemma of its own above; the command launch, the long one, keeps what its
frames read through the commits, the stack's loops and the framing (`State.toFrame_sameLaunch`,
`SameLaunch.frameNext`). -/
theorem periodEvents : Obligations.PeriodEvents := by
  unfold Obligations.PeriodEvents
  intro s hpaired hstarted hcells
  refine ⟨⟨s.collectorLaunch, rfl, ?collector⟩, ⟨s.closeTelemetry, rfl, ?telemetry⟩, ?commandAgain,
    fun hpast hrestoring => ⟨s.commandLaunch, rfl, ?command⟩, fun hrestoring => ⟨s.slotWriteBack, rfl, ?images⟩,
    fun cycles => ⟨s.commandClose cycles.toNat, rfl, ?beacons⟩, fun hnone hnew => ⟨s.outputBoundary, rfl, ?boundary⟩,
    fun b hlast => ⟨s.outputBoundary, rfl, ?lastBoundary⟩⟩
  case collector => exact fun r hr rev n hring hlane hup => State.collectorLaunch_sends hpaired hstarted hr hring hlane hup
  case telemetry =>
    exact fun r hr p hp => State.closeTelemetry_marks hpaired hstarted hr hp (Nat.lt_of_lt_of_le hp (hcells r hr))
  case commandAgain => exact fun hpast => congrArg Host.Outcome.next (State.commandLaunch_past hpast)
  case command =>
    obtain ⟨hplan, hsends⟩ := State.commandLaunch_sends hpaired hstarted hpast hrestoring
    rw [hplan]
    exact ⟨rfl, rfl, rfl, hsends⟩
  case images => exact State.slotWriteBack_images hstarted hcells hrestoring
  case beacons => exact fun r hr rev n hring hlane hup => State.commandClose_sends _ hpaired hstarted hr hring hlane hup
  case boundary => exact State.outputBoundary_loads hstarted hnone hnew
  case lastBoundary => exact State.outputBoundary_last hlast

end Sys2Proof.Machine
end

section
/-! Proofs: commits while no plan runs (chapter 02, R64; chapter 06, R214). -/

namespace Sys2Proof.Machine

theorem exec_commitIdleAccept (page : Nat) (s : State) : exec (.commitIdleAccept page) s = .next (s.commitIdle page) := rfl

/-- No plan runs, the first local leg holds a policy carry, and a commit that takes its POLICY from CARRY to 0 is pending on
the LBR page. -/
def carryHeld : State :=
  { State.reset with
    regs := [(R.PSTA 0x78, 2)], shadow := [(R.LBR.LCFG 0, some 0)], edge := { legs := [(0x1000, { carry := 5 })] } }

/-- Refutes O11: its claim that nothing but registers, shadow copies and accepted values changes. Where the commit takes the
policy of a leg away from CARRY, the carry of that leg is cleared as the commit takes effect (R214). -/
theorem not_commitAppliesWhenIdle : ¬ Obligations.CommitAppliesWhenIdle := by
  intro h
  obtain ⟨-, -, happly⟩ := h carryHeld 0x78
  obtain ⟨t, ht, -, -, -, -, hframe⟩ :=
    happly rfl (by decide) rfl (by decide) (by decide) (by decide) (by decide)
  have hedge : t.edge = carryHeld.edge := by rw [hframe]
  rw [exec_commitIdleAccept] at ht
  obtain rfl : carryHeld.commitIdle 0x78 = t := by injection ht
  exact absurd hedge (by decide)

end Sys2Proof.Machine
end

section
/-! Proofs: requests of the host on the HSP and the Ethernet ports (chapter 02, R67 to R84). -/

namespace Sys2Proof.Machine

/-! ### Numbers as bytes, most significant first (R68) -/

theorem natBe_length (n v : Nat) : (natBe n v).length = n := by rw [natBe, List.length_reverse, natLe_length]

theorem beNat_natBe (n v : Nat) : beNat (natBe n v) = v % 256 ^ n := by
  induction n generalizing v with
  | zero => simp [natBe, natLe, beNat, Nat.mod_one]
  | succ n ih =>
    have hstep : beNat (natBe (n + 1) v) = beNat (natBe n (v / 256)) * 256 + v % 256 := by
      simp [natBe, natLe, beNat]
    rw [hstep, ih, Nat.pow_succ, Nat.mul_comm (256 ^ n), Nat.mod_mul]
    omega

theorem crcMsbByte_lt (w p crc : Nat) (b : Byte) : crcMsbByte w p crc b < 2 ^ w := by
  rw [crcMsbByte, List.range_succ, List.foldl_append]
  exact Nat.mod_lt _ (Nat.two_pow_pos w)

theorem crc16_lt (l : List Byte) : crc16 l < 2 ^ 16 := by
  rcases List.eq_nil_or_concat' l with rfl | ⟨l, b, rfl⟩
  · decide
  · rw [crc16, List.foldl_append, List.foldl_cons, List.foldl_nil]
    exact crcMsbByte_lt 16 ..

theorem ble_eq_false_of_lt {m n : Nat} (h : n < m) : Nat.ble m n = false := by
  rw [← Bool.not_eq_true, Nat.ble_eq]
  omega

/-! ### The layout of a request (R68) -/

/-- The data of a request, word after word. -/
def dataBytes (data : List Word) : List Byte := (data.map fun w => natBe 4 w.toNat).flatten

/-- The bytes of a request that its CRC covers. -/
def requestBody (cmd tag addr cnt : Nat) (data : List Word) : List Byte :=
  [BitVec.ofNat 8 cmd, BitVec.ofNat 8 tag] ++ natBe 4 addr ++ natBe 2 cnt ++ dataBytes data

theorem requestBytes_eq (cmd tag addr cnt : Nat) (data : List Word) :
    requestBytes cmd tag addr cnt data =
      requestBody cmd tag addr cnt data ++ natBe 2 (crc16 (requestBody cmd tag addr cnt data)) := rfl

theorem dataBytes_length (data : List Word) : (dataBytes data).length = 4 * data.length := by
  induction data with
  | nil => rfl
  | cons w t ih =>
    have hcons : dataBytes (w :: t) = natBe 4 w.toNat ++ dataBytes t := rfl
    rw [hcons, List.length_append, natBe_length, ih, List.length_cons]
    omega

theorem requestBody_length (cmd tag addr cnt : Nat) (data : List Word) :
    (requestBody cmd tag addr cnt data).length = 8 + 4 * data.length := by
  simp only [requestBody, List.length_append, natBe_length, dataBytes_length, List.length_cons, List.length_nil]

theorem requestBytes_length (cmd tag addr cnt : Nat) (data : List Word) :
    (requestBytes cmd tag addr cnt data).length = 10 + 4 * data.length := by
  rw [requestBytes_eq, List.length_append, requestBody_length, natBe_length]
  omega

/-- The word at index `i` of a request's data. -/
theorem beNat_dataBytes (data : List Word) (l : List Byte) {i : Nat} (hi : i < data.length) :
    wd (beNat (((dataBytes data ++ l).drop (4 * i)).take 4)) = data[i] := by
  induction data generalizing i with
  | nil => simp at hi
  | cons w t ih =>
    have hcons : dataBytes (w :: t) ++ l = natBe 4 w.toNat ++ (dataBytes t ++ l) := by
      simp [dataBytes]
    rw [hcons]
    cases i with
    | zero =>
      rw [Nat.mul_zero, List.drop_zero, List.take_append_of_le_length (by rw [natBe_length]),
        List.take_of_length_le (by rw [natBe_length]), beNat_natBe, Nat.mod_eq_of_lt (by exact w.isLt)]
      exact BitVec.ofNat_toNat ..
    | succ j =>
      have hdrop : (natBe 4 w.toNat ++ (dataBytes t ++ l)).drop (4 * (j + 1)) = (dataBytes t ++ l).drop (4 * j) := by
        rw [List.drop_append, natBe_length, List.drop_of_length_le (by rw [natBe_length]; omega), List.nil_append]
        congr 1
      rw [hdrop]
      exact ih (by simpa using hi)

section
variable (cmd tag addr cnt : Nat) (data : List Word)

theorem requestBytes_cmd (h : cmd < 256) : byteAt (requestBytes cmd tag addr cnt data) 0 = cmd := by
  simp [requestBytes, byteAt, Nat.mod_eq_of_lt h]

theorem requestBytes_tag (h : tag < 256) : byteAt (requestBytes cmd tag addr cnt data) 1 = tag := by
  simp [requestBytes, byteAt, Nat.mod_eq_of_lt h]

theorem requestBytes_addr (h : addr < 2 ^ 32) :
    beNat (((requestBytes cmd tag addr cnt data).drop 2).take 4) = addr := by
  have htake : ((requestBytes cmd tag addr cnt data).drop 2).take 4 = natBe 4 addr := by
    simp [requestBytes, natBe_length]
  rw [htake, beNat_natBe, Nat.mod_eq_of_lt (by simpa using h)]

theorem requestBytes_cnt (h : cnt < 2 ^ 16) :
    beNat (((requestBytes cmd tag addr cnt data).drop 6).take 2) = cnt := by
  have htake : ((requestBytes cmd tag addr cnt data).drop 6).take 2 = natBe 2 cnt := by
    simp [requestBytes, natBe_length]
  rw [htake, beNat_natBe, Nat.mod_eq_of_lt (by simpa using h)]

theorem requestBytes_data :
    ((List.range data.length).map fun i =>
      wd (beNat (((requestBytes cmd tag addr cnt data).drop (8 + 4 * i)).take 4))) = data := by
  have hdrop : ∀ n, (requestBytes cmd tag addr cnt data).drop (8 + n) =
      (dataBytes data ++ natBe 2 (crc16 (requestBody cmd tag addr cnt data))).drop n := by
    intro n
    rw [← List.drop_drop]
    rfl
  apply List.ext_getElem
  · simp
  · intro i hi hi'
    simp only [List.getElem_map, List.getElem_range]
    rw [hdrop, beNat_dataBytes]

/-- The CRC of a request is that of the bytes before it. -/
theorem requestBytes_crc :
    crc16 ((requestBytes cmd tag addr cnt data).take (8 + 4 * data.length)) =
      beNat (((requestBytes cmd tag addr cnt data).drop (8 + 4 * data.length)).take 2) := by
  have hlen := requestBody_length cmd tag addr cnt data
  have htake : (natBe 2 (crc16 (requestBody cmd tag addr cnt data))).take 2 =
      natBe 2 (crc16 (requestBody cmd tag addr cnt data)) := List.take_of_length_le (by rw [natBe_length])
  rw [requestBytes_eq, ← hlen, List.take_left, List.drop_left, htake, beNat_natBe]
  exact (Nat.mod_eq_of_lt (crc16_lt _)).symm

end

/-! ### What reaches the host bridge (R67, R83) -/

/-- Where the response to a request goes: the HSP has one place alone. -/
def answerVia (src : HSrc) (via : Dgram) : Dgram := match src with
  | .hsp => {}
  | _ => via

/-- A response stands as the last one sent, with its bytes laid out by R68. -/
theorem State.respond_eq (s : State) (src : HSrc) (via : Dgram) (stat tag : Nat) (data : List Word) :
    s.respond src (answerVia src via) stat tag data =
      { s with host := { s.host with rsp := reply src via (responseBytes stat tag data) } } := by
  cases src <;> rfl

theorem exec_hostWrite (src : HSrc) (via : Dgram) (b : List Byte) (s : State) :
    exec (.hostWrite ⟨src, via⟩ b) s = .next (s.hostReq src via b true) := rfl

theorem exec_hostRead (src : HSrc) (via : Dgram) (b : List Byte) (s : State) :
    exec (.hostRead ⟨src, via⟩ b) s = .next (s.hostReq src via b true) := rfl

theorem exec_hostFetch (src : HSrc) (via : Dgram) (b : List Byte) (clocked : Bool) (s : State) :
    exec (.hostFetch ⟨src, via⟩ b clocked) s = .next (s.hostReq src via b clocked) := rfl

theorem exec_hostStatus (src : HSrc) (via : Dgram) (b : List Byte) (s : State) :
    exec (.hostStatus ⟨src, via⟩ b) s = .next (s.hostReq src via b true) := rfl

theorem exec_hspFrameAbort (b : List Byte) (s : State) : exec (.hspFrameAbort b) s = .next (s.hostReq .hsp {} b false) := rfl

/-- Of what a port hears, the data of the datagram are the request. -/
theorem State.hostReq_port {s : State} {src : HSrc} {via : Dgram} (b : List Byte) (clocked : Bool)
    (hup : s.domHeld 0 = false) (hsrc : src ≠ .hsp) (hhears : s.hears src via = true) :
    s.hostReq src via b clocked = s.dgramReq src via b := by
  cases src with
  | hsp => exact absurd rfl hsrc
  | en0 =>
    simp only [State.hears, State.hostOn, Bool.and_eq_true, Option.isNone_iff_eq_none, beq_iff_eq] at hhears
    obtain ⟨hon, ⟨⟨hlink, hours⟩, hfrag⟩, hport⟩ := hhears
    simp [State.hostReq, hup, srcNo, hon, hlink, hours, hfrag, hport]
  | en1 =>
    simp only [State.hears, State.hostOn, Bool.and_eq_true, Option.isNone_iff_eq_none, beq_iff_eq] at hhears
    obtain ⟨hon, ⟨⟨hlink, hours⟩, hfrag⟩, hport⟩ := hhears
    simp [State.hostReq, hup, srcNo, hon, hlink, hours, hfrag, hport]

/-- A port whose host access is disabled drops what arrives. -/
theorem State.hostReq_portOff {s : State} {src : HSrc} (via : Dgram) (b : List Byte) (clocked : Bool)
    (hsrc : src ≠ .hsp) (hoff : s.hostOn src = false) : s.hostReq src via b clocked = s := by
  cases src with
  | hsp => exact absurd rfl hsrc
  | en0 =>
    have hbit : s.regB R.HSP.HCFG 2 = false := hoff
    simp [State.hostReq, srcNo, hbit]
  | en1 =>
    have hbit : s.regB R.HSP.HCFG 3 = false := hoff
    simp [State.hostReq, srcNo, hbit]

/-- A request as R68 lays it out, with its length as its fields say, is served. -/
theorem State.hostReq_requestBytes {s : State} {src : HSrc} {via : Dgram} (hup : s.domHeld 0 = false)
    (hhears : s.hears src via = true) {cmd tag addr cnt : Nat} {data : List Word} (hcmd : cmd < 8) (hcnt : cnt < 4096)
    (hdata : data.length = if cmd = 1 then cnt else 0) (clocked : Bool) :
    s.hostReq src via (requestBytes cmd tag addr cnt data) clocked =
      s.serve src (answerVia src via) (requestBytes cmd tag addr cnt data) false (src != .hsp || clocked) := by
  have hlen := requestBytes_length cmd tag addr cnt data
  have hfirst := requestBytes_cmd cmd tag addr cnt data (by omega)
  have hreq : reqLen (requestBytes cmd tag addr cnt data) = 10 + 4 * data.length := by
    rw [reqLen, hfirst, requestBytes_cnt cmd tag addr cnt data (by omega), Nat.mod_eq_of_lt hcmd, Nat.mod_eq_of_lt hcnt, hdata]
    split <;> rfl
  have hcrc := requestBytes_crc cmd tag addr cnt data
  have hport : s.dgramReq src via (requestBytes cmd tag addr cnt data) =
      s.serve src via (requestBytes cmd tag addr cnt data) false true := by
    have htwo : 10 + 4 * data.length - 2 = 8 + 4 * data.length := by omega
    have hrest : ((requestBytes cmd tag addr cnt data).drop (8 + 4 * data.length)).take 2 =
        (requestBytes cmd tag addr cnt data).drop (8 + 4 * data.length) :=
      List.take_of_length_le (by rw [List.length_drop, hlen]; omega)
    rw [State.dgramReq, hlen, htwo, hcrc, hrest, if_neg (by simp), hreq, hfirst]
    rw [ble_eq_false_of_lt (show cmd < 128 by omega), Bool.or_false, decide_eq_false (by simp)]
  cases src with
  | hsp =>
    have hon : s.regB R.HSP.HCFG 0 = true := by simpa [State.hears, State.hostOn] using hhears
    have htwo : 10 + 4 * data.length - 2 = 8 + 4 * data.length := by omega
    have hbad := ble_eq_false_of_lt (show cmd < 128 by omega)
    simp only [State.hostReq, hup, hreq, hlen, htwo, hcrc, hfirst, hbad]
    rw [if_neg (by simp), if_neg (by simp [hon]; omega), if_neg (by simp)]
    rfl
  | en0 => exact (State.hostReq_port _ _ hup (by simp) hhears).trans hport
  | en1 => exact (State.hostReq_port _ _ hup (by simp) hhears).trans hport

/-! ### What each request does (R70 to R82) -/

section
variable (s : State) (src : HSrc) (via : Dgram) {tag addr cnt : Nat} (clocked : Bool)

theorem State.serve_write {ws : List Word} (htag : tag < 64) (haddr : addr < 2 ^ 32) (halign : addr % 4 = 0)
    (hlen : ws.length < 4096) :
    s.serve src via (requestBytes 1 tag addr ws.length ws) false clocked =
      (s.acceptWrite src addr ws).1.respond src via (s.acceptWrite src addr ws).2 tag [] := by
  have hlow := ble_eq_false_of_lt htag
  have hfew := ble_eq_false_of_lt hlen
  simp only [State.serve, requestBytes_cmd _ _ _ _ _ (show 1 < 256 by omega), requestBytes_tag _ _ _ _ _ (show tag < 256 by omega),
    requestBytes_addr _ _ _ _ _ haddr, requestBytes_cnt _ _ _ _ _ (show ws.length < 2 ^ 16 by omega), Nat.mod_eq_of_lt hlen,
    requestBytes_data]
  rw [if_neg (by simp [hlow, hfew, halign, natFld]), if_true]

theorem State.serve_read (htag : tag < 64) (haddr : addr < 2 ^ 32) (halign : addr % 4 = 0) (hcnt : cnt < 4096) :
    s.serve src via (requestBytes 2 tag addr cnt []) false clocked =
      if (NMap.get none s.host.tags tag).isSome then s.respond src via 8 tag []
      else (s.acceptRead src tag addr cnt).1.respond src via (s.acceptRead src tag addr cnt).2 tag [] := by
  have hlow := ble_eq_false_of_lt htag
  have hfew := ble_eq_false_of_lt hcnt
  simp only [State.serve, requestBytes_cmd _ _ _ _ _ (show 2 < 256 by omega), requestBytes_tag _ _ _ _ _ (show tag < 256 by omega),
    requestBytes_addr _ _ _ _ _ haddr, requestBytes_cnt _ _ _ _ _ (show cnt < 2 ^ 16 by omega), Nat.mod_eq_of_lt hcnt,
    Nat.mod_eq_of_lt htag]
  rw [if_neg (by simp [hlow, hfew, halign, natFld]), if_neg (by decide), if_true]

theorem State.serve_fetch (htag : tag < 64) :
    s.serve src via (requestBytes 3 tag 0 0 []) false clocked = s.fetch src via tag tag clocked := by
  have hlow := ble_eq_false_of_lt htag
  simp only [State.serve, requestBytes_cmd _ _ _ _ _ (show 3 < 256 by omega), requestBytes_tag _ _ _ _ _ (show tag < 256 by omega),
    Nat.mod_eq_of_lt htag]
  rw [if_neg (by simp [hlow, natFld]), if_neg (by decide), if_neg (by decide), if_true]

theorem State.serve_status (htag : tag < 64) :
    s.serve src via (requestBytes 4 tag 0 0 []) false clocked =
      s.respond src via 0 tag [s.tagMap (tag / 32) fun t => t.src == src,
        s.tagMap (tag / 32) fun t => t.src == src && t.data.isSome] := by
  have hlow := ble_eq_false_of_lt htag
  simp only [State.serve, requestBytes_cmd _ _ _ _ _ (show 4 < 256 by omega), requestBytes_tag _ _ _ _ _ (show tag < 256 by omega),
    Nat.mod_eq_of_lt htag]
  rw [if_neg (by simp [hlow, natFld]), if_neg (by decide), if_neg (by decide), if_neg (by decide)]

end

/-! ### Requests that are dropped (R84) -/

/-- What a port hears that is too short for a request, or fails its CRC, is counted. -/
theorem State.hostReq_broken {s : State} {src : HSrc} {via : Dgram} {b : List Byte} (clocked : Bool)
    (hup : s.domHeld 0 = false) (hsrc : src ≠ .hsp) (hhears : s.hears src via = true)
    (hbad : b.length < 10 ∨ crc16 (b.take (b.length - 2)) ≠ beNat (b.drop (b.length - 2))) :
    s.hostReq src via b clocked = s.bump R.HSP.CRCCNT := by
  rw [State.hostReq_port b clocked hup hsrc hhears, State.dgramReq, if_pos (by simpa using hbad)]

/-- On the HSP a frame cut before its end is dropped. -/
theorem State.hostReq_cut {s : State} {b : List Byte} (clocked : Bool) (hcut : b.length < reqLen b) :
    s.hostReq .hsp {} b clocked = s := by
  simp [State.hostReq, hcut]

theorem satInc_lt (bits n : Nat) : satInc bits n < 2 ^ bits := by
  have := Nat.two_pow_pos bits
  unfold satInc
  split <;> omega

theorem State.regF_bumpAt (s : State) (k lo bits : Nat) (h : lo + bits ≤ 32) :
    (s.bumpAt k lo bits).regF k lo bits = satInc bits (s.regF k lo bits) := by
  rw [State.regF_bumpAt_same _ _ _ _ h, Nat.mod_eq_of_lt (satInc_lt ..)]

theorem State.regF_bump (s : State) (k : Nat) : (s.bump k).regF k 0 16 = satInc 16 (s.regF k 0 16) :=
  s.regF_bumpAt k 0 16 (by decide)

/-- Settles O18: each clause is one way in which a request ends before it is served. -/
theorem brokenRequests : Obligations.BrokenRequests := by
  intro s src via b hup
  refine ⟨fun hsrc hoff => ?_, fun hsrc hhears hbad => ?_, fun hcut => ?_⟩
  · simp only [exec_hostWrite, exec_hostRead, exec_hostFetch, exec_hostStatus, State.hostReq_portOff via b true hsrc hoff,
      and_self]
  · simp only [exec_hostWrite, exec_hostRead, exec_hostFetch, exec_hostStatus, State.hostReq_broken true hup hsrc hhears hbad,
      true_and]
    exact s.regF_bump _
  · rw [exec_hspFrameAbort, State.hostReq_cut false hcut]

/-! ### Requests that are served (R70 to R82) -/

/-- Of a burst that ends inside its 4 KiB block, at a decoded address, nothing is cut and nothing raised (R76). -/
theorem State.checkBurst_whole (s : State) (src : HSrc) {a cnt : Nat} (acc : Nat) (hroom : cnt ≤ room a)
    (hdec : cnt = 0 ∨ (placeOf a).isSome = true) : s.checkBurst src a cnt acc = (s, 0) := by
  have hcut : Nat.blt (room a) cnt = false := ble_eq_false_of_lt (Nat.lt_succ_of_le hroom)
  have hplace : ¬ (cnt ≠ 0 && (placeOf a).isNone) = true := by
    rcases hdec with h | h
    · simp [h]
    · simp [Option.isNone_eq_false_iff.2 h]
  simp only [State.checkBurst, hcut, if_neg hplace]
  rfl

/-- A burst inside its block at an undecoded address is answered BUS_ERR and raised once (R54). -/
theorem State.checkBurst_undecoded (s : State) (src : HSrc) {a cnt : Nat} (acc : Nat) (hroom : cnt ≤ room a) (hcnt : cnt ≠ 0)
    (hplace : placeOf a = none) :
    s.checkBurst src a cnt acc = (s.fault Src.HOST_DECODE 0xB0 a (0x20 + srcNo src) acc, 0x40) := by
  have hcut : Nat.blt (room a) cnt = false := ble_eq_false_of_lt (Nat.lt_succ_of_le hroom)
  have hbad : (cnt ≠ 0 && (placeOf a).isNone) = true := by simp [hcnt, hplace]
  simp only [State.checkBurst, hcut, if_pos hbad]
  rfl

/-- A burst that crosses its 4 KiB boundary from a decoded address is cut and counted (R76). -/
theorem State.checkBurst_cut (s : State) (src : HSrc) {a cnt : Nat} (acc : Nat) (hroom : room a < cnt)
    (hdec : (placeOf a).isSome = true) : s.checkBurst src a cnt acc = (s.bump R.HSP.TRCCNT, 1) := by
  have hcut : Nat.blt (room a) cnt = true := by rw [Nat.blt_eq]; exact hroom
  have hplace : ¬ (cnt ≠ 0 && (placeOf a).isNone) = true := by simp [Option.isNone_eq_false_iff.2 hdec]
  simp only [State.checkBurst, hcut, if_neg hplace]
  rfl

theorem room_le (a : Nat) : room a ≤ 1024 := by
  unfold room
  omega

/-- Settles O17: a request laid out as R68 says reaches `serve`, whose branch of its opcode gives the clause. -/
theorem hostRequestsServed : Obligations.HostRequestsServed := by
  intro s src via tag addr hup hhears htag haddr halign hdec
  have hroom := room_le addr
  refine ⟨fun ws hne hlen hopen => ?_, fun cnt hcnt hfree => ?_, fun cnt g hg hcnt => ?_, fun g hg d hd hsrc => ?_,
    fun g hg hsrc hd => ?_, fun hother => ?_, ?_⟩
  · have haccept : s.acceptWrite src addr ws = ({ s with host := { s.host with ops := s.host.ops ++ [.write src addr ws] } }, 0) := by
      have hgo : ¬ (ws.isEmpty || (placeOf addr).isNone) = true := by
        simp [hne, Option.isNone_eq_false_iff.2 hdec]
      rw [State.acceptWrite, State.checkBurst_whole s src 2 hlen (.inr hdec), if_neg hgo, if_neg (by simp [hopen]),
        List.take_of_length_le hlen]
    rw [exec_hostWrite, State.hostReq_requestBytes hup hhears (by omega) (by omega) rfl,
      State.serve_write _ _ _ _ htag haddr halign (by omega), haccept, State.respond_eq]
  · rw [exec_hostRead, State.hostReq_requestBytes hup hhears (by omega) (by omega) rfl,
      State.serve_read _ _ _ _ htag haddr halign (by omega), if_neg (by simp [hfree]), State.acceptRead,
      State.checkBurst_whole s src 1 hcnt (.inr hdec), State.respond_eq]
  · rw [exec_hostRead, State.hostReq_requestBytes hup hhears (by omega) hcnt rfl,
      State.serve_read _ _ _ _ htag haddr halign hcnt, if_pos (by simp [hg]), State.respond_eq]
  · rw [exec_hostFetch, State.hostReq_requestBytes hup hhears (by omega) (by omega) rfl, State.serve_fetch _ _ _ _ htag]
    simp [State.fetch, hg, hd, hsrc, State.respond_eq]
  · rw [exec_hostFetch, State.hostReq_requestBytes hup hhears (by omega) (by omega) rfl, State.serve_fetch _ _ _ _ htag]
    simp [State.fetch, hg, hd, hsrc, State.respond_eq]
  · rw [exec_hostFetch, State.hostReq_requestBytes hup hhears (by omega) (by omega) rfl, State.serve_fetch _ _ _ _ htag]
    cases hg : NMap.get none s.host.tags tag with
    | none => simp [State.fetch, hg, State.respond_eq]
    | some g => simp [State.fetch, hg, hother g hg, State.respond_eq]
  · rw [exec_hostStatus, State.hostReq_requestBytes hup hhears (by omega) (by omega) rfl, State.serve_status _ _ _ _ htag,
      State.respond_eq]

/-! ### Bursts at the edges of what is decoded (R54, R55, R76) -/

theorem State.raised_fault (s : State) (src page a m acc d : Nat) : s.raised (s.fault src page a m acc d) src page :=
  ⟨_, rfl, rfl, rfl⟩

/-- A closed instruction memory is a decoded place. -/
theorem State.decoded_of_imemShut {s : State} {a : Nat} (h : s.imemShut a = true) : (placeOf a).isSome = true := by
  unfold State.imemShut at h
  cases hp : placeOf a with
  | none => simp [hp] at h
  | some p => rfl

/-- Settles O20: each clause is one case of what `checkBurst` and `acceptWrite` find in a burst. -/
theorem hostBurstEdges : Obligations.HostBurstEdges := by
  intro s src via tag addr ws hup hhears htag haddr halign hfew
  have hserve : ∀ l : List Word, l.length < 4096 → exec (.hostWrite ⟨src, via⟩ (requestBytes 1 tag addr l.length l)) s =
      .next ((s.acceptWrite src addr l).1.respond src (answerVia src via) (s.acceptWrite src addr l).2 tag []) := by
    intro l hl
    rw [exec_hostWrite, State.hostReq_requestBytes hup hhears (by omega) hl rfl, State.serve_write _ _ _ _ htag haddr halign hl]
  have hwrite := hserve ws hfew
  refine ⟨fun hcut hdec hopen => ?_, fun hplace hne hlen => ⟨?_, fun hfree => ?_⟩, fun hshut hne hlen => ?_, fun hdec => ?_⟩
  · have hne : ¬ (ws.isEmpty || (placeOf addr).isNone) = true := by
      have : ws ≠ [] := by
        rintro rfl
        simp at hcut
      simp [this, Option.isNone_eq_false_iff.2 hdec]
    rw [State.acceptWrite, State.checkBurst_cut s src 2 hcut hdec, if_neg hne, if_neg (by simp [hopen]), State.respond_eq] at hwrite
    exact ⟨_, hwrite, rfl, rfl, s.regF_bump _, fun k hk => State.reg_bump_ne s (by simpa using hk), rfl⟩
  · rw [State.acceptWrite, State.checkBurst_undecoded s src 2 hlen (by simpa using hne) hplace, if_pos (by simp [hplace]),
      State.respond_eq] at hwrite
    exact ⟨_, hwrite, s.raised_fault .., rfl, rfl⟩
  · have hread : exec (.hostRead ⟨src, via⟩ (requestBytes 2 tag addr ws.length [])) s =
        .next ((s.acceptRead src tag addr ws.length).1.respond src (answerVia src via)
          (s.acceptRead src tag addr ws.length).2 tag []) := by
      rw [exec_hostRead, State.hostReq_requestBytes hup hhears (by omega) hfew rfl, State.serve_read _ _ _ _ htag haddr halign hfew,
        if_neg (by simp [hfree])]
    rw [State.acceptRead, State.checkBurst_undecoded s src 1 hlen (by simpa using hne) hplace, State.respond_eq] at hread
    exact ⟨_, hread, s.raised_fault .., rfl, rfl⟩
  · have hdec := State.decoded_of_imemShut hshut
    have hgo : ¬ (ws.isEmpty || (placeOf addr).isNone) = true := by
      simp [hne, Option.isNone_eq_false_iff.2 hdec]
    rw [hwrite, State.acceptWrite, State.checkBurst_whole s src 2 hlen (.inr hdec), if_neg hgo, if_pos hshut, State.respond_eq]
  · have hnone := hserve [] (by simp)
    rw [List.length_nil] at hnone
    rw [hnone, State.acceptWrite, List.length_nil, State.checkBurst_whole s src 2 (Nat.zero_le _) (.inl rfl), if_pos (by simp),
      State.respond_eq]

end Sys2Proof.Machine
end

section
/-! Proofs: what leaves the host port and the control, lock and lock violations of every page alone (chapter 02, R57, R58). -/

namespace Sys2Proof.Machine

/-! ### The view of the host port and of the pages' control and lock -/

/-- The host port with PCTL, WLCK and IRQS.LOCKV of every page. -/
structure Controls where
  host : HostPort
  pctl : Nat → Word
  wlck : Nat → Word
  lockv : Nat → Bool

def State.controls (s : State) : Controls :=
  ⟨s.host, fun p => s.reg (R.PCTL p), fun p => s.reg (R.WLCK p), fun p => s.regB (R.IRQS p) 31⟩

/-- Is a register a page's PCTL, IRQS or WLCK? -/
@[simp] def ctlKey (k : Nat) : Bool := k % 0x1000 == 0x004 || k % 0x1000 == 0x00C || k % 0x1000 == 0x01C

section
variable {s t : State} (h : t.controls = s.controls)
include h

theorem State.host_of_controls : t.host = s.host := congrArg Controls.host h

theorem State.pctl_of_controls (p : Nat) : t.reg (R.PCTL p) = s.reg (R.PCTL p) := congrFun (congrArg Controls.pctl h) p

theorem State.wlck_of_controls (p : Nat) : t.reg (R.WLCK p) = s.reg (R.WLCK p) := congrFun (congrArg Controls.wlck h) p

theorem State.lockv_of_controls (p : Nat) : t.regB (R.IRQS p) 31 = s.regB (R.IRQS p) 31 :=
  congrFun (congrArg Controls.lockv h) p

end

theorem State.controls_congr {s t : State} (hhost : t.host = s.host) (hregs : t.regs = s.regs) : t.controls = s.controls := by
  simp only [State.controls, State.regB, hhost, State.reg_congr hregs]

/-! ### Registers, events and faults -/

section
variable (s : State) {k : Nat} (hk : ctlKey k = false)
include hk

@[simp] theorem State.controls_setReg (v : Word) : (s.setReg k v).controls = s.controls := by
  have hne : ∀ p off, off % 0x1000 = off → ctlKey off = true → (s.setReg k v).reg (p * 0x1000 + off) = s.reg (p * 0x1000 + off) := by
    intro p off hsmall hoff
    refine State.reg_setReg_ne _ _ fun e => ?_
    rw [← e] at hk
    simp only [ctlKey, Nat.mul_add_mod', hsmall] at hk hoff
    simp [hk] at hoff
  simp only [State.controls, State.regB, State.setReg_host]
  congr 1 <;> funext p
  · exact hne p _ rfl rfl
  · exact hne p _ rfl rfl
  · rw [hne p _ rfl rfl]

@[simp] theorem State.controls_setB (i : Nat) (b : Bool) : (s.setB k i b).controls = s.controls := s.controls_setReg hk _

@[simp] theorem State.controls_setF (lo len v : Nat) : (s.setF k lo len v).controls = s.controls := s.controls_setReg hk _

@[simp] theorem State.controls_bump : (s.bump k).controls = s.controls := s.controls_setReg hk _

@[simp] theorem State.controls_bumpBy (n : Nat) : (s.bumpBy k n).controls = s.controls := by
  unfold State.bumpBy
  split
  · rfl
  · exact s.controls_setReg hk _

end

/-- An event of a block is not a lock violation. -/
@[simp] theorem State.controls_irq (s : State) (page : Nat) {bit : Nat} (hb : bit < 31) : (s.irq page bit).controls = s.controls := by
  have hoff : ∀ p off, off < 0x1000 → off ≠ 0x00C → (s.irq page bit).reg (p * 0x1000 + off) = s.reg (p * 0x1000 + off) :=
    fun p off hsmall hne => State.reg_irq_ne s (by unfold R.IRQS; omega)
  unfold State.controls
  congr 1 <;> funext p
  · exact hoff p _ (by decide) (by decide)
  · exact hoff p _ (by decide) (by decide)
  · by_cases hp : R.IRQS p = R.IRQS page
    · unfold State.regB
      rw [hp, State.reg_irq_same, Word.bit_setBit_ne _ _ (by omega) (by omega)]
    · unfold State.regB
      rw [State.reg_irq_ne s hp]

@[simp] theorem State.controls_fault (s : State) (src page a m acc d : Nat) :
    (s.fault src page a m acc d).controls = s.controls := State.controls_congr rfl rfl

@[simp] theorem State.controls_setEns (s : State) (page : Nat) (b : Bool) : (s.setEns page b).controls = s.controls :=
  s.controls_setB (by simp) _ _

@[simp] theorem State.controls_setIdle (s : State) (page : Nat) (b : Bool) : (s.setIdle page b).controls = s.controls :=
  s.controls_setB (by simp) _ _

/-! ### Steps joined -/

@[simp] theorem State.controls_when (s : State) (c : Bool) {f : State → State} (hf : ∀ t, (f t).controls = t.controls) :
    (s.when c f).controls = s.controls := by
  unfold State.when
  split
  · exact hf s
  · rfl

@[simp] theorem State.controls_foldl {α : Type} {f : State → α → State} {l : List α}
    (hf : ∀ t, ∀ x ∈ l, (f t x).controls = t.controls) (s : State) : (l.foldl f s).controls = s.controls := by
  induction l generalizing s with
  | nil => rfl
  | cons x l ih =>
    rw [List.foldl_cons, ih (fun t y hy => hf t y (List.mem_cons_of_mem _ hy)), hf s x (List.mem_cons_self ..)]

/-- What `f` does in front of an empty `out` it does to the view. -/
theorem State.controls_also (s : State) {f : State → State} (hf : ∀ t, (f t).controls = t.controls) :
    (s.also f).controls = s.controls := hf { s with out := [] }

@[simp] theorem State.controls_together (s : State) {fs : List (State → State)}
    (hfs : ∀ f ∈ fs, ∀ t, (f t).controls = t.controls) : (s.together fs).controls = s.controls := by
  have hall : (fs.foldl State.also { s with out := [] }).controls = s.controls :=
    State.controls_foldl (fun t f hf => t.controls_also (hfs f hf)) _
  unfold State.together
  dsimp only
  split
  · exact hall
  · exact hall

/-! ### The fields of the state that no page's control is part of -/

@[simp] theorem State.controls_setLane (s : State) (n : Nat) (l : Lane) : (s.setLane n l).controls = s.controls := State.controls_congr rfl rfl
@[simp] theorem State.controls_setPair (s : State) (p : Pair) : (s.setPair p).controls = s.controls := State.controls_congr rfl rfl
@[simp] theorem State.controls_setLl (s : State) (k : Nat) (l : LocalLeg) : (s.setLl k l).controls = s.controls := State.controls_congr rfl rfl
@[simp] theorem State.controls_setEng (s : State) (n : Nat) (e : Eng) : (s.setEng n e).controls = s.controls := State.controls_congr rfl rfl
@[simp] theorem State.controls_setConv (s : State) (n : Nat) (c : Conv) : (s.setConv n c).controls = s.controls := State.controls_congr rfl rfl
@[simp] theorem State.controls_setMod (s : State) (i : Nat) (m : ModIn) : (s.setMod i m).controls = s.controls := State.controls_congr rfl rfl
@[simp] theorem State.controls_setEth (s : State) (p : Nat) (e : EthPort) : (s.setEth p e).controls = s.controls := State.controls_congr rfl rfl
@[simp] theorem State.controls_setInst (s : State) (i : Nat) (j : JInst) : (s.setInst i j).controls = s.controls := State.controls_congr rfl rfl
@[simp] theorem State.controls_jigEvent (s : State) (i e : Nat) : (s.jigEvent i e).controls = s.controls := State.controls_congr rfl rfl
@[simp] theorem State.controls_setChopper (s : State) (c : Nat) (x : Chopper) : (s.setChopper c x).controls = s.controls := State.controls_congr rfl rfl
@[simp] theorem State.controls_putShadow (s : State) (k : Nat) (v : Word) : (s.putShadow k v).controls = s.controls := State.controls_congr rfl rfl
@[simp] theorem State.controls_txSyms (s : State) (n t : Nat) (l : List Sym) : (s.txSyms n t l).controls = s.controls := State.controls_congr rfl rfl

@[simp] theorem State.controls_send (s : State) (l : List OutFrame) : (s.send l).controls = s.controls := by
  obtain ⟨x, hx⟩ := s.send_frame l
  rw [hx]
  rfl

@[simp] theorem State.controls_portBytes (s : State) (a : Nat) (l : List Byte) : (s.portBytes a l).controls = s.controls := by
  obtain ⟨e, he⟩ := s.portBytes_frame a l
  rw [he]
  rfl

/-! ### Service transactions that a lane takes down with it -/

@[simp] theorem State.controls_headSvcDone (s : State) (addr : Nat) (kind : HeadSvc) (ok : Bool) (data : List Byte) :
    (s.headSvcDone addr kind ok data).controls = s.controls := by
  cases kind with
  | idRead =>
    simp only [State.headSvcDone]
    split
    · split <;> rfl
    · rfl
  | cfg n =>
    simp only [State.headSvcDone]
    split
    · split <;> rfl
    · rfl
  | delay => rfl
  | proof => rfl

@[simp] theorem State.controls_svComplete (s : State) (tag status nstat : Nat) (data : List Byte) :
    (s.svComplete tag status nstat data).controls = s.controls := by
  unfold State.svComplete
  split
  · rfl
  · extract_lets s0 s1 s2 s3
    have h1 : s1.controls = s.controls := by
      unfold s1
      split
      · simp [State.svWriteBack]
        rfl
      · rfl
    have h2 : s2.controls = s1.controls := by
      unfold s2
      split <;> simp
    have h3 : s3.controls = s2.controls := by simp [s3]
    simp [h3, h2, h1]

@[simp] theorem State.controls_svLaneDown (s : State) (lane : Nat) : (s.svLaneDown lane).controls = s.controls := by
  unfold State.svLaneDown State.svLinkLost
  refine State.controls_foldl (fun t tag _ => ?_) s
  split <;> simp

/-! ### Lanes -/

@[simp] theorem State.controls_rspend (s : State) (ring : Nat) : (s.rspend ring).controls = s.controls := by
  simp [State.rspend]

@[simp] theorem State.controls_setFill (s : State) (n fill : Nat) : (s.setFill n fill).controls = s.controls := by
  simp [State.setFill]

@[simp] theorem State.controls_fifoRun (s : State) (n idles : Nat) : (s.fifoRun n idles).controls = s.controls := by
  simp only [State.fifoRun]
  split
  · simp
  · split <;> simp

@[simp] theorem State.controls_loopStart (s : State) (n : Nat) : (s.loopStart n).controls = s.controls := by
  simp [State.loopStart]

@[simp] theorem State.controls_injSync (s : State) (n : Nat) (l : List OutFrame) : (s.injSync n l).controls = s.controls := by
  unfold State.injSync
  extract_lets x on more s1
  split <;> simp [s1]

@[simp] theorem State.controls_laneGoto (s : State) (n st : Nat) : (s.laneGoto n st).controls = s.controls := by
  unfold State.laneGoto
  extract_lets old s1 l s2 s3 s4 s5 s6 s7
  have h2 : s2.controls = s.controls := by simp [s2, s1]
  have h3 : s3.controls = s2.controls := by simp [s3]
  have h4 : s4.controls = s3.controls := by
    refine State.controls_when _ _ fun t => ?_
    split <;> simp
  have h5 : s5.controls = s4.controls := by simp [s5]
  have h6 : s6.controls = s5.controls := by simp [s6]
  simp [s7, h6, h5, h4, h3, h2]

@[simp] theorem State.controls_laneSettle (s : State) (n : Nat) : (s.laneSettle n).controls = s.controls := by
  simp [State.laneSettle]

@[simp] theorem State.controls_laneEnable (s : State) (n : Nat) : (s.laneEnable n).controls = s.controls := by
  simp only [State.laneEnable]
  split
  · rw [State.controls_setEns]
    split
    · rfl
    · refine State.controls_together _ fun f hf t => ?_
      simp only [List.mem_cons, List.not_mem_nil, or_false] at hf
      rcases hf with rfl | rfl
      · dsimp only
        split <;> simp
      · simp
  · split
    · rfl
    · split <;> simp

@[simp] theorem State.controls_checkStart (s : State) (n : Nat) : (s.checkStart n).controls = s.controls := by
  simp only [State.checkStart]
  split <;> simp

@[simp] theorem State.controls_laneMode (s : State) (n mode : Nat) : (s.laneMode n mode).controls = s.controls := by
  simp only [State.laneMode]
  split
  · simp
  · split
    · split <;> simp
    · split <;> simp

@[simp] theorem State.controls_retrain (s : State) (n : Nat) : (s.retrain n).controls = s.controls := by
  unfold State.retrain
  split <;> simp

@[simp] theorem State.controls_injGo (s : State) (n : Nat) : (s.injGo n).controls = s.controls := by
  simp [State.injGo]

@[simp] theorem State.controls_rateSync (s : State) (n : Nat) : (s.rateSync n).controls = s.controls := by
  unfold State.rateSync
  split
  · simp
  · split <;> simp

/-! ### Head pairing -/

@[simp] theorem State.controls_setArmed (s : State) (b : Bool) : (s.setArmed b).controls = s.controls := by
  unfold State.setArmed
  split <;> simp [R.HPR.HSTA]

@[simp] theorem State.controls_resetFree (s : State) : s.resetFree.controls = s.controls := by
  unfold State.resetFree
  split <;> rfl

@[simp] theorem State.controls_ringLight (s : State) (on : Bool) : (s.ringLight on).controls = s.controls := by
  simp only [State.ringLight]
  split <;> simp

@[simp] theorem State.controls_roleGoto (s : State) (r : Nat) : (s.roleGoto r).controls = s.controls := by
  unfold State.roleGoto
  split
  · rfl
  · extract_lets p0 s0 s1 s2
    have h2 : s2.controls = s.controls := by
      simp [s2, s1, R.HPR.HSTA]
      rfl
    split
    · simp [h2]
    · split <;> simp [h2]

@[simp] theorem State.controls_roleTo (s : State) (r : Nat) : (s.roleTo r).controls = s.controls := by
  unfold State.roleTo State.legsDrop
  split <;> simp

@[simp] theorem State.controls_tieSettle (s : State) : s.tieSettle.controls = s.controls := by
  have hsync : s.tieSync.controls = s.controls := by
    simp only [State.tieSync]
    split <;> simp [R.HPR.HSTA]
  simp [State.tieSettle, State.listenCheck, hsync]

/-! ### Engines -/

@[simp] theorem State.controls_setPc (s : State) (n a : Nat) : (s.setPc n a).controls = s.controls := by
  simp [State.setPc]

@[simp] theorem State.controls_setEst (s : State) (n st ch : Nat) : (s.setEst n st ch).controls = s.controls := by
  simp [State.setEst]

@[simp] theorem State.controls_pmcAdd (s : State) (n e k : Nat) : (s.pmcAdd n e k).controls = s.controls := by
  unfold State.pmcAdd
  split <;> rfl

@[simp] theorem State.controls_acctTo (s : State) (n c : Nat) : (s.acctTo n c).controls = s.controls := by
  simp only [State.acctTo]
  split <;> simp [State.pmcCycles, State.pmcSlots]

@[simp] theorem State.controls_winTo (s : State) (n c : Nat) : (s.winTo n c).controls = s.controls := by
  simp only [State.winTo]
  split <;> simp

@[simp] theorem State.controls_engEnable (s : State) (n : Nat) (en : Bool) : (s.engEnable n en).controls = s.controls := by
  simp only [State.engEnable]
  split
  · rfl
  · split
    · split <;> simp [State.engHome]
    · split
      · simp
      · split <;> simp

/-! ### Monitors, converters, modulator inputs and safety channels -/

@[simp] theorem State.controls_derateHold (s : State) : s.derateHold.controls = s.controls := by
  unfold State.derateHold
  split
  · rfl
  · simp [R.MON.TLIM, R.MON.TSTA]
    rfl

theorem State.controls_convShow (s : State) {n : Nat} (hn : n < 4) : (s.convShow n).controls = s.controls := by
  have hk : ctlKey (R.CNV.CVSTA n) = false := by
    simp only [ctlKey, R.CNV.CVSTA, Bool.or_eq_false_iff, beq_eq_false_iff_ne]
    omega
  simp only [State.convShow, State.controls_setF _ hk, State.controls_setB _ hk]

theorem State.controls_cnvGo (s : State) : s.cnvGo.controls = s.controls := by
  refine State.controls_foldl (fun t n hn => ?_) s
  have hshow := fun u : State => u.controls_convShow (List.mem_range.1 hn)
  simp only [State.convStart, State.convBegin]
  split
  · rfl
  · split
    · rfl
    · split <;> simp [hshow]

theorem State.controls_setRun (s : State) {i : Nat} (hi : i < 16) (b : Bool) : (s.setRun i b).controls = s.controls := by
  have hk : ctlKey (R.MOD.MDSTA i) = false := by
    simp only [ctlKey, R.MOD.MDSTA, Bool.or_eq_false_iff, beq_eq_false_iff_ne]
    omega
  simp [State.setRun, State.controls_setB _ hk]

@[simp] theorem State.controls_mclkSync (s : State) (k : Nat) : (s.mclkSync k).controls = s.controls := by
  unfold State.mclkSync
  extract_lets mine T
  split
  · refine (State.controls_foldl (fun t i _ => ?_) _).trans rfl
    dsimp only
    split <;> simp
  · extract_lets stop s1
    have h1 : s1.controls = s.controls := by
      refine State.controls_foldl (fun t i hi => ?_) s
      rw [State.controls_setRun _ (List.mem_range.1 (List.mem_filter.1 hi).1)]
      split <;> simp
    exact h1
  · rfl

@[simp] theorem State.controls_sftEnable (s : State) (en : Bool) : (s.sftEnable en).controls = s.controls := by
  have hssafe : ∀ (t : State) (a b : Bool), (t.setSsafe a b).controls = t.controls := by
    intro t a b
    simp only [State.setSsafe]
    split
    · rfl
    · exact State.controls_when _ _ fun u => by simp
  unfold State.sftEnable
  split
  · rfl
  · rw [hssafe, State.controls_setB _ (by decide)]
    rfl

/-! ### PCTL (R57, R65) -/

/-- What a block does as its EN and SSTOP stand is its own: no page's control or lock moves. -/
theorem State.controls_blockControl (s : State) (page : Nat) : (s.blockControl page).controls = s.controls := by
  unfold State.blockControl
  extract_lets s1
  have h1 : s1.controls = s.controls := by
    unfold s1
    split
    case h_6 =>
      split
      · rfl
      · exact s.controls_cnvGo
    all_goals simp
  split
  · exact h1
  · simp [h1]

theorem exec_pctlEnWrite (page : Nat) (en : Bool) (s : State) :
    exec (.pctlEnWrite page en) s = .next (s.hostWr page fun t => (t.pctlEn page en).tieSettle) := rfl

theorem exec_pctlSstop (page : Nat) (on : Bool) (s : State) :
    exec (.pctlSstop page on) s = .next (s.hostWr page fun t => (t.pctlSstop page on).tieSettle) := rfl

theorem exec_blockIdle (page : Nat) (s : State) : exec (.blockIdle page) s = .next (s.blockIdle page) := rfl

/-- The state in which a page's block finds its EN and SSTOP as written. -/
def State.withPctl (s : State) (page : Nat) (en stop : Bool) : State := (s.setB (R.PCTL page) 0 en).setB (R.PCTL page) 2 stop

/-- A write of EN and SSTOP, COMMIT being 0, to a page other than TRG. -/
theorem State.pctlWrite_bits (s : State) {page : Nat} (hpage : page ≠ 9) (en stop : Bool) :
    s.pctlWrite page (wd (b2n en + 4 * b2n stop)) = (s.withPctl page en stop).blockControl page := by
  have hen : (wd (b2n en + 4 * b2n stop)).bit 0 = en := by cases en <;> cases stop <;> rfl
  have hcommit : (wd (b2n en + 4 * b2n stop)).bit 1 = false := by cases en <;> cases stop <;> rfl
  have hstop : (wd (b2n en + 4 * b2n stop)).bit 2 = stop := by cases en <;> cases stop <;> rfl
  unfold State.pctlWrite
  rw [if_neg hpage, hen, hcommit, hstop]
  rfl

/-- A field of one bit is that bit. -/
theorem State.regF_bit (s : State) (k i : Nat) : s.regF k i 1 = b2n (s.regB k i) := by
  unfold State.regF State.regB Word.fld Word.bit
  rw [natFld_eq, Nat.testBit_eq_decide_div_mod_eq, Nat.pow_one]
  rcases Nat.mod_two_eq_zero_or_one ((s.reg k).toNat / 2 ^ i) with h | h <;> rw [h] <;> rfl

theorem State.pctlEn_eq (s : State) {page : Nat} (hpage : page ≠ 9) (en : Bool) :
    s.pctlEn page en = (s.withPctl page en (s.regB (R.PCTL page) 2)).blockControl page := by
  rw [State.pctlEn, State.regF_bit, State.pctlWrite_bits s hpage]

theorem State.pctlSstop_eq (s : State) {page : Nat} (hpage : page ≠ 9) (on : Bool) :
    s.pctlSstop page on = (s.withPctl page (s.enabled page) on).blockControl page := by
  rw [State.pctlSstop, State.regF_bit, State.pctlWrite_bits s hpage]
  rfl

theorem State.enabled_withPctl (s : State) (page : Nat) (en stop : Bool) : (s.withPctl page en stop).enabled page = en := by
  unfold State.enabled State.withPctl State.regB
  rw [State.reg_setB_same, State.reg_setB_same, Word.bit_setBit_ne _ _ (by decide) (by decide),
    Word.bit_setBit_same _ _ _ (by decide)]

theorem State.sstop_withPctl (s : State) (page : Nat) (en stop : Bool) : (s.withPctl page en stop).regB (R.PCTL page) 2 = stop :=
  State.regB_setB_same _ _ _ _ (by decide)

/-- EN and SSTOP of the page read as they were set, whatever its block then does. -/
theorem State.pctl_settled (s : State) (page : Nat) (en stop : Bool) :
    ((s.withPctl page en stop).blockControl page).tieSettle.enabled page = en ∧
      ((s.withPctl page en stop).blockControl page).tieSettle.regB (R.PCTL page) 2 = stop := by
  have hsame := State.pctl_of_controls ((State.controls_tieSettle _).trans ((s.withPctl page en stop).controls_blockControl page)) page
  unfold State.enabled State.regB
  rw [hsame]
  exact ⟨s.enabled_withPctl page en stop, s.sstop_withPctl page en stop⟩

/-! ### Blocks without an operation that outlasts its command -/

/-- The block of a page of plain control is none of those whose PCTL does more. -/
theorem plainControl_block {page : Nat} (h : plainControl page = true) :
    page ≠ 9 ∧ ∃ b, blockOf page = some b ∧ b ∉ [Block.lne, .pe, .mrt, .tnn, .mon, .cnv, .mod, .hpr, .sft] := by
  unfold plainControl at h
  split at h
  · rename_i b hb
    simp only [Bool.and_eq_true, bne_iff_ne, Bool.not_eq_true', List.contains_eq_mem, decide_eq_false_iff_not] at h
    exact ⟨h.1, b, hb, h.2⟩
  · exact absurd h (by decide)

/-- The pages whose blocks report ENS and IDLE by their own state are not of plain control. -/
theorem ownIdle_of_plainControl {page : Nat} (h : plainControl page = true) : ownIdle page = false := by
  have hlow : ∀ p < 0x6A, ownIdle p = true → plainControl p = false := by decide
  by_cases hp : page < 0x6A
  · rw [← Bool.not_eq_true]
    exact fun hown => by simp [hlow page hp hown] at h
  · simp only [ownIdle, Bool.or_eq_false_iff, Bool.and_eq_false_iff, beq_eq_false_iff_ne]
    exact ⟨⟨by omega, .inr (ble_eq_false_of_lt (by omega))⟩, .inr (ble_eq_false_of_lt (by omega))⟩

section
variable (s : State) {page : Nat} (h : plainControl page = true)
include h

theorem State.opRuns_plain : s.opRuns page = false := by
  obtain ⟨-, b, hb, hplain⟩ := plainControl_block h
  unfold State.opRuns
  rw [hb]
  split
  case h_5 => rfl
  all_goals simp_all

theorem State.blockControl_plain : s.blockControl page = (s.setEns page (s.enabled page)).setIdle page true := by
  obtain ⟨-, b, hb, hplain⟩ := plainControl_block h
  have hblock : s.blockControl page = if ownIdle page then s else
      (s.setEns page (s.enabled page || s.opRuns page)).setIdle page (!s.opRuns page) := by
    unfold State.blockControl
    rw [hb]
    split
    case h_9 => rfl
    all_goals simp_all
  rw [hblock, ownIdle_of_plainControl h, s.opRuns_plain h, Bool.or_false]
  rfl

end

/-- ENS and IDLE set on a page: the bits of PSTA, and every other register. -/
theorem State.psta_set (s : State) (page : Nat) (ens idle : Bool) :
    ((s.setEns page ens).setIdle page idle).ens page = ens ∧
      ((s.setEns page ens).setIdle page idle).regB (R.PSTA page) 2 = idle ∧
      regsBut s ((s.setEns page ens).setIdle page idle) [R.PSTA page] := by
  refine ⟨?_, State.regB_setB_same _ _ _ _ (by decide), fun k hk => ?_⟩
  · unfold State.ens State.setIdle State.setEns State.regB
    rw [State.reg_setB_same, State.reg_setB_same, Word.bit_setBit_ne _ _ (by decide) (by decide),
      Word.bit_setBit_same _ _ _ (by decide)]
  · have hne : k ≠ R.PSTA page := by simpa using hk
    exact (State.reg_setB_ne _ _ _ hne).trans (State.reg_setB_ne _ _ _ hne)

/-- A write of EN and SSTOP on a page of plain control. -/
theorem State.withPctl_plain (s : State) {page : Nat} (h : plainControl page = true) (hpaired : s.paired = false) (en stop : Bool) :
    ∃ t, ((s.withPctl page en stop).blockControl page).tieSettle = t ∧ t.ens page = en ∧ t.regB (R.PSTA page) 2 = true ∧
      regsBut s t [R.PCTL page, R.PSTA page] ∧ t = { s with regs := t.regs } := by
  have hset := State.blockControl_plain (s.withPctl page en stop) h
  rw [s.enabled_withPctl page en stop] at hset
  obtain ⟨hens, hidle, hrest⟩ := (s.withPctl page en stop).psta_set page en true
  have hregs : regsBut s (((s.withPctl page en stop).setEns page en).setIdle page true) [R.PCTL page, R.PSTA page] := by
    intro k hk
    simp only [List.mem_cons, List.not_mem_nil, or_false, not_or] at hk
    rw [hrest k (by simpa using hk.2)]
    exact (State.reg_setB_ne _ _ _ hk.1).trans (State.reg_setB_ne _ _ _ hk.1)
  have hunpaired : (((s.withPctl page en stop).setEns page en).setIdle page true).paired = false := by
    have hkey : R.HPR.PCFG ∉ [R.PCTL page, R.PSTA page] := by
      simp only [List.mem_cons, List.not_mem_nil, or_false]
      unfold R.HPR.PCFG R.PCTL R.PSTA
      omega
    rw [State.paired_congr (hregs _ hkey)]
    exact hpaired
  rw [hset, State.tieSettle_unpaired hunpaired]
  exact ⟨_, rfl, hens, hidle, hregs, rfl⟩

/-- BLOCK_IDLE on a page of plain control: its block, stopped or disabled, has finished. -/
theorem State.blockIdle_plain (s : State) {page : Nat} (h : plainControl page = true) :
    s.blockIdle page = if s.stopped page then s.goIdle page else s := by
  obtain ⟨-, b, hb, -⟩ := plainControl_block h
  unfold State.blockIdle
  rw [hb, ownIdle_of_plainControl h, s.opRuns_plain h]
  cases s.stopped page <;> rfl

theorem State.goIdle_spec (s : State) (page : Nat) :
    (s.goIdle page).regB (R.PSTA page) 2 = true ∧ (s.goIdle page).ens page = (s.enabled page && s.ens page) ∧
      regsBut s (s.goIdle page) [R.PSTA page] ∧ s.goIdle page = { s with regs := (s.goIdle page).regs } := by
  have hens : (s.setIdle page true).ens page = s.ens page := by
    unfold State.ens State.setIdle State.regB
    rw [State.reg_setB_same, Word.bit_setBit_ne _ _ (by decide) (by decide)]
  unfold State.goIdle
  dsimp only
  split
  · rename_i hen
    exact ⟨State.regB_setB_same _ _ _ _ (by decide), by rw [hens, hen, Bool.true_and],
      fun k hk => State.reg_setB_ne _ _ _ (by simpa using hk), rfl⟩
  · rename_i hen
    refine ⟨?_, ?_, fun k hk => ?_, rfl⟩
    · unfold State.setEns State.setIdle State.regB
      rw [State.reg_setB_same, Word.bit_setBit_ne _ _ (by decide) (by decide), State.reg_setB_same,
        Word.bit_setBit_same _ _ _ (by decide)]
    · rw [Bool.eq_false_iff.2 hen, Bool.false_and]
      exact State.regB_setB_same _ _ _ _ (by decide)
    · have hne : k ≠ R.PSTA page := by simpa using hk
      exact (State.reg_setB_ne _ _ _ hne).trans (State.reg_setB_ne _ _ _ hne)

/-- Settles O10: what a block does leaves its PCTL as written, and a block of plain control does no more than show it. -/
theorem pageControl : Obligations.PageControl := by
  intro s page b hw hpage
  have hen : exec (.pctlEnWrite page b) s =
      .next ((s.withPctl page b (s.regB (R.PCTL page) 2)).blockControl page).tieSettle := by
    rw [exec_pctlEnWrite, State.hostWr_writable _ hw, State.pctlEn_eq s hpage]
  have hstop : exec (.pctlSstop page b) s = .next ((s.withPctl page (s.enabled page) b).blockControl page).tieSettle := by
    rw [exec_pctlSstop, State.hostWr_writable _ hw, State.pctlSstop_eq s hpage]
  refine ⟨⟨_, hen, s.pctl_settled page _ _⟩, ⟨_, hstop, (s.pctl_settled page _ _).symm⟩, fun hplain hpaired => ⟨?_, ?_, ?_, ?_⟩⟩
  · obtain ⟨t, ht, hrest⟩ := s.withPctl_plain hplain hpaired b (s.regB (R.PCTL page) 2)
    exact ⟨t, by rw [hen, ht], hrest⟩
  · obtain ⟨t, ht, hrest⟩ := s.withPctl_plain hplain hpaired (s.enabled page) b
    exact ⟨t, by rw [hstop, ht], hrest⟩
  · intro hstopped
    exact ⟨_, by rw [exec_blockIdle, s.blockIdle_plain hplain, if_pos hstopped], s.goIdle_spec page⟩
  · intro hgoes
    rw [exec_blockIdle, s.blockIdle_plain hplain, if_neg (by simp [hgoes])]

end Sys2Proof.Machine
end

section
/-! Proofs: the write lock of a page (chapter 02, R58). -/

namespace Sys2Proof.Machine

/-! ### What a write of a locked field sets off in its block -/

@[simp] theorem State.controls_foreignClear (s : State) : s.foreignClear.controls = s.controls := by
  unfold State.foreignClear
  split
  · rfl
  · simp [State.setForeign, R.DTM.FOREIGN, R.DTM.DTSTA]
    rfl

@[simp] theorem State.controls_datumSource (s : State) : s.datumSource.controls = s.controls := by
  have hstate : ∀ (t : State) (st : Nat), (t.datumState st).controls = t.controls := by
    intro t st
    unfold State.datumState
    split <;> simp [R.DTM.DTSTA]
  unfold State.datumSource
  split
  · rfl
  · split
    · rfl
    · rw [hstate]
      rfl

@[simp] theorem State.controls_ethConfig (s : State) (p : Nat) (wasOn : Bool) : (s.ethConfig p wasOn).controls = s.controls := by
  simp only [State.ethConfig]
  split <;> simp

@[simp] theorem State.controls_chCeil (s : State) (c : Nat) : (s.chCeil c).controls = s.controls := by
  simp only [State.chCeil]
  split <;> simp

@[simp] theorem State.controls_chopSync (s : State) (c : Nat) : (s.chopSync c).controls = s.controls := by
  unfold State.chopSync
  extract_lets dc now x lim t s1 y s2
  have h1 : s1.controls = s.controls := by
    unfold s1
    split
    · split
      · split <;> simp [t]
      · simp [t]
    · rfl
  simp [s2, h1]

@[simp] theorem State.controls_chopConfig (s : State) (c : Nat) (wasOn : Bool) : (s.chopConfig c wasOn).controls = s.controls := by
  simp only [State.chopConfig]
  split
  · simp
  · split <;> simp

@[simp] theorem State.controls_setLatch (s : State) (ch ins : Nat) : (s.setLatch ch ins).controls = s.controls := by
  simp only [State.setLatch]
  split <;> simp [R.LBR.TLATCH]

@[simp] theorem State.controls_tripCycle (s : State) (ins : Nat) : (s.tripCycle ins).controls = s.controls := by
  unfold State.tripCycle
  extract_lets active ending due dropped s1 hit masked s2 set_ by_ fresh acted s3 ns s4 s5 detail s6 trips
  have h1 : s1.controls = s.controls := by simp [s1, R.LBR.MASKCNT]
  have h2 : s2.controls = s1.controls := by simp [s2]
  have h3 : s3.controls = s2.controls := by simp [s3]
  have h4 : s4.controls = s3.controls := by
    refine State.controls_foldl (fun t n hn => ?_) s3
    have hlow : n < 12 := List.mem_range.1 (List.mem_filter.1 hn).1
    rw [State.controls_irq _ _ (by omega), State.controls_setB _ (by decide)]
  have h5 : s5.controls = s4.controls := by simp [s5, R.LBR.TRIPCNT]
  have h6 : s6.controls = s5.controls := by
    unfold s6
    split
    · split
      · rfl
      · simp [R.TRP.TLAST, R.TRP.TLASTT]
    · rfl
  split
  · exact h3.trans (h2.trans h1)
  · exact h6.trans (h5.trans (h4.trans (h3.trans (h2.trans h1))))

@[simp] theorem State.controls_trapConfig (s : State) (n : Nat) (pol : Bool) : (s.trapConfig n pol).controls = s.controls := by
  have hlevels : ∀ mask, (s.tripLevels mask).controls = s.controls := by
    intro mask
    simp [State.tripLevels, R.TRP.TIN]
  have hrelease : (s.tripRelease n).controls = s.controls := by
    refine (State.controls_foldl (fun t ch _ => ?_) _).trans (s.controls_setB (by decide) _ _)
    dsimp only
    split <;> simp [R.LBR.TLATCH]
  unfold State.trapConfig
  split
  · rfl
  · split
    · exact hrelease
    · exact hlevels _

@[simp] theorem State.controls_dclr (s : State) : s.dclr.controls = s.controls := by
  unfold State.dclr
  split
  · simp
  · rfl

@[simp] theorem State.controls_clkoWrite (s : State) (n : Nat) (old : Bool × Nat × Nat × Word × Nat) :
    (s.clkoWrite n old).controls = s.controls := by
  unfold State.clkoWrite
  extract_lets en src div high unit now o put ended from_ rise fresh
  split
  · rfl
  · split
    · rfl
    · split
      · split <;> rfl
      · split <;> rfl

/-! ### A lock violation -/

/-- From `s` to `t` a lock violation of a page has been counted and shown. -/
def State.violated (s t : State) (page : Nat) : Prop :=
  t.regF (R.WLCK page) 8 8 = satInc 8 (s.regF (R.WLCK page) 8 8) ∧ t.regB (R.IRQS page) 31 = true

theorem State.violated_lockViol (s : State) (page : Nat) : s.violated (s.lockViol page) page := by
  have hne : R.WLCK page ≠ R.IRQS page := by unfold R.WLCK R.IRQS; omega
  refine ⟨?_, State.regB_setB_same _ _ _ _ (by decide)⟩
  have hcount := s.regF_bumpAt (R.WLCK page) 8 8 (by decide)
  unfold State.lockViol State.regF at *
  rw [State.reg_irq_ne _ hne]
  exact hcount

section
variable {s t u : State} {page : Nat}

theorem State.violated.then (h : s.violated t page) (hu : u.controls = t.controls) : s.violated u page := by
  unfold State.violated State.regF at *
  rw [State.wlck_of_controls hu, State.lockv_of_controls hu]
  exact h

theorem State.violated.after (h : u.violated t page) (hu : u.controls = s.controls) : s.violated t page := by
  unfold State.violated State.regF at *
  rw [← State.wlck_of_controls hu]
  exact h

theorem State.lockOpen_congr (hu : u.controls = s.controls) : u.lockOpen page = s.lockOpen page := by
  unfold State.lockOpen State.regB
  rw [State.wlck_of_controls hu]

end

/-- A write of a register with locked fields under the write lock. -/
theorem State.violated_maskWrite (s : State) {page off : Nat} (v : Word) {d : RegDef} (hd : regDef page off = some d)
    (hoff : 0x100 ≤ off) (hrwl : d.acc.rwl ≠ 0) (hlock : s.lockOpen page = false) :
    s.violated (s.maskWrite page off false v) page := by
  have hviol := s.violated_lockViol page
  have hreg : ∀ (x : State) (w : Word) (o : Nat), o < 0x100 →
      (x.setReg (page * 0x1000 + off) w).reg (page * 0x1000 + o) = x.reg (page * 0x1000 + o) :=
    fun x w o ho => State.reg_setReg_ne _ _ (by omega)
  have hset : ∀ w, s.violated ((s.lockViol page).setReg (page * 0x1000 + off) w) page := by
    intro w
    unfold State.violated State.regF State.regB at *
    rw [hreg _ _ _ (by decide), hreg _ _ _ (by decide)]
    exact hviol
  unfold State.maskWrite
  rw [hd]
  simp only [hlock, Bool.or_false, Bool.not_false, Bool.and_true, decide_eq_true hrwl, ne_eq, if_true]
  split
  · exact (hset _).then (State.controls_putShadow ..)
  · exact hset _

/-! ### The registers with locked fields (chapter 02, R66, and the tables of the owning pages) -/

/-- The pages of a block lie where R52 puts them. -/
theorem page_of_block {page first count code : Nat} {b : Block} (h : blockOf page = some b)
    (hrow : ∀ p ∈ Block.pages, p.1 = b → p.2 = (first, count, code)) : first ≤ page ∧ page < first + count := by
  unfold blockOf at h
  obtain ⟨p, hp, hb⟩ := Option.map_eq_some_iff.1 h
  have hin := List.find?_some hp
  rw [hrow p (List.mem_of_find?_eq_some hp) hb] at hin
  simpa only [Bool.and_eq_true, Nat.ble_eq, Nat.blt_eq] using hin

/-- A register from 0x100 on is one of its block's. -/
theorem blockRegs_of_regDef {page off : Nat} {d : RegDef} (hd : regDef page off = some d) (hoff : 0x100 ≤ off) :
    (blockRegs page).find? (·.has off) = some d := by
  unfold regDef at hd
  rwa [if_neg (by omega)] at hd

section
variable {page off : Nat} {d : RegDef} (hd : regDef page off = some d) (hoff : 0x100 ≤ off) (hrwl : d.acc.rwl ≠ 0)
include hd hoff hrwl

/-- A block whose registers have no locked field has none at the offset. -/
theorem not_lockFree {l : List RegDef} (hl : blockRegs page = l) : l.all (fun r => r.acc.rwl == 0) ≠ true := by
  rw [ne_eq, List.all_eq_true]
  exact fun hall => hrwl (by simpa using hall d (hl ▸ List.mem_of_find?_eq_some (blockRegs_of_regDef hd hoff)))

/-- The register of its block at the offset is the one with the locked fields. -/
theorem not_lockFree_at {l : List RegDef} (hl : blockRegs page = l) :
    (l.find? (·.has off)).all (fun r => r.acc.rwl == 0) ≠ true := by
  rw [← hl, blockRegs_of_regDef hd hoff]
  simpa using hrwl

variable (s : State) (src : Nat) (v : Word) (hlock : s.lockOpen page = false)
include hlock

/-! ### Block by block -/

theorem State.violated_dtm (hb : blockOf page = some .dtm) : s.violated (s.blockWrite src page off v) page := by
  have hplain := s.violated_maskWrite v hd hoff hrwl hlock
  unfold State.blockWrite
  rw [hb]
  dsimp only
  split
  · exact hplain.then (by simp)
  · split
    · rw [hlock]
      exact s.violated_lockViol page
    · exact hplain

theorem State.violated_eth (hb : blockOf page = some .eth) : s.violated (s.blockWrite src page off v) page := by
  have hplain := s.violated_maskWrite v hd hoff hrwl hlock
  have hregs : blockRegs page = regsEth := by simp only [blockRegs, hb]
  unfold State.blockWrite
  rw [hb]
  dsimp only
  split
  · exact hplain.then (by simp)
  · split
    · rename_i hkick
      subst hkick
      exact absurd rfl (not_lockFree_at hd hoff hrwl hregs)
    · exact hplain

theorem State.violated_lnctlWrite {n : Nat} (hpage : page = 0x10 + n) (hctl : off = 0x108) :
    s.violated (s.lnctlWrite n v) page := by
  subst hpage hctl
  unfold State.lnctlWrite
  extract_lets k old s1 s2 s3
  have hmask : s.violated s1 (0x10 + n) := s.violated_maskWrite _ hd hoff hrwl hlock
  have h3 : s3.controls = s1.controls := by simp [s3, s2]
  refine hmask.then ((State.controls_together _ fun f hf t => ?_).trans h3)
  simp only [List.mem_cons, List.not_mem_nil, or_false] at hf
  rcases hf with rfl | rfl | rfl | rfl
  · simp
  · dsimp only
    split <;> simp
  · simp
  · simp

theorem State.violated_lne (hb : blockOf page = some .lne) : s.violated (s.blockWrite src page off v) page := by
  obtain ⟨n, rfl⟩ := Nat.exists_eq_add_of_le
    (page_of_block (first := 0x10) (count := 32) (code := 0x10) hb (by decide)).1
  have hmask := fun w => s.violated_maskWrite w hd hoff hrwl hlock
  unfold State.blockWrite
  rw [hb]
  dsimp only
  rw [Nat.add_sub_cancel_left]
  split
  · rename_i hcfg
    subst hcfg
    exact hmask _
  · split
    · rename_i hmap
      subst hmap
      simp only [State.lnmapWrite]
      split
      · exact hmask v
      · exact (hmask v).then (State.controls_rateSync _ _)
    · split
      · rename_i hctl
        exact s.violated_lnctlWrite hd hoff hrwl v hlock rfl hctl
      · exact hmask v

theorem State.violated_rng (hb : blockOf page = some .rng) : s.violated (s.blockWrite src page off v) page := by
  have hregs : blockRegs page = regsRng := by simp only [blockRegs, hb]
  have hat := not_lockFree_at hd hoff hrwl hregs
  unfold State.blockWrite
  rw [hb]
  dsimp only
  split
  · rename_i hforce
    subst hforce
    exact absurd rfl hat
  · split
    · rename_i hcap
      rcases (by simpa using hcap : off = 0x134 ∨ off = 0x138) with rfl | rfl
      · exact absurd rfl hat
      · exact absurd rfl hat
    · split
      · rename_i hkick
        subst hkick
        exact absurd rfl hat
      · exact s.violated_maskWrite v hd hoff hrwl hlock

theorem State.violated_pe (hb : blockOf page = some .pe) : s.violated (s.blockWrite src page off v) page := by
  unfold State.blockWrite
  rw [hb]
  dsimp only
  split
  · rename_i hcfg
    obtain ⟨rfl, rfl⟩ : page = 0x67 ∧ off = 0x100 := by simpa using hcfg
    unfold State.pecfgWrite State.pecfgMode
    rw [if_pos (by simp [hlock])]
    exact s.violated_lockViol 0x67
  · split
    · rename_i hctl
      obtain ⟨rfl, rfl⟩ : page = 0x67 ∧ off = 0x150 := by simpa using hctl
      exact absurd rfl (not_lockFree_at hd hoff hrwl (l := regsPe ++ regsPePe ++ regsPePe7) rfl)
    · exact s.violated_maskWrite v hd hoff hrwl hlock

theorem State.violated_lbr (hb : blockOf page = some .lbr) : s.violated (s.blockWrite src page off v) page := by
  have hregs : blockRegs page = regsLbr := by simp only [blockRegs, hb]
  unfold State.blockWrite
  rw [hb]
  dsimp only
  split
  · rename_i hlatch
    subst hlatch
    exact absurd rfl (not_lockFree_at hd hoff hrwl hregs)
  · split
    · have hsync := s.controls_chopSync ((off - 0x300) / 32)
      have hchop := (State.violated_maskWrite _ v hd hoff hrwl ((State.lockOpen_congr hsync).trans hlock)).after hsync
      split
      · exact hchop.then (by simp)
      · exact hchop
    · exact s.violated_maskWrite v hd hoff hrwl hlock

theorem State.violated_trp (hb : blockOf page = some .trp) : s.violated (s.blockWrite src page off v) page := by
  have hplain := s.violated_maskWrite v hd hoff hrwl hlock
  unfold State.blockWrite
  rw [hb]
  dsimp only
  split
  · exact hplain.then (by simp)
  · exact hplain

theorem State.violated_hpr (hb : blockOf page = some .hpr) : s.violated (s.blockWrite src page off v) page := by
  obtain rfl : page = 0x88 := by
    have := page_of_block (first := 0x88) (count := 1) (code := 0x38) hb (by decide)
    omega
  have hplain := s.violated_maskWrite v hd hoff hrwl hlock
  unfold State.blockWrite
  rw [hb]
  dsimp only
  split
  · rename_i hcfg
    subst hcfg
    unfold State.pcfgWrite
    extract_lets s1 s2
    have h2 : s2.controls = s1.controls := by
      unfold s2
      split
      · split <;> simp
      · simp
    exact hplain.then ((State.controls_rateSync _ _).trans h2)
  · split
    · rename_i hcmd
      subst hcmd
      exact absurd rfl (not_lockFree_at hd hoff hrwl (l := regsHpr) rfl)
    · exact hplain

theorem State.violated_sft (hb : blockOf page = some .sft) : s.violated (s.blockWrite src page off v) page := by
  have hplain := s.violated_maskWrite v hd hoff hrwl hlock
  have hregs : blockRegs page = regsSft := by simp only [blockRegs, hb]
  unfold State.blockWrite
  rw [hb]
  dsimp only
  split
  · exact hplain.then (by simp)
  · split
    · rename_i hack
      subst hack
      exact absurd rfl (not_lockFree_at hd hoff hrwl hregs)
    · exact hplain

theorem State.violated_sio (hb : blockOf page = some .sio) : s.violated (s.blockWrite src page off v) page := by
  have hregs : blockRegs page = regsSio := by simp only [blockRegs, hb]
  unfold State.blockWrite
  rw [hb]
  dsimp only
  split
  · rename_i hlatch
    subst hlatch
    exact absurd rfl (not_lockFree_at hd hoff hrwl hregs)
  · exact s.violated_maskWrite v hd hoff hrwl hlock

theorem State.violated_scr (hb : blockOf page = some .scr) : s.violated (s.blockWrite src page off v) page := by
  have hregs : blockRegs page = regsScr := by simp only [blockRegs, hb]
  unfold State.blockWrite
  rw [hb]
  dsimp only
  split
  · rename_i hctl
    subst hctl
    exact absurd rfl (not_lockFree_at hd hoff hrwl hregs)
  · split
    · rename_i hack
      subst hack
      exact absurd rfl (not_lockFree_at hd hoff hrwl hregs)
    · exact s.violated_maskWrite v hd hoff hrwl hlock

theorem State.violated_clk (hb : blockOf page = some .clk) : s.violated (s.blockWrite src page off v) page := by
  obtain rfl : page = 0x02 := by
    have := page_of_block (first := 0x02) (count := 1) (code := 0x03) hb (by decide)
    omega
  have hplain := s.violated_maskWrite v hd hoff hrwl hlock
  unfold State.blockWrite
  rw [hb]
  dsimp only
  split
  · rename_i hssc
    subst hssc
    unfold State.cksscWrite
    rw [if_neg (by simp [hlock])]
    exact hplain
  · split
    · rename_i hret
      subst hret
      exact absurd rfl (not_lockFree_at hd hoff hrwl (l := regsClk) rfl)
    · split
      · exact hplain.then (State.controls_clkoWrite ..)
      · exact hplain

/-- A write of a register with locked fields under the lock is one lock violation, whatever its block does besides. -/
theorem State.violated_blockWrite : s.violated (s.blockWrite src page off v) page := by
  have hnone := @not_lockFree page off d hd hoff hrwl
  cases hb : blockOf page with
  | none => exact absurd rfl (hnone (l := []) (by simp only [blockRegs, hb]))
  | some b =>
    have hdefault : (s.blockWrite src page off v = s.maskWrite page off false v) →
        s.violated (s.blockWrite src page off v) page := fun h => h ▸ s.violated_maskWrite v hd hoff hrwl hlock
    cases b with
    | dtm => exact s.violated_dtm hd hoff hrwl src v hlock hb
    | eth => exact s.violated_eth hd hoff hrwl src v hlock hb
    | lne => exact s.violated_lne hd hoff hrwl src v hlock hb
    | rng => exact s.violated_rng hd hoff hrwl src v hlock hb
    | pe => exact s.violated_pe hd hoff hrwl src v hlock hb
    | lbr => exact s.violated_lbr hd hoff hrwl src v hlock hb
    | trp => exact s.violated_trp hd hoff hrwl src v hlock hb
    | hpr => exact s.violated_hpr hd hoff hrwl src v hlock hb
    | sft => exact s.violated_sft hd hoff hrwl src v hlock hb
    | sio => exact s.violated_sio hd hoff hrwl src v hlock hb
    | scr => exact s.violated_scr hd hoff hrwl src v hlock hb
    | clk => exact s.violated_clk hd hoff hrwl src v hlock hb
    | cls => exact absurd rfl (hnone (l := regsCls) (by simp only [blockRegs, hb]))
    | jg =>
      by_cases h52 : page = 0x52
      · exact absurd rfl (hnone (l := regsJg ++ regsJgJg1) (by simp only [blockRegs, hb, if_pos h52]))
      · exact absurd rfl (hnone (l := regsJg) (by simp only [blockRegs, hb, if_neg h52]))
    | edg => exact absurd rfl (hnone (l := regsEdg) (by simp only [blockRegs, hb]))
    | stk => exact absurd rfl (hnone (l := regsStk) (by simp only [blockRegs, hb]))
    | cnv => exact absurd rfl (hnone (l := regsCnv) (by simp only [blockRegs, hb]))
    | mod => exact absurd rfl (hnone (l := regsMod) (by simp only [blockRegs, hb]))
    | sec => exact absurd rfl (hnone (l := regsSec) (by simp only [blockRegs, hb]))
    | pmc => exact absurd rfl (hnone (l := regsPmc) (by simp only [blockRegs, hb]))
    | sys | rst | pwr | mon | trg | mrt | tnn | hsp => exact hdefault (by simp only [State.blockWrite, hb])

end

/-! ### The lock itself -/

theorem exec_wlckOpen (page : Nat) (s : State) :
    exec (.wlckOpen page) s = .next (s.hostWr page fun t => t.wlckWrite page 0x5A5A) := rfl

theorem exec_wlckClose (page : Nat) (v : Word) (s : State) :
    exec (.wlckClose page v) s = .next (s.hostWr page fun t => if v = 0x5A5A then t else t.wlckWrite page v) := rfl

/-- A locked register is written by the rules of its page alone: it is no part of LDWIN, FUWIN or the loader's commands. -/
theorem State.hostRegWrite_locked (s : State) (src : Nat) {page off : Nat} (v : Word) {d : RegDef} (hd : regDef page off = some d)
    (hoff : 0x100 ≤ off) (hrwl : d.acc.rwl ≠ 0) : s.hostRegWrite src page off v = s.regWrite src page off v := by
  have hrst : page ≠ rstPage := by
    rintro rfl
    exact not_lockFree hd hoff hrwl (l := regsRst) rfl rfl
  have hsec : page ≠ secPage := by
    rintro rfl
    exact not_lockFree hd hoff hrwl (l := regsSec) rfl rfl
  unfold State.hostRegWrite
  simp [hrst, hsec]

theorem State.violated_regWrite (s : State) (src : Nat) {page off : Nat} (v : Word) {d : RegDef} (hd : regDef page off = some d)
    (hoff : 0x100 ≤ off) (hrwl : d.acc.rwl ≠ 0) (hlock : s.lockOpen page = false) :
    s.violated (s.regWrite src page off v) page := by
  have htrg : page ≠ 9 := by
    rintro rfl
    exact not_lockFree hd hoff hrwl (l := regsTrg) rfl rfl
  unfold State.regWrite
  rw [if_neg (by simp [hd]), if_neg (by omega), if_neg (by omega)]
  split
  · exact s.violated_lockViol page
  · rw [if_neg (by simp [htrg])]
    exact s.violated_blockWrite hd hoff hrwl src v hlock

/-- Settles O13: the key and any other value act on WLCK alone, and a write under the lock is a violation in every block. -/
theorem writeLock : Obligations.WriteLock := by
  intro s page hw
  refine ⟨?_, fun v hv => ?_, fun src off v d hd hoff hrwl hlock => ?_⟩
  · rw [exec_wlckOpen, State.hostWr_writable _ hw, State.wlckWrite, if_pos rfl]
    refine ⟨_, rfl, ?_, ?_, fun k hk => State.reg_setReg_ne _ _ (by simpa using hk), rfl⟩
    · unfold State.lockOpen State.regB
      rw [State.reg_setReg_same]
      decide
    · unfold State.regF
      rw [State.reg_setReg_same]
      decide
  · rw [exec_wlckClose, State.hostWr_writable _ hw, if_neg hv, State.wlckWrite, if_neg hv]
    refine ⟨_, rfl, State.regB_setB_same _ _ _ _ (by decide), ?_, fun k hk => State.reg_setB_ne _ _ _ (by simpa using hk), rfl⟩
    unfold State.regF
    rw [State.reg_setB_same, Word.fld_setBit_ne _ _ (by decide) (.inl (by decide))]
  · have hviol := s.violated_regWrite (srcNo src) v hd hoff hrwl hlock
    rw [exec_registerWrite, State.hostWr_writable _ hw, s.hostRegWrite_locked (srcNo src) v hd hoff hrwl]
    exact ⟨_, rfl, hviol.then (State.controls_tieSettle _)⟩

end Sys2Proof.Machine
end

section
/-! Proofs: what the registers, the windows and the loader leave of the host port (chapter 02, R75 to R79). -/

namespace Sys2Proof.Machine

/-! ### Steps joined -/

theorem State.host_ite (c : Prop) [Decidable c] (a b : State) : (if c then a else b).host = if c then a.host else b.host :=
  apply_ite State.host c a b

theorem State.host_ite_fst (c : Prop) [Decidable c] (a b : State × Word) :
    (if c then a else b).1.host = if c then a.1.host else b.1.host := apply_ite (fun r : State × Word => r.1.host) c a b

@[simp] theorem State.host_when (s : State) (c : Bool) {f : State → State} (hf : ∀ t, (f t).host = t.host) :
    (s.when c f).host = s.host := by
  unfold State.when
  split
  · exact hf s
  · rfl

@[simp] theorem State.host_foldl {α : Type} {f : State → α → State} (hf : ∀ t x, (f t x).host = t.host) (l : List α) (s : State) :
    (l.foldl f s).host = s.host := State.foldl_keeps State.host hf l s

@[simp] theorem State.host_together (s : State) {fs : List (State → State)}
    (hfs : ∀ f ∈ fs, ∀ t, (f t).host = t.host) : (s.together fs).host = s.host := by
  have hall : ∀ (l : List (State → State)) (t : State), (∀ f ∈ l, ∀ t, (f t).host = t.host) →
      (l.foldl State.also t).host = t.host := by
    intro l
    induction l with
    | nil => exact fun _ _ => rfl
    | cons f l ih =>
      intro t hl
      rw [List.foldl_cons, ih _ fun g hg => hl g (List.mem_cons_of_mem _ hg)]
      exact hl f (List.mem_cons_self ..) { t with out := [] }
  unfold State.together
  dsimp only
  split
  · exact hall fs _ hfs
  · exact hall fs _ hfs

/-! ### Parts of the state and the crossbar's ports -/

@[simp] theorem State.host_setEng (s : State) (n : Nat) (e : Eng) : (s.setEng n e).host = s.host :=
  State.host_of_controls (s.controls_setEng n e)

@[simp] theorem State.host_portBytes (s : State) (a : Nat) (l : List Byte) : (s.portBytes a l).host = s.host :=
  State.host_of_controls (s.controls_portBytes a l)

@[simp] theorem State.host_portWord (s : State) (a : Nat) (w : Word) : (s.portWord a w).host = s.host := by
  simp [State.portWord]

@[simp] theorem State.host_setLane (s : State) (n : Nat) (l : Lane) : (s.setLane n l).host = s.host :=
  State.host_of_controls (s.controls_setLane n l)

@[simp] theorem State.host_jigEvent (s : State) (i e : Nat) : (s.jigEvent i e).host = s.host :=
  State.host_of_controls (s.controls_jigEvent i e)

/-! ### Cell commands and the Jig engines -/

@[simp] theorem State.host_cmdDone (s : State) (i result : Nat) : (s.cmdDone i result).host = s.host := by
  unfold State.cmdDone
  extract_lets st t
  have ht : t.host = s.host := by rw [State.irq_host, State.setReg_host]
  split
  · split
    · rw [State.irq_host, State.setReg_host]
    · rfl
  · split
    · exact (t.host_when _ fun u => u.bump_host _).trans ht
    · rfl

@[simp] theorem State.host_srsyncAt (s : State) (addr : Nat) : (s.srsyncAt addr).host = s.host := by
  simp [State.srsyncAt]

@[simp] theorem State.host_dropCommand (s : State) : s.dropCommand.host = s.host := by
  simp [State.dropCommand]

@[simp] theorem State.host_jigRestart (s : State) : s.jigRestart.host = s.host := by
  simp [State.jigRestart]

@[simp] theorem State.host_cellCommand (s : State) (addr code : Nat) : (s.cellCommand addr code).host = s.host := by
  unfold State.cellCommand
  extract_lets reject
  have hreject : ∀ n, (reject n).host = s.host := fun n => by
    rw [State.bump_host, State.irq_host, State.setReg_host]
  split
  · exact s.irq_host _ _
  · split
    · exact hreject 3
    · split
      · exact hreject 4
      · rw [State.host_jigEvent, State.setReg_host]

@[simp] theorem State.host_stackCommand (s : State) (code : Nat) : (s.stackCommand code).host = s.host := by
  simp [State.host_ite, State.stackCommand]

@[simp] theorem State.host_tbld (s : State) (eng bank : Nat) : (s.tbld eng bank).host = s.host := by
  simp [State.tbld]

@[simp] theorem State.host_bankWritten (s : State) (addr : Nat) (master : Nat) : (s.bankWritten addr master).host = s.host := by
  unfold State.bankWritten
  refine State.host_foldl (fun t x => ?_) _ s
  exact State.host_when _ _ fun _ => rfl

@[simp] theorem State.host_retclr (s : State) (addr : Nat) : (s.retclr addr).host = s.host := by
  simp [State.host_ite, State.retclr]

/-! ### The edge scheduler -/

@[simp] theorem State.host_cvalRead (s : State) : s.cvalRead.host = s.host := by
  simp [State.cvalRead]

@[simp] theorem State.host_bcvalRead (s : State) : (s.bcvalRead).1.host = s.host := by
  simp [State.bcvalRead]

@[simp] theorem State.host_lstaRead (s : State) : (s.lstaRead).1.host = s.host := by
  simp [State.lstaRead]

@[simp] theorem State.host_cselWritten (s : State) : s.cselWritten.host = s.host := by
  simp [State.cselWritten]

@[simp] theorem State.host_carryClear (s : State) (p : Nat → Bool) : (s.carryClear p).host = s.host := by
  simp [State.carryClear]

@[simp] theorem State.host_policyApplied (s : State) (k : Nat) : (s.policyApplied k).host = s.host := by
  simp [State.policyApplied]

/-! ### Rings and lanes -/

@[simp] theorem State.host_svKick (s : State) (ring : Nat) : (s.svKick ring).host = s.host := by
  simp [State.svKick]

@[simp] theorem State.host_rspend (s : State) (ring : Nat) : (s.rspend ring).host = s.host :=
  State.host_of_controls (s.controls_rspend ring)

@[simp] theorem State.host_rateSync (s : State) (n : Nat) : (s.rateSync n).host = s.host :=
  State.host_of_controls (s.controls_rateSync n)

@[simp] theorem State.host_injSync (s : State) (n : Nat) (l : List OutFrame) : (s.injSync n l).host = s.host :=
  State.host_of_controls (s.controls_injSync n l)

@[simp] theorem State.host_retrain (s : State) (n : Nat) : (s.retrain n).host = s.host :=
  State.host_of_controls (s.controls_retrain n)

@[simp] theorem State.host_laneMode (s : State) (n mode : Nat) : (s.laneMode n mode).host = s.host :=
  State.host_of_controls (s.controls_laneMode n mode)

@[simp] theorem State.host_injGo (s : State) (n : Nat) : (s.injGo n).host = s.host :=
  State.host_of_controls (s.controls_injGo n)

@[simp] theorem State.host_checkStart (s : State) (n : Nat) : (s.checkStart n).host = s.host :=
  State.host_of_controls (s.controls_checkStart n)

@[simp] theorem State.host_bitcntLatch (s : State) (n src : Nat) : (s.bitcntLatch n src).host = s.host := by
  simp [State.bitcntLatch]

@[simp] theorem State.host_capSettle (s : State) (ring : Nat) : (s.capSettle ring).host = s.host := by
  simp [State.host_ite, State.capSettle]

@[simp] theorem State.host_forceSrsync (s : State) (ring mask : Nat) : (s.forceSrsync ring mask).host = s.host := by
  simp [State.forceSrsync]

@[simp] theorem State.host_snapH (s : State) (who : Nat) : (s.snapH who).1.host = s.host := by
  unfold State.snapH
  split <;> rfl

/-! ### The datum -/

@[simp] theorem State.host_datumState (s : State) (st : Nat) : (s.datumState st).host = s.host := by
  simp [State.host_ite, State.datumState]

@[simp] theorem State.host_foreignClear (s : State) : s.foreignClear.host = s.host :=
  State.host_of_controls (s.controls_foreignClear)

@[simp] theorem State.host_datumSource (s : State) : s.datumSource.host = s.host :=
  State.host_of_controls (s.controls_datumSource)

@[simp] theorem State.host_setTv (s : State) (b : Bool) : (s.setTv b).host = s.host := by
  simp [State.setTv]

@[simp] theorem State.host_datumHoldover (s : State) : s.datumHoldover.host = s.host := by
  simp [State.host_ite, State.datumHoldover]

/-! ### The Ethernet ports -/

@[simp] theorem State.host_setEth (s : State) (p : Nat) (e : EthPort) : (s.setEth p e).host = s.host :=
  State.host_of_controls (s.controls_setEth p e)

@[simp] theorem State.host_pushF (s : State) (q : Nat) (e : ClassF) : (s.pushF q e).host = s.host := by
  simp [State.pushF]

@[simp] theorem State.host_txScan (s : State) (p fuel : Nat) : (s.txScan p fuel).host = s.host := by
  induction fuel generalizing s with
  | zero => rfl
  | succ fuel ih => simp [State.txScan, State.host_ite, ih]

@[simp] theorem State.host_txKick (s : State) (p : Nat) : (s.txKick p).host = s.host := by
  simp only [State.txKick, State.host_ite, State.host_txScan, ite_self]

@[simp] theorem State.host_ethConfig (s : State) (p : Nat) (wasOn : Bool) : (s.ethConfig p wasOn).host = s.host :=
  State.host_of_controls (s.controls_ethConfig p wasOn)

/-! ### The scribe -/

@[simp] theorem State.host_ackClasses (s : State) (mask : Nat) : (s.ackClasses mask).host = s.host := by
  unfold State.ackClasses
  exact State.host_foldl (fun t c => t.setB_host _ _ _) _ _

@[simp] theorem State.host_tripClear (s : State) : s.tripClear.host = s.host := by
  simp [State.host_ite, State.tripClear]

@[simp] theorem State.host_sctlWrite (s : State) (v : Word) : (s.sctlWrite v).host = s.host := by
  simp [State.sctlWrite]

@[simp] theorem State.host_lrec0 (s : State) (src : HSrc) : (s.lrec0 src).host = s.host := by
  simp [State.lrec0]

/-! ### Local legs, choppers and trip inputs -/

@[simp] theorem State.host_setLl (s : State) (k : Nat) (l : LocalLeg) : (s.setLl k l).host = s.host :=
  State.host_of_controls (s.controls_setLl k l)

@[simp] theorem State.host_setChopper (s : State) (c : Nat) (x : Chopper) : (s.setChopper c x).host = s.host :=
  State.host_of_controls (s.controls_setChopper c x)

@[simp] theorem State.host_chopSync (s : State) (c : Nat) : (s.chopSync c).host = s.host :=
  State.host_of_controls (s.controls_chopSync c)

@[simp] theorem State.host_chopConfig (s : State) (c : Nat) (wasOn : Bool) : (s.chopConfig c wasOn).host = s.host :=
  State.host_of_controls (s.controls_chopConfig c wasOn)

@[simp] theorem State.host_trapConfig (s : State) (n : Nat) (pol : Bool) : (s.trapConfig n pol).host = s.host :=
  State.host_of_controls (s.controls_trapConfig n pol)

@[simp] theorem State.host_tlatchClear (s : State) (v : Word) : (s.tlatchClear v).host = s.host := by
  simp [State.host_ite, State.tlatchClear]

/-! ### Head pairing -/

@[simp] theorem State.host_setPair (s : State) (p : Pair) : (s.setPair p).host = s.host :=
  State.host_of_controls (s.controls_setPair p)

@[simp] theorem State.host_ringLight (s : State) (on : Bool) : (s.ringLight on).host = s.host :=
  State.host_of_controls (s.controls_ringLight on)

@[simp] theorem State.host_roleTo (s : State) (r : Nat) : (s.roleTo r).host = s.host :=
  State.host_of_controls (s.controls_roleTo r)

@[simp] theorem State.host_claimEnter (s : State) (init : Bool) : (s.claimEnter init).host = s.host := by
  simp [State.claimEnter]

@[simp] theorem State.host_handover (s : State) : s.handover.host = s.host := by
  simp [State.host_ite, State.handover]

@[simp] theorem State.host_leave (s : State) : s.leave.host = s.host := by
  simp [State.host_ite, State.leave]

@[simp] theorem State.host_join (s : State) : s.join.host = s.host := by
  simp [State.host_ite, State.join]

/-! ### The clocks -/

@[simp] theorem State.host_setCk (s : State) (i : Nat) (b : Bool) : (s.setCk i b).host = s.host := by
  simp [State.setCk]

@[simp] theorem State.host_clockRole (s : State) : s.clockRole.host = s.host := by
  simp [State.clockRole]

@[simp] theorem State.host_loseA (s : State) : s.loseA.host = s.host := by
  simp [State.loseA]

@[simp] theorem State.host_loseT (s : State) : s.loseT.host = s.host := by
  unfold State.loseT
  rw [State.host_clockRole, State.host_datumHoldover, State.irq_host, State.bumpAt_host, State.host_setCk, State.host_setCk]

@[simp] theorem State.host_refGoto (s : State) (src : Nat) : (s.refGoto src).host = s.host := by
  unfold State.refGoto
  extract_lets old clk s0 s1
  have h1 : s1.host = s.host := by
    rw [State.irq_host, State.bump_host, State.setF_host, State.setF_host]
  split
  · rw [State.fault_host, State.host_when _ _ State.host_loseT, State.host_when _ _ State.host_loseA, h1]
  · exact (s1.host_when _ fun u => State.fault_host ..).trans h1

@[simp] theorem State.host_cksta (s : State) : (s.cksta).1.host = s.host := by
  unfold State.cksta
  split <;> rfl

@[simp] theorem State.host_refRet (s : State) : s.refRet.host = s.host := by
  simp [State.host_ite, State.refRet]

@[simp] theorem State.host_clkoWrite (s : State) (n : Nat) (old : Bool × Nat × Nat × Word × Nat) :
    (s.clkoWrite n old).host = s.host :=
  State.host_of_controls (s.controls_clkoWrite n old)

/-! ### Converters and modulator inputs -/

@[simp] theorem State.host_resultRead (s : State) (sel : Nat) (w : Word) : (s.resultRead sel w).1.host = s.host := by
  unfold State.resultRead
  split
  · split <;> rfl
  · rfl

@[simp] theorem State.host_csmRead (s : State) (off : Nat) : (s.csmRead off).1.host = s.host := by
  unfold State.csmRead
  dsimp only
  split
  · exact s.host_resultRead _ _
  · rfl

@[simp] theorem State.host_setConv (s : State) (n : Nat) (c : Conv) : (s.setConv n c).host = s.host :=
  State.host_of_controls (s.controls_setConv n c)

@[simp] theorem State.host_convShow (s : State) (n : Nat) : (s.convShow n).host = s.host := by
  simp [State.convShow]

@[simp] theorem State.host_convBegin (s : State) (n slot at_ : Nat) (urg : Bool) : (s.convBegin n slot at_ urg).host = s.host := by
  simp [State.convBegin]

@[simp] theorem State.host_convStart (s : State) (n : Nat) : (s.convStart n).host = s.host := by
  simp [State.host_ite, State.convStart]

@[simp] theorem State.host_urgentReq (s : State) (n : Nat) : (s.urgentReq n).host = s.host := by
  simp [State.host_ite, State.urgentReq]

@[simp] theorem State.host_ugo (s : State) (mask : Nat) : (s.ugo mask).host = s.host := by
  simp [State.ugo]

@[simp] theorem State.host_setRef (s : State) (n : Nat) (b : Bool) : (s.setRef n b).host = s.host := by
  simp [State.setRef]

@[simp] theorem State.host_refStart (s : State) (n : Nat) : (s.refStart n).host = s.host := by
  simp [State.refStart]

@[simp] theorem State.host_cvrefWrite (s : State) (n : Nat) (v : Word) : (s.cvrefWrite n v).host = s.host := by
  simp [State.host_ite, State.cvrefWrite]

@[simp] theorem State.host_cvcfgWrite (s : State) (n : Nat) (v : Word) : (s.cvcfgWrite n v).host = s.host := by
  simp [State.host_ite, State.cvcfgWrite]

@[simp] theorem State.host_setMod (s : State) (i : Nat) (m : ModIn) : (s.setMod i m).host = s.host :=
  State.host_of_controls (s.controls_setMod i m)

@[simp] theorem State.host_setRun (s : State) (i : Nat) (b : Bool) : (s.setRun i b).host = s.host := by
  simp [State.setRun]

@[simp] theorem State.host_modRestart (s : State) (i t : Nat) : (s.modRestart i t).host = s.host := by
  unfold State.modRestart
  rw [State.setB_host, State.host_setRun]
  split <;> rfl

@[simp] theorem State.host_mdcfgWrite (s : State) (i : Nat) (v : Word) : (s.mdcfgWrite i v).host = s.host := by
  unfold State.mdcfgWrite
  dsimp only
  split
  · split
    · rfl
    · rw [State.setB_host, State.host_setRun]
      rfl
  · split
    · rfl
    · split
      · rw [State.host_setRun]
        rfl
      · exact State.host_modRestart ..

@[simp] theorem State.host_mclkSync (s : State) (k : Nat) : (s.mclkSync k).host = s.host :=
  State.host_of_controls (s.controls_mclkSync k)

@[simp] theorem State.host_mclkcfgWrite (s : State) (k : Nat) (v : Word) : (s.mclkcfgWrite k v).host = s.host := by
  simp [State.host_ite, State.mclkcfgWrite]

/-! ### The performance counters -/

@[simp] theorem State.host_smpPop (s : State) : s.smpPop.host = s.host := by
  simp [State.smpPop]

@[simp] theorem State.host_pmcSnap (s : State) (n : Nat) : (s.pmcSnap n).host = s.host := by
  simp [State.pmcSnap]

@[simp] theorem State.host_prelWrite (s : State) (src e : Nat) (v : Word) : (s.prelWrite src e v).host = s.host := by
  simp [State.prelWrite]

@[simp] theorem State.host_prehWrite (s : State) (src e hi : Nat) : (s.prehWrite src e hi).host = s.host := by
  unfold State.prehWrite
  rfl

@[simp] theorem State.host_cntlRead (s : State) (src e : Nat) : (s.cntlRead src e).1.host = s.host := by
  unfold State.cntlRead
  dsimp only
  split <;> rfl

/-! ### The engines and PE7 -/

@[simp] theorem State.host_setEst (s : State) (n st ch : Nat) : (s.setEst n st ch).host = s.host :=
  State.host_of_controls (s.controls_setEst n st ch)

@[simp] theorem State.host_setPc (s : State) (n a : Nat) : (s.setPc n a).host = s.host :=
  State.host_of_controls (s.controls_setPc n a)

@[simp] theorem State.host_dmemStore (s : State) (n off : Nat) (v : Word) : (s.dmemStore n off v).host = s.host := by
  simp [State.dmemStore]

@[simp] theorem State.host_dmemCopy (s : State) (src dst : Nat) : (s.dmemCopy src dst).host = s.host := by
  simp [State.dmemCopy]

@[simp] theorem State.host_imemCopy (s : State) (src dst : Nat) : (s.imemCopy src dst).host = s.host := by
  simp [State.imemCopy]

@[simp] theorem State.host_setSh (s : State) (i : Nat) (b : Bool) : (s.setSh i b).host = s.host := by
  simp [State.setSh]

@[simp] theorem State.host_pe7Home (s : State) : s.pe7Home.host = s.host := by
  simp [State.host_ite, State.pe7Home]

@[simp] theorem State.host_acctTo (s : State) (n c : Nat) : (s.acctTo n c).host = s.host :=
  State.host_of_controls (s.controls_acctTo n c)

@[simp] theorem State.host_winTo (s : State) (n c : Nat) : (s.winTo n c).host = s.host :=
  State.host_of_controls (s.controls_winTo n c)

@[simp] theorem State.host_pmcSync (s : State) (n : Nat) : (s.pmcSync n).host = s.host := by
  simp [State.host_ite, State.pmcSync]

@[simp] theorem State.host_pmcSel (s : State) : s.pmcSel.host = s.host := by
  simp [State.pmcSel]

@[simp] theorem State.host_pmcSnapMask (s : State) (mask : Nat) : (s.pmcSnapMask mask).host = s.host := by
  simp [State.pmcSnapMask]

@[simp] theorem State.host_shadowStart (s : State) : s.shadowStart.host = s.host := by
  simp [State.shadowStart]

@[simp] theorem State.host_moveOset (s : State) (src dst : Nat) : (s.moveOset src dst).host = s.host := by
  unfold State.moveOset
  rw [State.setReg_host, State.setReg_host]
  refine State.host_foldl (fun t j => ?_) _ s
  rfl

@[simp] theorem State.host_pe7Free (s : State) (target : Nat) : (s.pe7Free target).host = s.host := by
  simp [State.host_ite, State.pe7Free]

@[simp] theorem State.host_pe7Shadow (s : State) (target : Nat) : (s.pe7Shadow target).host = s.host := by
  simp [State.host_ite, State.pe7Shadow]

@[simp] theorem State.host_pe7Replace (s : State) (target : Nat) : (s.pe7Replace target).host = s.host := by
  simp [State.host_ite, State.pe7Replace]

@[simp] theorem State.host_shadowRearm (s : State) : s.shadowRearm.host = s.host := by
  simp [State.host_ite, State.shadowRearm]

@[simp] theorem State.host_dmemHost (s : State) (n off : Nat) (v : Word) : (s.dmemHost n off v).host = s.host := by
  simp [State.host_ite, State.dmemHost]

/-! ### Commits and the frame plan -/

@[simp] theorem State.host_putShadow (s : State) (k : Nat) (v : Word) : (s.putShadow k v).host = s.host :=
  State.host_of_controls (s.controls_putShadow k v)

@[simp] theorem State.host_acceptBank (s : State) (eng : Nat) : (s.acceptBank eng).host = s.host := by
  unfold State.acceptBank
  dsimp only
  split
  · rfl
  · split <;> rfl

@[simp] theorem State.host_acceptPage (s : State) (page : Nat) (tick : Bool) : (s.acceptPage page tick).host = s.host := by
  simp [State.host_ite, State.acceptPage]

@[simp] theorem State.host_injCommit (s : State) (old : Bool) : (s.injCommit old).host = s.host := by
  simp [State.host_ite, State.injCommit]

@[simp] theorem State.host_bankApplied (s : State) (k : Nat) (old : Word) : (s.bankApplied k old).host = s.host := by
  unfold State.bankApplied
  refine State.host_foldl (fun t x => ?_) _ s
  exact State.host_when _ _ fun _ => rfl

@[simp] theorem State.host_applyAccepted (s : State) (p : Nat → Bool) : (s.applyAccepted p).host = s.host := by
  simp [State.applyAccepted]

@[simp] theorem State.host_commitReq (s : State) (page : Nat) : (s.commitReq page).host = s.host := by
  simp [State.commitReq]

@[simp] theorem State.host_commitIdle (s : State) (page : Nat) : (s.commitIdle page).host = s.host := by
  simp [State.host_ite, State.commitIdle]

@[simp] theorem State.host_judgeStart (s : State) (from_ : Nat) : (s.judgeStart from_).host = s.host := by
  simp [State.host_ite, State.judgeStart]

@[simp] theorem State.host_trgPctl (s : State) (v : Word) : (s.trgPctl v).host = s.host := by
  unfold State.trgPctl
  extract_lets s1 s2 want p
  have h2 : s2.host = s.host := by
    unfold s2
    split
    · rfl
    · split
      · rfl
      · exact State.host_commitIdle _ _
  split
  · exact h2
  · split
    · rw [State.host_judgeStart, h2]
    · exact h2

/-! ### Identity and signed images -/

@[simp] theorem State.host_drawAuthn (s : State) : s.drawAuthn.host = s.host := by
  simp [State.drawAuthn]

@[simp] theorem State.host_okEnd (s : State) (result : Nat) : (s.okEnd result).host = s.host := by
  simp [State.okEnd]

@[simp] theorem State.host_okCmd (s : State) (op : Nat) (v : Word) : (s.okCmd op v).host = s.host := by
  simp [State.host_ite, State.okCmd]

@[simp] theorem State.host_floorKey (s : State) : s.floorKey.host = s.host := by
  simp [State.host_ite, State.floorKey]

@[simp] theorem State.host_fuStart (s : State) (v : Word) : (s.fuStart v).host = s.host := by
  simp [State.host_ite, State.fuStart]

@[simp] theorem State.host_fuWrite (s : State) (ws : List Word) : (s.fuWrite ws).host = s.host := by
  unfold State.fuWrite
  split
  · split <;> rfl
  · rfl

@[simp] theorem State.host_fuEnd (s : State) : s.fuEnd.host = s.host := by
  unfold State.fuEnd
  split
  · split <;> rfl
  · rfl

@[simp] theorem State.host_attGo (s : State) : s.attGo.host = s.host := by
  simp [State.host_ite, State.attGo]

@[simp] theorem State.host_attTouch (s : State) (a : Nat) : (s.attTouch a).host = s.host := by
  unfold State.attTouch
  split <;> rfl

@[simp] theorem State.host_certdRead (s : State) : s.certdRead.host = s.host := by
  simp [State.certdRead]

/-! ### The safety unit -/

@[simp] theorem State.host_setConn (s : State) (j : Nat) (c : Conn) : (s.setConn j c).host = s.host := by
  simp [State.setConn]

@[simp] theorem State.host_cack (s : State) (j : Nat) : (s.cack j).host = s.host := by
  simp [State.host_ite, State.cack]

@[simp] theorem State.host_dclr (s : State) : s.dclr.host = s.host :=
  State.host_of_controls (s.controls_dclr)

@[simp] theorem State.host_slatchClear (s : State) (v : Word) (sird : Nat) : (s.slatchClear v sird).host = s.host := by
  simp [State.host_ite, State.slatchClear]

@[simp] theorem State.host_sxmdRead (s : State) : s.sxmdRead.host = s.host := by
  simp [State.sxmdRead]

/-! ### The registers of a page -/

@[simp] theorem State.host_lockViol (s : State) (page : Nat) : (s.lockViol page).host = s.host := by
  simp [State.lockViol]

@[simp] theorem State.host_wlckWrite (s : State) (page : Nat) (v : Word) : (s.wlckWrite page v).host = s.host := by
  simp [State.host_ite, State.wlckWrite]

@[simp] theorem State.host_maskWrite (s : State) (page off : Nat) (loader : Bool) (v : Word) :
    (s.maskWrite page off loader v).host = s.host := by
  unfold State.maskWrite
  split
  · rfl
  · simp [State.host_ite]

@[simp] theorem State.host_blockControl (s : State) (page : Nat) : (s.blockControl page).host = s.host :=
  State.host_of_controls (s.controls_blockControl page)

@[simp] theorem State.host_pctlWrite (s : State) (page : Nat) (v : Word) : (s.pctlWrite page v).host = s.host := by
  simp [State.host_ite, State.pctlWrite]

@[simp] theorem State.host_pctlEn (s : State) (page : Nat) (en : Bool) : (s.pctlEn page en).host = s.host := by
  simp [State.pctlEn]

@[simp] theorem State.host_lnctlWrite (s : State) (n : Nat) (v : Word) : (s.lnctlWrite n v).host = s.host := by
  simp [State.host_ite, State.lnctlWrite]

@[simp] theorem State.host_lnmapWrite (s : State) (n : Nat) (v : Word) : (s.lnmapWrite n v).host = s.host := by
  simp [State.host_ite, State.lnmapWrite]

@[simp] theorem State.host_lncfgWrite (s : State) (n : Nat) (v : Word) : (s.lncfgWrite n v).host = s.host := by
  simp [State.lncfgWrite]

@[simp] theorem State.host_pecfgMode (s : State) (mode tgt : Nat) : (s.pecfgMode mode tgt).host = s.host := by
  unfold State.pecfgMode
  split
  · exact s.host_lockViol 0x67
  · dsimp only
    split
    · exact s.host_pe7Shadow _
    · exact s.host_pe7Replace _
    · exact s.host_pe7Free _

@[simp] theorem State.host_pecfgWrite (s : State) (v : Word) : (s.pecfgWrite v).host = s.host := by
  simp [State.pecfgWrite]

@[simp] theorem State.host_pcfgWrite (s : State) (v : Word) : (s.pcfgWrite v).host = s.host := by
  simp [State.host_ite, State.pcfgWrite]

@[simp] theorem State.host_clkoSet (s : State) (off : Nat) (v : Word) : (s.clkoSet off v).host = s.host := by
  simp [State.clkoSet, State.host_clkoWrite]

@[simp] theorem State.host_cksscWrite (s : State) (v : Word) : (s.cksscWrite v).host = s.host := by
  simp [State.host_ite, State.cksscWrite]

@[simp] theorem State.host_pmcWrite (s : State) (src off : Nat) (v : Word) : (s.pmcWrite src off v).host = s.host := by
  simp [State.host_ite, State.pmcWrite]

@[simp] theorem State.host_blockWrite (s : State) (src page off : Nat) (v : Word) : (s.blockWrite src page off v).host = s.host := by
  cases hb : blockOf page with
  | none => simp [State.blockWrite, hb]
  | some b =>
    cases b with
    | hpr =>
      simp only [State.blockWrite, hb]
      split
      · simp
      · split
        · split <;> simp
        · simp
    | sec =>
      simp only [State.blockWrite, hb]
      split
      · simp
      · split
        · split <;> simp
        · simp [State.host_ite]
    | _ => simp [State.blockWrite, hb, State.host_ite]

@[simp] theorem State.host_regWrite (s : State) (src page off : Nat) (v : Word) : (s.regWrite src page off v).host = s.host := by
  simp [State.host_ite, State.regWrite]

/-! ### Reset and the image loader -/

@[simp] theorem State.host_shipTables (s : State) : s.shipTables.host = s.host := by
  simp [State.shipTables]

@[simp] theorem State.host_rstElapse (s : State) (d : Nat) : (s.rstElapse d).host = s.host := by
  simp [State.host_ite, State.rstElapse]

@[simp] theorem State.host_rstFall (s : State) : s.rstFall.host = s.host := by
  simp [State.host_ite, State.rstFall]

@[simp] theorem State.host_rstDrive (s : State) (bit d : Nat) : (s.rstDrive bit d).host = s.host := by
  simp [State.rstDrive]

@[simp] theorem State.host_setStage (s : State) (n : Nat) : (s.setStage n).host = s.host := by
  simp [State.setStage]

@[simp] theorem State.host_memInit (s : State) : s.memInit.host = s.host := by
  simp [State.memInit]

@[simp] theorem State.host_rejectSource (s : State) (src code : Nat) : (s.rejectSource src code).host = s.host := by
  simp [State.rejectSource]

@[simp] theorem State.host_loadReg (s : State) (k : Nat) (v : Word) : (s.loadReg k v).host = s.host := by
  unfold State.loadReg
  split
  · rfl
  · simp [State.host_ite]

@[simp] theorem State.host_loadSection (s : State) (m : Memory) (base : Nat) (x : Section) : (s.loadSection m base x).host = s.host := by
  unfold State.loadSection
  dsimp only
  split <;> simp

@[simp] theorem State.host_fillCurve (s : State) (base : Nat) : (s.fillCurve base).host = s.host := by
  unfold State.fillCurve
  dsimp only
  refine State.host_foldl (fun t x => ?_) _ s
  exact t.host_when _ fun u => State.useFree_host _

@[simp] theorem State.host_fillCurves (s : State) : s.fillCurves.host = s.host := by
  simp [State.fillCurves]

@[simp] theorem State.host_checkBanks (s : State) (l : List (Nat × Nat)) : (s.checkBanks l).host = s.host := by
  unfold State.checkBanks
  refine State.host_foldl (fun t x => ?_) _ s
  rfl

@[simp] theorem State.host_stagePoint (s : State) : s.stagePoint.host = s.host := by
  unfold State.stagePoint
  exact s.host_when _ fun t => by rw [State.setReg_host, State.setReg_host]

@[simp] theorem State.host_applySpare (s : State) : s.applySpare.host = s.host := by
  unfold State.applySpare
  rw [State.host_jigRestart]
  refine (State.host_foldl (fun t p => ?_) _ _).trans ?_
  · split <;> rfl
  refine (State.host_foldl (fun t n => t.host_rateSync n) _ _).trans ?_
  refine State.host_foldl (fun t p => ?_) _ s
  split <;> rfl

@[simp] theorem State.host_loadEngine (s : State) (m : Memory) (base : Nat) (x : Section) : (s.loadEngine m base x).host = s.host := by
  simp [State.host_ite, State.loadEngine]

theorem State.host_withPlan (s : State) (p : Plan) : ({ s with plan := p } : State).host = s.host := rfl

@[simp] theorem State.host_applyReplace (s : State) : s.applyReplace.host = s.host := by
  unfold State.applyReplace
  split
  · extract_lets run plan s1
    have h1 : s1.host = s.host := (State.host_pe7Replace _ _).trans (s.host_withPlan _)
    exact (s1.host_withPlan _).trans h1
  · rfl

@[simp] theorem State.host_setCfgd (s : State) : s.setCfgd.host = s.host := by
  simp [State.setCfgd]

@[simp] theorem State.host_enableAll (s : State) (c : Config.Configuration) : (s.enableAll c).host = s.host := by
  simp [State.enableAll]

@[simp] theorem State.host_loadImage (s : State) (m : Memory) (base src : Nat) : (s.loadImage m base src).host = s.host := by
  unfold State.loadImage
  extract_lets secs c h s1 s2 s3 s4 s5 s6
  have h2 : s2.host = s.host := by simp [s2, s1]
  have h3 : s3.host = s2.host := by simp [s3]
  have h4 : s4.host = s3.host := by simp [s4]
  have h5 : s5.host = s4.host := by
    unfold s5
    exact State.host_foldl (fun _ _ => State.setReg_host ..) _ s4
  have h6 : s6.host = s5.host := by simp only [s6, State.setReg_host, State.setF_host]
  simp only [State.host_enableAll, h6, h5, h4, h3, h2]

@[simp] theorem State.host_hstart (s : State) : s.hstart.host = s.host := by
  simp [State.host_ite, State.hstart]

@[simp] theorem State.host_ldwin (s : State) (burst : List Word) : (s.ldwin burst).host = s.host := by
  simp [State.host_ite, State.ldwin]

@[simp] theorem State.host_hend (s : State) (took : Nat) : (s.hend took).host = s.host := by
  simp [State.host_ite, State.hend]

/-! ### Any register read, any register or window written -/

@[simp] theorem State.host_rocRead (s : State) (k : Nat) : (s.rocRead k).host = s.host := by
  unfold State.rocRead
  split
  · rfl
  · dsimp only
    split <;> rfl

@[simp] theorem State.host_pmcRead (s : State) (src off : Nat) : (s.pmcRead src off).1.host = s.host := by
  simp only [State.pmcRead, State.host_ite_fst, State.host_cntlRead, State.host_pmcSel, ite_self]

@[simp] theorem State.host_rcmdWrite (s : State) (v : Word) : (s.rcmdWrite v).host = s.host := by
  simp [State.host_ite, State.rcmdWrite]

@[simp] theorem State.host_hostRegWrite (s : State) (src page off : Nat) (v : Word) : (s.hostRegWrite src page off v).host = s.host := by
  simp [State.host_ite, State.hostRegWrite]

@[simp] theorem State.host_windowWrite (s : State) (src a : Nat) (v : Word) (w : Place) :
    (s.windowWrite src a v w).host = s.host := by
  unfold State.windowWrite
  split <;> simp [State.host_ite]

/-! ### The accepted operations and the tags -/

/-- What a read or a write of one word leaves of the host port: the snapshot of DT64 alone may be another. -/
def State.hostQueue (s : State) : List HostOp × NMap (Option Tag) := (s.host.ops, s.host.tags)

theorem State.hostQueue_congr {s t : State} (h : t.host = s.host) : t.hostQueue = s.hostQueue := by
  unfold State.hostQueue
  rw [h]

/-- A block's answer to a read, if it gives one, leaves the accepted operations and the tags. -/
def State.readKeeps (s : State) (o : Option (State × Word)) : Prop := ∀ r ∈ o, r.1.hostQueue = s.hostQueue

@[simp] theorem State.readKeeps_none (s : State) : s.readKeeps none := by
  simp [State.readKeeps]

@[simp] theorem State.readKeeps_some (s : State) (r : State × Word) : s.readKeeps (some r) ↔ r.1.hostQueue = s.hostQueue := by
  simp [State.readKeeps]

@[simp] theorem State.readKeeps_ite (s : State) (c : Prop) [Decidable c] (a b : Option (State × Word)) :
    s.readKeeps (if c then a else b) ↔ if c then s.readKeeps a else s.readKeeps b := by
  rw [apply_ite s.readKeeps]

theorem State.readKeeps_blockRead (s : State) (src : HSrc) (page off : Nat) : s.readKeeps (s.blockRead src page off) := by
  have hqueue : ∀ t : State, t.host = s.host → t.hostQueue = s.hostQueue := fun _ => State.hostQueue_congr
  have hfree : s.useFree.hostQueue = s.hostQueue := rfl
  have hsnap : (s.snapL (srcNo src)).hostQueue = s.hostQueue := rfl
  unfold State.blockRead
  dsimp only
  split <;> simp [hqueue, hfree, hsnap, State.host_ite]

theorem State.hostQueue_regRead (s : State) (src : HSrc) (page off : Nat) : (s.regRead src page off).1.hostQueue = s.hostQueue := by
  unfold State.regRead
  split
  · rfl
  · split
    · rfl
    · split
      next r hr => exact s.readKeeps_blockRead src page off r hr
      next => exact State.hostQueue_congr (s.host_rocRead _)

theorem State.hostQueue_hostReadWord (s : State) (src : HSrc) (a : Nat) : (s.hostReadWord src a).1.hostQueue = s.hostQueue := by
  unfold State.hostReadWord
  split
  · rfl
  · exact s.hostQueue_regRead src _ _
  · exact State.hostQueue_congr (s.host_csmRead _)
  · dsimp only
    split <;> rfl
  · split <;> rfl
  · rfl
  · split <;> rfl

theorem State.hostQueue_readWords (s : State) (src : HSrc) (n a : Nat) : (s.readWords src n a).1.hostQueue = s.hostQueue := by
  induction n generalizing s a with
  | zero => rfl
  | succ n ih => exact (ih _ _).trans (s.hostQueue_hostReadWord src a)

@[simp] theorem State.host_hostWr (s : State) (page : Nat) {f : State → State} (hf : ∀ t, (f t).host = t.host) :
    (s.hostWr page f).host = s.host := by
  unfold State.hostWr
  split
  · rfl
  · split
    · rfl
    · split
      · exact hf s
      · rfl

@[simp] theorem State.host_applyWord (s : State) (src a : Nat) (v : Word) : (s.applyWord src a v).host = s.host := by
  unfold State.applyWord
  split
  · rfl
  · exact s.host_hostWr _ fun t => t.host_hostRegWrite src _ _ v
  · split
    · rfl
    · split
      · rfl
      · exact s.host_windowWrite src a v _

@[simp] theorem State.host_applyWords (s : State) (src a : Nat) (ws : List Word) : (s.applyWords src a ws).host = s.host := by
  induction ws generalizing s a with
  | nil => rfl
  | cons v ws ih => exact (ih _ _).trans (s.host_applyWord src a v)

end Sys2Proof.Machine
end

section
/-! Proofs: a word the host writes into a window stands there (chapter 00, R10; chapter 02, R53, R77). -/

namespace Sys2Proof.Machine

/-! ### Where an address lies -/

/-- What an address has to do with the place it names. -/
def Place.at_ (a : Nat) : Place → Prop
  | .page p off => off = a % 0x1000 ∧ (blockOf p).isSome = true
  | .csm off => csmBase + off = a
  | .dmem _ off => off < 0x20000 ∧ off % 4 = a % 4
  | _ => True

theorem Place.at_of_placeOf {a : Nat} {w : Place} (h : placeOf a = some w) : w.at_ a := by
  unfold placeOf at h
  dsimp only at h
  split at h
  · split at h
    next hb =>
      cases h
      exact ⟨rfl, hb⟩
    next => cases h
  · split at h
    next hr =>
      cases h
      simp only [Bool.and_eq_true, Nat.ble_eq] at hr
      exact Nat.add_sub_cancel' hr.1
    next =>
      split at h
      · cases h
        trivial
      · split at h
        · cases h
          trivial
        · split at h
          · split at h
            · cases h
              trivial
            · split at h
              next hr =>
                cases h
                simp only [Bool.and_eq_true, Nat.ble_eq, Nat.blt_eq] at hr
                unfold Place.at_
                omega
              next => cases h
          · cases h

/-! ### What decides where a word goes -/

/-- What the host's writes to the windows go by: the plan, the domains in reset, BSTA and the place of the parameter table. -/
def State.hostGate (s : State) : Plan × Nat × Word × Word := (s.plan, s.rst.held, s.reg R.RST.BSTA, s.reg R.STK.SPTB)

section
variable {s t : State} (h : t.hostGate = s.hostGate)
include h

theorem State.plan_of_hostGate : t.plan = s.plan := congrArg (fun g => g.1) h

theorem State.domHeld_of_hostGate (d : Nat) : t.domHeld d = s.domHeld d := by
  have hheld : t.rst.held = s.rst.held := congrArg (fun g => g.2.1) h
  unfold State.domHeld
  rw [hheld]

theorem State.cfgd_of_hostGate : t.cfgd = s.cfgd := by
  have hreg : t.reg R.RST.BSTA = s.reg R.RST.BSTA := congrArg (fun g => g.2.2.1) h
  unfold State.cfgd State.regB
  rw [hreg]

theorem State.inSpt_of_hostGate (off : Nat) : inSpt t off = inSpt s off := by
  have hreg : t.reg R.STK.SPTB = s.reg R.STK.SPTB := congrArg (fun g => g.2.2.2) h
  unfold inSpt State.regN
  rw [hreg, State.plan_of_hostGate h]

theorem State.windowTakes_of_hostGate (a : Nat) : t.windowTakes a = s.windowTakes a := by
  unfold State.windowTakes
  simp only [State.inSpt_of_hostGate h, State.plan_of_hostGate h]

end

theorem State.hostGate_setReg (s : State) {k : Nat} (v : Word) (hb : k ≠ R.RST.BSTA) (hs : k ≠ R.STK.SPTB) :
    (s.setReg k v).hostGate = s.hostGate := by
  unfold State.hostGate
  rw [State.reg_setReg_ne _ _ hb.symm, State.reg_setReg_ne _ _ hs.symm]
  rfl

theorem State.hostGate_irq (s : State) (page bit : Nat) :
    (s.irq page bit).hostGate = s.hostGate := by
  refine State.hostGate_setReg _ _ ?_ ?_
  all_goals
    simp only [R.IRQS, R.RST.BSTA, R.STK.SPTB]
    omega

theorem State.hostGate_fault (s : State) (src page a m acc d : Nat) : (s.fault src page a m acc d).hostGate = s.hostGate := rfl

/-- What `f` leaves alone stays when `f` is applied under a condition. -/
theorem State.when_keeps {β : Type} (view : State → β) {f : State → State} (hf : ∀ t, view (f t) = view t) (s : State) (c : Bool) :
    view (s.when c f) = view s := by
  unfold State.when
  split
  · exact hf s
  · rfl

theorem State.attTouch_frame (s : State) (a : Nat) : ∃ c n, s.attTouch a = { s with sec := c, free := n } := by
  unfold State.attTouch
  split
  · exact ⟨s.sec, s.free, rfl⟩
  · exact ⟨_, _, rfl⟩

theorem State.hostGate_attTouch (s : State) (a : Nat) : (s.attTouch a).hostGate = s.hostGate := by
  obtain ⟨c, n, h⟩ := s.attTouch_frame a
  rw [h]
  rfl

@[simp] theorem State.mem_attTouch (s : State) (a : Nat) : (s.attTouch a).mem = s.mem := by
  obtain ⟨c, n, h⟩ := s.attTouch_frame a
  rw [h]

@[simp] theorem State.dmem_attTouch (s : State) (a : Nat) : (s.attTouch a).dmem = s.dmem := by
  obtain ⟨c, n, h⟩ := s.attTouch_frame a
  rw [h]

theorem State.hostGate_bankWritten (s : State) (a master : Nat) : (s.bankWritten a master).hostGate = s.hostGate := by
  have hdirty : ∀ (t : State) (e : Nat), e < 2 → ∀ c, (t.when c fun u =>
      ((u.setB (R.JG.TBSTA (1 + e)) 8 true).irq (0x51 + e) 2).fault Src.JG_TABLE_DIRTY (0x51 + e) 0 master 2).hostGate = t.hostGate := by
    intro t e he c
    refine State.when_keeps State.hostGate (fun u => ?_) t c
    rw [State.hostGate_fault, State.hostGate_irq]
    refine State.hostGate_setReg _ _ ?_ ?_
    all_goals
      simp only [R.JG.TBSTA, R.RST.BSTA, R.STK.SPTB]
      omega
  unfold State.bankWritten
  rw [List.foldl_cons, List.foldl_cons, List.foldl_nil]
  exact (hdirty _ 1 (by decide) _).trans (hdirty s 0 (by decide) _)

@[simp] theorem State.mem_bankWritten (s : State) (a master : Nat) : (s.bankWritten a master).mem = s.mem := by
  unfold State.bankWritten
  refine State.foldl_keeps State.mem (fun t e => ?_) _ s
  refine State.when_keeps State.mem (fun u => ?_) t _
  rw [State.fault_mem, State.irq_mem, State.setB_mem]

theorem State.dmemHost_frame (s : State) (n off : Nat) (v : Word) : ∃ d, s.dmemHost n off v = { s with dmem := d } := by
  unfold State.dmemHost
  dsimp only
  split
  · exact ⟨s.dmem, rfl⟩
  · split
    · exact ⟨_, rfl⟩
    · exact ⟨_, rfl⟩

theorem State.hostGate_dmemHost (s : State) (n off : Nat) (v : Word) : (s.dmemHost n off v).hostGate = s.hostGate := by
  obtain ⟨d, h⟩ := s.dmemHost_frame n off v
  rw [h]
  rfl

@[simp] theorem State.mem_dmemHost (s : State) (n off : Nat) (v : Word) : (s.dmemHost n off v).mem = s.mem := by
  obtain ⟨d, h⟩ := s.dmemHost_frame n off v
  rw [h]

theorem State.hostGate_portWord (s : State) (a : Nat) (v : Word) : (s.portWord a v).hostGate = s.hostGate := by
  obtain ⟨e, h⟩ := s.portBytes_frame a (natLe 4 v.toNat)
  unfold State.portWord
  rw [h]
  rfl

theorem State.hostGate_windowWrite (s : State) (src a : Nat) (v : Word) (w : Place) :
    (s.windowWrite src a v w).hostGate = s.hostGate := by
  have hatt := s.hostGate_attTouch a
  cases w with
  | page p off => rfl
  | csm off => exact s.hostGate_portWord _ v
  | table off =>
    unfold State.windowWrite
    dsimp only
    split
    · rfl
    · rw [State.hostGate_bankWritten]
      exact hatt
  | capture off => rfl
  | imem m off => exact hatt
  | dmem m off => exact (State.hostGate_dmemHost ..).trans hatt

/-! ### One word -/

/-- A word stored by a port stands in CSM, but not in the result mirror (R411). -/
theorem Memory.portBytes_word (m : Memory) {off : Nat} (hal : off % 4 = 0) (w : Word) :
    m.portBytes (csmBase + off) (natLe 4 w.toNat) = if inMirror off then m else m.writeWord (csmBase + off) w := by
  have hmirror : inMirror off = true ↔ 0x34000 ≤ off ∧ off < 0x34180 := by simp [inMirror]
  unfold Memory.portBytes
  dsimp only
  rw [natLe_length]
  by_cases hin : inMirror off = true
  · have hrange := hmirror.1 hin
    have hhead : csmBase + 0x34000 - (csmBase + off) = 0 := by omega
    have htail : (natLe 4 w.toNat).drop (csmBase + 0x34180 - (csmBase + off)) = [] :=
      List.drop_eq_nil_of_le (by rw [natLe_length]; omega)
    rw [if_neg (by simp; omega), if_pos hin, hhead, htail]
    rfl
  · have hrange := mt hmirror.2 hin
    rw [if_pos (by simp; omega), if_neg hin]
    rfl

/-- The memory after a word of the host into a window. -/
theorem State.mem_windowWrite (s : State) (src : Nat) {a : Nat} (v : Word) {w : Place} (hw : placeOf a = some w) (hal : a % 4 = 0) :
    (s.windowWrite src a v w).mem = if s.windowTakes a then s.mem.writeWord a v else s.mem := by
  have hat := Place.at_of_placeOf hw
  unfold State.windowTakes
  rw [hw]
  cases w with
  | page p off => rfl
  | csm off =>
    obtain rfl : csmBase + off = a := hat
    have hoff : off % 4 = 0 := by
      simp only [csmBase] at hal
      omega
    refine (s.mem.portBytes_word hoff v).trans ?_
    cases hin : inMirror off <;> simp [hin]
  | table off =>
    unfold State.windowWrite
    cases htable : s.plan.run && inSpt s off <;> simp [htable]
  | capture off => rfl
  | imem m off => simp [State.windowWrite]
  | dmem m off => simp [State.windowWrite]

theorem State.applyWord_window (s : State) (src : Nat) {a : Nat} (v : Word) {w : Place} (hw : placeOf a = some w)
    (hpage : pageAddr a = false) : s.applyWord src a v =
      if s.domHeld 0 then s else if !s.cfgd then s.bump R.RST.PREWCNT else s.windowWrite src a v w := by
  unfold pageAddr at hpage
  unfold State.applyWord
  rw [hw] at hpage ⊢
  cases w with
  | page p off => cases hpage
  | _ => rfl

/-- In reset the host writes nothing. -/
theorem State.applyWords_held (s : State) (src a : Nat) (ws : List Word) (hheld : s.domHeld 0 = true) :
    s.applyWords src a ws = s := by
  have hword : ∀ b v, s.applyWord src b v = s := by
    intro b v
    unfold State.applyWord
    split
    · rfl
    · unfold State.hostWr
      rw [if_pos (by simp [hheld])]
    · rw [if_pos hheld]
  induction ws generalizing a with
  | nil => rfl
  | cons v ws ih => rw [State.applyWords, hword, ih]

/-! ### The words of a burst -/

theorem pageAddr_of_windowTakes {s : State} {a : Nat} (h : s.windowTakes a = true) :
    pageAddr a = false ∧ ∃ w, placeOf a = some w := by
  unfold State.windowTakes at h
  unfold pageAddr
  cases hw : placeOf a with
  | none => simp [hw] at h
  | some w => cases w <;> simp [hw] at h ⊢

theorem Memory.read_writeWord_in (m : Memory) (a : Nat) (w : Word) {i : Nat} (h : i < 4) :
    (m.writeWord a w).read (a + i) = BitVec.ofNat 8 (w.toNat / 2 ^ (8 * i)) := by
  refine (Memory.read_writeBytes_in m a _ i (by rwa [natLe_length])).trans ?_
  obtain rfl | rfl | rfl | rfl : i = 0 ∨ i = 1 ∨ i = 2 ∨ i = 3 := by omega
  all_goals simp [natLe, Nat.div_div_eq_div_mul]

theorem Memory.readWord_congr {m m' : Memory} {a : Nat} (h : ∀ i < 4, m.read (a + i) = m'.read (a + i)) :
    m.readWord a = m'.readWord a := by
  have h0 := h 0 (by decide)
  rw [Nat.add_zero] at h0
  simp only [Memory.readWord, Memory.readLE, Memory.readBytes, Nat.add_assoc, h0, h 1 (by decide), h 2 (by decide), h 3 (by decide),
    Nat.reduceAdd]

/-- The words `ws` stand in `m'` from `a` upward, least significant byte first, and `m'` is as `m` elsewhere. -/
structure Memory.wordsPut (m m' : Memory) (a : Nat) (ws : List Word) : Prop where
  words : ∀ i < ws.length, m'.readWord (a + 4 * i) = ws.getD i 0
  bytes : ∀ i < 4 * ws.length, m'.read (a + i) = BitVec.ofNat 8 ((ws.getD (i / 4) 0).toNat / 2 ^ (8 * (i % 4)))
  rest : ∀ c, c < a ∨ a + 4 * ws.length ≤ c → m'.read c = m.read c

theorem Memory.wordsPut_nil (m : Memory) (a : Nat) : m.wordsPut m a [] := ⟨nofun, nofun, fun _ _ => rfl⟩

theorem Memory.wordsPut_cons {m m' : Memory} {a : Nat} {v : Word} {ws : List Word}
    (h : (m.writeWord a v).wordsPut m' (a + 4) ws) : m.wordsPut m' a (v :: ws) := by
  obtain ⟨hwords, hbytes, hrest⟩ := h
  refine ⟨fun i hi => ?_, fun i hi => ?_, fun c hc => ?_⟩
  · cases i with
    | zero =>
      rw [Memory.readWord_congr fun j hj => hrest _ (.inl (by omega))]
      exact Memory.readWord_writeWord m a v
    | succ i => 
      rw [List.length_cons] at hi
      rw [show a + 4 * (i + 1) = a + 4 + 4 * i by omega, hwords i (by omega)]
      rfl
  · rw [List.length_cons] at hi
    by_cases h4 : i < 4
    · rw [hrest _ (.inl (by omega)), Memory.read_writeWord_in m a v h4, Nat.div_eq_of_lt h4, Nat.mod_eq_of_lt h4]
      rfl
    · obtain ⟨j, rfl⟩ := Nat.exists_eq_add_of_le (Nat.le_of_not_lt h4)
      rw [← Nat.add_assoc, hbytes j (by omega), Nat.add_mod_left, Nat.add_comm 4 j, Nat.add_div_right _ (by decide)]
      rfl
  · rw [List.length_cons] at hc
    rw [hrest c (by omega), Memory.read_writeWord_out _ _ _ _ (by omega)]

/-- Words of the host, every one of which its window takes, stand in memory. -/
theorem State.wordsPut_applyWords (s : State) (src : Nat) {a : Nat} (ws : List Word) (hal : a % 4 = 0) (hheld : s.domHeld 0 = false)
    (hcfgd : s.cfgd = true) (htakes : ∀ i < ws.length, s.windowTakes (a + 4 * i) = true) :
    s.mem.wordsPut (s.applyWords src a ws).mem a ws := by
  induction ws generalizing s a with
  | nil => exact Memory.wordsPut_nil ..
  | cons v ws ih =>
    have hhead : s.windowTakes a = true := htakes 0 (Nat.succ_pos _)
    obtain ⟨hpage, w, hw⟩ := pageAddr_of_windowTakes hhead
    have hword : s.applyWord src a v = s.windowWrite src a v w := by
      rw [s.applyWord_window src v hw hpage]
      simp [hheld, hcfgd]
    have hgate := s.hostGate_windowWrite src a v w
    have hmem := s.mem_windowWrite src v hw hal
    rw [if_pos hhead] at hmem
    refine Memory.wordsPut_cons ?_
    rw [State.applyWords, hword, ← hmem]
    refine ih _ (by omega) ((State.domHeld_of_hostGate hgate 0).trans hheld) ((State.cfgd_of_hostGate hgate).trans hcfgd)
      fun i hi => ?_
    rw [State.windowTakes_of_hostGate hgate, show a + 4 + 4 * i = a + 4 * (i + 1) by omega]
    exact htakes (i + 1) (Nat.succ_lt_succ hi)

/-- A word that its window does not take changes no byte. -/
theorem State.mem_applyWord_refused (s : State) (src : Nat) {a : Nat} (v : Word) (hal : a % 4 = 0) (hpage : pageAddr a = false)
    (hrefused : s.windowTakes a = false) : (s.applyWord src a v).mem = s.mem := by
  cases hw : placeOf a with
  | none => simp only [State.applyWord, hw]
  | some w =>
    have hmem := s.mem_windowWrite src v hw hal
    rw [hrefused] at hmem
    rw [s.applyWord_window src v hw hpage]
    split
    · rfl
    · split
      · rfl
      · exact hmem

/-! ### Data memory (R271) -/

theorem dmemByte_ins (m : Memory) (k j : Nat) (v : Byte) : dmemByte (NMap.ins m k v) j = if j = k then some v else dmemByte m j := by
  induction m with
  | nil => simp only [NMap.ins, dmemByte, eq_comm]
  | cons q m ih =>
    obtain ⟨b, w⟩ := q
    unfold NMap.ins
    split
    next hb =>
      subst hb
      simp only [dmemByte]
      by_cases hj : j = b
      · simp [hj]
      · rw [if_neg (Ne.symm hj), if_neg (Ne.symm hj), if_neg hj]
    next hb =>
      split
      · simp only [dmemByte, eq_comm]
      · simp only [dmemByte, ih]
        by_cases hj : j = b
        · subst hj
          simp [hb]
        · simp [Ne.symm hj]

/-- Data memory from a store of a word on. -/
theorem State.dmemByte_dmemStore (s : State) (n off : Nat) (v : Word) (j : Nat) :
    dmemByte (s.dmemStore n off v).dmem j =
      if dmemAddr n off ≤ j ∧ j < dmemAddr n off + 4 then some (BitVec.ofNat 8 (v.fld (8 * (j - dmemAddr n off)) 8))
      else dmemByte s.dmem j := by
  have hstore : (s.dmemStore n off v).dmem = (List.range 4).foldl
    (fun m i => NMap.ins m (dmemAddr n off + i) (BitVec.ofNat 8 (v.fld (8 * i) 8))) s.dmem := rfl
  rw [hstore]
  generalize dmemAddr n off = a
  simp only [show List.range 4 = [0, 1, 2, 3] from rfl, List.foldl_cons, List.foldl_nil]
  by_cases hin : a ≤ j ∧ j < a + 4
  · obtain ⟨i, rfl⟩ := Nat.exists_eq_add_of_le hin.1
    obtain rfl | rfl | rfl | rfl : i = 0 ∨ i = 1 ∨ i = 2 ∨ i = 3 := by omega
    all_goals simp [dmemByte_ins]
  · simp only [dmemByte_ins]
    rw [if_neg hin, if_neg (by omega), if_neg (by omega), if_neg (by omega), if_neg (by omega)]

theorem State.dmemWord_dmemStore_same (s : State) (n off : Nat) (v : Word) : (s.dmemStore n off v).dmemWord n off = some v := by
  have hbyte : ∀ i < 4, dmemByte (s.dmemStore n off v).dmem (dmemAddr n off + i) = some (BitVec.ofNat 8 (v.fld (8 * i) 8)) := by
    intro i hi
    rw [State.dmemByte_dmemStore, if_pos (by omega), Nat.add_sub_cancel_left]
  have h0 := hbyte 0 (by decide)
  rw [Nat.add_zero] at h0
  unfold State.dmemWord
  dsimp only
  rw [h0, hbyte 1 (by decide), hbyte 2 (by decide), hbyte 3 (by decide)]
  have hv := v.isLt
  refine congrArg some (BitVec.eq_of_toNat_eq ?_)
  simp only [wd, leNat, Word.fld, natFld, BitVec.toNat_ofNat]
  omega

/-- A store elsewhere in data memory leaves a word. -/
theorem State.dmemWord_dmemStore_ne (s : State) {n m off off' : Nat} (v : Word)
    (hapart : ∀ i < 4, ∀ j < 4, dmemAddr m off' + i ≠ dmemAddr n off + j) :
    (s.dmemStore n off v).dmemWord m off' = s.dmemWord m off' := by
  have hbyte : ∀ i < 4, dmemByte (s.dmemStore n off v).dmem (dmemAddr m off' + i) = dmemByte s.dmem (dmemAddr m off' + i) := by
    intro i hi
    rw [State.dmemByte_dmemStore, if_neg]
    rintro ⟨hlo, hhi⟩
    exact hapart i hi (dmemAddr m off' + i - dmemAddr n off) (by omega) (by omega)
  have h0 := hbyte 0 (by decide)
  rw [Nat.add_zero] at h0
  unfold State.dmemWord
  dsimp only
  rw [h0, hbyte 1 (by decide), hbyte 2 (by decide), hbyte 3 (by decide)]

/-- A word of the host stands in data memory, also where PE7 takes a copy of it. -/
theorem State.dmemWord_dmemHost (s : State) {n off : Nat} (v : Word)
    (htable : ¬(n = 8 ∧ 0x1E000 ≤ off ∧ off < 0x1EA00)) : (s.dmemHost n off v).dmemWord n off = some v := by
  unfold State.dmemHost
  rw [if_neg htable]
  dsimp only
  split
  · by_cases h7 : n = 7
    · subst h7
      exact State.dmemWord_dmemStore_same ..
    · rw [State.dmemWord_dmemStore_ne _ _ fun i hi j hj => ?_]
      · exact State.dmemWord_dmemStore_same ..
      · unfold dmemAddr engBase
        omega
  · exact State.dmemWord_dmemStore_same ..

end Sys2Proof.Machine
end

section
/-! Proofs: the order of the host's accepted operations, and what a read of the host returns (chapter 02, R76 to R79). -/

namespace Sys2Proof.Machine

theorem exec_hostWriteApply (block : Nat) (s : State) : exec (.hostWriteApply block) s = .next (s.writeApply block).tieSettle := rfl

theorem exec_hostReadPerform (s : State) : exec .hostReadPerform s = .next s.readPerform := rfl

/-! ### The oldest write to a block (R77) -/

section
variable {block : Nat} {pre : List HostOp} (hpre : ∀ o ∈ pre, writesElsewhere block o = true)
include hpre

/-- Writes to other blocks are passed over. -/
theorem takeWrite_append (l : List HostOp) :
    takeWrite block (pre ++ l) = (takeWrite block l).map fun p => (p.1, pre ++ p.2) := by
  induction pre with
  | nil => simp
  | cons o pre ih =>
    have ho := hpre o (List.mem_cons_self ..)
    have htail := ih fun x hx => hpre x (List.mem_cons_of_mem _ hx)
    cases o with
    | read src tag a cnt => cases ho
    | write src a ws =>
      have hne : a / 0x1000 ≠ block := by simpa [writesElsewhere] using ho
      simp only [List.cons_append, takeWrite, if_neg hne, htail, Option.map_map, Function.comp_def]

theorem takeWrite_write (src : HSrc) {a : Nat} (ws : List Word) (post : List HostOp) (ha : a / 0x1000 = block) :
    takeWrite block (pre ++ .write src a ws :: post) = some (.write src a ws, pre ++ post) := by
  rw [takeWrite_append hpre, takeWrite, if_pos ha]
  rfl

theorem takeWrite_read (src : HSrc) (tag a cnt : Nat) (post : List HostOp) :
    takeWrite block (pre ++ .read src tag a cnt :: post) = none := by
  rw [takeWrite_append hpre]
  rfl

theorem takeWrite_none : takeWrite block pre = none := by
  have h := takeWrite_append hpre []
  rwa [List.append_nil] at h

end

/-- The state with its accepted operations replaced. -/
def State.withOps (s : State) (ops : List HostOp) : State := { s with host := { s.host with ops := ops } }

theorem State.writeApply_of_take {s : State} {block : Nat} {src : HSrc} {a : Nat} {ws : List Word} {rest : List HostOp}
    (h : takeWrite block s.host.ops = some (.write src a ws, rest)) :
    s.writeApply block = (s.withOps rest).applyWords (srcNo src) a ws := by
  simp only [State.writeApply, h]
  rfl

theorem State.writeApply_of_none {s : State} {block : Nat} (h : takeWrite block s.host.ops = none) : s.writeApply block = s := by
  simp only [State.writeApply, h]

/-! ### One word read (R53, R79) -/

/-- A word that its window shows is read as it stands, and the read changes nothing. -/
theorem State.hostReadWord_shows (s : State) (src : HSrc) {a : Nat} (h : s.windowShows a = true) :
    s.hostReadWord src a = (s, s.mem.readWord a) := by
  unfold State.windowShows at h
  unfold State.hostReadWord
  cases hw : placeOf a with
  | none => simp [hw] at h
  | some w =>
    rw [hw] at h
    have hat := Place.at_of_placeOf hw
    cases w with
    | page p off => cases h
    | csm off =>
      obtain rfl : csmBase + off = a := hat
      have hmirror : inMirror off = false := by simpa using h
      simp [State.csmRead, hmirror]
    | table off =>
      dsimp only at h ⊢
      rw [Bool.and_eq_true, Bool.not_eq_true', Bool.not_eq_true'] at h
      obtain ⟨hhole, hspt⟩ := h
      rw [hhole, hspt]
      rfl
    | capture off =>
      have hhole : s.captureHole off = false := by simpa using h
      simp [hhole]
    | imem n off => rfl
    | dmem n off => cases h

theorem State.hostReadWord_dmem (s : State) (src : HSrc) {a n off : Nat} {w : Word} (hw : placeOf a = some (.dmem n off))
    (hword : s.dmemWord n off = some w) : s.hostReadWord src a = (s, w) := by
  simp only [State.hostReadWord, hw, hword]

/-- Whether a block has an answer of its own to a read does not hang on the host port. -/
theorem State.isSome_blockRead_withOps (s : State) (ops : List HostOp) (src : HSrc) (p off : Nat) :
    ((s.withOps ops).blockRead src p off).isSome = (s.blockRead src p off).isSome := by
  have hreg : ∀ k i, (s.withOps ops).regB k i = s.regB k i := fun _ _ => rfl
  unfold State.blockRead
  dsimp only
  split <;> simp only [apply_ite Option.isSome, Option.isSome_some, Option.isSome_none, hreg]

theorem State.blockRead_withOps_none {s : State} (ops : List HostOp) {src : HSrc} {p off : Nat} (h : s.blockRead src p off = none) :
    (s.withOps ops).blockRead src p off = none := by
  rw [← Option.not_isSome_iff_eq_none, s.isSome_blockRead_withOps, h]
  decide

/-- An offset that is unassigned, or whose block is in reset, reads 0. -/
theorem State.hostReadWord_closed (s : State) (src : HSrc) {a p off : Nat} (hw : placeOf a = some (.page p off))
    (hclosed : regDef p off = none ∨ s.pageUp p = false) : s.hostReadWord src a = (s, 0) := by
  have hread : s.regRead src p off = (s, 0) := by
    unfold State.regRead
    rw [if_pos]
    rcases hclosed with h | h <;> simp [h]
  simp only [State.hostReadWord, hw, hread]

/-- A register to whose read its block adds nothing reads as its value, and its ROC bits are reset. -/
theorem State.hostReadWord_plain (s : State) (src : HSrc) {a p off : Nat} (hw : placeOf a = some (.page p off)) {d : RegDef}
    (hd : regDef p off = some d) (hup : s.pageUp p = true) (hoff : 0x100 ≤ off) (hnone : s.blockRead src p off = none) :
    s.hostReadWord src a = (s.rocRead (p * 0x1000 + off), s.reg (p * 0x1000 + off)) := by
  have hread : s.regRead src p off = (s.rocRead (p * 0x1000 + off), s.reg (p * 0x1000 + off)) := by
    unfold State.regRead
    rw [if_neg (by simp [hd, hup]), if_neg (by omega), hnone]
  simp only [State.hostReadWord, hw, hread]

/-! ### The words of a read (R76) -/

theorem State.length_readWords (s : State) (src : HSrc) (n a : Nat) : (s.readWords src n a).2.length = n := by
  induction n generalizing s a with
  | zero => rfl
  | succ n ih => simp only [State.readWords, List.length_cons, ih]

theorem State.readWords_one (s : State) (src : HSrc) (a : Nat) :
    s.readWords src 1 a = ((s.hostReadWord src a).1, [(s.hostReadWord src a).2]) := rfl

theorem State.readWords_shows (s : State) (src : HSrc) {n a : Nat} (h : ∀ i < n, s.windowShows (a + 4 * i) = true) :
    (s.readWords src n a).1 = s ∧ ∀ i < n, (s.readWords src n a).2.getD i 0 = s.mem.readWord (a + 4 * i) := by
  induction n generalizing a with
  | zero => exact ⟨rfl, nofun⟩
  | succ n ih =>
    have hhead := s.hostReadWord_shows src (h 0 (Nat.succ_pos _))
    rw [Nat.mul_zero, Nat.add_zero] at hhead
    have hnext : ∀ i, a + 4 + 4 * i = a + 4 * (i + 1) := by omega
    obtain ⟨hstate, hwords⟩ := ih (a := a + 4) fun i hi => by
      rw [hnext]
      exact h (i + 1) (Nat.succ_lt_succ hi)
    simp only [State.readWords, hhead]
    refine ⟨hstate, fun i hi => ?_⟩
    cases i with
    | zero => rfl
    | succ i =>
      rw [← hnext]
      exact hwords i (Nat.lt_of_succ_lt_succ hi)

/-- The words a read of `cnt` words hands over: those up to the 4 KiB boundary, and zeros. -/
def State.readData (s : State) (src : HSrc) (a cnt : Nat) : List Word :=
  (s.readWords src (Nat.min cnt (room a)) a).2 ++ List.replicate (cnt - room a) (0 : Word)

/-- A read performed: the words read, in its tag. -/
theorem State.readPerform_read {s : State} {src : HSrc} {tag a cnt : Nat} {post : List HostOp}
    (hops : s.host.ops = .read src tag a cnt :: post) :
    ∃ h, s.readPerform = { ((s.withOps post).readWords src (Nat.min cnt (room a)) a).1 with host := h } ∧ h.ops = post ∧
      ∀ g, NMap.get none s.host.tags tag = some g →
        NMap.get none h.tags tag = some { g with data := some ((s.withOps post).readData src a cnt) } := by
  have hqueue := (s.withOps post).hostQueue_readWords src (Nat.min cnt (room a)) a
  obtain ⟨hrest, htags⟩ := Prod.mk.inj hqueue
  unfold State.readPerform
  rw [hops]
  refine ⟨_, rfl, hrest, fun g hg => ?_⟩
  have htag : NMap.get none ((s.withOps post).readWords src (Nat.min cnt (room a)) a).1.host.tags tag = some g := by
    rw [htags]
    exact hg
  unfold State.withOps at htag
  dsimp only
  rw [htag]
  exact NMap.get_put_same ..

theorem State.length_readData (s : State) (src : HSrc) (a cnt : Nat) : (s.readData src a cnt).length = cnt := by
  have hmin : Nat.min cnt (room a) = min cnt (room a) := rfl
  rw [State.readData, List.length_append, State.length_readWords, List.length_replicate, hmin]
  omega

/-- Beyond the 4 KiB boundary a read hands over zeros. -/
theorem State.readData_beyond (s : State) (src : HSrc) {a cnt i : Nat} (hroom : room a ≤ i) :
    (s.readData src a cnt).getD i 0 = 0 := by
  have hlen := s.length_readWords src (Nat.min cnt (room a)) a
  have hmin : Nat.min cnt (room a) = min cnt (room a) := rfl
  rw [State.readData, List.getD_append_right _ _ _ _ (by omega), List.getD_eq_getElem?_getD,
    List.getElem?_getD_replicate_default_eq]

theorem State.readData_within (s : State) (src : HSrc) {a cnt i : Nat} (hi : i < cnt) (hroom : i < room a) :
    (s.readData src a cnt).getD i 0 = (s.readWords src (Nat.min cnt (room a)) a).2.getD i 0 := by
  have hlen := s.length_readWords src (Nat.min cnt (room a)) a
  have hmin : Nat.min cnt (room a) = min cnt (room a) := rfl
  rw [State.readData, List.getD_append _ _ _ _ (by omega)]

/-- A word lies before the boundary at its address. -/
theorem room_pos {a : Nat} (hal : a % 4 = 0) : 1 ≤ room a := by
  unfold room
  omega

/-- A read of one word. -/
theorem State.readData_one (s : State) (src : HSrc) {a : Nat} (hal : a % 4 = 0) :
    s.readData src a 1 = [(s.hostReadWord src a).2] := by
  have hroom := room_pos hal
  have hone : Nat.min 1 (room a) = 1 := Nat.min_eq_left hroom
  rw [State.readData, hone, Nat.sub_eq_zero_of_le hroom, State.readWords_one]
  rfl

/-! ### One word written (R53, R77) -/

/-- A word to a page is REGISTER_WRITE of it. -/
theorem State.applyWord_page (s : State) (src : HSrc) {a p off : Nat} (v : Word) (hw : placeOf a = some (.page p off))
    (hp : s.writable p = true) : exec (.registerWrite src p off v) s = .next (s.applyWord (srcNo src) a v).tieSettle := by
  have hpage : s.applyWord (srcNo src) a v = s.hostRegWrite (srcNo src) p off v := by
    simp only [State.applyWord, hw, State.hostWr_writable _ hp]
  rw [exec_registerWrite, State.hostWr_writable _ hp, hpage]

/-- Before the first configured state a word to a window is counted (R506). -/
theorem State.applyWord_preConfig (s : State) (src : Nat) {a : Nat} (v : Word) (hsome : (placeOf a).isSome = true)
    (hpage : pageAddr a = false) (hheld : s.domHeld 0 = false) (hcfgd : s.cfgd = false) :
    s.applyWord src a v = s.bump R.RST.PREWCNT := by
  obtain ⟨w, hw⟩ := Option.isSome_iff_exists.1 hsome
  rw [s.applyWord_window src v hw hpage, hheld, hcfgd]
  rfl

section
variable (s : State) (src : Nat) {a n off : Nat} (v : Word) (hw : placeOf a = some (.dmem n off)) (hheld : s.domHeld 0 = false)
  (hcfgd : s.cfgd = true)
include hw hheld hcfgd

theorem State.applyWord_dmem : s.applyWord src a v = (s.attTouch a).dmemHost n off v := by
  have hpage : pageAddr a = false := by simp [pageAddr, hw]
  rw [s.applyWord_window src v hw hpage]
  simp [hheld, hcfgd, State.windowWrite]

/-- A word to a data memory stands there, but for the connection table (log 185). -/
theorem State.dmem_applyWord :
    (¬(n = 8 ∧ 0x1E000 ≤ off ∧ off < 0x1EA00) → (s.applyWord src a v).dmemWord n off = some v) ∧
    (n = 8 ∧ 0x1E000 ≤ off ∧ off < 0x1EA00 → (s.applyWord src a v).dmem = s.dmem) := by
  rw [s.applyWord_dmem src v hw hheld hcfgd]
  refine ⟨State.dmemWord_dmemHost _ v, fun htable => ?_⟩
  unfold State.dmemHost
  rw [if_pos htable, State.dmem_attTouch]

end

/-! ### The two commands -/

/-- HOST_WRITE_APPLY that finds no write to its block. -/
theorem State.exec_hostWriteApply_none {s : State} {block : Nat} (h : takeWrite block s.host.ops = none) :
    exec (.hostWriteApply block) s = .next s.tieSettle := by
  rw [exec_hostWriteApply, State.writeApply_of_none h]

/-- HOST_READ_PERFORM of a read of one word. -/
theorem State.readPerform_one {s : State} {src : HSrc} {a : Nat} (hal : a % 4 = 0) (post : List HostOp)
    {t : State} {w : Word} (hword : (s.withOps post).hostReadWord src a = (t, w)) :
    ((s.withOps post).readWords src (Nat.min 1 (room a)) a).1 = t ∧ (s.withOps post).readData src a 1 = [w] := by
  have hone : Nat.min 1 (room a) = 1 := Nat.min_eq_left (room_pos hal)
  rw [State.readData_one _ _ hal, hone, State.readWords_one, hword]
  exact ⟨rfl, rfl⟩

/-- What a read of words its window shows hands over. -/
theorem State.readData_shows {s : State} {src : HSrc} {a cnt : Nat} 
    (hshows : ∀ i < cnt, i < room a → s.windowShows (a + 4 * i) = true) :
    (s.readWords src (Nat.min cnt (room a)) a).1 = s ∧
      ∀ i < cnt, i < room a → (s.readData src a cnt).getD i 0 = s.mem.readWord (a + 4 * i) := by
  have hmin : Nat.min cnt (room a) = min cnt (room a) := rfl
  obtain ⟨hstate, hwords⟩ := s.readWords_shows src (n := Nat.min cnt (room a)) fun i hi => hshows i (by omega) (by omega)
  refine ⟨hstate, fun i hi hroom => ?_⟩
  rw [State.readData_within _ _ hi hroom]
  exact hwords i (by omega)

theorem keyDef_page {a p off : Nat} (hw : placeOf a = some (.page p off)) : keyDef (p * 0x1000 + off) = regDef p off := by
  obtain ⟨rfl, -⟩ := Place.at_of_placeOf hw
  have hpage : (p * 0x1000 + a % 0x1000) / 0x1000 = p := by omega
  have hoff : (p * 0x1000 + a % 0x1000) % 0x1000 = a % 0x1000 := by omega
  unfold keyDef
  rw [hpage, hoff]

/-- Settles O19: an accepted write is its words in turn, and a performed read hands over the words as they stand. -/
theorem hostOrder : Obligations.HostOrder := by
  intro s pre post src a hal
  refine ⟨fun h => s.tieSettle_unpaired h, fun ws hops hpre => ?_, fun block hpre => ⟨fun tag cnt hops => ?_, fun hops => ?_⟩,
    fun tag cnt hops => ?_, fun hops => ?_, fun ws hops => ?_⟩
  · have happly := State.writeApply_of_take (hops ▸ takeWrite_write hpre src ws post rfl)
    have hhost : ((s.withOps (pre ++ post)).applyWords (srcNo src) a ws).tieSettle.host = (s.withOps (pre ++ post)).host :=
      (State.host_of_controls (State.controls_tieSettle _)).trans (State.host_applyWords ..)
    refine ⟨_, (s.withOps (pre ++ post)).applyWords (srcNo src) a ws, (exec_hostWriteApply _ s).trans (by rw [happly]), rfl,
      by rw [hhost]; rfl, by rw [hhost]; rfl, fun hheld => State.applyWords_held (s.withOps _) _ _ _ hheld, ?_, ?_,
      fun hheld hcfgd => ⟨fun htakes => ?_, ?_, ?_⟩⟩
    · rintro p off v rfl hw hp
      exact State.applyWord_page _ src v hw hp
    · rintro v rfl hsome hpage hheld hcfgd
      exact State.applyWord_preConfig (s.withOps (pre ++ post)) (srcNo src) v hsome hpage hheld hcfgd
    · obtain ⟨hwords, hbytes, hrest⟩ := (s.withOps (pre ++ post)).wordsPut_applyWords (srcNo src) ws hal hheld hcfgd htakes
      exact ⟨hwords, hbytes, hrest⟩
    · rintro v rfl hpage hrefused c
      exact congrArg (Memory.read · c) (State.mem_applyWord_refused (s.withOps (pre ++ post)) (srcNo src) v hal hpage hrefused)
    · rintro v n off rfl hw
      exact State.dmem_applyWord (s.withOps (pre ++ post)) (srcNo src) v hw hheld hcfgd
  · exact State.exec_hostWriteApply_none (hops ▸ takeWrite_read hpre src tag a cnt post)
  · exact State.exec_hostWriteApply_none (hops ▸ takeWrite_none hpre)
  · obtain ⟨h, hperform, hrest, htag⟩ := State.readPerform_read hops
    refine ⟨_, (exec_hostReadPerform s).trans (by rw [hperform]), hrest, fun g hg => ⟨_, htag g hg, State.length_readData ..,
      fun i _ hroom => State.readData_beyond _ src hroom, fun hshows => ?_, ?_, ?_⟩⟩
    · obtain ⟨hstate, hwords⟩ := State.readData_shows (s := s.withOps post) (src := src) hshows
      exact ⟨by rw [hstate]; rfl, hwords⟩
    · rintro n off rfl hw w hword
      obtain ⟨hstate, hdata⟩ := State.readPerform_one hal post (State.hostReadWord_dmem (s.withOps post) src hw hword)
      exact ⟨hdata, by rw [hstate]; rfl⟩
    · rintro p off rfl hw
      refine ⟨fun hclosed => ?_, fun d hd hup hoff hnone => ?_⟩
      · obtain ⟨hstate, hdata⟩ := State.readPerform_one hal post (State.hostReadWord_closed (s.withOps post) src hw hclosed)
        exact ⟨hdata, by rw [hstate]; rfl⟩
      · have hread := State.blockRead_withOps_none post hnone
        have hroc := (s.withOps post).rocRead_eq_regs (p * 0x1000 + off)
        obtain ⟨hstate, hdata⟩ :=
          State.readPerform_one hal post (State.hostReadWord_plain (s.withOps post) src hw hd hup hoff hread)
        rw [hstate]
        refine ⟨hdata, fun k hk => (s.withOps post).reg_rocRead_ne (List.ne_of_not_mem_cons hk),
          fun i hi => (s.withOps post).bit_reg_rocRead ((keyDef_page hw).trans hd) hi, ?_⟩
        rw [hroc]
        rfl
  · rw [exec_hostReadPerform, State.readPerform, hops]
  · rw [exec_hostReadPerform, State.readPerform, hops]

end Sys2Proof.Machine
end

section
/-! Proofs: the registers that an operation leaves as they were (chapter 02, R57). -/

namespace Sys2Proof.Machine

namespace regsBut

theorem refl (s : State) (ks : List Nat) : regsBut s s ks := fun _ _ => rfl

theorem trans {s t u : State} {ks : List Nat} (h : regsBut s t ks) (h' : regsBut t u ks) : regsBut s u ks :=
  fun k hk => (h' k hk).trans (h k hk)

theorem mono {s t : State} {ks js : List Nat} (h : regsBut s t ks) (hsub : ∀ k ∈ ks, k ∈ js) : regsBut s t js :=
  fun k hk => h k fun hk' => hk (hsub k hk')

/-- What does not concern the register file leaves every register. -/
theorem regs {s t u : State} {ks : List Nat} (h : regsBut s t ks) (hu : u.regs = t.regs) : regsBut s u ks :=
  fun k hk => (State.reg_congr hu k).trans (h k hk)

theorem setReg {s t : State} {ks : List Nat} (h : regsBut s t ks) {k : Nat} (v : Word) (hk : k ∈ ks) :
    regsBut s (t.setReg k v) ks :=
  fun j hj => (State.reg_setReg_ne _ _ (ne_of_mem_of_not_mem hk hj).symm).trans (h j hj)

theorem setB {s t : State} {ks : List Nat} (h : regsBut s t ks) {k : Nat} (i : Nat) (b : Bool) (hk : k ∈ ks) :
    regsBut s (t.setB k i b) ks := h.setReg _ hk

theorem setF {s t : State} {ks : List Nat} (h : regsBut s t ks) {k : Nat} (lo len v : Nat) (hk : k ∈ ks) :
    regsBut s (t.setF k lo len v) ks := h.setReg _ hk

theorem irq {s t : State} {ks : List Nat} (h : regsBut s t ks) {page : Nat} (bit : Nat) (hk : R.IRQS page ∈ ks) :
    regsBut s (t.irq page bit) ks := h.setB _ _ hk

end regsBut

/-- A hardware event stands in IRQS. -/
theorem State.regB_irq_same (s : State) (page : Nat) {bit : Nat} (hb : bit < 32) :
    (s.irq page bit).regB (R.IRQS page) bit = true := State.regB_setB_same _ _ _ _ hb

end Sys2Proof.Machine
end

section
/-! Proofs: the start and the stop of the frame plan (chapter 03, R114, R610; chapter 01, R36). -/

namespace Sys2Proof.Machine

/-! ### The first multiple from an instant on -/

theorem dvd_upTo (m t : Nat) : m ∣ upTo m t := Nat.dvd_mul_left ..

theorem le_upTo {m : Nat} (t : Nat) (hm : 0 < m) : t ≤ upTo m t := by
  have hdiv := Nat.div_add_mod (t + m - 1) m
  have hmod := Nat.mod_lt (t + m - 1) hm
  unfold upTo
  rw [Nat.mul_comm]
  omega

theorem upTo_lt {m : Nat} (t : Nat) (hm : 0 < m) : upTo m t < t + m := by
  have hdiv := Nat.div_mul_le_self (t + m - 1) m
  unfold upTo
  omega

/-! ### A write of TRG.PCTL (R63) -/

theorem exec_planStartRequest (v : Word) (s : State) :
    exec (.planStartRequest v) s = .next (s.hostWr 9 fun t => t.trgPctl v) := rfl

theorem exec_planStopRequest (v : Word) (s : State) :
    exec (.planStopRequest v) s = .next (s.hostWr 9 fun t => t.trgPctl v) := rfl

theorem State.regsBut_withPctl (s : State) (page : Nat) (en stop : Bool) : regsBut s (s.withPctl page en stop) [R.PCTL page] :=
  ((regsBut.refl s _).setB _ _ (List.mem_singleton_self _)).setB _ _ (List.mem_singleton_self _)

theorem State.reg_withPctl_ne (s : State) {page k : Nat} (en stop : Bool) (hk : k ≠ R.PCTL page) :
    (s.withPctl page en stop).reg k = s.reg k := s.regsBut_withPctl page en stop k (by simpa)

/-- Without COMMIT a write of EN = 1 and SSTOP = 0 while no plan runs is a start to be judged. -/
theorem State.trgPctl_idle {s : State} {v : Word} (hrun : s.plan.run = false) (hen : v.bit 0 = true) (hcommit : v.bit 1 = false)
    (hstop : v.bit 2 = false) : s.trgPctl v = (s.withPctl 9 true false).judgeStart s.dt64 := by
  unfold State.trgPctl
  simp only [hen, hcommit, hstop]
  exact if_neg (by simp [hrun])

/-- While a plan runs a write without COMMIT asks for its stop or takes the request back; once the stop is accepted, it says
whether the plan is to start again (R610). -/
theorem State.trgPctl_running {s : State} {v : Word} (hrun : s.plan.run = true) (hcommit : v.bit 1 = false) :
    s.trgPctl v = { s.withPctl 9 (v.bit 0) (v.bit 2) with
      plan := if s.plan.stopAcc then { s.plan with restart := v.bit 0 && !v.bit 2 }
        else { s.plan with stopReq := !(v.bit 0 && !v.bit 2) } } := by
  unfold State.trgPctl
  simp only [hcommit]
  exact if_pos hrun

/-! ### The start is judged (R114) -/

/-- The frame plan of an unpaired head as its start is accepted, S(0) being timed from `x`. -/
def State.planBegun (s : State) (x : Nat) : State :=
  ({ s with plan := { s.plan with run := true, started := false, start := upTo (s.regF R.TRG.PER 0 20) (x + 256000),
                                  per := s.regF R.TRG.PER 0 20, stopReq := false, stopAcc := false, restart := false,
                                  idx0 := none, asked := some s.dt64 } }.setEns 9 true).setIdle 9 false

theorem State.judgeStart_accepted {s : State} (x : Nat) (hpaired : s.paired = false) (hloaded : s.plan.loaded = true)
    (hmin : s.regN R.TRG.PMIN ≤ s.regF R.TRG.PER 0 20) (hmax : s.regF R.TRG.PER 0 20 ≤ s.regN R.TRG.PMAX) :
    s.judgeStart x = s.planBegun x := by
  unfold State.judgeStart
  rw [if_neg (by simp [hloaded, Nat.blt_eq, hmin, hmax]), if_pos (by simp [hpaired])]
  rfl

theorem State.judgeStart_refused {s : State} (x : Nat)
    (h : s.plan.loaded = false ∨ s.regF R.TRG.PER 0 20 < s.regN R.TRG.PMIN ∨ s.regN R.TRG.PMAX < s.regF R.TRG.PER 0 20) :
    s.judgeStart x = ((s.setB (R.PCTL 9) 0 false).irq 9 2).fault Src.PLAN_RANGE 9 := by
  unfold State.judgeStart
  exact if_pos (by simpa [Nat.blt_eq, or_assoc] using h)


theorem State.planBegun_status (s : State) (x : Nat) :
    (s.planBegun x).ens 9 = true ∧ (s.planBegun x).regB (R.PSTA 9) 2 = false ∧ regsBut s (s.planBegun x) [R.PSTA 9] :=
  State.psta_set { s with plan := _ } 9 true false

/-- Settles O6: a start within the range begins the plan, any other is refused. -/
theorem planStartJudged : Obligations.PlanStartJudged := by
  intro s v hw hrun hpaired hen hcommit hstop hper
  obtain ⟨s1, hs1⟩ : ∃ s1, s1 = s.withPctl 9 true false := ⟨_, rfl⟩
  have hexec : exec (.planStartRequest v) s = .next (s1.judgeStart s.dt64) := by
    rw [exec_planStartRequest, State.hostWr_writable _ hw, State.trgPctl_idle hrun hen hcommit hstop, hs1]
  have hsame : ∀ k, k ≠ R.PCTL 9 → s1.reg k = s.reg k := fun k hk => hs1 ▸ s.reg_withPctl_ne _ _ hk
  have hpctl : regsBut s s1 [R.PCTL 9] := hs1 ▸ s.regsBut_withPctl 9 true false
  have hregF : s1.regF R.TRG.PER 0 20 = s.regF R.TRG.PER 0 20 := congrArg (fun w => Word.fld w 0 20) (hsame _ (by decide))
  have hpmin : s1.regN R.TRG.PMIN = s.regN R.TRG.PMIN := congrArg BitVec.toNat (hsame _ (by decide))
  have hpmax : s1.regN R.TRG.PMAX = s.regN R.TRG.PMAX := congrArg BitVec.toNat (hsame _ (by decide))
  refine ⟨fun hloaded hmin hmax => ?_, fun hrange => ?_⟩
  · obtain ⟨hens, hidle, hbut⟩ := s1.planBegun_status s.dt64
    have hpaired' : s1.paired = false := (State.paired_congr (hsame _ (by decide))).trans hpaired
    refine ⟨s1.planBegun s.dt64, ?_, rfl, rfl, hregF, ?_, ?_, ?_, ?_, hens, hidle, ?_, ?_⟩
    · rw [hexec, State.judgeStart_accepted _ hpaired' (by rwa [hs1]) (by rwa [hregF, hpmin]) (by rwa [hregF, hpmax])]
    · exact hregF ▸ dvd_upTo _ _
    · exact le_upTo _ (hregF ▸ hper)
    · exact hregF ▸ upTo_lt _ (hregF.symm ▸ hper)
    · have hen9 : (s1.planBegun s.dt64).reg (R.PCTL 9) = s1.reg (R.PCTL 9) := hbut _ (by decide)
      unfold State.enabled State.regB
      rw [hen9, hs1]
      exact s.enabled_withPctl 9 true false
    · exact (hpctl.mono (by simp)).trans (hbut.mono (by simp))
    · rw [hs1]
      rfl
  · have hrefused : s1.judgeStart s.dt64 = ((s1.setB (R.PCTL 9) 0 false).irq 9 2).fault Src.PLAN_RANGE 9 :=
      State.judgeStart_refused _ (by rw [hregF, hpmin, hpmax, hs1]; exact hrange)
    refine ⟨_, hexec.trans (congrArg _ hrefused), ?_, State.regB_irq_same _ _ (by decide), ?_, ?_, ?_⟩
    · unfold State.enabled State.regB
      rw [State.reg_fault, State.reg_irq_ne _ (by decide)]
      exact State.regB_setB_same _ _ _ _ (by decide)
    · rw [hs1]
      exact State.raised_fault ..
    · exact (((hpctl.mono (by simp)).setB 0 false (by simp)).irq 2 (by simp)).regs rfl
    · rw [hs1]
      rfl

/-- Settles O7: while a plan runs the write says whether the stop stands, and EN and SSTOP read as written. -/
theorem planStopRequested : Obligations.PlanStopRequested := by
  intro s v hw hrun hcommit
  have hbut : regsBut s (s.trgPctl v) [R.PCTL 9] := by
    rw [State.trgPctl_running hrun hcommit]
    exact (s.regsBut_withPctl 9 (v.bit 0) (v.bit 2)).regs rfl
  have hframe : s.trgPctl v = { s with regs := (s.trgPctl v).regs, plan := (s.trgPctl v).plan } := by
    rw [State.trgPctl_running hrun hcommit]
    rfl
  refine ⟨fun hask => ⟨s.trgPctl v, ?_, ?_, ?_, ?_, hbut, hframe⟩, fun hen hstop => ⟨s.trgPctl v, ?_, ?_, hbut, hframe⟩⟩
  · rw [exec_planStopRequest, State.hostWr_writable _ hw]
  · have hwant : (v.bit 0 && !v.bit 2) = false := by rcases hask with h | h <;> simp [h]
    rw [State.trgPctl_running hrun hcommit, hwant]
    rfl
  · rw [State.trgPctl_running hrun hcommit]
    exact s.enabled_withPctl 9 (v.bit 0) (v.bit 2)
  · rw [State.trgPctl_running hrun hcommit]
    exact s.sstop_withPctl 9 (v.bit 0) (v.bit 2)
  · rw [exec_planStartRequest, State.hostWr_writable _ hw]
  · rw [State.trgPctl_running hrun hcommit, hen, hstop]
    rfl

/-! ### S(0) is reached (R99, R114) -/

/-- A frame plan waits for S(0) while Datum, which lost and found the lock of PLL-T meanwhile, has yet to return time-valid at
the first period boundary (R99). -/
def relockedBeforeStart : State :=
  { State.reset with plan := { loaded := true, run := true, start := 320000, per := 160000 } }.datumHoldover.datumRelock

/-- Refutes O8: the registers it lets change are those of TRG and the rings, and DTSTA is not among them. Where time-valid is due
to return, as its words allow for, PLAN_START sets DTSTA bit 3. -/
theorem not_planStarts : ¬ Obligations.PlanStarts := by
  intro h
  obtain ⟨t, ht, -, -, -, -, -, -, -, -, hbut, -⟩ := h relockedBeforeStart (by decide) (by decide) (by decide)
  obtain rfl : relockedBeforeStart.planStart = t := by injection ht
  have hshown : relockedBeforeStart.planStart.regB R.DTM.DTSTA 3 ≠ relockedBeforeStart.regB R.DTM.DTSTA 3 := by decide +kernel
  exact hshown (congrArg (fun w => Word.bit w 3) (hbut R.DTM.DTSTA (by decide)))

end Sys2Proof.Machine
end

section
/-! Proofs: Datum's state, its servo and its steps of ring time (chapter 03, R91 to R98). -/

namespace Sys2Proof.Machine

/-! ### Folds and raises -/

theorem regsBut.foldl {α : Type} {ks : List Nat} {f : State → α → State} {l : List α}
    (hf : ∀ (t : State), ∀ x ∈ l, regsBut t (f t x) ks) (s : State) : regsBut s (l.foldl f s) ks := by
  induction l generalizing s with
  | nil => exact regsBut.refl s ks
  | cons x l ih =>
    exact (hf s x (List.mem_cons_self ..)).trans (ih (fun t y hy => hf t y (List.mem_cons_of_mem _ hy)) (f s x))

/-- A block raises a fault after steps that raise none. -/
theorem State.raised_fault_of {s t : State} (h : t.scribe.inflight = s.scribe.inflight) (src page a m acc d : Nat) :
    s.raised (t.fault src page a m acc d) src page :=
  ⟨_, congrArg (· ++ _) h, rfl, rfl⟩

/-- A raise is read from Scribe alone. -/
theorem State.raised_congr {s t s' t' : State} {src page : Nat} (h : s.raised t src page) (hs : s'.scribe = s.scribe)
    (ht : t'.scribe = t.scribe) : s'.raised t' src page := by
  unfold State.raised
  rw [hs, ht]
  exact h

/-! ### Datum's state (R92) -/

theorem State.datumState_frame (s : State) (st : Nat) : ∃ r, s.datumState st = { s with regs := r } := by
  unfold State.datumState
  split
  · exact ⟨s.regs, rfl⟩
  · exact ⟨_, rfl⟩

theorem State.regsBut_datumState (s : State) (st : Nat) : regsBut s (s.datumState st) [R.DTM.DTSTA, R.IRQS dtmPage] := by
  unfold State.datumState
  split
  · exact regsBut.refl s _
  · exact ((regsBut.refl s _).setF _ _ _ (by simp)).irq _ (by simp)

theorem State.dstate_congr {s t : State} (h : t.reg R.DTM.DTSTA = s.reg R.DTM.DTSTA) : t.dstate = s.dstate :=
  congrArg (fun w => Word.fld w 0 3) h

@[simp] theorem State.dstate_irq (s : State) (page bit : Nat) : (s.irq page bit).dstate = s.dstate :=
  State.dstate_congr (State.reg_irq_ne _ (by simp only [R.DTM.DTSTA, R.IRQS]; omega))

@[simp] theorem State.dstate_fault (s : State) (src page a m acc d : Nat) : (s.fault src page a m acc d).dstate = s.dstate := rfl

@[simp] theorem State.regB_fault (s : State) (src page a m acc d k i : Nat) :
    (s.fault src page a m acc d).regB k i = s.regB k i := rfl

theorem State.dstate_datumState (s : State) {st : Nat} (h : st < 8) : (s.datumState st).dstate = st := by
  unfold State.datumState
  split
  · assumption
  · rw [State.dstate_irq]
    exact (State.regF_setF_same _ _ _ _ _ (by decide)).trans (Nat.mod_eq_of_lt h)

/-- The bits of DTSTA beside the state are as they were. -/
theorem State.regB_datumState (s : State) (st : Nat) {i : Nat} (hi : 3 ≤ i) :
    (s.datumState st).regB R.DTM.DTSTA i = s.regB R.DTM.DTSTA i := by
  unfold State.datumState
  split
  · rfl
  · unfold State.regB
    rw [State.reg_irq_ne _ (by decide), State.reg_setF_same, Word.bit_setFld _ _ _ _ _ (by decide), if_neg (by omega)]

/-! ### A foreign offset (R95, R97) -/

theorem State.regsBut_setForeign (s : State) (f : Option Int) : regsBut s (s.setForeign f) [R.DTM.DTSTA, R.DTM.FOREIGN] :=
  (((regsBut.refl s _).regs rfl).setB _ _ (by simp)).setReg _ (by simp)

theorem State.reg_foreign_setForeign (s : State) (f : Option Int) :
    (s.setForeign f).reg R.DTM.FOREIGN = wdInt (satSym (f.getD 0)) := State.reg_setReg_same ..

theorem State.fheld_setForeign (s : State) (f : Option Int) : (s.setForeign f).regB R.DTM.DTSTA 5 = f.isSome := by
  unfold State.setForeign State.regB
  rw [State.reg_setReg_ne _ _ (by decide)]
  exact State.regB_setB_same _ _ _ _ (by decide)

theorem State.dstate_setForeign (s : State) (f : Option Int) : (s.setForeign f).dstate = s.dstate := by
  unfold State.setForeign State.dstate State.regF
  rw [State.reg_setReg_ne _ _ (by decide), State.reg_setB_same, Word.fld_setBit_ne _ _ (by decide) (by decide)]
  rfl

/-- A number saturated to ±(2^31 − 1) reads back from a register. -/
theorem toInt_wdInt_satSym (z : Int) : (wdInt (satSym z)).toInt = satSym z := by
  have hrange : -2147483647 ≤ satSym z ∧ satSym z ≤ 2147483647 := by
    unfold satSym clampInt
    split
    · decide
    · split
      · decide
      · omega
  unfold wdInt
  rw [BitVec.toInt_ofInt]
  exact Int.bmod_eq_of_le (by omega) (by omega)

/-! ### GM_LOST and FCLR (R92, R94, R97) -/

theorem exec_gmLost (s : State) : exec .gmLost s = .next s.gmLost := rfl

theorem exec_fclr (s : State) : exec .fclr s = .next (s.hostWr dtmPage fun t => t.foreignClear) := rfl

/-- Datum on its own frequency FAVG, as FADJ shows it, GMTO after the last measurement. -/
def State.onFavg (s : State) : State :=
  { s.reach (s.datum.lastMeas + s.regF R.DTM.DTCTL 16 16 * 16000000) with
    datum := { s.datum with fadj := s.datum.favg, good := 0 } }.setReg R.DTM.FADJ (wdInt (freeRound s.datum.favg 256))

theorem State.gmLost_measuring {s : State} (h : s.dstate = 1 ∨ s.dstate = 2) :
    s.gmLost = ((s.onFavg.datumState 3).irq dtmPage 3).fault Src.GM_LOST dtmPage := by
  unfold State.gmLost
  rw [if_pos (by simpa using h)]
  simp only [State.reach_datum]
  rfl

theorem State.gmLost_idle {s : State} (h1 : s.dstate ≠ 1) (h2 : s.dstate ≠ 2) : s.gmLost = s := by
  unfold State.gmLost
  exact if_neg (by simp [h1, h2])

/-- Settles O22: GM_LOST is the entry into COAST on FAVG, FCLR the end of a held offset where no plan runs. -/
theorem datumCoastAndClear : Obligations.DatumCoastAndClear := by
  intro s
  refine ⟨fun hst => ⟨s.gmLost, rfl, ?_⟩, fun h1 h2 => ?_, fun hw hrun => ?_, fun hw hrun => ?_⟩
  · obtain ⟨r, hr⟩ := s.onFavg.datumState_frame 3
    have hlost := State.gmLost_measuring hst
    have hbut : regsBut s s.gmLost [R.DTM.FADJ, R.DTM.DTSTA, R.IRQS dtmPage] := by
      have hfavg : regsBut s s.onFavg [R.DTM.FADJ, R.DTM.DTSTA, R.IRQS dtmPage] :=
        ((regsBut.refl s _).regs (State.reach_regs ..)).setReg _ (by simp)
      rw [hlost]
      exact ((hfavg.trans ((s.onFavg.regsBut_datumState 3).mono (by simp))).irq _ (by simp)).regs rfl
    have hframe : s.gmLost = { s with
        dt64 := s.gmLost.dt64, regs := s.gmLost.regs, scribe := s.gmLost.scribe, datum := s.gmLost.datum } := by
      rw [hlost, hr]
      unfold State.onFavg
      rw [State.reach_eq]
      rfl
    refine ⟨?_, ?_, ?_, ?_, hbut, hframe⟩
    · rw [hlost, State.dstate_fault, State.dstate_irq, State.dstate_datumState _ (by decide)]
    · rw [hlost, hr]
      rfl
    · rw [hlost, State.regB_fault, State.regB_irq_same _ _ (by decide)]
    · have hscribe : ((s.onFavg.datumState 3).irq dtmPage 3).scribe = s.scribe := by
        rw [State.irq_scribe, hr]
        exact State.reach_scribe ..
      rw [hlost]
      exact State.raised_fault_of (congrArg Scribe.inflight hscribe) _ _ _ _ _ _
  · rw [exec_gmLost, State.gmLost_idle h1 h2]
  · rw [exec_fclr, State.hostWr_writable _ hw, State.foreignClear, if_pos hrun]
  · have hclear : s.foreignClear = { s with datum := { s.datum with autostep := false } }.setForeign none :=
      if_neg (by simp [hrun])
    refine ⟨s.foreignClear, ?_, ?_⟩
    · rw [exec_fclr, State.hostWr_writable _ hw]
    · rw [hclear]
      exact ⟨rfl, State.fheld_setForeign .., State.reg_foreign_setForeign ..,
        ((regsBut.refl s _).regs rfl).trans (State.regsBut_setForeign { s with datum := _ } none), rfl⟩

end Sys2Proof.Machine
end

section
/-! Proofs: a measurement of Datum is slewed, stepped or held (chapter 03, R91 to R98, R105). -/

namespace Sys2Proof.Machine

/-! ### The verdict on Datum's state (R92) -/

/-- The state of R92 after an accepted measurement with error `x`. -/
def State.verdict (s : State) (x : Int) : Nat :=
  if s.dstate = 2 then (if s.regN (srvb 1) ≤ x.natAbs then 1 else 2)
  else if s.dstate = 1 ∧ x.natAbs < s.regN (srvb 0) ∧ 7 ≤ s.datum.good then 2 else 1

/-- A measurement is counted. -/
def State.noted (s : State) (x : Int) : State :=
  { s with datum := { s.datum with good := if x.natAbs < s.regN (srvb 0) then s.datum.good + 1 else 0, lastMeas := s.dt64 } }

theorem State.verdict_lt (s : State) (x : Int) : s.verdict x < 8 := by
  unfold State.verdict
  split
  · split <;> decide
  · split <;> decide

theorem State.datumState_same {s : State} {st : Nat} (h : s.dstate = st) : s.datumState st = s := if_pos h

theorem State.datumJudge_eq (s : State) (x : Int) : s.datumJudge x = (s.noted x).datumState (s.verdict x) := by
  unfold State.datumJudge State.verdict
  by_cases h2 : s.dstate = 2
  · rw [if_pos h2, if_pos h2]
    by_cases hfar : s.regN (srvb 1) ≤ x.natAbs
    · rw [if_pos hfar, if_pos hfar]
      rfl
    · rw [if_neg hfar, if_neg hfar]
      exact (State.datumState_same (s := s.noted x) h2).symm
  · have heighth : (s.dstate = 1 && Nat.ble 8 (if x.natAbs < s.regN (srvb 0) then s.datum.good + 1 else 0)) =
        decide (s.dstate = 1 ∧ x.natAbs < s.regN (srvb 0) ∧ 7 ≤ s.datum.good) := by
      rw [Bool.eq_iff_iff]
      by_cases hnear : x.natAbs < s.regN (srvb 0) <;> simp [hnear, Nat.ble_eq]
    rw [if_neg h2, if_neg h2, heighth]
    by_cases hgood : s.dstate = 1 ∧ x.natAbs < s.regN (srvb 0) ∧ 7 ≤ s.datum.good
    · rw [if_pos hgood, if_pos (decide_eq_true hgood)]
      rfl
    · rw [if_neg hgood, if_neg (by rw [decide_eq_true_eq]; exact hgood)]
      rfl

theorem State.dstate_datumJudge (s : State) (x : Int) : (s.datumJudge x).dstate = s.verdict x := by
  rw [State.datumJudge_eq, State.dstate_datumState _ (s.verdict_lt x)]

theorem State.datumJudge_frame (s : State) (x : Int) :
    ∃ r g m, s.datumJudge x = { s with regs := r, datum := { s.datum with good := g, lastMeas := m } } := by
  obtain ⟨r, hr⟩ := (s.noted x).datumState_frame (s.verdict x)
  exact ⟨r, _, _, by rw [State.datumJudge_eq, hr]; rfl⟩

theorem State.regsBut_datumJudge (s : State) (x : Int) : regsBut s (s.datumJudge x) [R.DTM.DTSTA, R.IRQS dtmPage] := by
  rw [State.datumJudge_eq]
  exact ((regsBut.refl s _).regs rfl).trans ((s.noted x).regsBut_datumState _)

theorem State.regB_datumJudge (s : State) (x : Int) {i : Nat} (hi : 3 ≤ i) :
    (s.datumJudge x).regB R.DTM.DTSTA i = s.regB R.DTM.DTSTA i := by
  rw [State.datumJudge_eq]
  exact (s.noted x).regB_datumState _ hi

/-- The verdict reads the state, the bands SRVB0 and SRVB1, and the count of good measurements. -/
theorem State.verdict_congr {s t : State} {x : Int} (hst : t.dstate = s.dstate) (h0 : t.reg (srvb 0) = s.reg (srvb 0))
    (h1 : t.reg (srvb 1) = s.reg (srvb 1)) (hgood : t.datum.good = s.datum.good) : t.verdict x = s.verdict x := by
  unfold State.verdict State.regN
  rw [hst, h0, h1, hgood]

/-! ### FAVG (R94) and the servo (R93) -/

theorem State.datumAvg_frame (s : State) : ∃ r a, s.datumAvg = { s with regs := r, datum := { s.datum with favg := a } } := by
  unfold State.datumAvg
  split
  · exact ⟨s.regs, s.datum.favg, rfl⟩
  · exact ⟨_, _, rfl⟩

theorem State.regsBut_datumAvg (s : State) : regsBut s s.datumAvg [R.DTM.FAVG] := by
  unfold State.datumAvg
  split
  · exact regsBut.refl s _
  · exact ((regsBut.refl s _).regs rfl).setReg _ (by simp)

/-- What holds of a state and after a step holds after the step taken on a condition. -/
theorem State.when_induct {P : State → Prop} {s : State} {f : State → State} (c : Bool) (hs : P s) (hf : P (f s)) :
    P (s.when c f) := by
  unfold State.when
  split
  · exact hf
  · exact hs

theorem regsBut.when {s t : State} {ks : List Nat} (h : regsBut s t ks) (c : Bool) {f : State → State}
    (hf : regsBut t (f t) ks) : regsBut s (t.when c f) ks :=
  State.when_induct (P := fun u => regsBut s u ks) c h (h.trans hf)

theorem clampInt_natAbs_le {m : Int} (z : Int) (hm : 0 ≤ m) : (clampInt (-m) m z).natAbs ≤ m.natAbs := by
  unfold clampInt
  split
  · omega
  · split <;> omega

theorem State.servo_frame (s : State) (e : Int) (slew : Bool) : ∃ r c i f l, s.servo e slew =
    { s with regs := r, scribe := c, datum := { s.datum with fint := i, fadj := f, hist := l } } ∧
    (f - s.datum.fadj).natAbs ≤ ppm2.natAbs := by
  have hclamp : ∀ z, (s.datum.fadj + clampInt (-ppm2) ppm2 z - s.datum.fadj).natAbs ≤ ppm2.natAbs := by
    intro z
    rw [add_sub_cancel_left]
    exact clampInt_natAbs_le z (by decide)
  unfold State.servo
  extract_lets d k f0 fint t0 sl t1 t2 fadj hist s1
  exact State.when_induct (P := fun t => ∃ r c i f l, t =
    { s with regs := r, scribe := c, datum := { s.datum with fint := i, fadj := f, hist := l } } ∧
      (f - s.datum.fadj).natAbs ≤ ppm2.natAbs) _ ⟨_, _, _, _, _, rfl, hclamp _⟩ ⟨_, _, _, _, _, rfl, hclamp _⟩

theorem State.regsBut_servo (s : State) (e : Int) (slew : Bool) :
    regsBut s (s.servo e slew) [R.DTM.FADJ, R.IRQS dtmPage] := by
  unfold State.servo
  extract_lets d k f0 fint t0 sl t1 t2 fadj hist s1
  have hshown : regsBut s s1 [R.DTM.FADJ, R.IRQS dtmPage] := ((regsBut.refl s _).regs rfl).setReg _ (by simp)
  exact hshown.when _ (((regsBut.refl s1 _).irq 4 (by simp)).regs rfl)

/-! ### A step of ring time (R96, R98) -/

/-- The registers of the programmable channels. -/
def channelKeys : List Nat := R.IRQS 9 :: (List.range 11).map R.TRG.TSCFG

theorem State.tsFire_frame (s : State) (i at_ : Nat) : ∃ r p, s.tsFire i at_ = { s with regs := r, plan := p } :=
  State.when_induct (P := fun t => ∃ r p, t.irq 9 (5 + i) = { s with regs := r, plan := p }) _ ⟨_, _, rfl⟩ ⟨_, _, rfl⟩

theorem State.regsBut_tsFire (s : State) (i at_ : Nat) : regsBut s (s.tsFire i at_) [R.IRQS 9, R.TRG.TSCFG i] := by
  unfold State.tsFire
  extract_lets _ s1
  have hnoted : regsBut s s1 [R.IRQS 9, R.TRG.TSCFG i] := (regsBut.refl s _).regs rfl
  exact (hnoted.when _ ((regsBut.refl s1 _).setB 0 false (by simp))).irq _ (by simp)

/-- What each step of a fold changes at most, the fold changes at most. -/
theorem State.foldl_induct {α : Type} {P : State → Prop} {f : State → α → State} (hf : ∀ t x, P t → P (f t x)) (l : List α)
    {s : State} (hs : P s) : P (l.foldl f s) := by
  induction l generalizing s with
  | nil => exact hs
  | cons x l ih => exact ih (hf s x hs)

theorem State.dueAfterStep_frame (s : State) : ∃ r p, s.dueAfterStep = { s with regs := r, plan := p } := by
  refine State.foldl_induct (P := fun t => ∃ r p, t = { s with regs := r, plan := p }) (fun t i ht => ?_) _
    ⟨s.regs, s.plan, rfl⟩
  refine State.when_induct (P := fun t => ∃ r p, t = { s with regs := r, plan := p }) _ ht ?_
  obtain ⟨r, p, rfl⟩ := ht
  obtain ⟨r', p', h⟩ := State.tsFire_frame { s with regs := r, plan := p } i s.dt64
  exact ⟨r', p', h⟩

theorem State.regsBut_dueAfterStep (s : State) : regsBut s s.dueAfterStep channelKeys := by
  refine regsBut.foldl (fun t i hi => (regsBut.refl t _).when _ ((t.regsBut_tsFire i t.dt64).mono ?_)) s
  simp only [List.mem_cons, List.not_mem_nil, or_false, channelKeys]
  rintro k (rfl | rfl)
  · exact .inl rfl
  · exact .inr (List.mem_map_of_mem hi)

theorem State.restartAfter_frame (s : State) (cycle : Nat) : ∃ p, s.restartAfter cycle = { s with plan := p } := by
  unfold State.restartAfter
  split
  · exact ⟨_, rfl⟩
  · exact ⟨s.plan, rfl⟩

/-- Ring time as it stands after a step, and what counts in it; nothing shows the step yet. -/
def State.timeMoved (s : State) (e : Int) : State :=
  { s.shiftTimes e with
    dt64 := bitsOfInt 64 ((s.dt64 : Int) - e), datum := { s.datum with fint := 0 },
    meas := { s.meas with ofs := bitsOfInt 64 ((s.meas.ofs : Int) + e) } }

/-- A step as it is shown and raised, before the channels and the queues that it made due. -/
def State.stepShown (s : State) (e : Int) : State :=
  (((s.timeMoved e).restartAfter s.dt64).irq dtmPage 1).fault Src.TIME_STEP dtmPage

theorem State.stepTime_eq (s : State) (e : Int) : s.stepTime e = (s.stepShown e).dueAfterStep.fqAfterStep := rfl

theorem State.stepTime_frame (s : State) (e : Int) : ∃ r p q, s.stepTime e = { s.stepShown e with regs := r, plan := p, fq := q } := by
  obtain ⟨r, p, h⟩ := (s.stepShown e).dueAfterStep_frame
  exact ⟨r, p, _, (congrArg State.fqAfterStep h).trans rfl⟩

theorem State.stepShown_frame (s : State) (e : Int) :
    ∃ r p c, s.stepShown e = { s.timeMoved e with regs := r, plan := p, scribe := c } := by
  obtain ⟨p, h⟩ := (s.timeMoved e).restartAfter_frame s.dt64
  exact ⟨_, p, _, (congrArg (fun t : State => (t.irq dtmPage 1).fault Src.TIME_STEP dtmPage) h).trans rfl⟩

theorem State.dt64_stepTime (s : State) (e : Int) : (s.stepTime e).dt64 = bitsOfInt 64 ((s.dt64 : Int) - e) := by
  obtain ⟨_, _, _, h⟩ := s.stepTime_frame e
  obtain ⟨_, _, _, h'⟩ := s.stepShown_frame e
  rw [h, h']
  rfl

theorem State.datum_stepTime (s : State) (e : Int) : (s.stepTime e).datum = { s.datum with fint := 0 } := by
  obtain ⟨_, _, _, h⟩ := s.stepTime_frame e
  obtain ⟨_, _, _, h'⟩ := s.stepShown_frame e
  rw [h, h']
  rfl

theorem State.eth_stepTime (s : State) (e : Int) : (s.stepTime e).eth = (s.shiftTimes e).eth := by
  obtain ⟨_, _, _, h⟩ := s.stepTime_frame e
  obtain ⟨_, _, _, h'⟩ := s.stepShown_frame e
  rw [h, h']
  rfl

theorem State.raised_stepTime (s : State) (e : Int) : s.raised (s.stepTime e) Src.TIME_STEP dtmPage := by
  obtain ⟨p, hp⟩ := (s.timeMoved e).restartAfter_frame s.dt64
  have hmoved : (((s.timeMoved e).restartAfter s.dt64).irq dtmPage 1).scribe.inflight = s.scribe.inflight := by
    rw [State.irq_scribe, hp]
    rfl
  obtain ⟨_, _, _, h⟩ := s.stepTime_frame e
  rw [h]
  exact State.raised_congr (State.raised_fault_of hmoved Src.TIME_STEP dtmPage 0 0 0 0) rfl rfl

theorem State.regsBut_stepTime (s : State) (e : Int) : regsBut s (s.stepTime e) (R.IRQS dtmPage :: channelKeys) := by
  obtain ⟨p, hp⟩ := (s.timeMoved e).restartAfter_frame s.dt64
  have hstart : regsBut s ((s.timeMoved e).restartAfter s.dt64) (R.IRQS dtmPage :: channelKeys) := by
    rw [hp]
    exact (regsBut.refl s _).regs rfl
  have hshown : regsBut s (s.stepShown e) (R.IRQS dtmPage :: channelKeys) := (hstart.irq 1 (by simp)).regs rfl
  rw [State.stepTime_eq]
  exact (hshown.trans ((s.stepShown e).regsBut_dueAfterStep.mono fun k hk => List.mem_cons_of_mem _ hk)).regs rfl

/-! ### One measurement (R95) -/

/-- OFFS reads a measurement's error. -/
def State.withOffs (s : State) (e : Int) : State := s.setReg R.DTM.OFFS (wdInt (satSym e))

/-- A measurement beyond STEPLIM while a plan runs is held as a foreign offset. -/
def State.heldAs (s : State) (e : Int) : State :=
  ((s.setForeign (some e)).irq dtmPage 2).fault Src.TIME_FOREIGN dtmPage

/-- While no foreign offset is held and no automatic step is due, the first rule of R95 that fits applies. -/
theorem State.measure_unheld {s : State} (hst : s.dstate ≠ 4) (hforeign : s.datum.foreign = none) (hauto : s.datum.autostep = false)
    (e : Int) : s.measure e =
      if e.natAbs ≤ s.regN R.DTM.STEPLIM then (((s.withOffs e).servo e true).datumJudge e).datumAvg
      else if s.plan.run && !(!s.plan.started && s.plan.asked == some s.dt64) then ((s.withOffs e).heldAs e).datumJudge e
      else ((s.withOffs e).stepTime e).datumJudge e := by
  unfold State.measure
  rw [if_neg hst]
  extract_lets s0 _ s1 lim hold
  have hs1 : s1 = s.withOffs e := if_neg (by simp [s0, hauto])
  have hlim : lim = s.regN R.DTM.STEPLIM := by
    unfold lim
    rw [hs1]
    exact congrArg BitVec.toNat (State.reg_setReg_ne _ _ (by decide))
  have hnone : s1.datum.foreign = none := by
    rw [hs1]
    exact hforeign
  rw [hnone, hs1, hlim]
  rfl

/-- `u` awaits the verdict on an error `e` measured in `s`. -/
structure Weighed (s u : State) (e : Int) : Prop where
  offs : u.regI R.DTM.OFFS = satSym e
  verdict : u.verdict e = s.verdict e

theorem Weighed.of_regsBut {s u : State} {e : Int} {ks : List Nat} (h : regsBut (s.withOffs e) u ks)
    (hks : R.DTM.OFFS ∉ ks ∧ srvb 0 ∉ ks ∧ srvb 1 ∉ ks) (hst : u.dstate = (s.withOffs e).dstate)
    (hgood : u.datum.good = s.datum.good) : Weighed s u e := by
  obtain ⟨hoffs, h0, h1⟩ := hks
  have hother : ∀ k, k ≠ R.DTM.OFFS → (s.withOffs e).reg k = s.reg k := fun k hk => State.reg_setReg_ne _ _ hk
  constructor
  · unfold State.regI
    rw [h _ hoffs, State.withOffs, State.reg_setReg_same, toInt_wdInt_satSym]
  · exact State.verdict_congr (hst.trans (State.dstate_congr (hother _ (by decide)))) ((h _ h0).trans (hother _ (by decide)))
      ((h _ h1).trans (hother _ (by decide))) hgood

/-- The verdict is given. -/
theorem Weighed.judged {s u : State} {e : Int} (h : Weighed s u e) :
    (u.datumJudge e).regI R.DTM.OFFS = satSym e ∧ (u.datumJudge e).dstate = s.verdict e :=
  ⟨(congrArg BitVec.toInt (u.regsBut_datumJudge e _ (by decide))).trans h.offs, (u.dstate_datumJudge e).trans h.verdict⟩

theorem State.weighed_servo (s : State) (e : Int) : Weighed s ((s.withOffs e).servo e true) e := by
  have hbut := (s.withOffs e).regsBut_servo e true
  obtain ⟨_, _, _, _, _, h, -⟩ := (s.withOffs e).servo_frame e true
  refine Weighed.of_regsBut hbut (by decide) (State.dstate_congr (hbut _ (by decide))) ?_
  rw [h]
  rfl

theorem State.weighed_step (s : State) (e : Int) : Weighed s ((s.withOffs e).stepTime e) e := by
  have hbut := (s.withOffs e).regsBut_stepTime e
  refine Weighed.of_regsBut hbut (by decide) (State.dstate_congr (hbut _ (by decide))) ?_
  rw [State.datum_stepTime]
  rfl

theorem State.regsBut_heldAs (s : State) (e : Int) : regsBut s (s.heldAs e) [R.DTM.DTSTA, R.DTM.FOREIGN, R.IRQS dtmPage] :=
  (((s.regsBut_setForeign (some e)).mono (by simp)).irq 2 (by simp)).regs rfl

theorem State.weighed_hold (s : State) (e : Int) : Weighed s ((s.withOffs e).heldAs e) e := by
  refine Weighed.of_regsBut ((s.withOffs e).regsBut_heldAs e) (by decide) ?_ rfl
  rw [State.heldAs, State.dstate_fault, State.dstate_irq, State.dstate_setForeign]

theorem exec_ppsEdge (stamp : Nat) (s : State) : exec (.ppsEdge stamp) s = .next (s.ppsEdge stamp) := rfl

/-- The error of an edge of PPS_IN: its stamp less PPSCORR against the nearest whole second (R105). -/
def State.ppsError (s : State) (stamp : Nat) : Int :=
  ((stamp : Int) - s.regI R.DTM.PPSCORR + 8000000000) % 16000000000 - 8000000000

theorem State.ppsEdge_source {s : State} {stamp : Nat} (h : s.sourceIs 3 = true) :
    s.ppsEdge stamp = (s.reach stamp).measure (s.ppsError stamp) := by
  unfold State.ppsEdge
  rw [if_neg (by simp [h])]
  rfl

section
variable {s : State} (hst : s.dstate ≠ 4) (hforeign : s.datum.foreign = none) (hauto : s.datum.autostep = false)
include hst hforeign hauto

/-- Slewed, stepped or held, a measurement stands in OFFS and moves Datum's state alike. -/
theorem State.measure_verdict (e : Int) : (s.measure e).regI R.DTM.OFFS = satSym e ∧ (s.measure e).dstate = s.verdict e := by
  rw [State.measure_unheld hst hforeign hauto]
  split
  · obtain ⟨hoffs, hverdict⟩ := (s.weighed_servo e).judged
    have havg := State.regsBut_datumAvg (((s.withOffs e).servo e true).datumJudge e)
    exact ⟨(congrArg BitVec.toInt (havg _ (by decide))).trans hoffs, (State.dstate_congr (havg _ (by decide))).trans hverdict⟩
  · split
    · exact (s.weighed_hold e).judged
    · exact (s.weighed_step e).judged

/-- A measurement within STEPLIM: the servo works. -/
theorem State.measure_slews {e : Int} (hlim : e.natAbs ≤ s.regN R.DTM.STEPLIM) :
    (s.measure e).dt64 = s.dt64 ∧ (s.measure e).datum.foreign = none ∧
      ((s.measure e).datum.fadj - s.datum.fadj).natAbs ≤ ppm2.natAbs := by
  rw [State.measure_unheld hst hforeign hauto, if_pos hlim]
  obtain ⟨_, _, h⟩ := State.datumAvg_frame (((s.withOffs e).servo e true).datumJudge e)
  obtain ⟨_, _, _, h'⟩ := ((s.withOffs e).servo e true).datumJudge_frame e
  obtain ⟨_, _, _, _, _, h'', hfadj⟩ := (s.withOffs e).servo_frame e true
  rw [h, h', h'']
  exact ⟨rfl, hforeign, hfadj⟩

/-- A measurement beyond STEPLIM where no plan runs that a step would move. -/
theorem State.measure_steps {e : Int} (hlim : s.regN R.DTM.STEPLIM < e.natAbs)
    (hplan : s.plan.run = false ∨ (s.plan.started = false ∧ s.plan.asked = some s.dt64)) :
    (s.measure e).dt64 = bitsOfInt 64 ((s.dt64 : Int) - e) ∧ (s.measure e).datum.fint = 0 ∧
      (s.measure e).datum.foreign = none ∧ s.raised (s.measure e) Src.TIME_STEP dtmPage := by
  have hsteps : ¬(s.plan.run && !(!s.plan.started && s.plan.asked == some s.dt64)) = true := by
    rcases hplan with h | ⟨h, h'⟩
    · simp [h]
    · simp [h, h']
  rw [State.measure_unheld hst hforeign hauto, if_neg (by omega), if_neg hsteps]
  have hdatum := (s.withOffs e).datum_stepTime e
  have hraised := (s.withOffs e).raised_stepTime e
  obtain ⟨_, _, _, h⟩ := ((s.withOffs e).stepTime e).datumJudge_frame e
  rw [h, hdatum]
  exact ⟨(s.withOffs e).dt64_stepTime e, rfl, hforeign, State.raised_congr hraised rfl rfl⟩

/-- A measurement beyond STEPLIM while a plan runs. -/
theorem State.measure_holds {e : Int} (hlim : s.regN R.DTM.STEPLIM < e.natAbs) (hrun : s.plan.run = true)
    (hplan : s.plan.started = true ∨ s.plan.asked ≠ some s.dt64) :
    (s.measure e).dt64 = s.dt64 ∧ (s.measure e).datum.foreign = some e ∧ (s.measure e).regB R.DTM.DTSTA 5 = true ∧
      (s.measure e).regI R.DTM.FOREIGN = satSym e ∧ (s.measure e).datum.fadj = s.datum.fadj ∧
      s.raised (s.measure e) Src.TIME_FOREIGN dtmPage := by
  have hholds : (s.plan.run && !(!s.plan.started && s.plan.asked == some s.dt64)) = true := by
    rcases hplan with h | h
    · simp [hrun, h]
    · simp [hrun, h]
  rw [State.measure_unheld hst hforeign hauto, if_neg (by omega), if_pos hholds]
  have hfheld : ((s.withOffs e).heldAs e).regB R.DTM.DTSTA 5 = true := by
    rw [State.heldAs, State.regB_fault]
    exact (congrArg (fun w => Word.bit w 5) (State.reg_irq_ne _ (by decide))).trans (State.fheld_setForeign _ (some e))
  have hshown : ((s.withOffs e).heldAs e).reg R.DTM.FOREIGN = wdInt (satSym e) := by
    rw [State.heldAs, State.reg_fault, State.reg_irq_ne _ (by decide)]
    exact State.reg_foreign_setForeign _ (some e)
  have hraised : s.raised ((s.withOffs e).heldAs e) Src.TIME_FOREIGN dtmPage := State.raised_fault_of rfl _ _ _ _ _ _
  have hshownKept := ((s.withOffs e).heldAs e).regsBut_datumJudge e R.DTM.FOREIGN (by decide)
  have hfheldKept := ((s.withOffs e).heldAs e).regB_datumJudge e (i := 5) (by decide)
  obtain ⟨_, _, _, h⟩ := ((s.withOffs e).heldAs e).datumJudge_frame e
  refine ⟨?_, ?_, hfheldKept.trans hfheld, ?_, ?_, ?_⟩
  · rw [h]
    rfl
  · rw [h]
    rfl
  · unfold State.regI
    rw [hshownKept, hshown, toInt_wdInt_satSym]
  · rw [h]
    rfl
  · rw [h]
    exact State.raised_congr hraised rfl rfl

end

/-- Settles O21: a measurement is slewed, stepped or held, and the verdict on Datum's state is the same in each case. -/
theorem measurementApplied : Obligations.MeasurementApplied := by
  intro s stamp
  refine ⟨fun hsource => ?_, ?_⟩
  · rw [exec_ppsEdge, State.ppsEdge, if_pos (by simp [hsource])]
  · rintro hsource hst hforeign hauto e rfl
    have hlimit : (s.reach stamp).regN R.DTM.STEPLIM = s.regN R.DTM.STEPLIM := congrArg BitVec.toNat (State.reg_reach ..)
    have hdatum : (s.reach stamp).datum = s.datum := State.reach_datum ..
    have hplan : (s.reach stamp).plan = s.plan := State.reach_plan ..
    have hst' : (s.reach stamp).dstate ≠ 4 := (State.dstate_congr (State.reg_reach s stamp _)).trans_ne hst
    have hforeign' : (s.reach stamp).datum.foreign = none := hdatum.symm ▸ hforeign
    have hauto' : (s.reach stamp).datum.autostep = false := hdatum.symm ▸ hauto
    have hverdict : (s.reach stamp).verdict (s.ppsError stamp) = s.verdict (s.ppsError stamp) :=
      State.verdict_congr (State.dstate_congr (State.reg_reach ..)) (State.reg_reach ..) (State.reg_reach ..)
        (congrArg Datum.good hdatum)
    obtain ⟨hoffs, hst''⟩ := State.measure_verdict hst' hforeign' hauto' (s.ppsError stamp)
    refine ⟨(s.reach stamp).measure (s.ppsError stamp), ?_, hoffs, hst''.trans hverdict, fun hlim => ?_, fun hlim hidle => ?_,
      fun hlim hrun hasked => ?_⟩
    · rw [exec_ppsEdge, State.ppsEdge_source hsource]
    · have hslews := State.measure_slews hst' hforeign' hauto' (hlim.trans_eq hlimit.symm)
      rwa [hdatum] at hslews
    · obtain ⟨hdt, hfint, hnone, hraised⟩ :=
        State.measure_steps hst' hforeign' hauto' (hlimit.trans_lt hlim) (hplan.symm ▸ hidle)
      exact ⟨hdt, hfint, hnone, State.raised_congr hraised (State.reach_scribe ..).symm rfl⟩
    · obtain ⟨hdt, hheld, hfheld, hshown, hfadj, hraised⟩ :=
        State.measure_holds hst' hforeign' hauto' (hlimit.trans_lt hlim) (hplan.symm ▸ hrun) (hplan.symm ▸ hasked)
      exact ⟨hdt, hheld, hfheld, hshown, hdatum ▸ hfadj, State.raised_congr hraised (State.reach_scribe ..).symm rfl⟩

end Sys2Proof.Machine
end

section
/-! Proofs: programmable channels (chapter 03, R87, R88, R113). -/

namespace Sys2Proof.Machine

theorem exec_channelFire (k : Nat) (s : State) : exec (.channelFire k) s = .next (s.channelFire k) := rfl

/-- A frame plan runs whose period, at the last multiple of P = 160 000 ru below 2^64, holds the wrap of DT64; ring time stands
at 0, 111 616 ru after S(n). TS5 is periodic and enabled, with offset 0. -/
def periodOverWrap : State :=
  { State.reset with
    dt64 := 0, plan := { loaded := true, run := true, started := true, start := 2 ^ 64 - 111616, per := 160000 } }.setB
      (R.TRG.TSCFG 0) 0 true

/-- Refutes O24: its condition that the instant is not behind compares DT64 and the instant as plain numbers. In a period over the
wrap of DT64 the instant S(n) + 0, a number above the present one, is 111 616 ru behind by the compare of R87, and the channel
does not fire. -/
theorem not_channelsAndSnapshots : ¬ Obligations.ChannelsAndSnapshots := by
  intro h
  obtain ⟨-, hperiodic, -⟩ := h periodOverWrap 0 (by decide)
  obtain ⟨-, hfires⟩ := hperiodic (by decide) (by decide) (by decide)
  obtain ⟨t, ht, hfired, -⟩ := hfires (by decide) (by decide) (by decide)
  have hstays : periodOverWrap.channelFire 5 = periodOverWrap := by decide +kernel
  obtain rfl : periodOverWrap = t := by
    rw [exec_channelFire, hstays] at ht
    injection ht
  exact absurd hfired (by decide)

end Sys2Proof.Machine
end

section
/-! Proofs: the PTP slave of an Ethernet port (chapter 03, R90, R102 to R104). -/

namespace Sys2Proof.Machine

/-! ### The free rounding of a quotient -/

/-- A quotient rounded freely is one of the two integers next to it. -/
theorem freeRound_near (n : Int) {d : Nat} (hd : 0 < d) : (freeRound n d * d - n).natAbs < d := by
  have hdiv : n / d * d = n - n % d := by
    have := Int.ediv_mul_add_emod n d
    omega
  have hpos : 0 ≤ n % d := Int.emod_nonneg n (by omega)
  have hlt : n % d < d := Int.emod_lt_of_pos n (by omega)
  unfold freeRound
  rw [if_neg (by omega)]
  split
  · rw [hdiv]
    omega
  · cases Config.roundUp n d
    · rw [if_neg (by decide), add_zero, hdiv]
      omega
    · rw [if_pos rfl, add_mul, one_mul, hdiv]
      omega

/-! ### What a measurement leaves of the PTP slaves -/

/-- A map changed value by value reads as its values changed. -/
theorem NMap.get_map {α : Type} {d : α} {f : α → α} (hf : f d = d) (m : NMap α) (k : Nat) :
    NMap.get d (m.map fun p => (p.1, f p.2)) k = f (NMap.get d m k) := by
  induction m with
  | nil => exact hf.symm
  | cons p m ih =>
    rw [List.map_cons, NMap.get, NMap.get, ih]
    split <;> rfl

theorem State.sync_shiftTimes (s : State) (e : Int) (p : Nat) :
    (NMap.get {} (s.shiftTimes e).eth p).sync = (NMap.get {} s.eth p).sync :=
  (congrArg EthPort.sync
    (NMap.get_map (d := {}) (f := fun x : EthPort => { x with reqAt := x.reqAt.map (shiftAt e) }) rfl s.eth p)).trans rfl

/-- The registers that a measurement may write. -/
def measureKeys : List Nat :=
  [R.DTM.OFFS, R.DTM.DTSTA, R.DTM.FOREIGN, R.DTM.FADJ, R.DTM.FAVG, R.IRQS dtmPage] ++ channelKeys

/-- From `s` to `t` no register beside Datum's and the channels' has changed, and no Sync that waits for its Follow_Up. -/
structure OnlyMeasured (s t : State) : Prop where
  regs : regsBut s t measureKeys
  sync : ∀ p, (NMap.get {} t.eth p).sync = (NMap.get {} s.eth p).sync

namespace OnlyMeasured

theorem trans {s t u : State} (h : OnlyMeasured s t) (h' : OnlyMeasured t u) : OnlyMeasured s u :=
  ⟨h.regs.trans h'.regs, fun p => (h'.sync p).trans (h.sync p)⟩

theorem of_eth {s t : State} {ks : List Nat} (h : regsBut s t ks) (hks : ∀ k ∈ ks, k ∈ measureKeys) (heth : t.eth = s.eth) :
    OnlyMeasured s t := ⟨h.mono hks, fun _ => by rw [heth]⟩

theorem withOffs (s : State) (e : Int) : OnlyMeasured s (s.withOffs e) :=
  of_eth ((regsBut.refl s [R.DTM.OFFS]).setReg _ (by simp)) (by decide) rfl

theorem servo (s : State) (e : Int) (slew : Bool) : OnlyMeasured s (s.servo e slew) := by
  obtain ⟨_, _, _, _, _, h, -⟩ := s.servo_frame e slew
  exact of_eth (s.regsBut_servo e slew) (by decide) (by rw [h])

theorem datumJudge (s : State) (x : Int) : OnlyMeasured s (s.datumJudge x) := by
  obtain ⟨_, _, _, h⟩ := s.datumJudge_frame x
  exact of_eth (s.regsBut_datumJudge x) (by decide) (by rw [h])

theorem datumAvg (s : State) : OnlyMeasured s s.datumAvg := by
  obtain ⟨_, _, h⟩ := s.datumAvg_frame
  exact of_eth s.regsBut_datumAvg (by decide) (by rw [h])

theorem heldAs (s : State) (e : Int) : OnlyMeasured s (s.heldAs e) := of_eth (s.regsBut_heldAs e) (by decide) rfl

theorem stepTime (s : State) (e : Int) : OnlyMeasured s (s.stepTime e) :=
  ⟨(s.regsBut_stepTime e).mono (by decide), fun p => by rw [State.eth_stepTime, State.sync_shiftTimes]⟩

/-- A foreign offset is dropped where an automatic step is due. -/
theorem autostep (s : State) : OnlyMeasured s
    (if s.datum.autostep then { s with datum := { s.datum with autostep := false } }.setForeign none else s) := by
  split
  · exact of_eth (((regsBut.refl s _).regs rfl).trans (State.regsBut_setForeign { s with datum := _ } none)) (by decide) rfl
  · exact ⟨regsBut.refl s _, fun _ => rfl⟩

theorem measure (s : State) (e : Int) : OnlyMeasured s (s.measure e) := by
  unfold State.measure
  split
  · exact ⟨regsBut.refl s _, fun _ => rfl⟩
  · extract_lets s0 _ s1 lim hold
    have h1 : OnlyMeasured s s1 := (withOffs s e).trans (autostep s0)
    have hhold : ∀ x, OnlyMeasured s (hold s1 x) := fun x => (h1.trans (heldAs s1 e)).trans (datumJudge _ x)
    have hservo : ∀ x slew, OnlyMeasured s ((s1.servo x slew).datumJudge x).datumAvg :=
      fun x slew => ((h1.trans (servo s1 x slew)).trans (datumJudge _ x)).trans (datumAvg _)
    split
    · split
      · exact hhold _
      · exact hservo _ _
    · split
      · exact hservo _ _
      · split
        · exact hhold _
        · exact (h1.trans (stepTime s1 e)).trans (datumJudge _ e)

end OnlyMeasured

/-! ### The messages of the master (R103, R104) -/

theorem exec_ptpSyncRx (port : Fin 2) (m : PtpMsg) (s : State) : exec (.ptpSyncRx port m) s = .next (s.ptpSync port.val m) := rfl
theorem exec_ptpFollowUpRx (port : Fin 2) (m : PtpMsg) (s : State) :
    exec (.ptpFollowUpRx port m) s = .next (s.ptpFollowUp port.val m) := rfl
theorem exec_ptpDelayRespRx (port : Fin 2) (m : PtpMsg) (s : State) :
    exec (.ptpDelayRespRx port m) s = .next (s.ptpResp port.val m) := rfl
theorem exec_ptpDelayReqTx (port : Fin 2) (stamp : Nat) (s : State) :
    exec (.ptpDelayReqTx port stamp) s = .next (s.ptpReq port.val stamp) := rfl

@[simp] theorem State.ptpRx_reach (s : State) (x p : Nat) (m : PtpMsg) : (s.reach x).ptpRx p m = s.ptpRx p m := by
  simp [State.ptpRx, State.regI]

@[simp] theorem State.ptpTx_reach (s : State) (x p stamp : Nat) : (s.reach x).ptpTx p stamp = s.ptpTx p stamp := by
  simp [State.ptpTx, State.regI]

@[simp] theorem State.ptpTime_reach (s : State) (x sec ns : Nat) (corr : Int) :
    (s.reach x).ptpTime sec ns corr = s.ptpTime sec ns corr := by
  simp [State.ptpTime, State.epoch, State.regN, State.regF]

section
variable {s : State} {p : Nat} {m : PtpMsg} (hup : s.ethUp p = true) (hslave : s.regB (R.ETH.ECFG p) 2 = true)
  (hany : s.regB (R.ETH.ECFG p) 5 = false)
include hany

theorem State.ptpAccept_refused (h : s.masterIs p m = false ∨ s.regF (R.ETH.ECFG p) 8 8 ≠ m.domain.toNat ∨
    s.regB (R.ETH.ECFG p) 3 ≠ m.udp) : s.ptpAccept p m = none := by
  unfold State.regB at hany
  unfold State.ptpAccept
  rcases h with h | h | h
  · simp [h, hany]
  · simp [State.regF] at h
    simp [h]
  · simp [State.regB] at h
    simp [h]

include hup hslave

theorem State.ptpAccept_taken (hmaster : s.masterIs p m = true) (hdomain : s.regF (R.ETH.ECFG p) 8 8 = m.domain.toNat)
    (hudp : s.regB (R.ETH.ECFG p) 3 = m.udp) : s.ptpAccept p m = some s := by
  unfold State.regB at hany hslave hudp
  unfold State.regF at hdomain
  unfold State.ptpAccept
  simp [hup, hslave, hany, hudp, hdomain, hmaster]

end

/-- The offset of a complete Sync (R103): POFS reads it, and the Sync waits no more. -/
theorem State.ptpOffset_spec (s : State) (p : Fin 2) (t1 t2 : Int) :
    (s.ptpOffset p.val t1 t2).regI (R.ETH.POFS p.val) =
        satSym (freeRound (2 * (t2 - t1) - (NMap.get {} s.eth p.val).mpd) 8192) ∧
      (NMap.get {} (s.ptpOffset p.val t1 t2).eth p.val).sync = none := by
  have hkey : ∀ p : Fin 2, R.ETH.POFS p.val ∉ measureKeys := by decide
  unfold State.ptpOffset
  extract_lets e _ s1
  have hshown : s1.regI (R.ETH.POFS p.val) = satSym e := by
    unfold s1 State.regI
    rw [State.reg_setReg_same, toInt_wdInt_satSym]
  have hsync : (NMap.get {} s1.eth p.val).sync = none := congrArg EthPort.sync (NMap.get_put_same ..)
  have hmeasured := OnlyMeasured.measure s1 e
  refine State.when_induct (P := fun t => t.regI (R.ETH.POFS p.val) = satSym e ∧ (NMap.get {} t.eth p.val).sync = none) _
    ⟨hshown, hsync⟩ ⟨?_, (hmeasured.sync _).trans hsync⟩
  exact (congrArg BitVec.toInt (hmeasured.regs _ (hkey p))).trans hshown

@[simp] theorem State.eth_setEth_same (s : State) (p : Nat) (e : EthPort) : NMap.get {} (s.setEth p e).eth p = e :=
  NMap.get_put_same ..

section
variable {s : State} {p : Fin 2} {m : PtpMsg} (hacc : s.ptpAccept p.val m = some s)
include hacc

/-- A one-step Sync is complete as it arrives. -/
theorem State.ptpSync_oneStep (hone : m.twoStep = false) :
    (s.ptpSync p.val m).regI (R.ETH.POFS p.val) = satSym (freeRound (2 * (s.ptpRx p.val m - s.ptpTime m.sec m.ns m.corr) -
      (NMap.get {} s.eth p.val).mpd) 8192) := by
  have hoffset : s.ptpSync p.val m = (s.reach m.rx).ptpOffset p.val (s.ptpTime m.sec m.ns m.corr) (s.ptpRx p.val m) := by
    unfold State.ptpSync
    simp [hacc, hone]
  rw [hoffset, (State.ptpOffset_spec ..).1, State.reach_eth]

/-- A two-step Sync waits for its Follow_Up. -/
theorem State.ptpSync_twoStep (htwo : m.twoStep = true) :
    s.ptpSync p.val m = (s.reach m.rx).setEth p.val
      { NMap.get {} s.eth p.val with sync := some (m.seq.toNat, s.ptpRx p.val m, m.corr) } := by
  unfold State.ptpSync
  simp [hacc, htwo]

theorem State.ptpFollowUp_other {q : Nat} {t2 corr : Int} (hsync : (NMap.get {} s.eth p.val).sync = some (q, t2, corr))
    (hseq : q ≠ m.seq.toNat) : s.ptpFollowUp p.val m = s := by
  unfold State.ptpFollowUp
  simp [hacc, hsync, hseq]

theorem State.ptpFollowUp_awaited {q : Nat} {t2 corr : Int} (hsync : (NMap.get {} s.eth p.val).sync = some (q, t2, corr))
    (hseq : q = m.seq.toNat) : s.ptpFollowUp p.val m = s.ptpOffset p.val (s.ptpTime m.sec m.ns (m.corr + corr)) t2 := by
  unfold State.ptpFollowUp
  simp [hacc, hsync, hseq]

theorem State.ptpResp_other {q : Nat} {t3 : Int} (hreq : (NMap.get {} s.eth p.val).req = some (q, t3))
    (hseq : q ≠ m.seq.toNat) : s.ptpResp p.val m = s := by
  unfold State.ptpResp
  simp [hacc, hreq, hseq]

/-- The mean path delay of the peer-delay exchange, in 1/8192 ru: the round trip less turnaround and correction. -/
def State.peerDelay (s : State) (p : Nat) (m : PtpMsg) (t3 : Int) : Int := s.ptpRx p m - t3 - m.turn * 65536 - m.corr

theorem State.ptpResp_peer {q : Nat} {t3 : Int} (hreq : (NMap.get {} s.eth p.val).req = some (q, t3))
    (hseq : q = m.seq.toNat) (hpeer : s.regB (R.ETH.ECFG p.val) 4 = true) :
    s.ptpResp p.val m = (s.setEth p.val { NMap.get {} s.eth p.val with mpd := s.peerDelay p.val m t3, req := none }).setReg
      (R.ETH.MPD p.val) (wdInt (freeRound (s.peerDelay p.val m t3) 8192)) := by
  unfold State.ptpResp
  simp [hacc, hreq, hseq, hpeer, State.peerDelay]

end

/-! ### The slave's requests (R103, R121) -/

section
variable {s : State} {p stamp : Nat}

/-- While a frame is being sent no request goes out. -/
theorem State.ptpReq_busy (h : stamp < (NMap.get {} s.fq (64 + p)).busy) : s.ptpReq p stamp = s := by
  unfold State.ptpReq
  exact if_pos (by simp [Nat.blt_eq, h])

/-- Before the interval is over no request goes out. -/
theorem State.ptpReq_early {last : Nat} (hlast : (NMap.get {} s.eth p).reqAt = some last) (h : stamp < last + s.reqEvery p) :
    s.ptpReq p stamp = s := by
  unfold State.ptpReq
  exact if_pos (by simp [hlast, ble_eq_false_of_lt h])

/-- The state after a request. -/
def State.requested (s : State) (p stamp : Nat) : State :=
  { (s.reach stamp).setEth p { NMap.get {} s.eth p with
      seq := ((NMap.get {} s.eth p).seq + 1) % 65536,
      req := some (((NMap.get {} s.eth p).seq + 1) % 65536, (s.reach stamp).ptpTx p stamp), reqAt := some stamp } with
    fq := NMap.put {} (s.reach stamp).fq (64 + p) { NMap.get {} s.fq (64 + p) with
      busy := stamp + ethTime (reqOctets (s.regB (R.ETH.ECFG p) 4) (s.regB (R.ETH.ECFG p) 3)) },
    out := [.ptp p stamp (((NMap.get {} s.eth p).seq + 1) % 65536) (s.regB (R.ETH.ECFG p) 4) (s.regB (R.ETH.ECFG p) 3)] }

theorem State.ptpReq_due (hup : s.ethUp p = true) (hslave : s.regB (R.ETH.ECFG p) 2 = true) (hpassed : s.passed stamp = false)
    (hfree : (NMap.get {} s.fq (64 + p)).busy ≤ stamp)
    (hdue : ∀ last, (NMap.get {} s.eth p).reqAt = some last → last + s.reqEvery p ≤ stamp) :
    s.ptpReq p stamp = s.requested p stamp := by
  unfold State.ptpReq
  extract_lets e f due _ _ _ _ _
  have hdue' : due = true := by
    unfold due
    split
    · exact Nat.ble_eq_true_of_le (hdue _ ‹_›)
    · rfl
  rw [if_neg (by simp [hup, hslave, hdue', hpassed, Nat.blt_eq, f, hfree])]
  rfl

end

/-- Settles O23: a message that the port accepts is the master's, and each has its own effect; a request goes out when it is due. -/
theorem ptpSlave : Obligations.PtpSlave := by
  intro s port m hup hslave hany
  refine ⟨fun hother => ?_, fun hmaster hdomain hudp => ?_, fun stamp hpassed => ⟨fun hbusy => ?_, fun last hlast hearly => ?_,
    fun hfree hdue => ?_⟩, fun n d hd => freeRound_near n hd⟩
  · have hnone := State.ptpAccept_refused hany hother
    rw [exec_ptpSyncRx, exec_ptpFollowUpRx, exec_ptpDelayRespRx, State.ptpSync, State.ptpFollowUp, State.ptpResp, hnone]
    exact ⟨rfl, rfl, rfl⟩
  · have hacc := State.ptpAccept_taken hup hslave hany hmaster hdomain hudp
    refine ⟨fun hone => ⟨_, rfl, State.ptpSync_oneStep hacc hone⟩, fun htwo => ⟨_, rfl, ?_, ?_⟩, fun x hsync => ⟨fun hseq => ?_,
      fun hseq => ⟨_, rfl, ?_, ?_⟩⟩, fun x hreq => ⟨fun hseq => ?_, fun hseq hpeer => ⟨_, rfl, ?_⟩⟩⟩
    · rw [State.ptpSync_twoStep hacc htwo, State.eth_setEth_same]
    · rw [State.ptpSync_twoStep hacc htwo]
      exact State.reach_regs ..
    · rw [exec_ptpFollowUpRx, State.ptpFollowUp_other hacc hsync hseq]
    · rw [State.ptpFollowUp_awaited hacc hsync hseq]
      exact (State.ptpOffset_spec ..).2
    · rw [State.ptpFollowUp_awaited hacc hsync hseq]
      exact (State.ptpOffset_spec ..).1
    · rw [exec_ptpDelayRespRx, State.ptpResp_other hacc hreq hseq]
    · have heth : NMap.get {} (s.ptpResp port.val m).eth port.val =
          { NMap.get {} s.eth port.val with mpd := s.peerDelay port.val m x.2, req := none } := by
        rw [State.ptpResp_peer hacc hreq hseq hpeer]
        exact State.eth_setEth_same ..
      rw [heth, State.ptpResp_peer hacc hreq hseq hpeer]
      exact ⟨rfl, rfl, State.reg_setReg_same .., ((regsBut.refl s _).regs rfl).setReg _ (by simp), rfl⟩
  · rw [exec_ptpDelayReqTx, State.ptpReq_busy hbusy]
  · rw [exec_ptpDelayReqTx, State.ptpReq_early hlast hearly]
  · have heth : NMap.get {} (s.requested port.val stamp).eth port.val = _ := State.eth_setEth_same ..
    have hfq : NMap.get {} (s.requested port.val stamp).fq (64 + port.val) = _ := NMap.get_put_same ..
    refine ⟨s.requested port.val stamp, ?_, ?_, ?_, rfl, ?_, ?_, fun q hq => ?_, ?_⟩
    · rw [exec_ptpDelayReqTx, State.ptpReq_due hup hslave hpassed hfree hdue]
    · rw [heth, State.ptpTx_reach]
    · rw [heth]
    · rw [hfq]
    · rw [hfq]
    · exact (NMap.get_put_ne _ _ _ hq).trans (by rw [State.reach_fq])
    · unfold State.requested
      rw [State.reach_eq]
      rfl

end Sys2Proof.Machine
end

section
/-! Proofs: bytes of a frame or a descriptor stored by an Ethernet port (chapter 02, R53; chapter 08, R275; chapter 13, R411). -/

namespace Sys2Proof.Machine

/-! ### Bytes stored and read back -/

theorem leNat_natLe (n v : Nat) : leNat (natLe n v) = v % 256 ^ n := by
  induction n generalizing v with
  | zero => simp [natLe, leNat, Nat.mod_one]
  | succ n ih =>
    have hbyte : (BitVec.ofNat 8 v).toNat = v % 256 := BitVec.toNat_ofNat ..
    rw [natLe, leNat, ih, hbyte, Nat.pow_succ, Nat.mul_comm (256 ^ n), Nat.mod_mul]

theorem Memory.readBytes_writeBytes (m : Memory) (a : Nat) (l r : List Byte) (b : List Byte) :
    (m.writeBytes a (l ++ b ++ r)).readBytes (a + l.length) b.length = b := by
  refine Memory.readBytes_eq fun i hi => ?_
  have hlt : l.length + i < (l ++ b ++ r).length := by
    simp only [List.length_append]
    omega
  rw [Nat.add_assoc, Memory.read_writeBytes_in _ _ _ _ hlt]
  simp [List.getElem_append_left, List.getElem_append_right, hi]

/-- Off the result mirror a port's store is a plain one. -/
theorem Memory.portBytes_offMirror (m : Memory) {a : Nat} {l : List Byte} (h : offMirror a l.length = true) :
    m.portBytes a l = m.writeBytes a l := by
  unfold Memory.portBytes
  exact if_pos (by simpa [offMirror, Nat.ble_eq] using h)

/-- A descriptor is written back: word 1, the time-stamp in words 2 and 3, and nothing else. -/
theorem Memory.descriptor_stored (m : Memory) {a : Nat} (w : Word) (st : Nat) (h : offMirror (a + 4) 12 = true) :
    (m.portBytes (a + 4) (natLe 4 w.toNat ++ natLe 8 st)).readWord (a + 4) = w ∧
      (m.portBytes (a + 4) (natLe 4 w.toNat ++ natLe 8 st)).readLE (a + 8) 8 = st % 2 ^ 64 ∧
      ∀ c, c < a + 4 ∨ a + 16 ≤ c → (m.portBytes (a + 4) (natLe 4 w.toNat ++ natLe 8 st)).read c = m.read c := by
  have hw : (natLe 4 w.toNat).length = 4 := natLe_length ..
  have hst : (natLe 8 st).length = 8 := natLe_length ..
  rw [Memory.portBytes_offMirror m (by rwa [List.length_append, hw, hst])]
  refine ⟨?_, ?_, fun c hc => Memory.read_writeBytes_out _ _ _ _ (by rw [List.length_append, hw, hst]; omega)⟩
  · have hread := Memory.readBytes_writeBytes m (a + 4) [] (natLe 8 st) (natLe 4 w.toNat)
    rw [hw] at hread
    rw [Memory.readWord, Memory.readLE]
    refine (congrArg (fun b => wd (leNat b)) hread).trans ?_
    rw [leNat_natLe]
    exact BitVec.eq_of_toNat_eq ((BitVec.toNat_ofNat ..).trans (by have := w.isLt; omega))
  · have hread := Memory.readBytes_writeBytes m (a + 4) (natLe 4 w.toNat) [] (natLe 8 st)
    rw [List.append_nil, hw, hst] at hread
    rw [Memory.readLE]
    exact (congrArg leNat hread).trans (leNat_natLe 8 st)

theorem State.engine_setEng_ne (s : State) {m n : Nat} (e : Eng) (h : n ≠ m) : (s.setEng m e).engine n = s.engine n :=
  NMap.get_put_ne _ _ _ h

/-- A store by a port leaves an engine without outstanding accesses as it was. -/
theorem State.engine_csmClaim (s : State) (a len : Nat) {n : Nat} (h : (s.engine n).acc = []) :
    (s.csmClaim a len).engine n = s.engine n := by
  unfold State.csmClaim
  refine State.foldl_induct (P := fun t : State => t.engine n = s.engine n) (fun t m ht => ?_) (List.range 9) rfl
  split
  · rename_i hmeets
    refine (State.engine_setEng_ne t _ ?_).trans ht
    rintro rfl
    simp [ht, h] at hmeets
  · exact ht

theorem State.eng_portBytes (s : State) (a : Nat) (l : List Byte) : (s.portBytes a l).eng = (s.csmClaim a l.length).eng := by
  obtain ⟨e, he⟩ := s.csmClaim_frame a l.length
  rw [State.portBytes, he]

theorem State.engine_portBytes (s : State) (a : Nat) (l : List Byte) {n : Nat} (h : (s.engine n).acc = []) :
    (s.portBytes a l).engine n = s.engine n := by
  rw [← s.engine_csmClaim a l.length h, State.engine, State.engine, State.eng_portBytes]

/-- A store by a port: the bytes in memory, and the engines' accesses that coincide with it. -/
theorem State.portBytes_spec (s : State) (a : Nat) (l : List Byte) :
    ∃ g, s.portBytes a l = { s with mem := s.mem.portBytes a l, eng := g } ∧
      ∀ n, (s.engine n).acc = [] → NMap.get {} g n = s.engine n := by
  obtain ⟨g, hg⟩ := s.portBytes_frame a l
  refine ⟨g, hg, fun n h => ?_⟩
  have hengine := s.engine_portBytes a l h
  rwa [hg] at hengine

/-- Two stores by a port, one after the other. -/
theorem State.portBytes_two (s : State) (a : Nat) (l : List Byte) (a' : Nat) (l' : List Byte) :
    ∃ g, (s.portBytes a l).portBytes a' l' = { s with mem := (s.mem.portBytes a l).portBytes a' l', eng := g } ∧
      ∀ n, (s.engine n).acc = [] → NMap.get {} g n = s.engine n := by
  obtain ⟨g, hg, hfirst⟩ := s.portBytes_spec a l
  obtain ⟨g', hg', hsecond⟩ := (s.portBytes a l).portBytes_spec a' l'
  refine ⟨g', by rw [hg', hg], fun n h => ?_⟩
  have hkept : (s.portBytes a l).engine n = s.engine n := s.engine_portBytes a l h
  rw [hsecond n (by rw [hkept, h]), hkept]

/-! ### Word 1 of a descriptor (R122) -/

theorem descBack_bits (w : Word) (late ovfl : Bool) : (descBack w late ovfl).bit 31 = false ∧ (descBack w late ovfl).bit 29 = true ∧
    (descBack w late ovfl).bit 28 = late ∧ (descBack w late ovfl).bit 27 = ovfl := by
  simp [descBack, Word.bit_setBit]

end Sys2Proof.Machine
end

section
/-! Proofs: the descriptor rings and the links of the Ethernet ports (chapter 03, R115, R121, R122). -/

namespace Sys2Proof.Machine

theorem exec_txkick (port : Fin 2) (s : State) :
    exec (.txkick port) s = .next (s.hostWr (0x0A + port.val) fun t => t.txKick port.val) := rfl
theorem exec_classFLaunch (queue at_ : Nat) (s : State) : exec (.classFLaunch queue at_) s = .next (s.classF queue at_) := rfl
theorem exec_ethLinkChange (port : Fin 2) (los : Bool) (s : State) :
    exec (.ethLinkChange port los) s = .next (s.ethLink port.val los) := rfl

/-! ### TXKICK -/

theorem State.txScan_frame (s : State) (p fuel : Nat) : ∃ e f, s.txScan p fuel = { s with eth := e, fq := f } := by
  induction fuel generalizing s with
  | zero => exact ⟨s.eth, s.fq, rfl⟩
  | succ fuel ih =>
    unfold State.txScan
    extract_lets n e i a w1 target s1
    split
    · exact ⟨s.eth, s.fq, rfl⟩
    · obtain ⟨e', f', h⟩ := ih s1
      exact ⟨e', f', h⟩

/-- The scan adds to the end of the port's queue. -/
theorem State.txScan_head (s : State) (p fuel : Nat) {x : ClassF} (h : (NMap.get {} s.fq (64 + p)).q.head? = some x) :
    (NMap.get {} (s.txScan p fuel).fq (64 + p)).q.head? = some x := by
  induction fuel generalizing s with
  | zero => exact h
  | succ fuel ih =>
    unfold State.txScan
    extract_lets n e i a w1 target s1
    split
    · exact h
    · refine ih s1 ?_
      have hq : (NMap.get {} s1.fq (64 + p)).q = (NMap.get {} s.fq (64 + p)).q ++ _ := congrArg FQueue.q (NMap.get_put_same ..)
      rw [hq, List.head?_append, h]
      rfl

/-- The target of an owned transmit descriptor at byte address `a`: that of words 2 and 3 where LTE = 1. -/
def State.descTarget (s : State) (a : Nat) : Option Nat :=
  if (s.mem.readWord (a + 4)).bit 30 then some (s.mem.readLE (a + 8) 4 + (s.mem.readWord (a + 12)).fld 0 8 * 2 ^ 32) else none

/-- An owned descriptor is the first entry of an empty queue. -/
theorem State.txScan_owned (s : State) (p fuel : Nat) (hnext : (NMap.get {} s.eth p).txNext < s.regF (R.ETH.TXRN p) 0 8)
    (hempty : (NMap.get {} s.fq (64 + p)).q = [])
    {a : Nat} (ha : a = csmBase + s.regN (R.ETH.TXRB p) + 16 * (NMap.get {} s.eth p).txNext)
    (hown : (s.mem.readWord (a + 4)).bit 31 = true) :
    ∃ x, (NMap.get {} (s.txScan p (fuel + 1)).fq (64 + p)).q.head? = some x ∧ x.desc = some (NMap.get {} s.eth p).txNext ∧
      x.target = s.descTarget a := by
  unfold State.txScan
  extract_lets n e i a' w1 target s1
  have hi : i = (NMap.get {} s.eth p).txNext := if_pos hnext
  have ha' : a' = a := by rw [ha, ← hi]
  have hnot : ¬(!w1.bit 31) = true := by simp [w1, ha', hown]
  rw [if_neg hnot]
  have hq : (NMap.get {} s1.fq (64 + p)).q = (NMap.get {} s.fq (64 + p)).q ++ _ := congrArg FQueue.q (NMap.get_put_same ..)
  rw [hempty] at hq
  refine ⟨_, s1.txScan_head p fuel (congrArg List.head? hq), congrArg some hi, ?_⟩
  rw [← ha']
  rfl

theorem State.txKick_idle {s : State} {p : Nat} (hon : s.regB (R.ETH.ECFG p) 0 = true)
    (hempty : (NMap.get {} s.fq (64 + p)).q = []) (hdone : (NMap.get {} s.eth p).txDone = []) :
    s.txKick p = s.txScan p (s.regF (R.ETH.TXRN p) 0 8) := by
  unfold State.txKick
  simp [hon, hempty, hdone]

/-! ### CLASS_F_LAUNCH of an Ethernet queue -/

theorem State.classF_empty {s : State} {q : Nat} (t : Nat) (h : (NMap.get {} s.fq q).q = []) : s.classF q t = s := by
  unfold State.classF
  simp [h]

/-- `u` is `s` after port `p` has launched the entry `e` at `t`, with `rest` left in its queue. -/
structure EthLaunched (s u : State) (p t : Nat) (e : ClassF) (rest : List ClassF) : Prop where
  queue : (NMap.get {} u.fq (64 + p)).q = rest
  out : u.out = [.eth p t (s.fBytes (64 + p) e)]
  frame : ∃ d c x f o, u = { s with dt64 := d, scribe := c, eth := x, fq := f, out := o }

namespace EthLaunched
variable {s u : State} {p t : Nat} {e : ClassF} {rest : List ClassF}

theorem fault (h : EthLaunched s u p t e rest) (src page a m acc d : Nat) : EthLaunched s (u.fault src page a m acc d) p t e rest := by
  obtain ⟨hqueue, hout, _, _, _, _, _, rfl⟩ := h
  exact ⟨hqueue, hout, _, _, _, _, _, rfl⟩

theorem sent (s : State) {p p' : Nat} (hp : p' = p) (t : Nat) (e : ClassF) (f : FQueue) (x : EthPort) :
    EthLaunched s { { s.reach t with fq := NMap.put {} (s.reach t).fq (64 + p) f }.setEth p' x with
      out := [.eth p' t (s.fBytes (64 + p) e)] } p t e f.q := by
  subst hp
  refine ⟨congrArg FQueue.q (NMap.get_put_same ..), rfl, ?_⟩
  rw [State.reach_eq]
  exact ⟨_, _, _, _, _, rfl⟩

end EthLaunched

/-- The head of a port's queue launches, and LAUNCH_LATE is raised where it is late. -/
theorem State.classF_launches {s : State} {p t : Nat} {e : ClassF} {rest : List ClassF}
    (hq : (NMap.get {} s.fq (64 + p)).q = e :: rest)
    (hmay : s.mayLaunch (64 + p) (NMap.get {} s.fq (64 + p)) e t (s.fBytes (64 + p) e).length = true) :
    EthLaunched s (s.classF (64 + p) t) p t e rest := by
  have hport : ¬64 + p < 64 := by omega
  unfold State.classF
  extract_lets f
  have hf : f.q = e :: rest := hq
  rw [hf]
  dsimp only
  rw [if_neg (by simp [f, hmay]), if_neg hport, if_neg hport]
  refine State.when_induct (P := fun u => EthLaunched s u p t e rest) _ ?_ ?_
  · exact EthLaunched.sent s (Nat.add_sub_cancel_left ..) t e _ _
  · rw [if_neg hport]
    exact (EthLaunched.sent s (Nat.add_sub_cancel_left ..) t e _ _).fault ..

/-! ### ETH_TX_WRITEBACK and ETH_RX_FRAME -/

/-- The oldest launched descriptor, at byte address `a`, is written back. -/
theorem State.txBack_eq {s : State} {p i stamp : Nat} {late : Bool} {rest : List (Nat × Nat × Bool)}
    (hdone : (NMap.get {} s.eth p).txDone = (i, stamp, late) :: rest) {a : Nat}
    (ha : a = csmBase + s.regN (R.ETH.TXRB p) + 16 * i) :
    s.txBack p = ((s.portBytes (a + 4) (natLe 4 (descBack (s.mem.readWord (a + 4)) late false).toNat ++ natLe 8 stamp)).setEth p
      { NMap.get {} s.eth p with txDone := rest }).irq (0x0A + p) 0 := by
  subst ha
  unfold State.txBack
  extract_lets e
  have he : e.txDone = (i, stamp, late) :: rest := hdone
  rw [he]

theorem State.ethRx_down {s : State} {p : Nat} (stamp phase : Nat) (l : List Byte) (h : s.ethUp p = false) :
    s.ethRx p stamp phase l = s := by
  unfold State.ethRx
  exact if_pos (by simp [h])

/-- Word 1 of a receive descriptor after a frame of `len` bytes. -/
def rxWord1 (w1 : Word) (len : Nat) : Word :=
  (descBack w1 false (Nat.blt (w1.fld 0 14) len)).setFld 0 14 (Nat.min (w1.fld 0 14) len)

section
variable {s : State} {p : Nat} (hnext : (NMap.get {} s.eth p).rxNext < s.regF (R.ETH.RXRN p) 0 8)
  {d : Nat} (hd : d = csmBase + s.regN (R.ETH.RXRB p) + 16 * (NMap.get {} s.eth p).rxNext) (stamp phase : Nat) (l : List Byte)
include hnext hd

theorem State.ethRx_unowned (h : (s.mem.readWord (d + 4)).bit 31 = false) : s.ethRx p stamp phase l = s := by
  subst hd
  unfold State.ethRx
  exact if_pos (by simp [hnext, h])

/-- A frame arrives into the owned descriptor at byte address `d`. -/
theorem State.ethRx_owned (hup : s.ethUp p = true) (h : (s.mem.readWord (d + 4)).bit 31 = true) :
    ∃ st x, s.ethRx p stamp phase l =
      ((((s.reach stamp).portBytes (s.mem.readWord d).toNat (l.take ((s.mem.readWord (d + 4)).fld 0 14))).portBytes (d + 4)
        (natLe 4 (rxWord1 (s.mem.readWord (d + 4)) l.length).toNat ++ natLe 8 st)).setEth p x).irq (0x0A + p) 1 := by
  subst hd
  have hn : s.regF (R.ETH.RXRN p) 0 8 ≠ 0 := by omega
  refine ⟨bitsOfInt 64 (rxStamp stamp phase (s.regI (R.ETH.RXCORR p))),
    { NMap.get {} s.eth p with rxNext := nextIdx (s.regF (R.ETH.RXRN p) 0 8) (NMap.get {} s.eth p).rxNext }, ?_⟩
  unfold State.ethRx
  simp only [hnext, if_true]
  rw [if_neg (by simp [hup, hn, h])]
  rfl

end

theorem rxWord1_spec (w1 : Word) (len : Nat) : (rxWord1 w1 len).bit 31 = false ∧
    (rxWord1 w1 len).fld 0 14 = Nat.min (w1.fld 0 14) len ∧ (rxWord1 w1 len).bit 27 = decide (w1.fld 0 14 < len) := by
  obtain ⟨hown, -, -, hover⟩ := descBack_bits w1 false (Nat.blt (w1.fld 0 14) len)
  have hlt : Nat.min (w1.fld 0 14) len < 2 ^ 14 :=
    Nat.lt_of_le_of_lt (Nat.min_le_left ..) (by rw [Word.fld, natFld]; exact Nat.mod_lt _ (by decide))
  refine ⟨?_, ?_, ?_⟩
  · rw [rxWord1, Word.bit_setFld _ _ _ _ _ (by decide), if_neg (by decide), hown]
  · rw [rxWord1, Word.fld_setFld_same _ _ _ _ (by decide), Nat.mod_eq_of_lt hlt]
  · rw [rxWord1, Word.bit_setFld _ _ _ _ _ (by decide), if_neg (by decide), hover, Bool.eq_iff_iff, Nat.blt_eq, decide_eq_true_eq]

/-- What a frame received into the owned descriptor at byte address `d` leaves: the descriptor written back, the frame in its
buffer, IRQS bit 1. -/
theorem State.ethRx_stored {s : State} {p d : Nat} (hnext : (NMap.get {} s.eth p).rxNext < s.regF (R.ETH.RXRN p) 0 8)
    (hd : d = csmBase + s.regN (R.ETH.RXRB p) + 16 * (NMap.get {} s.eth p).rxNext) (stamp phase : Nat) (l : List Byte)
    (hup : s.ethUp p = true) (hown : (s.mem.readWord (d + 4)).bit 31 = true) (hoff : offMirror (d + 4) 12 = true) :
    let t := s.ethRx p stamp phase l
    let w1 := s.mem.readWord (d + 4)
    let buf := (s.mem.readWord d).toNat
    t.mem.readWord (d + 4) = rxWord1 w1 l.length ∧
      (∀ c, c < d + 4 ∨ d + 16 ≤ c → c < buf ∨ buf + Nat.min (w1.fld 0 14) l.length ≤ c → t.mem.read c = s.mem.read c) ∧
      t.regB (R.IRQS (0x0A + p)) 1 = true ∧ (∀ n, (s.engine n).acc = [] → t.engine n = s.engine n) ∧
      regsBut s t [R.IRQS (0x0A + p)] ∧
      t = { s with dt64 := t.dt64, mem := t.mem, regs := t.regs, eth := t.eth, eng := t.eng } := by
  obtain ⟨st, x, hrx⟩ := State.ethRx_owned hnext hd stamp phase l hup hown
  obtain ⟨g, hg, heng⟩ := (s.reach stamp).portBytes_two (s.mem.readWord d).toNat (l.take ((s.mem.readWord (d + 4)).fld 0 14))
    (d + 4) (natLe 4 (rxWord1 (s.mem.readWord (d + 4)) l.length).toNat ++ natLe 8 st)
  obtain ⟨hword, -, hrest⟩ := Memory.descriptor_stored
    (s.mem.portBytes (s.mem.readWord d).toNat (l.take ((s.mem.readWord (d + 4)).fld 0 14)))
    (rxWord1 (s.mem.readWord (d + 4)) l.length) st hoff
  rw [hg, State.reach_mem] at hrx
  have heng0 (n : Nat) : (s.reach stamp).engine n = s.engine n := by rw [State.engine, State.reach_eng, State.engine]
  simp only [heng0] at heng
  dsimp only
  rw [hrx]
  refine ⟨hword, fun c hdesc hbuf => ?_, State.regB_irq_same _ _ (by decide), heng,
    ((regsBut.refl s _).regs (State.reach_regs ..)).irq _ (by simp), ?_⟩
  · exact (hrest c hdesc).trans (Memory.read_portBytes_out _ _ _ _ (by rwa [List.length_take]))
  · rw [State.reach_eq]
    rfl

theorem exec_ethRxFrame_pdu (port : Fin 2) (stamp phase : Nat) {l pdu : List Byte} (h : rslPayload l = some pdu) (s : State) :
    exec (.ethRxFrame port stamp phase l) s = .next (s.rslRx (.eth port stamp pdu)) := by
  have hexec : exec (.ethRxFrame port stamp phase l) s = execEthRxFrame port stamp phase l s := rfl
  rw [hexec, execEthRxFrame, h]

theorem exec_ethRxFrame_plain (port : Fin 2) (stamp phase : Nat) {l : List Byte} (h : rslPayload l = none) (s : State) :
    exec (.ethRxFrame port stamp phase l) s = .next (s.ethRx port.val stamp phase l) := by
  have hexec : exec (.ethRxFrame port stamp phase l) s = execEthRxFrame port stamp phase l s := rfl
  rw [hexec, execEthRxFrame, h]

theorem exec_rslPduRx (rx : PduRx) (s : State) : exec (.rslPduRx rx) s = .next (s.rslRx rx) := rfl

theorem State.rslRx_down {s : State} {port : Fin 2} (stamp : Nat) (pdu : List Byte) (h : s.ethUp port.val = false) :
    s.rslRx (.eth port stamp pdu) = s := by
  unfold State.rslRx
  exact if_neg (by simp [h])

/-! ### ETH_LINK_CHANGE -/

theorem State.ethLink_same {s : State} {p : Nat} {los : Bool}
    (h : (NMap.get {} s.eth p).link = (s.regB (R.ETH.ECFG p) 0 && !los)) : s.ethLink p los = s := by
  unfold State.ethLink
  exact if_pos h

theorem State.ethLink_changes {s : State} {p : Nat} {los : Bool}
    (h : (NMap.get {} s.eth p).link ≠ (s.regB (R.ETH.ECFG p) 0 && !los)) : s.ethLink p los =
      (s.setEth p { NMap.get {} s.eth p with link := s.regB (R.ETH.ECFG p) 0 && !los }).irq (0x0A + p) 2 := by
  unfold State.ethLink
  exact if_neg h

/-- Settles O25: each command of a port is the one change of its descriptors, queue or link that its lemma above gives. -/
theorem ethernetDescriptors : Obligations.EthernetDescriptors := by
  intro s port
  refine ⟨fun hw hon hnext hempty hdone hown => ?_, fun at_ hempty => ?_, fun at_ e rest hq hmay => ?_, ?_, ?_, ?_, ?_, ?_⟩
  · obtain ⟨fuel, hfuel⟩ : ∃ fuel, s.regF (R.ETH.TXRN port.val) 0 8 = fuel + 1 := Nat.exists_eq_succ_of_ne_zero (by omega)
    obtain ⟨x, hx, hdesc, htarget⟩ := s.txScan_owned port.val fuel hnext hempty rfl hown
    obtain ⟨_, _, hframe⟩ := s.txScan_frame port.val (fuel + 1)
    refine ⟨s.txScan port.val (fuel + 1), ?_, ?_, ?_, ?_⟩
    · rw [exec_txkick, State.hostWr_writable _ hw, State.txKick_idle hon hempty hdone, hfuel]
    · rw [hframe]
    · rw [hframe]
    · rw [hx, Option.any_some, hdesc, htarget, State.descTarget]
      split <;> simp_all
  · rw [exec_classFLaunch, State.classF_empty at_ hempty]
  · obtain ⟨hqueue, hout, _, _, _, _, _, hframe⟩ := State.classF_launches hq hmay
    refine ⟨_, rfl, hqueue, hout, ?_⟩
    rw [hframe]
  · rintro ⟨i, stamp, late⟩ rest hdone hoff
    obtain ⟨a, ha⟩ : ∃ a, a = csmBase + s.regN (R.ETH.TXRB port.val) + 16 * i := ⟨_, rfl⟩
    have hback := State.txBack_eq hdone ha
    rw [← ha] at hoff ⊢
    obtain ⟨hown, htsv, hlate, -⟩ := descBack_bits (s.mem.readWord (a + 4)) late false
    obtain ⟨hw1, hst, hrest⟩ := s.mem.descriptor_stored (descBack (s.mem.readWord (a + 4)) late false) stamp hoff
    obtain ⟨g, hg, heng⟩ := s.portBytes_spec (a + 4)
      (natLe 4 (descBack (s.mem.readWord (a + 4)) late false).toNat ++ natLe 8 stamp)
    rw [hg] at hback
    refine ⟨s.txBack port.val, rfl, ?_⟩
    rw [hback]
    refine ⟨congrArg EthPort.txDone (State.eth_setEth_same ..), State.regB_irq_same _ _ (by decide), ?_, ?_, ?_, hst, hrest,
      ((regsBut.refl s _).regs rfl).irq _ (by simp), fun n _ h => heng n h, rfl⟩
    · exact (congrArg (fun w => Word.bit w 31) hw1).trans hown
    · exact (congrArg (fun w => Word.bit w 29) hw1).trans htsv
    · exact (congrArg (fun w => Word.bit w 28) hw1).trans hlate
  · intro stamp phase l hdown
    cases h : rslPayload l with
    | none => rw [exec_ethRxFrame_plain port stamp phase h, State.ethRx_down _ _ _ hdown]
    | some pdu => rw [exec_ethRxFrame_pdu port stamp phase h, State.rslRx_down _ _ hdown]
  · intro stamp phase l pdu h
    rw [exec_ethRxFrame_pdu port stamp phase h, exec_rslPduRx]
  · intro stamp phase l hup hplain hnext d hd
    refine ⟨fun hown => ?_, fun hown hoff => ?_⟩
    · rw [exec_ethRxFrame_plain port stamp phase hplain, State.ethRx_unowned hnext hd _ _ _ hown]
    · obtain ⟨hword, hrest, hirq, heng, hbut, hframe⟩ := State.ethRx_stored hnext hd stamp phase l hup hown hoff
      obtain ⟨hbit31, hlen, hbit27⟩ := rxWord1_spec (s.mem.readWord (d + 4)) l.length
      refine ⟨_, exec_ethRxFrame_plain port stamp phase hplain s, ?_, ?_, ?_, hirq, hrest, fun n _ h => heng n h, hbut, hframe⟩ <;>
        rw [hword]
      exacts [hbit31, hlen, hbit27]
  · intro los
    by_cases hlink : (NMap.get {} s.eth port.val).link = (s.regB (R.ETH.ECFG port.val) 0 && !los)
    · refine ⟨s, ?_, hlink, fun _ => rfl, fun h => absurd hlink h, regsBut.refl s _, rfl⟩
      rw [exec_ethLinkChange, State.ethLink_same hlink]
    · refine ⟨_, (exec_ethLinkChange ..).trans (congrArg _ (State.ethLink_changes hlink)), ?_, fun h => absurd h hlink,
        fun _ => State.regB_irq_same _ _ (by decide), ((regsBut.refl s _).regs rfl).irq _ (by simp), rfl⟩
      exact congrArg EthPort.link (State.eth_setEth_same ..)

end Sys2Proof.Machine
end

section
/-! Proofs: what Traverse notes of a ring direction (chapter 03, R109, R110; chapter 01, R45). -/

namespace Sys2Proof.Machine

theorem queueOf_inj {r r' : Nat} {rev rev' : Bool} : queueOf r rev = queueOf r' rev' ↔ r = r' ∧ rev = rev' := by
  constructor
  · intro h
    cases rev <;> cases rev' <;> simp [queueOf, b2n] at h ⊢ <;> omega
  · rintro ⟨rfl, rfl⟩
    rfl

theorem State.trv_setTrv_same (s : State) (r : Nat) (rev : Bool) (v : TravDir) : (s.setTrv r rev v).trv r rev = v :=
  NMap.get_put_same ..

theorem State.trv_setTrv_ne (s : State) {r r' : Nat} {rev rev' : Bool} (v : TravDir) (h : (r', rev') ≠ (r, rev)) :
    (s.setTrv r rev v).trv r' rev' = s.trv r' rev' :=
  NMap.get_put_ne _ _ _ fun e => h (by obtain ⟨rfl, rfl⟩ := queueOf_inj.1 e; rfl)

/-- What R108 to R110 say of a direction: its frames in flight, its losses in a row, its path delays. -/
def TravDir.flights (t : TravDir) : List Nat × Nat × List Int := (t.inFlight, t.lost, t.d)

/-- Every direction of `t` has the flights, losses and path delays it has in `s`. -/
def KeepsFlights (s t : State) : Prop := ∀ r rev, (t.trv r rev).flights = (s.trv r rev).flights

namespace KeepsFlights

theorem refl (s : State) : KeepsFlights s s := fun _ _ => rfl

theorem trans {s t u : State} (h : KeepsFlights s t) (h' : KeepsFlights t u) : KeepsFlights s u :=
  fun r rev => (h' r rev).trans (h r rev)

theorem of_trav {s t : State} (h : t.trav = s.trav) : KeepsFlights s t := fun r rev => by rw [State.trv, State.trv, h]

theorem setTrv (s : State) (r : Nat) (rev : Bool) {v : TravDir} (hv : v.flights = (s.trv r rev).flights) :
    KeepsFlights s (s.setTrv r rev v) := by
  intro r' rev'
  by_cases h : (r', rev') = (r, rev)
  · obtain ⟨rfl, rfl⟩ := Prod.mk.inj h
    rw [State.trv_setTrv_same, hv]
  · rw [State.trv_setTrv_ne _ _ h]

theorem when {s t : State} (c : Bool) {f : State → State} (h : KeepsFlights s t) (hf : ∀ u, KeepsFlights u (f u)) :
    KeepsFlights s (t.when c f) :=
  State.when_induct (P := KeepsFlights s) c h (h.trans (hf t))

theorem planMargin (s : State) (ring : Nat) (rev : Bool) : KeepsFlights s (s.planMargin ring rev) := by
  unfold State.planMargin
  exact when _ (setTrv s ring rev (by rfl)) fun _ => of_trav (by rfl)

theorem planMarginSum (s : State) (ring : Nat) : KeepsFlights s (s.planMarginSum ring) := by
  unfold State.planMarginSum
  split
  · exact refl s
  · exact when _ (setTrv s ring false (by rfl)) fun _ => of_trav (by rfl)

theorem travToNode (s : State) (ring : Nat) : KeepsFlights s (s.travToNode ring) := by
  unfold State.travToNode
  extract_lets n avg tf tr sm rf rr toF toR
  have hfirst : KeepsFlights s (s.setTrv ring false { tf with toNode := toF }) := setTrv s ring false rfl
  exact hfirst.trans (setTrv _ ring true (hfirst ring true).symm)

end KeepsFlights

/-- What a round gives an unpaired head leaves the flights, the losses and the path delays. -/
theorem State.travRound_keeps {s : State} (hpaired : s.paired = false) (ring : Nat) (f r : RangeRet) :
    KeepsFlights s (s.travRound ring f r) := by
  unfold State.travRound
  extract_lets n tf seg whole s1 path s2 s3 ask
  have hpath (u : State) (hu : u.paired = false) (rev : Bool) (x : RangeRet) : path u rev x = u := if_pos (by simp [hu])
  have h1 : KeepsFlights s s1 := KeepsFlights.setTrv s ring false rfl
  have h2 : s2 = s1.travToNode ring := by
    rw [← hpath s1 hpaired true r, ← hpath s1 hpaired false f]
  have h3 : KeepsFlights s s3 :=
    (h1.trans (h2 ▸ KeepsFlights.travToNode s1 ring)).trans (KeepsFlights.planMarginSum s2 ring)
  split
  · exact h3.trans (KeepsFlights.of_trav rfl)
  · exact h3

/-- A frame that came back to an unpaired head gives its direction one path delay, arrival less launch. -/
theorem State.travOne_flights {s : State} (hpaired : s.paired = false) (ring : Nat) (rev : Bool) {x : RangeRet} {a : Int}
    (ha : x.arrival = some a) : ((s.travOne ring rev x).trv ring rev).flights =
      ((s.trv ring rev).inFlight, (s.trv ring rev).lost, ((a - (x.launch : Int)) :: (s.trv ring rev).d).take 16) := by
  unfold State.travOne
  extract_lets t res d s1 s2
  have hd : d = ((a - (x.launch : Int)) :: t.d).take 16 := by simp [d, ha]
  have h1 : s1 = s.setTrv ring rev { t with res := (res :: t.res).take 16, d := d } := if_neg (by simp [hpaired])
  have h2 : KeepsFlights s1 s2 := (KeepsFlights.refl s1).when _ fun _ => KeepsFlights.of_trav rfl
  rw [(h2.when _ fun u => KeepsFlights.planMargin u ring rev) ring rev, h1, State.trv_setTrv_same, hd]
  rfl

theorem State.paired_planMargin (s : State) (ring : Nat) (rev : Bool) : (s.planMargin ring rev).paired = s.paired := by
  unfold State.planMargin
  exact State.when_induct (P := fun u => u.paired = s.paired) _ rfl rfl

theorem State.paired_travOne (s : State) (ring : Nat) (rev : Bool) (x : RangeRet) :
    (s.travOne ring rev x).paired = s.paired := by
  unfold State.travOne
  extract_lets t res d s1 s2
  have h1 : s1.paired = s.paired := by
    unfold s1
    split <;> rfl
  have h2 : s2.paired = s.paired := State.when_induct (P := fun u => u.paired = s.paired) _ h1 h1
  exact State.when_induct (P := fun u => u.paired = s.paired) _ h2 ((State.paired_planMargin ..).trans h2)

theorem State.travReturn_flights {s : State} (hpaired : s.paired = false) (ring : Nat) (rev : Bool) {x : RangeRet} {a : Int}
    (ha : x.arrival = some a) : ((s.travReturn ring rev x).trv ring rev).flights =
      ((s.trv ring rev).inFlight, 0, ((a - (x.launch : Int)) :: (s.trv ring rev).d).take 16) := by
  unfold State.travReturn
  extract_lets t0 s1 other pair t1 s2 t2
  have h1 : (s1.trv ring rev).flights =
      ((s.trv ring rev).inFlight, 0, ((a - (x.launch : Int)) :: (s.trv ring rev).d).take 16) := by
    have h := State.travOne_flights (s := s.setTrv ring rev { s.trv ring rev with lost := 0 }) hpaired ring rev ha
    rwa [State.trv_setTrv_same] at h
  have hpaired1 : s1.paired = false := (State.paired_travOne ..).trans hpaired
  have h2 : KeepsFlights s1 s2 := KeepsFlights.setTrv s1 ring (!rev) rfl
  rw [← h1]
  clear_value pair
  cases pair with
  | none => exact KeepsFlights.setTrv s1 ring rev (by rfl) ring rev
  | some y =>
    have hpaired2 : s2.paired = false := hpaired1
    cases rev
    · exact (h2.trans (State.travRound_keeps hpaired2 ring _ _)) ring _
    · exact (h2.trans (State.travRound_keeps hpaired2 ring _ _)) ring _

end Sys2Proof.Machine
end

section
/-! Proofs: Traverse's ranging frames (chapter 03, R108 to R110). -/

namespace Sys2Proof.Machine

theorem exec_rangingLaunch (s : State) : exec .rangingLaunch s = .next s.rangingLaunch := rfl
theorem exec_rangingReturn (ring : Fin 32) (rev : Bool) (f : RxFrame) (s : State) :
    exec (.rangingReturn ring rev f) s = .next (s.rangingReturn ring.val rev f) := rfl
theorem exec_rangingLost (ring : Fin 32) (rev : Bool) (s : State) :
    exec (.rangingLost ring rev) s = .next (s.rangingLost ring.val rev) := rfl

/-! ### Launch -/

/-- A direction's ranging frame is noted in flight where its lane is UP. -/
def State.noteRanging (t : State) (d : Nat × Bool) : State :=
  if t.txUp d.1 d.2 then
    t.setTrv d.1 d.2 { t.trv d.1 d.2 with inFlight := (t.trv d.1 d.2).inFlight ++ [t.rangingAt d.1 d.2], ret := none }
  else t

/-- The ranging frame of a direction: its launch stamp and room for the nodes' entries. -/
def State.rangingFrame (s : State) (d : Nat × Bool) : List Byte :=
  let pl := natLe 8 (bitsOfInt 64 (txStamp (s.rangingAt d.1 d.2) 0)) ++ zeros (8 * s.ringCells d.1)
  frameOf (s.header 4 d.1 d.2 pl.length (s.regN R.TRG.PIDX) false) pl

/-- That frame on its way. -/
def State.rangingOut (s : State) (d : Nat × Bool) : List OutFrame :=
  s.exlOut d.1 d.2 (s.rangingAt d.1 d.2) (s.rangingFrame d)

theorem State.rangingLaunch_taken {s : State} (h : s.travMs = s.plan.start / 16000000 + 1) : s.rangingLaunch = s := by
  unfold State.rangingLaunch
  exact if_pos (by simp [h])

theorem State.noteRanging_frame (s : State) (d : Nat × Bool) : ∃ x, s.noteRanging d = { s with trav := x } := by
  unfold State.noteRanging
  split
  · exact ⟨_, rfl⟩
  · exact ⟨s.trav, rfl⟩

theorem State.noteRanging_all_frame (s : State) (l : List (Nat × Bool)) : ∃ x, l.foldl State.noteRanging s = { s with trav := x } := by
  refine State.foldl_induct (P := fun t => ∃ x, t = { s with trav := x }) (fun t d ht => ?_) l ⟨s.trav, rfl⟩
  obtain ⟨x, rfl⟩ := ht
  obtain ⟨y, hy⟩ := State.noteRanging_frame { s with trav := x } d
  exact ⟨y, hy⟩

theorem State.trv_noteRanging_ne (s : State) {r : Nat} {rev : Bool} {d : Nat × Bool} (h : (r, rev) ≠ d) :
    (s.noteRanging d).trv r rev = s.trv r rev := by
  unfold State.noteRanging
  split
  · exact State.trv_setTrv_ne _ _ h
  · rfl

theorem State.trv_noteRanging_all_ne (s : State) {r : Nat} {rev : Bool} {l : List (Nat × Bool)} (h : (r, rev) ∉ l) :
    (l.foldl State.noteRanging s).trv r rev = s.trv r rev := by
  induction l generalizing s with
  | nil => rfl
  | cons d l ih =>
    obtain ⟨hd, hl⟩ := List.ne_and_not_mem_of_not_mem_cons h
    rw [List.foldl_cons, ih _ hl, State.trv_noteRanging_ne _ hd]

/-- Of directions that each stand once in the list, each notes one launch. -/
theorem State.inFlight_noteRanging_all (s : State) {r : Nat} {rev : Bool} {l : List (Nat × Bool)} (hl : l.Nodup) (h : (r, rev) ∈ l)
    (hup : s.txUp r rev = true) :
    ((l.foldl State.noteRanging s).trv r rev).inFlight = (s.trv r rev).inFlight ++ [s.rangingAt r rev] := by
  induction l generalizing s with
  | nil => cases h
  | cons d l ih =>
    obtain ⟨hd, hl⟩ := List.nodup_cons.1 hl
    rw [List.foldl_cons]
    by_cases hhead : (r, rev) = d
    · subst hhead
      rw [State.trv_noteRanging_all_ne _ hd, State.noteRanging, if_pos hup, State.trv_setTrv_same]
    · obtain ⟨x, hx⟩ := s.noteRanging_frame d
      have hat : (s.noteRanging d).rangingAt r rev = s.rangingAt r rev := by rw [hx]; rfl
      have hup' : (s.noteRanging d).txUp r rev = true := by rw [hx]; exact hup
      rw [ih _ hl ((List.mem_cons.1 h).resolve_left hhead) hup', hat, State.trv_noteRanging_ne _ hhead]

theorem State.ringDirs_nodup (s : State) : s.ringDirs.Nodup := by
  rw [State.ringDirs, List.nodup_flatten]
  refine ⟨fun l hl => ?_, ?_⟩
  · obtain ⟨r, -, rfl⟩ := List.mem_map.1 hl
    simp
  · refine List.pairwise_map.2 ((List.nodup_range.filter _).imp fun {a b} hne => ?_)
    simp [List.Disjoint, hne]

theorem State.mem_rangingDirs {s : State} (hpaired : s.paired = false) {r : Nat} (hr : r < 32) (hcells : 0 < s.ringCells r)
    {rev : Bool} (hfits : s.fitsPlan r (s.rangingAt r rev) (20 + 8 * s.ringCells r) = true) : (r, rev) ∈ s.rangingDirs := by
  refine List.mem_filter.2 ⟨State.mem_ringDirs hr hcells rev, ?_⟩
  simp [State.originates, hpaired, hfits]

theorem State.rangingFrame_fields (s : State) {r : Nat} (hr : r < 32) (rev : Bool) :
    frameType (s.rangingFrame (r, rev)) = 4 ∧ frameRing (s.rangingFrame (r, rev)) = r := by
  obtain ⟨htype, -, hring, -⟩ := frame_header_fields 4 rev s.hid r _ (s.regN R.TRG.PIDX) s.datum.tv s.dstate false false
    _ (by decide) s.hid_lt hr (s.rangingFrame (r, rev)) rfl
  exact ⟨htype, hring⟩

theorem State.mem_rangingOut {s : State} (hpaired : s.paired = false) {r n : Nat} {rev : Bool} (hlane : s.txLane r rev = some n)
    (hup : s.laneUp n = true) : OutFrame.exl n (s.rangingAt r rev) (s.rangingFrame (r, rev)) ∈ s.rangingOut (r, rev) := by
  rw [State.rangingOut, State.exlOut, hlane]
  simp [hup, State.onRing_unpaired hpaired]

theorem State.rangingAt_reach (s : State) (x r : Nat) (rev : Bool) : (s.reach x).rangingAt r rev = s.rangingAt r rev := by
  rw [State.reach_eq]
  rfl

theorem State.fitsPlan_reach (s : State) (x r at_ len : Nat) : (s.reach x).fitsPlan r at_ len = s.fitsPlan r at_ len := by
  rw [State.reach_eq]
  rfl

/-- The round of a millisecond begins: each frame that leaves is noted in flight. -/
def State.roundBegun (s : State) (ms : Nat) : State := s.rangingDirs.foldl State.noteRanging { s with travMs := ms + 1 }

theorem State.roundBegun_frame (s : State) (ms : Nat) : ∃ x, s.roundBegun ms = { s with trav := x, travMs := ms + 1 } :=
  State.noteRanging_all_frame { s with travMs := ms + 1 } _

theorem State.rangingLaunch_round {s : State} (hpaired : s.paired = false) (hstarted : s.plan.started = true)
    (hon : s.regB R.DTM.TRVCTL 0 = true) (hms : s.travMs ≠ s.plan.start / 16000000 + 1) :
    s.rangingLaunch = ((s.reach s.tCC).roundBegun (s.plan.start / 16000000)).send
      ((s.reach s.tCC).rangingDirs.map (s.reach s.tCC).rangingOut).flatten := by
  unfold State.rangingLaunch State.roundBegun
  extract_lets ms s0 dirs outs s1
  rw [if_neg (by simp [hstarted, hon, State.onRing_unpaired hpaired, ms, hms])]
  rfl

section
variable {s : State} (hpaired : s.paired = false) {r n : Nat} (hr : r < 32) {rev : Bool} (hcells : 0 < s.ringCells r)
  (hlane : s.txLane r rev = some n) (hup : s.laneUp n = true)
  (hfits : s.fitsPlan r (s.rangingAt r rev) (20 + 8 * s.ringCells r) = true)
include hpaired hr hcells hlane hup hfits

theorem State.roundBegun_direction (ms : Nat) : ((s.roundBegun ms).trv r rev).inFlight = (s.trv r rev).inFlight ++ [s.rangingAt r rev] ∧
    OutFrame.exl n (s.rangingAt r rev) (s.rangingFrame (r, rev)) ∈ (s.rangingDirs.map s.rangingOut).flatten := by
  have hmem : (r, rev) ∈ s.rangingDirs := State.mem_rangingDirs hpaired hr hcells hfits
  have htx : s.txUp r rev = true := by rw [State.txUp, hlane, Option.any_some, hup]
  refine ⟨?_, List.mem_flatten.2 ⟨_, List.mem_map.2 ⟨_, hmem, rfl⟩, State.mem_rangingOut hpaired hlane hup⟩⟩
  exact State.inFlight_noteRanging_all { s with travMs := ms + 1 } (s.ringDirs_nodup.filter _) hmem htx

/-- The round puts a ranging frame on a direction whose lane is UP, and notes it in flight. -/
theorem State.rangingLaunch_direction (hstarted : s.plan.started = true) (hon : s.regB R.DTM.TRVCTL 0 = true)
    (hms : s.travMs ≠ s.plan.start / 16000000 + 1) :
    (s.rangingLaunch.trv r rev).inFlight = (s.trv r rev).inFlight ++ [s.rangingAt r rev] ∧
      ∃ b, OutFrame.exl n (s.rangingAt r rev) b ∈ s.rangingLaunch.out ∧ frameType b = 4 ∧ frameRing b = r := by
  obtain ⟨s0, hs0⟩ : ∃ s0, s0 = s.reach s.tCC := ⟨_, rfl⟩
  have hsame : SameLaunch s s0 := hs0 ▸ SameLaunch.reach s s.tCC
  have hat : s0.rangingAt r rev = s.rangingAt r rev := by rw [hs0, State.rangingAt_reach]
  have hfits0 : s0.fitsPlan r (s0.rangingAt r rev) (20 + 8 * s0.ringCells r) = true := by
    rw [hat, hsame.ringCells hr, hs0, State.fitsPlan_reach, hfits]
  have htrv : s0.trv r rev = s.trv r rev := by rw [hs0, State.trv, State.reach_trav, State.trv]
  obtain ⟨hflight, hout⟩ := State.roundBegun_direction (hsame.paired.trans hpaired) hr
    (hcells.trans_eq (hsame.ringCells hr).symm) ((hsame.txLane r rev).trans hlane)
    ((hsame.laneUp (State.txLane_lt hlane)).trans hup) hfits0 (s.plan.start / 16000000)
  rw [State.rangingLaunch_round hpaired hstarted hon hms, ← hs0, ← hat, ← htrv, ← hflight]
  obtain ⟨y, hy⟩ := (s0.roundBegun (s.plan.start / 16000000)).send_frame (s0.rangingDirs.map s0.rangingOut).flatten
  refine ⟨?_, _, hout, s0.rangingFrame_fields hr rev⟩
  rw [hy]
  rfl

end

/-! ### Return and loss -/

theorem State.rangingReturn_down {s : State} {ring n : Nat} {rev : Bool} (f : RxFrame) (hlane : s.rxLane ring rev = some n)
    (hdown : s.laneUp n = false) : s.rangingReturn ring rev f = s := by
  have htake : s.rxTake ring rev f = none := by
    unfold State.rxTake
    rw [hlane]
    exact if_pos (by simp [hdown])
  rw [State.rangingReturn, htake]

/-- What a ranging frame of a ring of `n` nodes brings to the head that receives it. -/
def rangeRetOf (f : RxFrame) (n : Nat) : RangeRet :=
  ⟨leAt (framePayload f.bytes) 0 8, rangeEntries n (framePayload f.bytes), some (sofStamp f)⟩

section
variable {s : State} (hpaired : s.paired = false) {ring n : Nat} {rev : Bool} {f : RxFrame}
  (hlane : s.rxLane ring rev = some n) (hup : s.laneUp n = true) (hdrop : (s.lane n).drop = false)
  (hcheck : frameCheck ring rev f = none) (htype : frameType f.bytes = 4)
  (hlen : (framePayload f.bytes).length = 8 + 8 * s.ringCells ring) {l : Nat}
  (hfind : ((s.trv ring rev).inFlight.find? fun l => bitsOfInt 64 (txStamp l 0) == leAt (framePayload f.bytes) 0 8) = some l)
  (hpast : s.passed (l + 16000000) = false) (hsof : f.sof < l + 16000000)
include hpaired hlane hup hdrop hcheck htype hlen hfind hpast hsof

/-- A ranging frame in flight comes back within its millisecond. -/
theorem State.rangingReturn_flight : s.rangingReturn ring rev f =
    (((s.setLane n { s.lane n with drop := false }).reach f.sof).setTrv ring rev
      { s.trv ring rev with inFlight := (s.trv ring rev).inFlight.erase l }).travReturn ring rev (rangeRetOf f (s.ringCells ring)) := by
  obtain ⟨s0, hs0⟩ : ∃ s0, s0 = s.setLane n { s.lane n with drop := false } := ⟨_, rfl⟩
  have htake : s.rxTake ring rev f = some (s0, f) := by
    unfold State.rxTake
    rw [hlane]
    simp [hup, hdrop, hs0]
  have hcells : s0.ringCells ring = s.ringCells ring := by rw [hs0]; rfl
  have hpaired0 : s0.paired = false := by rw [hs0]; exact hpaired
  have htrv0 : s0.trv ring rev = s.trv ring rev := by rw [hs0]; rfl
  have hpast0 : s0.passed (l + 16000000) = false := by rw [hs0]; exact hpast
  have hlate : Nat.ble (l + 16000000) f.sof = false := by rw [Bool.eq_false_iff, ne_eq, Nat.ble_eq]; omega
  rw [← hs0]
  unfold State.rangingReturn
  simp [htake, hcheck, hcells, htype, hlen, hpaired0, State.originates, htrv0, hfind, hpast0, hlate]
  rfl

/-- It ends its flight and the losses in a row, and brings one path delay. -/
theorem State.rangingReturn_flights : ((s.rangingReturn ring rev f).trv ring rev).flights =
    ((s.trv ring rev).inFlight.erase l, 0,
      ((sofStamp f - (leAt (framePayload f.bytes) 0 8 : Nat)) :: (s.trv ring rev).d).take 16) := by
  rw [State.rangingReturn_flight hpaired hlane hup hdrop hcheck htype hlen hfind hpast hsof,
    State.travReturn_flights (x := rangeRetOf f _) ?_ ring rev rfl, State.trv_setTrv_same]
  · rfl
  · exact (State.paired_reach ..).trans hpaired

end

/-- The oldest flight of a direction is lost; the fault is raised with the third loss in a row. -/
theorem State.rangingLost_oldest {s : State} {ring l : Nat} {rev : Bool} {rest : List Nat}
    (h : (s.trv ring rev).inFlight = l :: rest) : ∃ u, s.rangingLost ring rev =
        (if (s.trv ring rev).lost = 2 then u.fault Src.TRAV_FAIL (0x30 + ring) (ring + b2n rev * 32) else u) ∧
      u.trv ring rev = { s.trv ring rev with inFlight := rest, lost := (s.trv ring rev).lost + 1 } ∧
      u.scribe = s.scribe ∧ u = { s with dt64 := u.dt64, trav := u.trav } := by
  refine ⟨(s.reach (l + 16000000)).setTrv ring rev { s.trv ring rev with inFlight := rest, lost := (s.trv ring rev).lost + 1 },
    ?_, State.trv_setTrv_same .., State.reach_scribe .., ?_⟩
  · unfold State.rangingLost
    extract_lets t
    have ht : t.inFlight = l :: rest := h
    rw [ht]
    simp [State.when, t]
  · rw [State.reach_eq]
    rfl

theorem State.rangingLost_none {s : State} {ring : Nat} {rev : Bool} (h : (s.trv ring rev).inFlight = []) :
    s.rangingLost ring rev = s := by
  unfold State.rangingLost
  extract_lets t
  have ht : t.inFlight = [] := h
  rw [ht]

/-- Settles O26: a launch notes each direction once, a return is `State.rangingReturn_flights`, and a loss takes the oldest
flight. -/
theorem traverse : Obligations.Traverse := by
  intro s hpaired
  refine ⟨fun _ htaken => ?_, fun hstarted hon hms => ?_, fun ring rev f n hlane => ⟨fun hdown => ?_, ?_⟩,
    fun ring rev => ⟨fun hnone => ?_, fun l rest hflight => ?_⟩⟩
  · rw [exec_rangingLaunch, State.rangingLaunch_taken htaken]
  · have hround := State.rangingLaunch_round hpaired hstarted hon hms
    obtain ⟨x, hx⟩ := (s.reach s.tCC).roundBegun_frame (s.plan.start / 16000000)
    obtain ⟨y, hy⟩ := ((s.reach s.tCC).roundBegun (s.plan.start / 16000000)).send_frame
      ((s.reach s.tCC).rangingDirs.map (s.reach s.tCC).rangingOut).flatten
    rw [hy, hx] at hround
    refine ⟨s.rangingLaunch, rfl, ?_, fun r hr rev n hcells hlane hup hfits => ?_, ?_⟩
    · rw [hround]
    · obtain ⟨hflight, b, hout, htype, hring⟩ := State.rangingLaunch_direction hpaired hr hcells hlane hup hfits hstarted hon hms
      exact ⟨hflight, List.any_eq_true.2 ⟨_, hout, by simp [htype, hring]⟩⟩
    · rw [hround, State.reach_eq]
  · rw [exec_rangingReturn, State.rangingReturn_down f hlane hdown]
  · intro hup hdrop hcheck htype hlen l hfind hpast hsof
    have hflights := State.rangingReturn_flights hpaired hlane hup hdrop hcheck htype hlen hfind hpast hsof
    obtain ⟨hflight, hlost, hd⟩ : _ ∧ _ ∧ _ := by simpa only [TravDir.flights, Prod.mk.injEq] using hflights
    exact ⟨_, rfl, hflight, hlost, hd⟩
  · rw [exec_rangingLost, State.rangingLost_none hnone]
  · obtain ⟨u, hu, htrv, hscribe, hframe⟩ := State.rangingLost_oldest hflight
    refine ⟨_, rfl, ?_⟩
    rw [hu]
    by_cases hthird : (s.trv ring.val rev).lost = 2
    · rw [if_pos hthird]
      refine ⟨congrArg TravDir.inFlight htrv, congrArg TravDir.lost htrv, fun _ => ?_, fun h => absurd hthird h, ?_⟩
      · exact State.raised_fault_of (congrArg Scribe.inflight hscribe) ..
      · rw [hframe]
        rfl
    · rw [if_neg hthird]
      refine ⟨congrArg TravDir.inFlight htrv, congrArg TravDir.lost htrv, fun h => absurd h hthird, fun _ => hscribe, ?_⟩
      rw [hframe]

end Sys2Proof.Machine
end

section
/-! Proofs: the code groups of the lanes and their running disparity (chapter 04, R126 to R128; log 133). -/

namespace Sys2Proof.Machine

/-! ### The sub-blocks of a data byte -/

/-- The 6-bit sub-block of D.x at a running disparity. -/
def dataSix (x : Nat) (rd : Bool) : Nat := subBlock 6 (code6.getD x 0) (x == 7) rd

/-- The 4-bit sub-block of D.x.y after a 6-bit sub-block that leaves disparity `r`. -/
def dataFour (x y : Nat) (r : Bool) : Nat :=
  subBlock 4 (if y = 7 && (if r then x == 11 || x == 13 || x == 14 else x == 17 || x == 18 || x == 20) then 0b0111
    else code4.getD y 0) (y == 3) r

/-- The disparity between the sub-blocks of D.x. -/
def midRd (x : Nat) (rd : Bool) : Bool := rdAfter 6 (dataSix x rd) rd

theorem codeGroup_data (b : Byte) (rd : Bool) {x y : Nat} (hx : x = b.toNat % 32) (hy : y = b.toNat / 32) :
    codeGroup (.d b) rd = (BitVec.ofNat 10 (dataSix x rd * 16 + dataFour x y (midRd x rd)),
      rdAfter 4 (dataFour x y (midRd x rd)) (midRd x rd)) := by
  subst hx hy
  rfl

theorem dataSix_inj : ∀ rd, ∀ x < 32, ∀ z < 32, dataSix x rd = dataSix z rd → x = z := by decide +kernel

theorem dataFour_inj : ∀ r, ∀ x < 32, ∀ y < 8, ∀ z < 8, dataFour x y r = dataFour x z r → y = z := by decide +kernel

/-- The ones of a sub-block beyond its zeros are what its disparity rises by. -/
theorem dataSix_balance : ∀ rd, ∀ x < 32, dataSix x rd < 64 ∧
    2 * ones 6 (dataSix x rd) + 2 * b2n rd = 6 + 2 * b2n (midRd x rd) := by decide +kernel

theorem dataFour_balance : ∀ r, ∀ x < 32, ∀ y < 8, dataFour x y r < 16 ∧
    2 * ones 4 (dataFour x y r) + 2 * b2n r = 4 + 2 * b2n (rdAfter 4 (dataFour x y r) r) := by decide +kernel

/-! ### The data groups -/

theorem codeGroup_data_toNat (b : Byte) (rd : Bool) {x y : Nat} (hx : x = b.toNat % 32) (hy : y = b.toNat / 32) :
    (codeGroup (.d b) rd).1.toNat = dataSix x rd * 16 + dataFour x y (midRd x rd) := by
  have hsix := (dataSix_balance rd x (by omega)).1
  have hfour := (dataFour_balance (midRd x rd) x (by omega) y (by omega)).1
  rw [codeGroup_data b rd hx hy]
  exact Nat.mod_eq_of_lt (by omega)

/-- A data group names its byte: its first six bits give the low five bits of the byte, and its last four the rest. -/
theorem codeGroup_data_inj {b c : Byte} {rd : Bool} (h : (codeGroup (.d b) rd).1 = (codeGroup (.d c) rd).1) : b = c := by
  have hnat := congrArg BitVec.toNat h
  rw [codeGroup_data_toNat b rd rfl rfl, codeGroup_data_toNat c rd rfl rfl] at hnat
  have hb := (dataFour_balance (midRd (b.toNat % 32) rd) _ (by omega : b.toNat % 32 < 32) _ (by omega : b.toNat / 32 < 8)).1
  have hc := (dataFour_balance (midRd (c.toNat % 32) rd) _ (by omega : c.toNat % 32 < 32) _ (by omega : c.toNat / 32 < 8)).1
  have hlow : b.toNat % 32 = c.toNat % 32 := dataSix_inj rd _ (by omega) _ (by omega) (by omega)
  rw [hlow] at hnat
  have hhigh : b.toNat / 32 = c.toNat / 32 := dataFour_inj (midRd (c.toNat % 32) rd) (c.toNat % 32) (by omega) _ (by omega) _
    (by omega) (by omega)
  exact BitVec.eq_of_toNat_eq (by omega)

/-- The ones of a group are those of its two sub-blocks. -/
theorem ones_group (a : Nat) {b : Nat} (hb : b < 2 ^ 4) : ones 10 (a * 16 + b) = ones 6 a + ones 4 b := by
  have hbit : ∀ i, (a * 16 + b).testBit i = if i < 4 then b.testBit i else a.testBit (i - 4) := by
    intro i
    rw [← Nat.testBit_two_pow_mul_add a hb, Nat.mul_comm]
  have hlow : (List.range 4).filter (fun i => (a * 16 + b).testBit i) = (List.range 4).filter fun i => b.testBit i :=
    List.filter_congr fun i hi => by rw [hbit, if_pos (List.mem_range.1 hi)]
  have hhigh : (fun i => (a * 16 + b).testBit i) ∘ (fun i => 4 + i) = fun i => a.testBit i := by
    funext i
    simp [hbit]
  rw [ones, show List.range 10 = _ from List.range_add (n := 4) (m := 6), List.filter_append, List.filter_map, hlow, hhigh, List.length_append,
    List.length_map, Nat.add_comm]
  rfl

/-! ### The groups of the special symbols -/

theorem special_ne_data : ∀ r rd, ∀ k ∈ specials, ∀ x < 32, ∀ y < 8,
    (codeGroup (.k k) r).1.toNat ≠ dataSix x rd * 16 + dataFour x y (midRd x rd) := by decide +kernel

theorem codeGroup_special_inj : ∀ rd, ∀ k ∈ specials, ∀ j ∈ specials,
    (codeGroup (.k k) rd).1 = (codeGroup (.k j) rd).1 → k = j := by decide +kernel

theorem codeGroup_special_balance : ∀ rd, ∀ k ∈ specials,
    2 * ones 10 (codeGroup (.k k) rd).1.toNat + 2 * b2n rd = 10 + 2 * b2n (codeGroup (.k k) rd).2 := by decide +kernel

theorem codeGroup_special_ne_data {k : Byte} (hk : k ∈ specials) (b : Byte) (r rd : Bool) :
    (codeGroup (.k k) r).1 ≠ (codeGroup (.d b) rd).1 := by
  intro h
  refine special_ne_data r rd k hk (b.toNat % 32) (by omega) (b.toNat / 32) (by omega) ?_
  rw [h, codeGroup_data_toNat b rd rfl rfl]

/-! ### Violations (R128) -/

theorem violates_data (b : Byte) (rd : Bool) : violates (codeGroup (.d b) rd).1 rd = false := by
  have hmem : ((List.range 256).any fun i => (codeGroup (.d (BitVec.ofNat 8 i)) rd).1 == (codeGroup (.d b) rd).1) = true :=
    List.any_eq_true.2 ⟨b.toNat, List.mem_range.2 b.isLt, by simp⟩
  simp [violates, hmem]

theorem violates_special {k : Byte} (hk : k ∈ specials) (rd : Bool) : violates (codeGroup (.k k) rd).1 rd = false := by
  have hsome : (specialOf (codeGroup (.k k) rd).1 rd).isSome = true :=
    List.find?_isSome.2 ⟨k, hk, by simp⟩
  have hnone : (specialOf (codeGroup (.k k) rd).1 rd).isNone = false := by simpa using hsome
  simp [violates, hnone]

/-! ### A row of symbols (R126) -/

/-- A symbol the transmitter sends: a data byte, or a special symbol of R127. -/
def Sym.sent (x : Sym) : Prop := (∃ b, x = .d b) ∨ ∃ k ∈ specials, x = .k k

/-- The ones of a group beyond its zeros are what the running disparity rises by. -/
theorem codeGroup_balance {x : Sym} (hx : x.sent) (rd : Bool) :
    2 * ones 10 (codeGroup x rd).1.toNat + 2 * b2n rd = 10 + 2 * b2n (codeGroup x rd).2 := by
  rcases hx with ⟨b, rfl⟩ | ⟨k, hk, rfl⟩
  · have hsix := (dataSix_balance rd (b.toNat % 32) (by omega)).2
    obtain ⟨hlt, hfour⟩ := dataFour_balance (midRd (b.toNat % 32) rd) (b.toNat % 32) (by omega) (b.toNat / 32) (by omega)
    rw [codeGroup_data_toNat b rd rfl rfl, codeGroup_data b rd rfl rfl, ones_group _ hlt]
    dsimp only
    omega
  · exact codeGroup_special_balance rd k hk

theorem codeGroups_length (l : List Sym) (rd : Bool) : (codeGroups l rd).1.length = l.length := by
  induction l generalizing rd with
  | nil => rfl
  | cons x l ih => exact congrArg (· + 1) (ih _)

theorem codeGroups_balance {l : List Sym} (hl : ∀ x ∈ l, x.sent) (rd : Bool) :
    2 * ((codeGroups l rd).1.map fun g => ones 10 g.toNat).sum + 2 * b2n rd =
      10 * l.length + 2 * b2n (codeGroups l rd).2 := by
  induction l generalizing rd with
  | nil => simp [codeGroups]
  | cons x l ih =>
    have hx := codeGroup_balance (hl x (List.mem_cons_self ..)) rd
    have hrest := ih (fun y hy => hl y (List.mem_cons_of_mem _ hy)) (codeGroup x rd).2
    simp only [codeGroups, List.map_cons, List.sum_cons, List.length_cons]
    omega

/-- Settles O59: the two sub-blocks of a group name the symbol, and each moves the disparity by its ones beyond its zeros. -/
theorem lineCodeBalanced : Obligations.LineCodeBalanced := by
  refine ⟨fun b c rd => ⟨violates_data b rd, codeGroup_data_inj, fun k hk => ?_⟩, fun k hk j hj rd => ?_, fun l hl => ?_,
    fun bytes ends => ?_⟩
  · exact ⟨codeGroup_special_ne_data hk b rd rd, codeGroup_special_ne_data hk b (!rd) rd⟩
  · exact ⟨violates_special hk rd, codeGroup_special_inj rd k hk j hj⟩
  · refine ⟨codeGroups_length l false, ?_⟩
    have hsum := codeGroups_balance hl false
    cases hrd : (codeGroups l false).2 <;> simp [b2n, hrd] at hsum ⊢ <;> omega
  · exact ⟨by simp [frameSyms], List.getLast?_concat, rfl⟩

end Sys2Proof.Machine
end

section
/-! Proofs: what entering a state does to a lane (chapter 04, R126, R132, R133, R138, R145 to R148). -/

namespace Sys2Proof.Machine

/-! ### Fields and bits of a register after a write -/

theorem State.regB_setB (s : State) (k : Nat) {i : Nat} (b : Bool) (j x : Nat) (hi : i < 32) :
    (s.setB k i b).regB j x = if j = k ∧ x = i then b else s.regB j x := by
  unfold State.regB
  by_cases hj : j = k
  · subst hj
    rw [State.reg_setB_same, Word.bit_setBit _ _ _ _ hi]
    simp
  · rw [State.reg_setB_ne _ _ _ hj, if_neg fun h => hj h.1]

theorem State.regB_setF (s : State) (k : Nat) {lo len : Nat} (v j x : Nat) (h : lo + len ≤ 32) :
    (s.setF k lo len v).regB j x = if j = k ∧ lo ≤ x ∧ x < lo + len then v.testBit (x - lo) else s.regB j x := by
  unfold State.regB
  by_cases hj : j = k
  · subst hj
    rw [State.reg_setF_same, Word.bit_setFld _ _ _ _ _ h]
    simp
  · rw [State.reg_setF_ne _ _ _ _ hj, if_neg fun h => hj h.1]

/-- A field is read past a write to a bit outside it. -/
theorem State.regF_setB_ne (s : State) {k i j lo len : Nat} (b : Bool) (hi : i < 32) (h : j ≠ k ∨ i < lo ∨ lo + len ≤ i) :
    (s.setB k i b).regF j lo len = s.regF j lo len := by
  unfold State.regF
  by_cases hj : j = k
  · subst hj
    rw [State.reg_setB_same, Word.fld_setBit_ne _ _ hi (h.resolve_left fun h => h rfl)]
  · rw [State.reg_setB_ne _ _ _ hj]

theorem State.regF_setF_ne (s : State) {k lo len j a n : Nat} (v : Nat) (h : lo + len ≤ 32)
    (hd : j ≠ k ∨ a + n ≤ lo ∨ lo + len ≤ a) : (s.setF k lo len v).regF j a n = s.regF j a n := by
  unfold State.regF
  by_cases hj : j = k
  · subst hj
    rw [State.reg_setF_same, Word.fld_setFld_ne _ _ h (hd.resolve_left fun h => h rfl)]
  · rw [State.reg_setF_ne _ _ _ _ hj]

theorem State.regB_reg {s t : State} {k : Nat} (h : t.reg k = s.reg k) (i : Nat) : t.regB k i = s.regB k i :=
  congrArg (Word.bit · i) h

theorem State.regF_reg {s t : State} {k : Nat} (h : t.reg k = s.reg k) (lo len : Nat) : t.regF k lo len = s.regF k lo len :=
  congrArg (Word.fld · lo len) h

theorem State.regF_lt (s : State) (k lo len : Nat) : s.regF k lo len < 2 ^ len := Nat.mod_lt _ (Nat.two_pow_pos _)

/-! ### Lanes -/

@[simp] theorem State.lane_setLane (s : State) (n : Nat) (l : Lane) : (s.setLane n l).lane n = l := NMap.get_put_same ..

@[simp] theorem State.lane_setReg (s : State) (k : Nat) (v : Word) (n : Nat) : (s.setReg k v).lane n = s.lane n := rfl
@[simp] theorem State.lane_setF (s : State) (k lo len v n : Nat) : (s.setF k lo len v).lane n = s.lane n := rfl
@[simp] theorem State.lane_setB (s : State) (k i : Nat) (b : Bool) (n : Nat) : (s.setB k i b).lane n = s.lane n := rfl
@[simp] theorem State.lane_bumpAt (s : State) (k lo bits n : Nat) : (s.bumpAt k lo bits).lane n = s.lane n := rfl
@[simp] theorem State.lane_bump (s : State) (k n : Nat) : (s.bump k).lane n = s.lane n := rfl
@[simp] theorem State.lane_irq (s : State) (page bit n : Nat) : (s.irq page bit).lane n = s.lane n := rfl

@[simp] theorem State.reg_setLane (s : State) (n : Nat) (l : Lane) (k : Nat) : (s.setLane n l).reg k = s.reg k := rfl
@[simp] theorem State.regB_setLane (s : State) (n : Nat) (l : Lane) (k i : Nat) : (s.setLane n l).regB k i = s.regB k i := rfl
@[simp] theorem State.regF_setLane (s : State) (n : Nat) (l : Lane) (k lo len : Nat) :
    (s.setLane n l).regF k lo len = s.regF k lo len := rfl

@[simp] theorem State.out_setLane (s : State) (n : Nat) (l : Lane) : (s.setLane n l).out = s.out := rfl
@[simp] theorem State.dt64_setLane (s : State) (n : Nat) (l : Lane) : (s.setLane n l).dt64 = s.dt64 := rfl

theorem State.lane_congr {s t : State} (h : t.lanes = s.lanes) (n : Nat) : t.lane n = s.lane n := by
  unfold State.lane
  rw [h]

theorem regsBut.eq_of_regs {s t : State} (ks : List Nat) (h : t.regs = s.regs) : regsBut s t ks := (regsBut.refl s ks).regs h

/-- From `s` to `t` nothing differs but the lanes, what is sent, and registers among `ks`. -/
structure LaneStep (ks : List Nat) (s t : State) : Prop where
  rest : t = { s with regs := t.regs, lanes := t.lanes, out := t.out }
  regs : regsBut s t ks

namespace LaneStep

variable {ks : List Nat} {s t u : State}

theorem refl (ks : List Nat) (s : State) : LaneStep ks s s := ⟨rfl, regsBut.refl s ks⟩

theorem trans (h : LaneStep ks s t) (h' : LaneStep ks t u) : LaneStep ks s u :=
  ⟨h'.rest.trans (by rw [h.rest]), h.regs.trans h'.regs⟩

theorem mono {js : List Nat} (h : LaneStep ks s t) (hsub : ∀ k ∈ ks, k ∈ js) : LaneStep js s t := ⟨h.rest, h.regs.mono hsub⟩

theorem setReg (h : LaneStep ks s t) {k : Nat} (v : Word) (hk : k ∈ ks) : LaneStep ks s (t.setReg k v) :=
  h.trans ⟨rfl, (regsBut.refl t ks).setReg v hk⟩

theorem setF (h : LaneStep ks s t) {k : Nat} (lo len v : Nat) (hk : k ∈ ks) : LaneStep ks s (t.setF k lo len v) := h.setReg _ hk

theorem setB (h : LaneStep ks s t) {k : Nat} (i : Nat) (b : Bool) (hk : k ∈ ks) : LaneStep ks s (t.setB k i b) := h.setReg _ hk

theorem setLane (h : LaneStep ks s t) (n : Nat) (l : Lane) : LaneStep ks s (t.setLane n l) :=
  h.trans ⟨rfl, regsBut.eq_of_regs ks rfl⟩

theorem send (h : LaneStep ks s t) (l : List OutFrame) : LaneStep ks s (t.send l) := by
  obtain ⟨x, hx⟩ := t.send_frame l
  rw [hx]
  exact h.trans ⟨rfl, regsBut.eq_of_regs ks rfl⟩

theorem when (h : LaneStep ks s t) {c : Bool} {f : State → State} (hf : c = true → LaneStep ks t (f t)) :
    LaneStep ks s (t.when c f) := by
  unfold State.when
  split
  · exact h.trans (hf ‹_›)
  · exact h

theorem dt64 (h : LaneStep ks s t) : t.dt64 = s.dt64 := (congrArg State.dt64 h.rest :)

theorem svc (h : LaneStep ks s t) : t.svc = s.svc := (congrArg State.svc h.rest :)

/-- A register outside `ks` reads as before. -/
theorem reg (h : LaneStep ks s t) {k : Nat} (hk : k ∉ ks) : t.reg k = s.reg k := h.regs k hk

theorem paired (h : LaneStep ks s t) (hk : R.HPR.PCFG ∉ ks) : t.paired = s.paired := State.paired_congr (h.reg hk)

end LaneStep

/-! ### Service transactions -/

theorem State.svLaneDown_none {s : State} (h : s.svc = []) (n : Nat) : s.svLaneDown n = s := by
  refine List.foldl_fixed' (fun tag => ?_) _
  rw [h]
  rfl

/-! ### Entering a state, in steps -/

/-- What a lane keeps as it enters a state that begins no exchange and no test: all but its transmitter and the frame in
progress, where the injector goes on as before. -/
def Lane.kept (l : Lane) : Lane := { l with lit := false, drop := false, rd := false, end5 := 0 }

/-- The exchange that begins at an instant: the far side's requests go on being told apart by their SEQ (R138, R139). -/
def Train.anew (t : Train) (now : Nat) : Train :=
  { seq := t.seq, aseq := t.aseq, astat := t.astat, entered := now, lastRx := now, settled := now }

/-- The lane as an exchange begins at an instant. -/
def Lane.anew (l : Lane) (now : Nat) : Lane := { l with train := l.train.anew now, trainAt := none }

theorem Lane.kept_anew (l : Lane) (now : Nat) : (l.anew now).kept = l.kept.anew now := rfl

/-- STATE and PSTA.BLK show a state, and the transmitter stands as in it. -/
def State.laneShown (s : State) (n st : Nat) : State :=
  let s1 := (s.setF (R.LNE.LNSTA n) 0 3 st).setF (R.PSTA (0x10 + n)) 16 3 st
  let l := s1.lane n
  s1.setLane n { l with lit := decide (st ≠ 0) && s.mayLight n, drop := l.drop && decide (st ≠ 4),
                        rd := l.rd && s.laneState n ≠ 0, end5 := if s.laneState n = 0 then 5 * s.dt64 else l.end5 }

theorem State.svc_laneShown (s : State) (n st : Nat) : (s.laneShown n st).svc = s.svc := rfl

/-- UP is set, and RSPEND of the lane's ring. -/
def State.laneUpEvents (s : State) (n : Nat) : State :=
  match s.ringOfLane n with
  | some r => (s.irq (0x10 + n) 0).rspend r
  | none => s.irq (0x10 + n) 0

/-- The events of leaving UP, where no service transaction is in flight, and of entering it. -/
def State.laneEvents (s : State) (n old st : Nat) : State :=
  (s.when (old = 4 && st ≠ 4) fun t => t.irq (0x10 + n) 1).when (st = 4 && old ≠ 4) fun t => t.laneUpEvents n

/-- An exchange begins. -/
def State.exchangeBegun (s : State) (n : Nat) : State :=
  (s.setLane n ((s.lane n).anew s.dt64)).bump (R.LNE.TRNCNT n)

/-- What a lane is as it enters a state, but for near-end loopback and the injector. -/
def State.laneEntered (s : State) (n st : Nat) : State :=
  (((s.laneShown n st).laneEvents n (s.laneState n) st).when (st = 3) fun t => t.exchangeBegun n).when
    (st = 2 || st = 1 || st = 0) fun t => t.setB (R.LNE.LNSTA n) 5 false

theorem State.laneGoto_eq {s : State} (hsvc : s.svc = []) (n st : Nat) {u : State} (hu : u = s.laneEntered n st) :
    s.laneGoto n st = (((u.when (u.testMode n = 2) fun t => t.loopStart n).injSync n
      (if u.testMode n = 1 then [.pattern n u.dt64 (u.regF (R.LNE.LNCTL n) 4 2)] else [])).setIdle (0x10 + n) (st = 0)).setEns
        (0x10 + n) (decide (st ≠ 0)) := by
  unfold State.laneGoto
  extract_lets old s1 l s2 s3 s4 s5 s6 s7
  have h2 : s2 = s.laneShown n st := by
    unfold State.laneShown
    with_reducible rfl
  have hsvc2 : s2.svc = [] := by rw [h2, State.svc_laneShown, hsvc]
  have hdown : s2.svLaneDown n = s2 := State.svLaneDown_none hsvc2 n
  have h3 : s3 = s2.when (old = 4 && st ≠ 4) fun t => t.irq (0x10 + n) 1 := by
    simp only [s3, State.when, hdown]
  have h4 : s4 = s2.laneEvents n old st := by
    rw [State.laneEvents, ← h3]
    rfl
  have h6 : s6 = u := by
    rw [hu, State.laneEntered, ← h2, ← h4]
    rfl
  rw [← h6]

/-! ### What the steps leave as it was -/

/-- The registers beside `laneKeys` that entering a state may write: the exchanges begun, RSPEND of a ring, or the symbols
inserted and deleted as near-end loopback begins. -/
def gotoKeys (n st : Nat) : List Nat :=
  if st = 3 then [R.LNE.TRNCNT n] else if st = 4 then (List.range 32).map R.RNG.RSTA else if st = 5 then [R.LNE.ELCNT n] else []

theorem laneKey_notMem_rsta {n off : Nat} (hn : n < 32) (hoff : off < 0x1000) :
    (0x10 + n) * 0x1000 + off ∉ (List.range 32).map R.RNG.RSTA := by
  simp only [List.mem_map, List.mem_range, not_exists, not_and, R.RNG.RSTA]
  omega

theorem laneKey_notMem_gotoKeys {n off : Nat} (st : Nat) (hn : n < 32) (hoff : off < 0x1000) (htrn : off ≠ 0x128)
    (hel : off ≠ 0x12C) : (0x10 + n) * 0x1000 + off ∉ gotoKeys n st := by
  unfold gotoKeys
  split
  · simpa using htrn
  · split
    · exact laneKey_notMem_rsta hn hoff
    · split
      · simpa using hel
      · simp

theorem State.laneShown_step (s : State) (n st : Nat) : LaneStep (laneKeys n) s (s.laneShown n st) :=
  (((LaneStep.refl _ s).setF _ _ _ (by simp [laneKeys])).setF _ _ _ (by simp [laneKeys])).setLane _ _

theorem State.laneUpEvents_step (s : State) (n : Nat) :
    LaneStep (R.IRQS (0x10 + n) :: (List.range 32).map R.RNG.RSTA) s (s.laneUpEvents n) := by
  have hup : LaneStep (R.IRQS (0x10 + n) :: (List.range 32).map R.RNG.RSTA) s (s.irq (0x10 + n) 0) :=
    (LaneStep.refl _ s).setB _ _ (List.mem_cons_self ..)
  unfold State.laneUpEvents
  split
  · next r hr =>
    refine hup.setB _ _ (List.mem_cons_of_mem _ (List.mem_map.2 ⟨r, List.mem_range.2 ?_, rfl⟩))
    unfold State.ringOfLane at hr
    split at hr
    · cases hr
    · cases hr
      exact Nat.mod_lt _ (by decide)
  · exact hup

theorem State.laneEvents_step (s : State) (n old st : Nat) :
    LaneStep (R.IRQS (0x10 + n) :: gotoKeys n st) s (s.laneEvents n old st) := by
  refine LaneStep.when (LaneStep.when (LaneStep.refl _ s) fun _ => ?_) fun hup => ?_
  · exact (LaneStep.refl _ s).setB _ _ (List.mem_cons_self ..)
  · obtain ⟨rfl, -⟩ : st = 4 ∧ old ≠ 4 := by simpa using hup
    exact State.laneUpEvents_step _ n

theorem State.exchangeBegun_step (s : State) (n : Nat) : LaneStep [R.LNE.TRNCNT n] s (s.exchangeBegun n) :=
  ((LaneStep.refl _ s).setLane _ _).setF _ _ _ (List.mem_singleton.2 rfl)

theorem State.laneEntered_step (s : State) (n st : Nat) : LaneStep (laneKeys n ++ gotoKeys n st) s (s.laneEntered n st) := by
  have hshown := (s.laneShown_step n st).mono (js := laneKeys n ++ gotoKeys n st) fun k => List.mem_append_left _
  have hevents := ((s.laneShown n st).laneEvents_step n (s.laneState n) st).mono (js := laneKeys n ++ gotoKeys n st)
    (by simp +contextual [laneKeys])
  refine ((hshown.trans hevents).when fun h3 => ?_).when fun _ => ?_
  · obtain rfl : st = 3 := of_decide_eq_true h3
    exact (State.exchangeBegun_step _ n).mono fun k => List.mem_append_right _
  · exact (LaneStep.refl _ _).setB _ _ (by simp [laneKeys])

theorem State.fifoRun_step (s : State) (n idles : Nat) :
    LaneStep [R.LNE.LNSTA n, R.LNE.ELCNT n] s (s.fifoRun n idles) := by
  have hfill : ∀ (t : State) (f : Nat), LaneStep [R.LNE.LNSTA n, R.LNE.ELCNT n] t (t.setFill n f) := fun t f =>
    ((LaneStep.refl _ t).setLane _ _).setF _ _ _ (by simp)
  unfold State.fifoRun
  dsimp only
  split
  · exact ((LaneStep.refl _ s).setLane _ _).trans (hfill _ _)
  · split
    · exact LaneStep.refl _ s
    · exact ((hfill _ _).setF _ _ _ (by simp)).setF _ _ _ (by simp)

theorem State.loopStart_step (s : State) (n : Nat) : LaneStep [R.LNE.LNSTA n, R.LNE.ELCNT n] s (s.loopStart n) :=
  ((((LaneStep.refl _ s).setLane _ _).setLane _ _).setF _ _ _ (by simp)).trans (State.fifoRun_step _ n 17)

theorem State.injSync_step (s : State) (n : Nat) (l : List OutFrame) : LaneStep [] s (s.injSync n l) := by
  unfold State.injSync
  extract_lets x on more s1
  have h1 : LaneStep [] s s1 := (LaneStep.refl _ s).setLane _ _
  split
  · exact h1
  · exact h1.send _

/-! ### What the steps write -/

section
variable (s : State) {n st : Nat} (hn : n < 32)
include hn

/-- Up to the alignment, which is dropped last, STATE and PSTA.BLK are written once. -/
theorem State.reg_laneBegun {off : Nat} (hoff : off = 0x008 ∨ off = 0x110) {u : State}
    (hu : u = ((s.laneShown n st).laneEvents n (s.laneState n) st).when (st = 3) fun t => t.exchangeBegun n) :
    u.reg ((0x10 + n) * 0x1000 + off) = (s.laneShown n st).reg ((0x10 + n) * 0x1000 + off) := by
  have hgoto : (0x10 + n) * 0x1000 + off ∉ gotoKeys n st := laneKey_notMem_gotoKeys st hn (by omega) (by omega) (by omega)
  have hirqs : (0x10 + n) * 0x1000 + off ≠ R.IRQS (0x10 + n) := by rcases hoff with rfl | rfl <;> simp
  have htrn : (0x10 + n) * 0x1000 + off ≠ R.LNE.TRNCNT n := by rcases hoff with rfl | rfl <;> simp
  rw [hu, State.when_keeps (fun t => t.reg ((0x10 + n) * 0x1000 + off))
    (fun t => (t.exchangeBegun_step n).reg (by simpa using htrn))]
  exact (State.laneEvents_step _ n _ st).reg (List.not_mem_cons_of_ne_of_not_mem hirqs hgoto)

theorem State.reg_lnsta_laneEntered : (s.laneEntered n st).reg (R.LNE.LNSTA n) =
    if st ≤ 2 then ((s.reg (R.LNE.LNSTA n)).setFld 0 3 st).setBit 5 false else (s.reg (R.LNE.LNSTA n)).setFld 0 3 st := by
  have hbegun := s.reg_laneBegun (st := st) hn (off := 0x110) (.inr rfl) rfl
  have hshown : (s.laneShown n st).reg (R.LNE.LNSTA n) = (s.reg (R.LNE.LNSTA n)).setFld 0 3 st := by
    show ((s.setF (R.LNE.LNSTA n) 0 3 st).setF (R.PSTA (0x10 + n)) 16 3 st).reg _ = _
    rw [State.reg_setF_ne _ _ _ _ (by simp), State.reg_setF_same]
  unfold State.laneEntered
  by_cases hlow : st ≤ 2
  · have hcond : (st = 2 || st = 1 || st = 0) = true := by
      simp only [Bool.or_eq_true, decide_eq_true_eq]
      omega
    rw [if_pos hlow, State.when, if_pos hcond, State.reg_setB_same, hbegun, hshown]
  · have hcond : ¬ (st = 2 || st = 1 || st = 0) = true := by
      simp only [Bool.or_eq_true, decide_eq_true_eq]
      omega
    rw [if_neg hlow, State.when, if_neg hcond, hbegun, hshown]

theorem State.laneState_laneEntered (hst : st < 8) : (s.laneEntered n st).laneState n = st := by
  have hfld : (s.laneEntered n st).laneState n = ((s.reg (R.LNE.LNSTA n)).setFld 0 3 st).fld 0 3 := by
    rw [State.laneState, State.regF, s.reg_lnsta_laneEntered hn]
    split
    · rw [Word.fld_setBit_ne _ _ (by decide) (by decide)]
    · rfl
  rw [hfld, Word.fld_setFld_same _ _ _ _ (by decide)]
  exact Nat.mod_eq_of_lt hst

theorem State.regB_lnsta_laneEntered {i : Nat} (hi : 3 ≤ i) :
    (s.laneEntered n st).regB (R.LNE.LNSTA n) i = if st ≤ 2 ∧ i = 5 then false else s.regB (R.LNE.LNSTA n) i := by
  have hfld : ((s.reg (R.LNE.LNSTA n)).setFld 0 3 st).bit i = (s.reg (R.LNE.LNSTA n)).bit i := by
    rw [Word.bit_setFld _ _ _ _ _ (by decide), if_neg (by omega)]
  rw [State.regB, s.reg_lnsta_laneEntered hn]
  by_cases hlow : st ≤ 2
  · rw [if_pos hlow, Word.bit_setBit _ _ _ _ (by decide), hfld]
    simp [hlow, State.regB]
  · rw [if_neg hlow, hfld]
    simp [hlow, State.regB]

theorem State.blk_laneEntered (hst : st < 8) : (s.laneEntered n st).regF (R.PSTA (0x10 + n)) 16 3 = st := by
  have hpsta : (s.laneEntered n st).reg (R.PSTA (0x10 + n)) = (s.reg (R.PSTA (0x10 + n))).setFld 16 3 st := by
    unfold State.laneEntered
    rw [State.when_keeps (fun t => t.reg (R.PSTA (0x10 + n))) (fun t => State.reg_setB_ne _ _ _ (by simp)),
      s.reg_laneBegun hn (.inl rfl) rfl]
    show ((s.setF (R.LNE.LNSTA n) 0 3 st).setF (R.PSTA (0x10 + n)) 16 3 st).reg _ = _
    rw [State.reg_setF_same, State.reg_setF_ne _ _ _ _ (by simp)]
  rw [State.regF, hpsta, Word.fld_setFld_same _ _ _ _ (by decide)]
  exact Nat.mod_eq_of_lt hst

end

/-- Leaving UP sets DOWN. -/
theorem State.down_laneEntered {s : State} {n st : Nat} (hold : s.laneState n = 4) (hst : st ≠ 4) :
    (s.laneEntered n st).regB (R.IRQS (0x10 + n)) 1 = true := by
  unfold State.laneEntered
  rw [State.when_keeps (fun t => t.regB (R.IRQS (0x10 + n)) 1) (fun t => State.regB_reg (State.reg_setB_ne _ _ _ (by simp)) 1),
    State.when_keeps (fun t => t.regB (R.IRQS (0x10 + n)) 1)
      (fun t => State.regB_reg ((t.exchangeBegun_step n).reg (by simp)) 1)]
  simp [State.laneEvents, State.when, hold, hst]
  exact State.regB_irq_same _ _ (by decide)

theorem State.lanes_laneUpEvents (s : State) (n : Nat) : (s.laneUpEvents n).lanes = s.lanes := by
  unfold State.laneUpEvents
  split <;> rfl

theorem State.lanes_laneEvents (s : State) (n old st : Nat) : (s.laneEvents n old st).lanes = s.lanes := by
  rw [State.laneEvents, State.when_keeps State.lanes fun t => t.lanes_laneUpEvents n]
  exact State.when_keeps State.lanes (f := fun t => t.irq (0x10 + n) 1) (fun _ => rfl) ..

theorem State.kept_laneShown (s : State) (n st : Nat) : ((s.laneShown n st).lane n).kept = (s.lane n).kept := by
  unfold State.laneShown
  rw [State.lane_setLane]
  rfl

theorem State.out_laneEntered (s : State) (n st : Nat) : (s.laneEntered n st).out = s.out := by
  have hup : ∀ t : State, (t.laneUpEvents n).out = t.out := by
    intro t
    unfold State.laneUpEvents
    split <;> rfl
  rw [State.laneEntered, State.when_keeps State.out (f := fun t => t.setB (R.LNE.LNSTA n) 5 false) fun _ => rfl,
    State.when_keeps State.out (f := fun t => t.exchangeBegun n) fun _ => rfl, State.laneEvents,
    State.when_keeps State.out (f := fun t => t.laneUpEvents n) hup,
    State.when_keeps State.out (f := fun t => t.irq (0x10 + n) 1) fun _ => rfl]
  rfl

/-- An exchange begins with TRAIN; beside that a lane keeps what it held. -/
theorem State.kept_laneEntered (s : State) (n st : Nat) : ((s.laneEntered n st).lane n).kept =
    if st = 3 then (s.lane n).kept.anew s.dt64 else (s.lane n).kept := by
  have hevents := State.lane_congr ((s.laneShown n st).lanes_laneEvents n (s.laneState n) st) n
  unfold State.laneEntered
  rw [State.when_keeps (fun t => (t.lane n).kept) (f := fun t => t.setB (R.LNE.LNSTA n) 5 false) fun _ => rfl]
  by_cases h3 : st = 3
  · have hnow : ((s.laneShown n st).laneEvents n (s.laneState n) st).dt64 = s.dt64 :=
      ((State.laneEvents_step _ n _ st).dt64).trans (s.laneShown_step n st).dt64
    rw [State.when, if_pos (decide_eq_true h3), if_pos h3, ← s.kept_laneShown n st, ← Lane.kept_anew, ← hevents, ← hnow]
    exact congrArg Lane.kept (State.lane_setLane ..)
  · rw [State.when, if_neg (by simpa using h3), if_neg h3, hevents, s.kept_laneShown]

/-! ### The injector (R147) -/

/-- Nothing of a lane's transmitter goes on from an item: it is no frame. -/
def OutFrame.bare (f : OutFrame) : Prop := ∀ s : State, s.txLine f = s

theorem State.send_bare (s : State) {l : List OutFrame} (hl : ∀ f ∈ l, f.bare) : s.send l = { s with out := l } := by
  have hfold : l.foldl State.txLine s = s := by
    induction l with
    | nil => rfl
    | cons f l ih =>
      rw [List.foldl_cons, hl f (List.mem_cons_self ..) s]
      exact ih fun g hg => hl g (List.mem_cons_of_mem _ hg)
  rw [State.send, hfold]

theorem bare_invert (n t len : Nat) (every : Option Nat) : (OutFrame.invert n t len every).bare := fun _ => rfl

theorem bare_pattern (n t pat : Nat) : (OutFrame.pattern n t pat).bare := fun _ => rfl

/-- Does an injection of kind 3 act? -/
def State.injNow (s : State) (n : Nat) : Bool := (s.lane n).inj.isSome && s.injActs n

/-- What the injector sends as an injection of kind 3 begins or ceases to act. -/
def State.injFrames (s : State) (n : Nat) : List OutFrame :=
  match (s.lane n).inj with
  | some e => if s.injNow n && !(s.lane n).injOn then [.invert n s.dt64 1 (some e)]
      else if !s.injNow n && (s.lane n).injOn then [.invert n s.dt64 0 none] else []
  | none => if (s.lane n).injOn then [.invert n s.dt64 0 none] else []

theorem State.bare_injFrames (s : State) (n : Nat) : ∀ f ∈ s.injFrames n, f.bare := by
  have hbare : ∀ (c : Bool) (f : OutFrame), f.bare → ∀ g ∈ (if c then [f] else []), g.bare := by
    intro c f hf g hg
    cases c
    · cases hg
    · exact List.mem_singleton.1 hg ▸ hf
  unfold State.injFrames
  split
  · split
    · simpa using bare_invert _ _ _ _
    · exact hbare _ _ (bare_invert _ _ _ _)
  · exact hbare _ _ (bare_invert _ _ _ _)

/-- The lane after the injector has followed the state of the lane. -/
def State.injSynced (s : State) (n : Nat) : State := s.setLane n { s.lane n with injOn := s.injNow n }

theorem State.injSync_eq (s : State) (n : Nat) {l : List OutFrame} (hl : ∀ f ∈ l, f.bare) :
    s.injSync n l = { s.injSynced n with out := if l ++ s.injFrames n = [] then s.out else l ++ s.injFrames n } := by
  have hbare : ∀ f ∈ l ++ s.injFrames n, f.bare := by
    intro f hf
    exact (List.mem_append.1 hf).elim (hl f) (s.bare_injFrames n f)
  have hdef : s.injSync n l = if (l ++ s.injFrames n).isEmpty then s.injSynced n else (s.injSynced n).send (l ++ s.injFrames n) := rfl
  rw [hdef, State.send_bare _ hbare]
  by_cases hnil : l ++ s.injFrames n = []
  · rw [if_pos (by rw [hnil]; rfl), if_pos hnil]
    rfl
  · rw [if_neg (by rwa [List.isEmpty_iff]), if_neg hnil]

theorem State.out_injSync (s : State) (n : Nat) {l : List OutFrame} (hl : ∀ f ∈ l, f.bare) :
    (s.injSync n l).out = if l ++ s.injFrames n = [] then s.out else l ++ s.injFrames n :=
  (congrArg State.out (s.injSync_eq n hl) :)

theorem State.lane_injSync (s : State) (n : Nat) {l : List OutFrame} (hl : ∀ f ∈ l, f.bare) :
    (s.injSync n l).lane n = { s.lane n with injOn := s.injNow n } := by
  rw [s.injSync_eq n hl]
  exact s.lane_setLane n _

theorem State.injFrames_quiet {s : State} {n : Nat} (h : s.injQuiet n) : s.injFrames n = [] := by
  obtain ⟨hinj, hon⟩ := h
  simp [State.injFrames, hinj, hon]

/-- An injection of kind 3 that has not acted begins to. -/
theorem State.injFrames_begins {s : State} {n e : Nat} (hinj : (s.lane n).inj = some e) (hon : (s.lane n).injOn = false)
    (hacts : s.injActs n = true) : s.injFrames n = [.invert n s.dt64 1 (some e)] := by
  simp [State.injFrames, State.injNow, hinj, hon, hacts]

theorem State.injQuiet_kept {s t : State} {n : Nat} (h : s.injQuiet n) (hinj : (t.lane n).inj = (s.lane n).inj)
    (hon : (t.lane n).injOn = (s.lane n).injOn) : t.injQuiet n := ⟨hinj.trans h.1, hon.trans h.2⟩

/-! ### Near-end loopback begins (R148) -/

/-- A lane but for the fill of its FIFO. -/
def Lane.unfilled (l : Lane) : Lane := { l with fill := 0, recentre := false }

@[simp] theorem State.lane_setFill (s : State) (n f : Nat) : (s.setFill n f).lane n = { s.lane n with fill := f } := by
  simp [State.setFill]

theorem State.unfilled_fifoRun (s : State) (n idles : Nat) : ((s.fifoRun n idles).lane n).unfilled = (s.lane n).unfilled := by
  unfold State.fifoRun
  dsimp only
  split
  · rw [State.lane_setFill, State.lane_setLane]
    rfl
  · split
    · rfl
    · rw [State.lane_setF, State.lane_setF, State.lane_setFill]
      rfl

/-- FILL stands above bit 7 of LNSTA. -/
theorem State.regB_lnsta_setFill (s : State) (n f : Nat) {i : Nat} (hi : i < 8) :
    (s.setFill n f).regB (R.LNE.LNSTA n) i = s.regB (R.LNE.LNSTA n) i := by
  unfold State.setFill
  rw [State.regB_setF _ _ _ _ _ (by decide), if_neg (by omega)]
  rfl

theorem State.regB_lnsta_fifoRun (s : State) (n idles : Nat) {i : Nat} (hi : i < 8) :
    (s.fifoRun n idles).regB (R.LNE.LNSTA n) i = s.regB (R.LNE.LNSTA n) i := by
  have helcnt : ∀ (t : State) (lo v : Nat), (t.setF (R.LNE.ELCNT n) lo 16 v).reg (R.LNE.LNSTA n) = t.reg (R.LNE.LNSTA n) :=
    fun t lo v => State.reg_setF_ne _ _ _ _ (by simp)
  unfold State.fifoRun
  dsimp only
  split
  · exact State.regB_lnsta_setFill _ _ _ hi
  · split
    · rfl
    · rw [State.regB_reg (helcnt ..), State.regB_reg (helcnt ..), State.regB_lnsta_setFill _ _ _ hi]

/-- A field of a register is told by its bits. -/
theorem State.regF_of_regB {s t : State} {k lo len : Nat} (h : ∀ i, lo ≤ i → i < lo + len → t.regB k i = s.regB k i) :
    t.regF k lo len = s.regF k lo len := by
  refine Nat.eq_of_testBit_eq fun j => ?_
  unfold State.regF Word.fld
  rw [natFld_testBit, natFld_testBit]
  by_cases hj : j < len
  · rw [show (t.reg k).toNat.testBit (lo + j) = (s.reg k).toNat.testBit (lo + j) from h _ (by omega) (by omega)]
  · simp [hj]

/-- The receiver of the lane in near-end loopback is locked and aligned: LOL clears, ALIGN sets. -/
theorem State.regB_lnsta_loopStart (s : State) (n : Nat) {i : Nat} (hi : i < 8) : (s.loopStart n).regB (R.LNE.LNSTA n) i =
    if i = 4 then false else if i = 5 then true else s.regB (R.LNE.LNSTA n) i := by
  unfold State.loopStart
  dsimp only
  rw [State.regB_lnsta_fifoRun _ _ _ hi, State.regB_setF _ _ _ _ _ (by decide)]
  by_cases h4 : i = 4
  · simp [h4]
  · by_cases h5 : i = 5
    · simpa [h5] using (by decide : Nat.testBit 2 1 = true)
    · rw [if_neg (by omega), if_neg h4, if_neg h5]
      rfl

/-- What near-end loopback leaves of a lane as it begins. -/
theorem State.unfilled_loopStart (s : State) (n : Nat) : ((s.loopStart n).lane n).unfilled =
    { ((s.txSyms n s.dt64 []).lane n).unfilled with loop := 0, rxIn := false, viol := [] } := by
  unfold State.loopStart
  dsimp only
  rw [State.unfilled_fifoRun, State.lane_setF, State.lane_setLane]
  rfl

theorem State.out_fifoRun (s : State) (n idles : Nat) : (s.fifoRun n idles).out = s.out := by
  have hfill : ∀ (t : State) (f : Nat), (t.setFill n f).out = t.out := fun _ _ => rfl
  unfold State.fifoRun
  dsimp only
  split
  · exact hfill _ 8
  · split
    · rfl
    · rw [State.setF_out, State.setF_out, hfill]

theorem State.out_loopStart (s : State) (n : Nat) : (s.loopStart n).out = s.out := by
  simp [State.loopStart, State.out_fifoRun, State.txSyms]

/-! ### A lane enters a state (R133) -/

section
variable {s : State} {n st : Nat} (hsvc : s.svc = []) (hn : n < 32) (hst : st ≤ 5)

include hn hst in
theorem State.testMode_laneEntered (h5 : st ≠ 5) : (s.laneEntered n st).testMode n = 0 := by
  rw [State.testMode, if_neg (by rwa [s.laneState_laneEntered hn (by omega)])]

include hsvc

include hn hst in
theorem State.laneGoto_step : LaneStep (laneKeys n ++ gotoKeys n st) s (s.laneGoto n st) := by
  rw [State.laneGoto_eq hsvc n st rfl]
  refine ((((s.laneEntered_step n st).when fun h2 => ?_).trans
    ((State.injSync_step _ n _).mono (by simp))).setB _ _ (by simp [laneKeys])).setB _ _ (by simp [laneKeys])
  have h5 : st = 5 := by
    by_contra h5
    rw [State.testMode_laneEntered hn hst h5] at h2
    exact absurd h2 (by decide)
  subst h5
  exact (State.loopStart_step _ n).mono (by simp [laneKeys, gotoKeys])

include hn in
/-- A state of no exchange and no test writes the lane's own status alone. -/
theorem State.laneGoto_step_low (hlow : st ≤ 2) : LaneStep (laneKeys n) s (s.laneGoto n st) := by
  have hnone : gotoKeys n st = [] := by
    rw [gotoKeys, if_neg (by omega), if_neg (by omega), if_neg (by omega)]
  have hstep := State.laneGoto_step (st := st) hsvc hn (by omega)
  rwa [hnone, List.append_nil] at hstep

/-- A register but LNSTA, PSTA and ELCNT is as it is where the lane has just entered the state. -/
theorem State.reg_laneGoto {k : Nat} (hlnsta : k ≠ R.LNE.LNSTA n) (helcnt : k ≠ R.LNE.ELCNT n) (hpsta : k ≠ R.PSTA (0x10 + n)) :
    (s.laneGoto n st).reg k = (s.laneEntered n st).reg k := by
  rw [State.laneGoto_eq hsvc n st rfl, State.setEns, State.reg_setB_ne _ _ _ hpsta, State.setIdle, State.reg_setB_ne _ _ _ hpsta,
    (State.injSync_step _ n _).reg (by simp),
    State.when_keeps (fun t => t.reg k) fun t => (t.loopStart_step n).reg (by simp [hlnsta, helcnt])]

/-- The bits of LNSTA below FILL. -/
theorem State.regB_lnsta_laneGoto {i : Nat} (hi : i < 8) : (s.laneGoto n st).regB (R.LNE.LNSTA n) i =
    if (s.laneEntered n st).testMode n = 2 then (if i = 4 then false else if i = 5 then true
      else (s.laneEntered n st).regB (R.LNE.LNSTA n) i) else (s.laneEntered n st).regB (R.LNE.LNSTA n) i := by
  have hinj : ∀ (t : State) (l : List OutFrame), (t.injSync n l).regB (R.LNE.LNSTA n) i = t.regB (R.LNE.LNSTA n) i :=
    fun t l => State.regB_reg ((t.injSync_step n l).reg (by simp)) i
  have hpsta : ∀ (t : State) (j : Nat) (b : Bool), (t.setB (R.PSTA (0x10 + n)) j b).regB (R.LNE.LNSTA n) i =
    t.regB (R.LNE.LNSTA n) i := fun t j b => State.regB_reg (State.reg_setB_ne _ _ _ (by simp)) i
  rw [State.laneGoto_eq hsvc n st rfl, State.setEns, hpsta, State.setIdle, hpsta, hinj, State.when]
  by_cases h2 : (s.laneEntered n st).testMode n = 2
  · rw [if_pos (by simpa using h2), if_pos h2, State.regB_lnsta_loopStart _ _ hi]
  · rw [if_neg (by simpa using h2), if_neg h2]

include hn hst in
theorem State.laneState_laneGoto : (s.laneGoto n st).laneState n = st := by
  refine Eq.trans (State.regF_of_regB fun i _ hi => ?_) (s.laneState_laneEntered hn (by omega : st < 8))
  rw [State.regB_lnsta_laneGoto hsvc (by omega), if_neg (by omega : ¬ i = 4), if_neg (by omega : ¬ i = 5), ite_self]

include hn hst in
theorem State.blk_laneGoto : (s.laneGoto n st).regF (R.PSTA (0x10 + n)) 16 3 = st := by
  have hloop : ∀ t : State, (t.loopStart n).reg (R.PSTA (0x10 + n)) = t.reg (R.PSTA (0x10 + n)) :=
    fun t => (t.loopStart_step n).reg (by simp)
  rw [State.laneGoto_eq hsvc n st rfl, State.setEns, State.regF_setB_ne _ _ (by decide) (by simp), State.setIdle,
    State.regF_setB_ne _ _ (by decide) (by simp), State.regF_reg ((State.injSync_step _ n _).reg (by simp)),
    State.regF_reg (State.when_keeps (fun t => t.reg (R.PSTA (0x10 + n))) hloop _ _)]
  exact s.blk_laneEntered hn (by omega)

theorem State.down_laneGoto (hold : s.laneState n = 4) (h4 : st ≠ 4) :
    (s.laneGoto n st).regB (R.IRQS (0x10 + n)) 1 = true := by
  rw [State.regB_reg (State.reg_laneGoto hsvc (by simp) (by simp) (by simp))]
  exact State.down_laneEntered hold h4

end

/-! ### A state outside TEST -/

section
variable {s : State} {n st : Nat} (hsvc : s.svc = []) (hn : n < 32) (hst : st < 5)
include hsvc hn hst

theorem State.laneGoto_untested : s.laneGoto n st =
    (((s.laneEntered n st).injSync n []).setIdle (0x10 + n) (st = 0)).setEns (0x10 + n) (decide (st ≠ 0)) := by
  have hmode := State.testMode_laneEntered (s := s) hn (by omega : st ≤ 5) (by omega)
  rw [State.laneGoto_eq hsvc n st rfl, State.when, if_neg (by simp [hmode]), if_neg (by simp [hmode])]

/-- LOS, LOL and the rest of LNSTA stand as they are; alignment is dropped outside TRAIN and UP. -/
theorem State.flag_laneGoto {i : Nat} (hlo : 3 ≤ i) (hi : i < 8) : (s.laneGoto n st).regB (R.LNE.LNSTA n) i =
    if st ≤ 2 ∧ i = 5 then false else s.regB (R.LNE.LNSTA n) i := by
  have hmode := State.testMode_laneEntered (s := s) hn (by omega : st ≤ 5) (by omega)
  rw [State.regB_lnsta_laneGoto hsvc hi, if_neg (by simp [hmode]), s.regB_lnsta_laneEntered hn hlo]

theorem State.lane_laneGoto : (s.laneGoto n st).lane n =
    { (s.laneEntered n st).lane n with injOn := (s.laneEntered n st).injNow n } := by
  rw [State.laneGoto_untested hsvc hn hst, State.setEns, State.lane_setB, State.setIdle, State.lane_setB,
    State.lane_injSync _ _ (by simp)]

theorem State.kept_laneGoto (h3 : st ≠ 3) : ((s.laneGoto n st).lane n).kept =
    { (s.lane n).kept with injOn := (s.laneEntered n st).injNow n } := by
  have hkept := s.kept_laneEntered n st
  rw [if_neg h3] at hkept
  rw [State.lane_laneGoto hsvc hn hst, ← hkept]
  rfl

theorem State.out_laneGoto (hquiet : s.injQuiet n) : (s.laneGoto n st).out = s.out := by
  have hkept := s.kept_laneEntered n st
  have hinj : ((s.laneEntered n st).lane n).inj = (s.lane n).inj ∧ ((s.laneEntered n st).lane n).injOn = (s.lane n).injOn := by
    split at hkept
    · exact ⟨(congrArg Lane.inj hkept :), (congrArg Lane.injOn hkept :)⟩
    · exact ⟨(congrArg Lane.inj hkept :), (congrArg Lane.injOn hkept :)⟩
  have hframes := State.injFrames_quiet (State.injQuiet_kept hquiet hinj.1 hinj.2)
  rw [State.laneGoto_untested hsvc hn hst, State.setEns_out, State.setIdle_out, State.out_injSync _ _ (by simp), hframes,
    if_pos (List.append_nil []), s.out_laneEntered n st]

end

/-- A training exchange begins as a lane enters TRAIN: it is counted. -/
theorem State.kept_laneGoto_train {s : State} {n : Nat} (hsvc : s.svc = []) (hn : n < 32) : ((s.laneGoto n 3).lane n).kept =
    { (s.lane n).kept.anew s.dt64 with injOn := (s.laneEntered n 3).injNow n } := by
  have hkept := s.kept_laneEntered n 3
  rw [if_pos rfl] at hkept
  rw [State.lane_laneGoto hsvc hn (by decide), ← hkept]
  rfl

theorem State.trncnt_laneGoto_train {s : State} {n : Nat} (hsvc : s.svc = []) : (s.laneGoto n 3).regF (R.LNE.TRNCNT n) 0 16 =
    satInc 16 (s.regF (R.LNE.TRNCNT n) 0 16) := by
  have hevents : ((s.laneShown n 3).laneEvents n (s.laneState n) 3).reg (R.LNE.TRNCNT n) = s.reg (R.LNE.TRNCNT n) := by
    rw [State.laneEvents, State.when, if_neg (by simp),
      State.when_keeps (fun t => t.reg (R.LNE.TRNCNT n)) fun t => State.reg_irq_ne _ (by simp)]
    exact (s.laneShown_step n 3).reg (by simp [laneKeys])
  rw [State.regF_reg (State.reg_laneGoto hsvc (by simp) (by simp) (by simp)), State.laneEntered, State.when, if_neg (by decide),
    State.when, if_pos (by decide), State.exchangeBegun, State.regF_bump, State.regF_setLane, State.regF_reg hevents]

/-! ### TEST (R145 to R148) -/

section
variable {s : State} {n : Nat} (hsvc : s.svc = []) (hn : n < 32)

include hn in
theorem State.testMode_laneEntered_test : (s.laneEntered n 5).testMode n = s.regF (R.LNE.LNCTL n) 1 2 := by
  rw [State.testMode, if_pos (s.laneState_laneEntered hn (by decide))]
  exact State.regF_reg ((s.laneEntered_step n 5).reg (by simp [laneKeys, gotoKeys])) 1 2

theorem State.lane_laneEntered_test : ((s.laneEntered n 5).lane n).inj = (s.lane n).inj ∧
    ((s.laneEntered n 5).lane n).injOn = (s.lane n).injOn := by
  have hkept := s.kept_laneEntered n 5
  rw [if_neg (by decide)] at hkept
  exact ⟨(congrArg Lane.inj hkept :), (congrArg Lane.injOn hkept :)⟩

/-- The lane with near-end loopback begun, where MODE asks for it. -/
def State.looped (s : State) (n : Nat) : State := s.when (s.testMode n = 2) fun t => t.loopStart n

include hsvc in
theorem State.laneGoto_test : s.laneGoto n 5 = ((((s.laneEntered n 5).looped n).injSync n
    (if (s.laneEntered n 5).testMode n = 1 then [.pattern n (s.laneEntered n 5).dt64 ((s.laneEntered n 5).regF (R.LNE.LNCTL n) 4 2)]
      else [])).setIdle (0x10 + n) false).setEns (0x10 + n) true := by
  rw [State.laneGoto_eq hsvc n 5 rfl]
  rfl

theorem State.inj_looped (s : State) (n : Nat) : ((s.looped n).lane n).inj = (s.lane n).inj ∧
    ((s.looped n).lane n).injOn = (s.lane n).injOn := by
  unfold State.looped State.when
  split
  · have hloop := s.unfilled_loopStart n
    rw [State.txSyms, State.lane_setLane] at hloop
    exact ⟨(congrArg Lane.inj hloop :), (congrArg Lane.injOn hloop :)⟩
  · exact ⟨rfl, rfl⟩

theorem State.out_looped (s : State) (n : Nat) : (s.looped n).out = s.out :=
  State.when_keeps State.out (fun t => t.out_loopStart n) ..

include hn

/-- In pattern mode the injector acts. -/
theorem State.injActs_laneEntered_pattern (hmode : s.regF (R.LNE.LNCTL n) 1 2 = 1) : (s.laneEntered n 5).injActs n = true := by
  simp [State.injActs, State.testMode_laneEntered_test hn, hmode]

include hsvc

/-- A mode other than the pattern's sends nothing as it begins. -/
theorem State.out_laneGoto_silent (hmode : s.regF (R.LNE.LNCTL n) 1 2 ≠ 1) (hquiet : s.injQuiet n) :
    (s.laneGoto n 5).out = s.out := by
  have hinj := State.inj_looped (s.laneEntered n 5) n
  have hent := State.lane_laneEntered_test (s := s) (n := n)
  have hframes := State.injFrames_quiet (State.injQuiet_kept hquiet (hinj.1.trans hent.1) (hinj.2.trans hent.2))
  rw [State.laneGoto_test hsvc, State.testMode_laneEntered_test hn, if_neg hmode, State.setEns_out, State.setIdle_out,
    State.out_injSync _ _ (by simp), hframes, if_pos (List.append_nil []), State.out_looped, s.out_laneEntered n 5]

/-- In pattern mode the lane sends the pattern, and an injection of kind 3 that stands begins to act. -/
theorem State.out_laneGoto_pattern (hmode : s.regF (R.LNE.LNCTL n) 1 2 = 1) : (s.laneGoto n 5).out =
    .pattern n s.dt64 (s.regF (R.LNE.LNCTL n) 4 2) :: (s.laneEntered n 5).injFrames n := by
  have htest := State.testMode_laneEntered_test (s := s) hn
  have hctl : (s.laneEntered n 5).regF (R.LNE.LNCTL n) 4 2 = s.regF (R.LNE.LNCTL n) 4 2 :=
    State.regF_reg ((s.laneEntered_step n 5).reg (by simp [laneKeys, gotoKeys])) 4 2
  have hloop : (s.laneEntered n 5).looped n = s.laneEntered n 5 := by
    rw [State.looped, State.when, if_neg (by simp [htest, hmode])]
  have hbare : ∀ f ∈ [OutFrame.pattern n s.dt64 (s.regF (R.LNE.LNCTL n) 4 2)], f.bare :=
    fun f hf => List.mem_singleton.1 hf ▸ bare_pattern _ _ _
  rw [State.laneGoto_test hsvc, htest, hctl, (s.laneEntered_step n 5).dt64, if_pos hmode, hloop, State.setEns_out,
    State.setIdle_out, State.out_injSync _ _ hbare, if_neg (by simp)]
  rfl

theorem State.loop_laneGoto (hmode : s.regF (R.LNE.LNCTL n) 1 2 = 2) : ((s.laneGoto n 5).lane n).loop = 0 := by
  have htest := State.testMode_laneEntered_test (s := s) hn
  have hloop := (s.laneEntered n 5).unfilled_loopStart n
  rw [State.laneGoto_test hsvc, State.setEns, State.lane_setB, State.setIdle, State.lane_setB, htest, if_neg (by omega),
    State.lane_injSync _ _ (by simp), State.looped, State.when, if_pos (by simp [htest, hmode])]
  exact (congrArg Lane.loop hloop :)

end

end Sys2Proof.Machine
end

section
/-! Proofs: loss of signal, of lock and of alignment of a lane (chapter 04, R133 to R137, R151). -/

namespace Sys2Proof.Machine

theorem exec_losSet (lane : Fin 32) (dark : Bool) (pwr : BitVec 16) (s : State) :
    exec (.losSet lane dark pwr) s = .next ((s.losSet lane.val dark pwr).tieSettle) := rfl
theorem exec_losClear (lane : Fin 32) (pwr : BitVec 16) (s : State) :
    exec (.losClear lane pwr) s = .next ((s.losClear lane.val pwr).tieSettle) := rfl
theorem exec_laneLocked (rx : LaneLock) (s : State) :
    exec (.laneLocked rx) s = .next ((s.laneLocked rx.lane.val rx.comma).tieSettle) := rfl
theorem exec_lolSet (lane : Fin 32) (s : State) : exec (.lolSet lane) s = .next ((s.lolSet lane.val).tieSettle) := rfl
theorem exec_alignmentLoss (lane : Fin 32) (s : State) :
    exec (.alignmentLoss lane) s = .next ((s.alignLost lane.val).tieSettle) := rfl

/-! ### Moves that raise a fault -/

namespace LaneStep

variable {ks : List Nat} {s t : State}

theorem bump (h : LaneStep ks s t) {k : Nat} (hk : k ∈ ks) : LaneStep ks s (t.bump k) := h.setReg _ hk

/-- The same with Scribe moved. -/
theorem rest_scribe (h : LaneStep ks s t) (c : Scribe) : { t with scribe := c } =
    { s with regs := t.regs, scribe := c, lanes := t.lanes, out := t.out } :=
  congrArg (fun x : State => { x with scribe := c }) h.rest

theorem scribe (h : LaneStep ks s t) : t.scribe = s.scribe := (congrArg State.scribe h.rest :)

/-- A fault raised after the step. -/
theorem raised (h : LaneStep ks s t) (src page a m acc d : Nat) : s.raised (t.fault src page a m acc d) src page :=
  State.raised_fault_of (congrArg Scribe.inflight h.scribe) _ _ _ _ _ _

end LaneStep

/-- Quiet before a state other than TRAIN and TEST is entered, the injector is quiet after. -/
theorem State.injQuiet_laneGoto {s : State} {n st : Nat} (hsvc : s.svc = []) (hn : n < 32) (hst : st < 5) (h3 : st ≠ 3)
    (hquiet : s.injQuiet n) : (s.laneGoto n st).injQuiet n := by
  have hkept := State.kept_laneGoto hsvc hn hst h3
  have hent := s.kept_laneEntered n st
  rw [if_neg h3] at hent
  have hinj : ((s.laneEntered n st).lane n).inj = none := (congrArg Lane.inj hent :).trans hquiet.1
  refine ⟨(congrArg Lane.inj hkept :).trans hquiet.1, (congrArg Lane.injOn hkept :).trans ?_⟩
  simp [State.injNow, hinj]

/-! ### LOS (R134, R136) -/

theorem State.losSet_dark {s : State} {n : Nat} (h : s.fibre n = false) (dark : Bool) (pwr : BitVec 16) :
    s.losSet n dark pwr = s := by
  rw [State.losSet, h]
  rfl

theorem State.losClear_dark {s : State} {n : Nat} (h : s.fibre n = false) (pwr : BitVec 16) : s.losClear n pwr = s := by
  rw [State.losClear, h]
  rfl

/-- LOS shows and is counted, and with it the power. -/
def State.losShown (s : State) (n : Nat) (pwr : BitVec 16) : State :=
  ((s.setReg (R.LNE.PWR n) (wd pwr.toNat)).setB (R.LNE.LNSTA n) 3 true).bump (R.LNE.LOSCNT n)

/-- A lane whose signal is lost waits for one. -/
def State.darkened (s : State) (n : Nat) (pwr : BitVec 16) : State := (s.losShown n pwr).laneGoto n 1

section
variable {s : State} {n : Nat} {pwr : BitVec 16}

theorem State.losSet_lost (hfibre : s.fibre n = true) (hlow : pwr.toInt < s.losTh n) (hlo : 2 ≤ s.laneState n)
    (hhi : s.laneState n ≤ 4) (hlos : s.regB (R.LNE.LNSTA n) 3 = false) (dark : Bool) : s.losSet n dark pwr =
      ((s.darkened n pwr).withdrawLol n).fault (if dark then Src.LANE_DARK else Src.LANE_LOS) (0x10 + n) n := by
  have hstate : (s.setReg (R.LNE.PWR n) (wd pwr.toNat)).laneState n = s.laneState n :=
    State.regF_reg (State.reg_setReg_ne _ _ (by simp)) 0 3
  have hgoes : (s.laneState n = 2 || s.laneState n = 3 || s.laneState n = 4) = true := by
    simp only [Bool.or_eq_true, decide_eq_true_eq]
    omega
  rw [State.losSet, hfibre, if_neg (by decide), State.when, if_pos (by simp [State.los, hlos, hlow]), State.losOn, hstate,
    State.when, if_pos hgoes, State.darkened, State.losShown]

theorem State.losShown_step (s : State) (n : Nat) (pwr : BitVec 16) :
    LaneStep (laneKeys n ++ [R.LNE.PWR n, R.LNE.LOSCNT n]) s (s.losShown n pwr) :=
  (((LaneStep.refl _ s).setReg _ (by simp [laneKeys])).setB _ _ (by simp [laneKeys])).bump (by simp [laneKeys])

theorem State.losShown_regs (s : State) (n : Nat) (pwr : BitVec 16) : (s.losShown n pwr).regB (R.LNE.LNSTA n) 3 = true ∧
    (s.losShown n pwr).reg (R.LNE.PWR n) = wd pwr.toNat ∧
    (s.losShown n pwr).regF (R.LNE.LOSCNT n) 0 16 = satInc 16 (s.regF (R.LNE.LOSCNT n) 0 16) := by
  refine ⟨?_, ?_, ?_⟩
  · rw [State.losShown, State.regB_reg (State.reg_bump_ne _ (by simp)), State.regB_setB_same _ _ _ _ (by decide)]
  · rw [State.losShown, State.reg_bump_ne _ (by simp), State.reg_setB_ne _ _ _ (by simp), State.reg_setReg_same]
  · rw [State.losShown, State.regF_bump, State.regF_reg (State.reg_setB_ne _ _ _ (by simp)),
      State.regF_reg (State.reg_setReg_ne _ _ (by simp))]

/-- A raise of LANE_LOL on a lane's page at an instant. -/
def Raise.lolAt (n t : Nat) (r : Raise) : Bool := r.src == Src.LANE_LOL && r.page == 0x10 + n && r.time == t

/-- LOS raises its own source alone: the LANE_LOL raises of the cycle are withdrawn, and no other is. -/
theorem State.raised_withdrawn {s t : State} {n src : Nat} (ht : t.scribe = s.scribe) (hnow : t.dt64 = s.dt64) (hsrc : src ≠ Src.LANE_LOL) :
    ((t.withdrawLol n).fault src (0x10 + n) n).scribe.inflight.any (Raise.lolAt n s.dt64) = false ∧
    (s.scribe.inflight.any (Raise.lolAt n s.dt64) = false → s.raised ((t.withdrawLol n).fault src (0x10 + n) n) src (0x10 + n)) := by
  have hleft : (t.withdrawLol n).scribe.inflight = s.scribe.inflight.filter fun r => !r.lolAt n s.dt64 := by
    rw [← ht, ← hnow]
    rfl
  constructor
  · have hown : ∀ r : Raise, r.src = src → r.lolAt n s.dt64 = false := by
      intro r hr
      simp [Raise.lolAt, hr, hsrc]
    show (_ ++ [_]).any _ = false
    rw [hleft, List.any_append, List.any_filter]
    simp [hown]
  · intro hnone
    refine State.raised_fault_of ?_ _ _ _ _ _ _
    rw [hleft, List.filter_eq_self]
    intro r hr
    simpa using List.any_eq_false.1 hnone r hr

variable (hsvc : s.svc = []) (hn : n < 32)
include hsvc hn

theorem State.darkened_step : LaneStep (laneKeys n ++ [R.LNE.PWR n, R.LNE.LOSCNT n]) s (s.darkened n pwr) :=
  (s.losShown_step n pwr).trans ((State.laneGoto_step_low (s := s.losShown n pwr) hsvc hn (by decide)).mono
    fun _ => List.mem_append_left _)

theorem State.darkened_spec : (s.darkened n pwr).laneState n = 1 ∧ (s.darkened n pwr).regB (R.LNE.LNSTA n) 3 = true ∧
    (s.darkened n pwr).regB (R.LNE.LNSTA n) 5 = false ∧ (s.darkened n pwr).regF (R.PSTA (0x10 + n)) 16 3 = 1 ∧
    (s.darkened n pwr).reg (R.LNE.PWR n) = wd pwr.toNat ∧
    (s.darkened n pwr).regF (R.LNE.LOSCNT n) 0 16 = satInc 16 (s.regF (R.LNE.LOSCNT n) 0 16) := by
  obtain ⟨hlos, hpwr, hcnt⟩ := s.losShown_regs n pwr
  have hsvc' : (s.losShown n pwr).svc = [] := hsvc
  have hgoto := State.laneGoto_step_low hsvc' hn (by decide : 1 ≤ 2)
  refine ⟨State.laneState_laneGoto hsvc' hn (by decide), ?_, ?_, State.blk_laneGoto hsvc' hn (by decide), ?_, ?_⟩
  · exact (State.flag_laneGoto hsvc' hn (by decide) (by decide) (by decide)).trans hlos
  · exact State.flag_laneGoto hsvc' hn (by decide) (by decide) (by decide)
  · exact (hgoto.reg (by simp [laneKeys])).trans hpwr
  · exact (State.regF_reg (hgoto.reg (by simp [laneKeys])) 0 16).trans hcnt

omit hn in
theorem State.down_darkened (hup : s.laneState n = 4) : (s.darkened n pwr).regB (R.IRQS (0x10 + n)) 1 = true := by
  have hstate : (s.losShown n pwr).laneState n = s.laneState n := by
    unfold State.laneState State.losShown
    rw [State.regF_reg (State.reg_bump_ne _ (by simp)), State.regF_setB_ne _ _ (by decide) (by simp),
      State.regF_reg (State.reg_setReg_ne _ _ (by simp))]
  exact State.down_laneGoto (s := s.losShown n pwr) hsvc (hstate.trans hup) (by decide)

theorem State.out_darkened (hquiet : s.injQuiet n) : (s.darkened n pwr).out = s.out :=
  State.out_laneGoto (s := s.losShown n pwr) hsvc hn (by decide) hquiet

end

/-! ### A signal is there (R133, R134) -/

section
variable {s : State} {n : Nat} (hsvc : s.svc = []) (hn : n < 32)
include hsvc hn

/-- From SIGNAL_WAIT with LOS clear a lane goes on to LOCKING; nothing else does it. -/
theorem State.laneSettle_spec : LaneStep (laneKeys n) s (s.laneSettle n) ∧
    (s.laneSettle n).regB (R.LNE.LNSTA n) 3 = s.regB (R.LNE.LNSTA n) 3 ∧
    (s.laneSettle n).laneState n =
      (if s.laneState n = 1 ∧ s.regB (R.LNE.LNSTA n) 3 = false then 2 else s.laneState n) ∧
    (s.injQuiet n → (s.laneSettle n).out = s.out) := by
  by_cases hgo : s.laneState n = 1 ∧ s.regB (R.LNE.LNSTA n) 3 = false
  · have hsettle : s.laneSettle n = s.laneGoto n 2 := by
      rw [State.laneSettle, State.when, if_pos (by simpa using hgo)]
    rw [hsettle, if_pos hgo]
    exact ⟨State.laneGoto_step_low hsvc hn (by decide), State.flag_laneGoto hsvc hn (by decide) (by decide) (by decide),
      State.laneState_laneGoto hsvc hn (by decide), State.out_laneGoto hsvc hn (by decide)⟩
  · have hsettle : s.laneSettle n = s := by
      rw [State.laneSettle, State.when, if_neg (by simpa using hgo)]
    rw [hsettle, if_neg hgo]
    exact ⟨LaneStep.refl _ s, rfl, rfl, fun _ => rfl⟩

theorem State.losClear_spec {pwr : BitVec 16} (hfibre : s.fibre n = true) {t : State} (ht : t = s.losClear n pwr) :
    LaneStep (laneKeys n ++ [R.LNE.PWR n]) s t ∧ t.reg (R.LNE.PWR n) = wd pwr.toNat ∧
    (s.losTh n + 10 ≤ pwr.toInt → t.regB (R.LNE.LNSTA n) 3 = false ∧
      t.laneState n = (if s.laneState n = 1 then 2 else s.laneState n)) ∧
    (pwr.toInt < s.losTh n + 10 → regsBut s t [R.LNE.PWR n]) ∧ (s.injQuiet n → t.out = s.out) := by
  have hpwr := (LaneStep.refl (laneKeys n ++ [R.LNE.PWR n]) s).setReg (k := R.LNE.PWR n) (wd pwr.toNat) (by simp)
  rw [State.losClear, hfibre, if_neg (by decide), State.when] at ht
  by_cases hgood : s.losTh n + 10 ≤ pwr.toInt
  · rw [if_pos (by simpa using hgood)] at ht
    generalize hu : (s.setReg (R.LNE.PWR n) (wd pwr.toNat)).setB (R.LNE.LNSTA n) 3 false = u at ht
    have hstep : LaneStep (laneKeys n ++ [R.LNE.PWR n]) s u := hu ▸ hpwr.setB _ _ (by simp [laneKeys])
    have hupwr : u.reg (R.LNE.PWR n) = wd pwr.toNat := by
      rw [← hu, State.reg_setB_ne _ _ _ (by simp), State.reg_setReg_same]
    have hulos : u.regB (R.LNE.LNSTA n) 3 = false := by
      rw [← hu, State.regB_setB_same _ _ _ _ (by decide)]
    have hustate : u.laneState n = s.laneState n := by
      rw [← hu, State.laneState, State.regF_setB_ne _ _ (by decide) (by simp), State.regF_reg (State.reg_setReg_ne _ _ (by simp))]
      rfl
    have huinj : s.injQuiet n → u.injQuiet n := by
      subst hu
      exact id
    have huout : u.out = s.out := by rw [← hu]; rfl
    obtain ⟨hgoto, hlos, hstate, hout⟩ := State.laneSettle_spec (hstep.svc.trans hsvc) hn
    rw [← ht] at hgoto hlos hstate hout
    refine ⟨hstep.trans (hgoto.mono fun _ => List.mem_append_left _), ?_, fun _ => ⟨hlos.trans hulos, ?_⟩,
      fun hbad => absurd hgood (by omega), fun hquiet => (hout (huinj hquiet)).trans huout⟩
    · exact (hgoto.reg (by simp [laneKeys])).trans hupwr
    · simpa [hulos, hustate] using hstate
  · rw [if_neg (by simpa using hgood)] at ht
    subst ht
    exact ⟨hpwr, State.reg_setReg_same .., fun h => absurd h hgood, fun _ => (regsBut.refl s _).setReg _ (by simp), fun _ => rfl⟩

end

/-! ### Lock and alignment (R135) -/

/-- The lane as its receiver aligns to K28.5 of a disparity, before it enters TRAIN. -/
def State.aligned (s : State) (n : Nat) (rd : Bool) : State :=
  ((s.setLane n { s.lane n with rxRd := (codeGroup (.k kIdle) rd).2, rxCount := 0, rxIn := false, viol := [] }).setB
    (R.LNE.LNSTA n) 4 false).setB (R.LNE.LNSTA n) 5 true

theorem comma_inj : ∀ rd r : Bool, ((codeGroup (.k kIdle) r).1 == (codeGroup (.k kIdle) rd).1) = decide (r = rd) := by decide

theorem State.laneLocked_locks {s : State} {n : Nat} (hlocking : s.laneState n = 2) (rd : Bool) :
    s.laneLocked n (codeGroup (.k kIdle) rd).1 = (s.aligned n rd).laneGoto n 3 := by
  have hfind : ([false, true].find? fun r => (codeGroup (.k kIdle) r).1 == (codeGroup (.k kIdle) rd).1) = some rd := by
    simp only [comma_inj]
    cases rd <;> rfl
  rw [State.laneLocked, hfind]
  exact if_pos hlocking

theorem State.laneLocked_ignored {s : State} {n : Nat} {comma : BitVec 10}
    (h : s.laneState n ≠ 2 ∨ ∀ rd, (codeGroup (.k kIdle) rd).1 ≠ comma) : s.laneLocked n comma = s := by
  unfold State.laneLocked
  split
  · rfl
  · next rd hfind =>
    have hcomma : (codeGroup (.k kIdle) rd).1 = comma := by simpa using List.find?_some hfind
    rw [if_neg (h.resolve_right fun hno => hno rd hcomma)]

section
variable {s : State} {n : Nat} (hsvc : s.svc = []) (hn : n < 32)
include hsvc hn

theorem State.locked_spec {rd : Bool} {t : State} (ht : t = (s.aligned n rd).laneGoto n 3) :
    LaneStep (laneKeys n ++ [R.LNE.TRNCNT n]) s t ∧ t.laneState n = 3 ∧
    t.regB (R.LNE.LNSTA n) 4 = false ∧ t.regB (R.LNE.LNSTA n) 5 = true ∧
    t.regF (R.LNE.TRNCNT n) 0 16 = satInc 16 (s.regF (R.LNE.TRNCNT n) 0 16) ∧ (s.injQuiet n → t.out = s.out) := by
  generalize hu : s.aligned n rd = u at ht
  have hstep : LaneStep (laneKeys n ++ [R.LNE.TRNCNT n]) s u := by
    rw [← hu]
    exact (((LaneStep.refl _ s).setLane _ _).setB _ _ (by simp [laneKeys])).setB _ _ (by simp [laneKeys])
  have hlol : u.regB (R.LNE.LNSTA n) 4 = false := by
    rw [← hu, State.aligned, State.regB_setB _ _ _ _ _ (by decide), if_neg (by simp), State.regB_setB_same _ _ _ _ (by decide)]
  have halign : u.regB (R.LNE.LNSTA n) 5 = true := by
    rw [← hu, State.aligned, State.regB_setB_same _ _ _ _ (by decide)]
  have hcnt : u.regF (R.LNE.TRNCNT n) 0 16 = s.regF (R.LNE.TRNCNT n) 0 16 := by
    rw [← hu, State.aligned, State.regF_setB_ne _ _ (by decide) (by simp), State.regF_setB_ne _ _ (by decide) (by simp)]
    rfl
  have hinj : s.injQuiet n → u.injQuiet n := by
    intro hquiet
    rw [← hu]
    refine State.injQuiet_kept hquiet ?_ ?_ <;> simp [State.aligned]
  have hout : u.out = s.out := by rw [← hu]; rfl
  have hsvc' : u.svc = [] := hstep.svc.trans hsvc
  subst ht
  refine ⟨hstep.trans (State.laneGoto_step (st := 3) hsvc' hn (by decide)), State.laneState_laneGoto hsvc' hn (by decide),
    (State.flag_laneGoto hsvc' hn (by decide) (by decide) (by decide)).trans hlol,
    (State.flag_laneGoto hsvc' hn (by decide) (by decide) (by decide)).trans halign,
    (State.trncnt_laneGoto_train hsvc').trans (congrArg _ hcnt),
    fun hquiet => (State.out_laneGoto hsvc' hn (by decide) (hinj hquiet)).trans hout⟩

/-- The receiver counts from the K28.5 it took, and the exchange is new. -/
theorem State.locked_lane (rd : Bool) {x : Lane} (hx : x = ((s.aligned n rd).laneGoto n 3).lane n) :
    x.rxRd = (codeGroup (.k kIdle) rd).2 ∧ x.rxCount = 0 ∧ x.rxIn = false ∧ x.train = (s.lane n).train.anew s.dt64 := by
  have hkept := State.kept_laneGoto_train (s := s.aligned n rd) hsvc hn
  rw [← hx, State.aligned, State.lane_setB, State.lane_setB, State.lane_setLane] at hkept
  exact ⟨(congrArg Lane.rxRd hkept :), (congrArg Lane.rxCount hkept :), (congrArg Lane.rxIn hkept :), (congrArg Lane.train hkept :)⟩

end

/-- A lane whose lock or alignment is lost: it is counted, and TRAIN and UP fall back to LOCKING. -/
def State.unlocked (s : State) (n : Nat) : State :=
  (s.bump (R.LNE.LOLCNT n)).when (s.laneState n = 3 || s.laneState n = 4) fun t => t.laneGoto n 2

section
variable {s : State} {n : Nat} (hsvc : s.svc = []) (hn : n < 32)
include hsvc hn

theorem State.unlocked_spec : LaneStep (laneKeys n ++ [R.LNE.LOLCNT n]) s (s.unlocked n) ∧
    (s.unlocked n).laneState n = (if s.laneState n = 3 ∨ s.laneState n = 4 then 2 else s.laneState n) ∧
    (s.unlocked n).regF (R.LNE.LOLCNT n) 0 16 = satInc 16 (s.regF (R.LNE.LOLCNT n) 0 16) ∧
    (s.laneState n = 3 ∨ s.laneState n = 4 → (s.unlocked n).regB (R.LNE.LNSTA n) 5 = false) ∧
    (s.laneState n = 4 → (s.unlocked n).regB (R.IRQS (0x10 + n)) 1 = true) ∧
    ((s.unlocked n).lane n).viol = (s.lane n).viol ∧ (s.injQuiet n → (s.unlocked n).out = s.out) := by
  generalize hu : s.bump (R.LNE.LOLCNT n) = u
  have hbump : LaneStep (laneKeys n ++ [R.LNE.LOLCNT n]) s u := hu ▸ (LaneStep.refl _ s).bump (by simp)
  have hcnt : u.regF (R.LNE.LOLCNT n) 0 16 = satInc 16 (s.regF (R.LNE.LOLCNT n) 0 16) := hu ▸ s.regF_bump _
  have hsvc' : u.svc = [] := hbump.svc.trans hsvc
  have hstate : u.laneState n = s.laneState n := hu ▸ State.regF_reg (State.reg_bump_ne _ (by simp)) 0 3
  have hlane : u.lane n = s.lane n := hu ▸ rfl
  have hout : u.out = s.out := hu ▸ rfl
  by_cases hgo : s.laneState n = 3 ∨ s.laneState n = 4
  · have hlost : s.unlocked n = u.laneGoto n 2 := by
      rw [State.unlocked, hu]
      exact if_pos (by simpa using hgo)
    have hgoto := State.laneGoto_step_low hsvc' hn (by decide : 2 ≤ 2)
    rw [hlost, if_pos hgo]
    refine ⟨hbump.trans (hgoto.mono fun _ => List.mem_append_left _), State.laneState_laneGoto hsvc' hn (by decide), ?_,
      fun _ => State.flag_laneGoto hsvc' hn (by decide) (by decide) (by decide),
      fun hup => State.down_laneGoto hsvc' (hstate.trans hup) (by decide), ?_, fun hquiet => ?_⟩
    · exact (State.regF_reg (hgoto.reg (by simp [laneKeys])) 0 16).trans hcnt
    · rw [← hlane]
      exact (congrArg Lane.viol (State.kept_laneGoto hsvc' hn (by decide : 2 < 5) (by decide)) :)
    · have hquiet' : u.injQuiet n := State.injQuiet_kept hquiet (congrArg Lane.inj hlane) (congrArg Lane.injOn hlane)
      exact (State.out_laneGoto hsvc' hn (by decide) hquiet').trans hout
  · have hstays : s.unlocked n = u := by
      rw [State.unlocked, hu]
      exact if_neg (by simpa using hgo)
    rw [hstays, if_neg hgo]
    exact ⟨hbump, hstate, hcnt, fun h => absurd h hgo, fun h => absurd (.inr h) hgo, congrArg Lane.viol hlane, fun _ => hout⟩

end

theorem State.lockLost_eq (s : State) (n : Nat) : s.lockLost n =
    (s.unlocked n).when (s.laneState n = 3 || s.laneState n = 4) fun t => t.fault Src.LANE_LOL (0x10 + n) n := by
  unfold State.lockLost State.unlocked State.when
  dsimp only
  split
  · rfl
  · rfl

/-- Loss of lock with the bit of LNSTA that says of which kind. -/
theorem State.lockLost_raises (s : State) (n i : Nat) (b : Bool) {t : State} (ht : t = (s.lockLost n).setB (R.LNE.LNSTA n) i b) :
    t = { (s.unlocked n).setB (R.LNE.LNSTA n) i b with scribe := t.scribe } ∧
    (s.laneState n = 3 ∨ s.laneState n = 4 → (s.unlocked n).raised t Src.LANE_LOL (0x10 + n)) := by
  rw [State.lockLost_eq, State.when] at ht
  generalize s.unlocked n = u at *
  split at ht
  · subst ht
    exact ⟨rfl, fun _ => State.raised_fault u _ _ _ _ _ _⟩
  · next hno =>
    subst ht
    exact ⟨rfl, fun h => absurd (by simpa using h) hno⟩

section
variable {s : State} {n : Nat} (hsvc : s.svc = []) (hn : n < 32)
include hsvc hn

/-- What losing lock (`i` = 4) or alignment (`i` = 5) does. -/
theorem State.lockLost_spec {i : Nat} (hi : i = 4 ∨ i = 5) (b : Bool) {t : State} (ht : t = (s.lockLost n).setB (R.LNE.LNSTA n) i b) :
    t.laneState n = (if s.laneState n = 3 ∨ s.laneState n = 4 then 2 else s.laneState n) ∧
    t.regB (R.LNE.LNSTA n) i = b ∧ (t.lane n).viol = (s.lane n).viol ∧
    t.regF (R.LNE.LOLCNT n) 0 16 = satInc 16 (s.regF (R.LNE.LOLCNT n) 0 16) ∧
    (s.laneState n = 3 ∨ s.laneState n = 4 → (i = 5 → b = false) → t.regB (R.LNE.LNSTA n) 5 = false) ∧
    (s.laneState n = 3 ∨ s.laneState n = 4 → s.raised t Src.LANE_LOL (0x10 + n)) ∧
    (s.laneState n = 4 → t.regB (R.IRQS (0x10 + n)) 1 = true) ∧
    regsBut s t (laneKeys n ++ [R.LNE.LOLCNT n]) ∧ (s.injQuiet n → t.out = s.out) ∧
    t = { s with regs := t.regs, scribe := t.scribe, lanes := t.lanes, out := t.out } := by
  obtain ⟨hstep, hstate, hcnt, halign, hdown, hviol, hout⟩ := State.unlocked_spec hsvc hn
  obtain ⟨hframe, hraised⟩ := s.lockLost_raises n i b ht
  generalize s.unlocked n = u at *
  have hset : LaneStep (laneKeys n ++ [R.LNE.LOLCNT n]) s (u.setB (R.LNE.LNSTA n) i b) := hstep.setB _ _ (by simp [laneKeys])
  generalize hv : u.setB (R.LNE.LNSTA n) i b = v at hframe hset
  have hbit : ∀ x, v.regB (R.LNE.LNSTA n) x = if x = i then b else u.regB (R.LNE.LNSTA n) x := by
    intro x
    rw [← hv, State.regB_setB _ _ _ _ _ (by omega)]
    simp
  have hother : ∀ k, k ≠ R.LNE.LNSTA n → v.reg k = u.reg k := fun k hk => hv ▸ State.reg_setB_ne _ _ _ hk
  have hvstate : v.laneState n = u.laneState n := hv ▸ State.regF_setB_ne _ _ (by omega) (by omega)
  have hlane : v.lane n = u.lane n := hv ▸ rfl
  have hvout : v.out = u.out := hv ▸ rfl
  rw [hframe]
  refine ⟨hvstate.trans hstate, (hbit i).trans (if_pos rfl), ?_, ?_, fun hlost hi5 => ?_, fun hlost => ?_, fun hup => ?_, ?_,
    fun hquiet => hvout.trans (hout hquiet), hset.rest_scribe _⟩
  · exact (congrArg Lane.viol hlane).trans hviol
  · exact (State.regF_reg (hother _ (by simp)) 0 16).trans hcnt
  · refine (hbit 5).trans ?_
    split
    · exact hi5 (Eq.symm ‹_›)
    · exact halign hlost
  · exact State.raised_congr (hraised hlost) hstep.scribe.symm rfl
  · exact (State.regB_reg (hother _ (by simp)) 1).trans (hdown hup)
  · exact hset.regs.regs rfl

end

/-- The pairing of the heads stands on a page of its own. -/
theorem pcfg_notMem_lane {n : Nat} (hn : n < 32) {offs : List Nat} (hoffs : ∀ off ∈ offs, off < 0x1000) :
    R.HPR.PCFG ∉ offs.map fun off => (0x10 + n) * 0x1000 + off := by
  intro hmem
  obtain ⟨off, hoff, hkey⟩ := List.mem_map.1 hmem
  have hlt := hoffs off hoff
  have hpcfg : R.HPR.PCFG = 0x88100 := rfl
  omega

/-- Settles O27: each loss or gain moves the lane by `laneGoto`, whose effects are stated once. -/
theorem laneTransitions : Obligations.LaneTransitions := by
  rintro s n hpaired hsvc m rfl
  have hn : n.val < 32 := n.isLt
  refine ⟨fun dark pwr => ⟨fun hdark => ?_, fun hfibre hlow hlo hhi hlos => ?_⟩, fun pwr => ⟨fun hdark => ?_, fun hfibre => ?_⟩,
    fun comma hno => ?_, fun hlocking rd => ?_, fun c hc => ⟨fun hdark => ?_, fun hal hno => ?_, fun hfibre hlost => ?_⟩⟩
  · rw [exec_losSet, State.losSet_dark hdark, State.tieSettle_unpaired hpaired]
  · have hset := State.losSet_lost hfibre hlow hlo hhi hlos dark
    have hstep := State.darkened_step (pwr := pwr) hsvc hn
    have hdown := State.down_darkened (n := n) (pwr := pwr) hsvc
    have hout := State.out_darkened (pwr := pwr) hsvc hn
    obtain ⟨hstate, hlos', halign, hblk, hpwr, hcnt⟩ := State.darkened_spec (pwr := pwr) hsvc hn
    have hunpaired := (hstep.paired (pcfg_notMem_lane hn (offs := [0x110, 8, 0xC, 0x118, 0x120]) (by decide))).trans hpaired
    generalize s.darkened n pwr = u at *
    refine ⟨(u.withdrawLol n).fault (if dark then Src.LANE_DARK else Src.LANE_LOS) (0x10 + n) n, ?_,
      hstate, hlos', halign, hblk, hpwr, hcnt, fun h hh => ?_, hdown, hstep.regs.regs rfl, hout, hstep.rest_scribe _⟩
    · rw [exec_losSet, hset, State.tieSettle_unpaired]
      exact hunpaired
    · obtain rfl : h = Raise.lolAt n s.dt64 := funext hh
      exact State.raised_withdrawn hstep.scribe hstep.dt64 (by cases dark <;> decide)
  · rw [exec_losClear, State.losClear_dark hdark, State.tieSettle_unpaired hpaired]
  · obtain ⟨hstep, hpwr, hgood, hbad, hout⟩ := State.losClear_spec (pwr := pwr) hsvc hn hfibre rfl
    have hunpaired := (hstep.paired (pcfg_notMem_lane hn (offs := [0x110, 8, 0xC, 0x118]) (by decide))).trans hpaired
    exact ⟨_, by rw [exec_losClear, State.tieSettle_unpaired hunpaired], hpwr, hgood, hbad, hstep.regs, hout, hstep.rest⟩
  · rw [exec_laneLocked, State.laneLocked_ignored hno, State.tieSettle_unpaired hpaired]
  · obtain ⟨hstep, hstate, hlol, halign, hcnt, hout⟩ := State.locked_spec (rd := rd) hsvc hn rfl
    obtain ⟨hrd, hcount, hin, htrain⟩ := State.locked_lane hsvc hn rd rfl
    have hunpaired := (hstep.paired (pcfg_notMem_lane hn (offs := [0x110, 8, 0xC, 0x128]) (by decide))).trans hpaired
    refine ⟨_, by rw [exec_laneLocked, State.laneLocked_locks hlocking, State.tieSettle_unpaired hunpaired], hstate, hlol, halign,
      hrd, hcount, hin, ?_, ?_, ?_, hcnt, hstep.regs, hout, hstep.rest⟩
    · rw [htrain]; rfl
    · rw [htrain]; rfl
    · rw [htrain]; rfl
  · rcases hc with rfl | rfl
    · rw [exec_lolSet, State.lolSet, hdark, if_pos (by decide), State.tieSettle_unpaired hpaired]
    · rw [exec_alignmentLoss, State.alignLost, hdark, if_neg (by simp), State.tieSettle_unpaired hpaired]
  · rw [hal, exec_alignmentLoss, State.alignLost, if_neg, State.tieSettle_unpaired hpaired]
    rcases hno with h | h <;> simp [h]
  · rcases hc with rfl | rfl
    · obtain ⟨hstate, hlol, -, hcnt, halign, hraised, hdown, hregs, hout, hframe⟩ :=
        State.lockLost_spec hsvc hn (.inl rfl) true rfl
      have hunpaired := (State.paired_congr (hregs _ (pcfg_notMem_lane hn (offs := [0x110, 8, 0xC, 0x124]) (by decide)))).trans hpaired
      exact ⟨_, by rw [exec_lolSet, State.lolSet, hfibre, if_neg (by decide), State.tieSettle_unpaired hunpaired], hstate,
        nofun, fun _ => hlol, hcnt, fun h => ⟨halign h (by decide), hraised h⟩, hdown, hregs, hout, hframe⟩
    · have hmis : s.regB (R.LNE.LNSTA n) 5 = true ∧ (s.lane n).misaligned = true := hlost.resolve_left (by simp)
      obtain ⟨hstate, halign, hviol, hcnt, -, hraised, hdown, hregs, hout, hframe⟩ :=
        State.lockLost_spec (s := s.setLane n { s.lane n with viol := [] }) hsvc hn (.inr rfl) false rfl
      have hunpaired := (State.paired_congr (hregs _ (pcfg_notMem_lane hn (offs := [0x110, 8, 0xC, 0x124]) (by decide)))).trans hpaired
      refine ⟨_, by rw [exec_alignmentLoss, State.alignLost, if_pos (by simp [hfibre, hmis]), State.tieSettle_unpaired hunpaired],
        hstate, fun _ => ⟨halign, hviol.trans ?_⟩, nofun, hcnt, fun h => ⟨halign, hraised h⟩, hdown, hregs,
        fun hquiet => hout ?_, hframe⟩
      · rw [State.lane_setLane]
      · refine State.injQuiet_kept hquiet ?_ ?_ <;> rw [State.lane_setLane]

end Sys2Proof.Machine
end

section
/-! Proofs: the training exchange of a lane (chapter 04, R138 to R143). -/

namespace Sys2Proof

/-- A field written with what it holds. -/
theorem Word.setFld_fld (w : Word) (lo len : Nat) : w.setFld lo len (w.fld lo len) = w := by
  have hle : natFld w.toNat lo len * 2 ^ lo ≤ w.toNat := by
    rw [natFld_eq]
    exact (Nat.mul_le_mul_right _ (Nat.mod_le _ _)).trans (Nat.div_mul_le_self _ _)
  have hmod : natFld w.toNat lo len % 2 ^ len = natFld w.toNat lo len := Nat.mod_mod _ _
  rw [Word.setFld, Word.fld, hmod, Nat.sub_add_cancel hle, BitVec.ofNat_toNat, BitVec.setWidth_eq]

/-- The register with the lane's own three taps. -/
def Word.withTaps (w : Word) (pre main post : Nat) : Word := ((w.setFld 0 4 pre).setFld 4 4 main).setFld 8 4 post

theorem Word.withTaps_fields (w : Word) {pre main post : Nat} (hpre : pre < 16) (hmain : main < 16) (hpost : post < 16) :
    (w.withTaps pre main post).fld 0 4 = pre ∧ (w.withTaps pre main post).fld 4 4 = main ∧
    (w.withTaps pre main post).fld 8 4 = post ∧ (w.withTaps pre main post).fld 12 20 = w.fld 12 20 := by
  unfold Word.withTaps
  refine ⟨?_, ?_, ?_, ?_⟩
  · rw [Word.fld_setFld_ne _ _ (by decide) (by decide), Word.fld_setFld_ne _ _ (by decide) (by decide),
      Word.fld_setFld_same _ _ _ _ (by decide)]
    exact Nat.mod_eq_of_lt hpre
  · rw [Word.fld_setFld_ne _ _ (by decide) (by decide), Word.fld_setFld_same _ _ _ _ (by decide)]
    exact Nat.mod_eq_of_lt hmain
  · rw [Word.fld_setFld_same _ _ _ _ (by decide)]
    exact Nat.mod_eq_of_lt hpost
  · rw [Word.fld_setFld_ne _ _ (by decide) (by decide), Word.fld_setFld_ne _ _ (by decide) (by decide),
      Word.fld_setFld_ne _ _ (by decide) (by decide)]

/-- The taps that stand, written again. -/
theorem Word.withTaps_same (w : Word) : w.withTaps (w.fld 0 4) (w.fld 4 4) (w.fld 8 4) = w := by
  rw [Word.withTaps, Word.setFld_fld, Word.setFld_fld, Word.setFld_fld]

end Sys2Proof

namespace Sys2Proof.Machine

theorem exec_trainingFrameTx (lane : Fin 32) (s : State) :
    exec (.trainingFrameTx lane) s = .next ((s.trainTx lane.val).tieSettle) := rfl
theorem exec_trainingFrameRx (lane : Fin 32) (f : TrainFrame) (s : State) :
    exec (.trainingFrameRx lane f) s = .next ((s.trainRx lane.val f.start f.bytes).tieSettle) := rfl
theorem exec_tapApply (lane : Fin 32) (s : State) : exec (.tapApply lane) s = .next (s.tapApply lane.val) := rfl
theorem exec_eyeMeasureDone (lane : Fin 32) (eye : BitVec 6) (s : State) :
    exec (.eyeMeasureDone lane eye) s = .next ((s.eyeDone lane.val eye.toNat).tieSettle) := rfl
theorem exec_trainTimeout (lane : Fin 32) (s : State) : exec (.trainTimeout lane) s = .next ((s.trainExpired lane.val).tieSettle) := rfl
theorem exec_trainSilence (lane : Fin 32) (s : State) : exec (.trainSilence lane) s = .next ((s.trainSilent lane.val).tieSettle) := rfl

namespace LaneStep

variable {ks : List Nat} {s t : State}

theorem withOut (h : LaneStep ks s t) (o : List OutFrame) : LaneStep ks s { t with out := o } :=
  h.trans ⟨rfl, regsBut.eq_of_regs ks rfl⟩

/-- The step taken once ring time has been brought forward. -/
theorem rest_reach {x : Nat} (h : LaneStep ks (s.reach x) t) :
    t = { s with dt64 := t.dt64, regs := t.regs, lanes := t.lanes, out := t.out } := by
  rw [h.rest, s.reach_eq]

theorem regs_reach {x : Nat} (h : LaneStep ks (s.reach x) t) : regsBut s t ks :=
  ((regsBut.refl s ks).regs (s.reach_regs x)).trans h.regs

end LaneStep

/-! ### The exchange is complete (R143) -/

section
variable {s : State} {n : Nat} (hsvc : s.svc = []) (hn : n < 32)
include hsvc hn

theorem State.trainCheck_spec {t : State} (ht : t = s.trainCheck n) :
    LaneStep (laneKeys n ++ (List.range 32).map R.RNG.RSTA) s t ∧
    t.laneState n = (if s.laneState n = 3 ∧ 2 ≤ (s.lane n).train.doneSent ∧ (s.lane n).train.doneRx = true then 4
      else s.laneState n) ∧
    (t.lane n).train = (s.lane n).train ∧ (t.lane n).trainAt = (s.lane n).trainAt ∧ (s.injQuiet n → t.out = s.out) := by
  rw [State.trainCheck, State.when] at ht
  by_cases hdone : s.laneState n = 3 ∧ 2 ≤ (s.lane n).train.doneSent ∧ (s.lane n).train.doneRx = true
  · rw [if_pos (by simpa [Nat.ble_eq, and_assoc] using hdone)] at ht
    have hstep := State.laneGoto_step (st := 4) hsvc hn (by decide)
    have hstate := State.laneState_laneGoto (st := 4) hsvc hn (by decide)
    have hkept := State.kept_laneGoto (st := 4) hsvc hn (by decide) (by decide)
    have hout := State.out_laneGoto (st := 4) hsvc hn (by decide)
    rw [← ht] at hstep hstate hkept hout
    rw [if_pos hdone]
    exact ⟨hstep, hstate, (congrArg Lane.train hkept :), (congrArg Lane.trainAt hkept :), hout⟩
  · rw [if_neg (by simpa [Nat.ble_eq, and_assoc] using hdone)] at ht
    subst ht
    rw [if_neg hdone]
    exact ⟨LaneStep.refl _ _, rfl, rfl, rfl, fun _ => rfl⟩

end

/-! ### Training frames sent (R138, R139) -/

theorem frameHeader_length (type : Nat) (rev : Bool) (hid ring len pidx : Nat) (tv : Bool) (dstate : Nat) (resync relay : Bool) :
    (frameHeader type rev hid ring len pidx tv dstate resync relay).length = 8 := by
  simp [frameHeader, natLe_length]

theorem frameOf_length {header : List Byte} (hheader : header.length = 8) (payload : List Byte) :
    (frameOf header payload).length = payload.length + 12 := by
  simp only [frameOf, List.length_append, hheader, natLe_length]
  omega

theorem framePayload_frameOf {header : List Byte} (hheader : header.length = 8) (payload : List Byte) :
    framePayload (frameOf header payload) = payload := by
  rw [framePayload, frameOf_length hheader, frameOf, List.append_assoc, ← hheader, List.drop_left, Nat.add_sub_cancel,
    List.take_left]

/-- The training frame of a lane, with the ring and the direction of the lane in its header. -/
def State.trainFrame (s : State) (n : Nat) : List Byte :=
  frameOf (s.header 9 ((s.lnmap n).fld 0 5) (s.lnRole n = 2 || (s.lnRole n = 3 && s.regB R.HPR.HSTA 3)) 8 0 false) (s.trainPayload n)

theorem State.trainFrame_spec (s : State) (n : Nat) : (s.trainFrame n).length = 20 ∧ frameType (s.trainFrame n) = 9 ∧
    framePayload (s.trainFrame n) = s.trainPayload n :=
  ⟨frameOf_length (frameHeader_length ..) _,
    (frame_header_fields 9 _ s.hid _ 8 0 _ _ false false (s.trainPayload n) (by decide) s.hid_lt
      (Nat.mod_lt _ (by decide) : (s.lnmap n).fld 0 5 < 32) _ rfl).1,
    framePayload_frameOf (frameHeader_length ..) _⟩

/-- The lane's training frame has left its transmitter at an instant, before the exchange is found complete. -/
def State.trainSent (s : State) (n : Nat) : State :=
  let s1 := s.reach (s.trainDue n)
  let s2 := s1.send [.exl n s1.dt64 (s.trainFrame n)]
  let l := s2.lane n
  s2.setLane n { l with trainAt := some s1.dt64,
                        train := { l.train with doneSent := if l.train.done then l.train.doneSent + 1 else 0 } }

theorem State.trainTx_training {s : State} {n : Nat} (h : s.laneState n = 3) :
    s.trainTx n = (s.trainSent n).also fun t => t.trainCheck n := by
  rw [State.trainTx, if_neg (by simpa using h)]
  rfl

theorem State.trainTx_untrained {s : State} {n : Nat} (h : s.laneState n ≠ 3) : s.trainTx n = s := if_pos h

/-- Of a lane, a frame it sends concerns its transmitter alone. -/
theorem State.train_send_exl (s : State) (n t : Nat) (b : List Byte) :
    ((s.send [.exl n t b]).lane n).train = (s.lane n).train := by
  have hlane : (s.send [.exl n t b]).lane n = (s.txSyms n t (frameSyms b kEof)).lane n := rfl
  rw [hlane, State.txSyms, State.lane_setLane]

theorem State.trainSent_spec (s : State) (n : Nat) {t : State} (ht : t = s.trainSent n) :
    LaneStep [] (s.reach (s.trainDue n)) t ∧ t.out = [.exl n (s.reach (s.trainDue n)).dt64 (s.trainFrame n)] ∧
    (t.lane n).trainAt = some (s.reach (s.trainDue n)).dt64 ∧ (t.lane n).train = { (s.lane n).train with
      doneSent := if (s.lane n).train.done then (s.lane n).train.doneSent + 1 else 0 } := by
  have htrain := (s.reach (s.trainDue n)).train_send_exl n (s.reach (s.trainDue n)).dt64 (s.trainFrame n)
  rw [State.lane_congr (s.reach_lanes _)] at htrain
  rw [ht, State.trainSent]
  dsimp only
  rw [State.lane_setLane, htrain]
  exact ⟨((LaneStep.refl _ _).send _).setLane _ _, rfl, rfl, rfl⟩

/-- A side sends a frame, and goes UP with it where DONE has then gone in two frames and has come. -/
theorem State.trainTx_spec {s : State} {n : Nat} (hsvc : s.svc = []) (hn : n < 32) (htrain : s.laneState n = 3) {l : Train}
    (hl : l = (s.lane n).train) {t : State} (ht : t = s.trainTx n) :
    LaneStep (laneKeys n ++ (List.range 32).map R.RNG.RSTA) (s.reach (s.trainDue n)) t ∧
    OutFrame.exl n t.dt64 (s.trainFrame n) ∈ t.out ∧ (t.lane n).trainAt = some t.dt64 ∧
    t.laneState n = (if l.done && Nat.ble 1 l.doneSent && l.doneRx then 4 else 3) ∧
    (t.lane n).train.doneSent = (if l.done then l.doneSent + 1 else 0) := by
  obtain ⟨hsent, hout, hat, hl'⟩ := s.trainSent_spec n rfl
  have hstate' : (s.trainSent n).laneState n = 3 :=
    ((State.regF_reg ((hsent.reg (List.not_mem_nil)).trans (s.reg_reach _ _)) 0 3)).trans htrain
  rw [State.trainTx_training htrain, State.also] at ht
  have hsvc' : (s.trainSent n).svc = [] := hsent.svc.trans ((s.reach_svc _).trans hsvc)
  generalize s.trainSent n = u at *
  obtain ⟨hcheck, hstate, htr, hta, -⟩ := State.trainCheck_spec (s := { u with out := [] }) hsvc' hn rfl
  have hlane : State.lane { u with out := [] } n = u.lane n := rfl
  have hquery : State.laneState { u with out := [] } n = 3 := hstate'
  generalize hv : State.trainCheck { u with out := [] } n = v at *
  have hstep : LaneStep (laneKeys n ++ (List.range 32).map R.RNG.RSTA) (s.reach (s.trainDue n)) v :=
    ((hsent.withOut []).mono (by simp)).trans hcheck
  have hnow : v.dt64 = (s.reach (s.trainDue n)).dt64 := hstep.dt64
  rw [hlane] at hstate htr hta
  rw [hl'] at hstate htr
  rw [ht, hl]
  refine ⟨hstep.withOut _, ?_, ?_, ?_, ?_⟩
  · refine List.mem_append_left _ ?_
    rw [hout, ← hnow]
    exact List.mem_singleton.2 rfl
  · exact (hta.trans hat).trans (congrArg some hnow.symm)
  · refine Eq.trans hstate ?_
    rw [hquery]
    cases (s.lane n).train.done <;> cases (s.lane n).train.doneRx <;> simp [Nat.ble_eq]
  · exact (congrArg Train.doneSent htr :)

/-! ### Training frames received (R139) -/

/-- What a frame received leaves of an exchange, whatever it answers. -/
def Train.heard (t : Train) : Option (Nat × TapReq) × Nat × Bool × Nat := (t.far, t.lastRx, t.doneRx, t.doneSent)

theorem Train.heard_next (t : Train) (i trnMax eyeMin : Nat) : (t.next i trnMax eyeMin).heard = t.heard := by
  unfold Train.next
  split
  · split <;> rfl
  · split
    · split <;> rfl
    · rfl

theorem Train.heard_answered (t : Train) (astat trnMax eyeMin : Nat) : (t.answered astat trnMax eyeMin).heard = t.heard := by
  unfold Train.answered
  dsimp only
  split
  · split
    · rfl
    · exact Train.heard_next ..
  · rfl
  · rfl

/-- The taps that the far side reports. -/
def State.farTaps (s : State) (n : Nat) (p : List Byte) : State :=
  ((s.setF (R.LNE.TAPS n) 16 4 (byteAt p 2 / 16)).setF (R.LNE.TAPS n) 20 4 (byteAt p 2 % 16)).setF (R.LNE.TAPS n) 24 4 (byteAt p 3 / 16)

@[simp] theorem State.lane_farTaps (s : State) (n : Nat) (p : List Byte) (j : Nat) : (s.farTaps n p).lane j = s.lane j := by
  rw [State.farTaps, State.lane_setF, State.lane_setF, State.lane_setF]

theorem State.out_farTaps (s : State) (n : Nat) (p : List Byte) : (s.farTaps n p).out = s.out := by
  rw [State.farTaps, State.setF_out, State.setF_out, State.setF_out]

theorem State.farTaps_step (s : State) (n : Nat) (p : List Byte) : LaneStep [R.LNE.TAPS n] s (s.farTaps n p) := by
  unfold State.farTaps
  exact (((LaneStep.refl _ s).setF _ _ _ (by simp)).setF _ _ _ (by simp)).setF _ _ _ (by simp)

theorem byteAt_lt (l : List Byte) (i : Nat) : byteAt l i < 256 := (l.getD i 0).isLt

theorem State.farTaps_fields (s : State) (n : Nat) (p : List Byte) :
    (s.farTaps n p).regF (R.LNE.TAPS n) 16 4 = byteAt p 2 / 16 ∧ (s.farTaps n p).regF (R.LNE.TAPS n) 20 4 = byteAt p 2 % 16 ∧
    (s.farTaps n p).regF (R.LNE.TAPS n) 24 4 = byteAt p 3 / 16 ∧
    (s.farTaps n p).regF (R.LNE.TAPS n) 0 12 = s.regF (R.LNE.TAPS n) 0 12 := by
  have h2 := byteAt_lt p 2
  have h3 := byteAt_lt p 3
  unfold State.farTaps
  refine ⟨?_, ?_, ?_, ?_⟩
  · rw [State.regF_setF_ne _ _ (by decide) (.inr (by decide)), State.regF_setF_ne _ _ (by decide) (.inr (by decide)),
      State.regF_setF_same _ _ _ _ _ (by decide)]
    omega
  · rw [State.regF_setF_ne _ _ (by decide) (.inr (by decide)), State.regF_setF_same _ _ _ _ _ (by decide)]
    omega
  · rw [State.regF_setF_same _ _ _ _ _ (by decide)]
    omega
  · rw [State.regF_setF_ne _ _ (by decide) (.inr (by decide)), State.regF_setF_ne _ _ (by decide) (.inr (by decide)),
      State.regF_setF_ne _ _ (by decide) (.inr (by decide))]

/-- The exchange with a valid frame's payload taken. -/
def Train.take (t : Train) (now : Nat) (p : List Byte) : Train :=
  { t with far := if byteAt p 0 / 16 = t.aseq then t.far else
             some (byteAt p 0 / 16, { pre := byteAt p 1 / 64, main := (byteAt p 1 / 16) % 4, post := (byteAt p 1 / 4) % 4 }),
           doneRx := t.doneRx || (byteAt p 1).testBit 1, lastRx := now }

/-- The exchange with the answer that a payload carries to the request that waits for it. -/
def Train.takeAnswer (t : Train) (now : Nat) (p : List Byte) (trnMax eyeMin : Nat) : Train :=
  if t.waiting && byteAt p 0 % 16 = t.seq then { t.answered ((byteAt p 3 / 4) % 4) trnMax eyeMin with settled := now } else t

theorem Train.heard_takeAnswer (t : Train) (now : Nat) (p : List Byte) (trnMax eyeMin : Nat) :
    (t.takeAnswer now p trnMax eyeMin).heard = t.heard := by
  unfold Train.takeAnswer
  split
  · exact Train.heard_answered ..
  · rfl

/-- A valid frame taken by a lane, before the exchange is found complete. -/
def State.trainHeard (s : State) (n : Nat) (p : List Byte) : State :=
  let l := (s.farTaps n p).lane n
  (s.farTaps n p).setLane n { l with
    train := (l.train.take s.dt64 p).takeAnswer s.dt64 p (s.regF (R.LNE.TRNCFG n) 16 8) (s.regF (R.LNE.LNCFG n) 16 6) }

theorem State.trainRx_valid {s : State} {n : Nat} {start : Byte} {f : List Byte} (hstate : s.laneState n = 3 ∨ s.laneState n = 4)
    (hdrop : (s.lane n).drop = false) (hvalid : trainValid start f = true) :
    s.trainRx n start f = (s.trainHeard n (framePayload f)).trainCheck n := by
  rw [State.trainRx, hdrop, hvalid]
  rw [if_neg (by rcases hstate with h | h <;> simp [h]), if_neg (by decide), if_neg (by decide)]
  rfl

theorem State.trainRx_invalid {s : State} {n : Nat} {start : Byte} {f : List Byte} (hdrop : (s.lane n).drop = false)
    (hvalid : trainValid start f = false) : s.trainRx n start f = s := by
  rw [State.trainRx, hdrop, hvalid]
  dsimp only
  split
  · rfl
  · rw [if_neg (by decide), if_pos (by decide)]

theorem State.trainRx_damaged {s : State} {n : Nat} (start : Byte) (f : List Byte) (hstate : s.laneState n = 3 ∨ s.laneState n = 4)
    (hdrop : (s.lane n).drop = true) : s.trainRx n start f = s.setLane n { s.lane n with drop := false } := by
  rw [State.trainRx, if_neg (by rcases hstate with h | h <;> simp [h]), if_pos hdrop]

theorem trainValid_of {f : List Byte} (hlen : f.length = 20) (htype : frameType f = 9) (hpay : frameLen f = 8)
    (hcrc : crc32 (f.take 16) = leAt f 16 4) : trainValid kSoftr f = true := by
  simp [trainValid, hlen, htype, hpay, hcrc]

/-- A valid frame records what it says, and completes the exchange where it brings DONE to a side that has sent it twice. -/
theorem State.trainHeard_spec {s : State} {n : Nat} (hsvc : s.svc = []) (hn : n < 32) (p : List Byte) {l : Train}
    (hl : l = (s.lane n).train) {t : State} (ht : t = (s.trainHeard n p).trainCheck n) :
    LaneStep (laneKeys n ++ R.LNE.TAPS n :: (List.range 32).map R.RNG.RSTA) s t ∧
    (t.lane n).train.heard = (l.take s.dt64 p).heard ∧
    t.reg (R.LNE.TAPS n) = (s.farTaps n p).reg (R.LNE.TAPS n) ∧
    t.laneState n = (if s.laneState n = 3 ∧ 2 ≤ l.doneSent ∧ (t.lane n).train.doneRx = true then 4 else s.laneState n) ∧
    (s.injQuiet n → t.out = s.out) := by
  have htake : LaneStep [R.LNE.TAPS n] s (s.trainHeard n p) := by
    unfold State.trainHeard
    exact (s.farTaps_step n p).setLane _ _
  have hstate' : (s.trainHeard n p).laneState n = s.laneState n := State.regF_reg (htake.reg (by simp)) 0 3
  have htaps : (s.trainHeard n p).reg (R.LNE.TAPS n) = (s.farTaps n p).reg (R.LNE.TAPS n) := by
    rw [State.trainHeard, State.reg_setLane]
  have hheard : ((s.trainHeard n p).lane n).train.heard = (l.take s.dt64 p).heard := by
    simp only [hl, State.trainHeard, State.lane_setLane, State.lane_farTaps, Train.heard_takeAnswer]
  have hquiet' : s.injQuiet n → (s.trainHeard n p).injQuiet n := fun hquiet =>
    State.injQuiet_kept hquiet (by simp [State.trainHeard]) (by simp [State.trainHeard])
  have hout' : (s.trainHeard n p).out = s.out := by
    rw [State.trainHeard, State.out_setLane, State.out_farTaps]
  obtain ⟨hcheck, hstate, htrain, -, hout⟩ := State.trainCheck_spec (htake.svc.trans hsvc) hn ht
  generalize s.trainHeard n p = u at *
  refine ⟨(htake.mono (by simp)).trans (hcheck.mono (by simp +contextual [or_imp])), htrain ▸ hheard, ?_, ?_,
    fun hquiet => (hout (hquiet' hquiet)).trans hout'⟩
  · refine (hcheck.reg ?_).trans htaps
    simp only [List.mem_append, not_or]
    exact ⟨by simp [laneKeys], laneKey_notMem_rsta hn (by decide)⟩
  · have hsent : (u.lane n).train.doneSent = l.doneSent := (congrArg (fun h => h.2.2.2) hheard :)
    rw [hstate, hstate', hsent, htrain]

/-! ### Taps (R140) -/

/-- A tap stays within 0 to 15. -/
theorem tapAfter_lt {op cur preset a : Nat} (hcur : cur < 16) (hpreset : preset < 16) (h : tapAfter op cur preset = some a) :
    a < 16 := by
  unfold tapAfter at h
  split at h
  · cases h
    exact hcur
  · split at h
    · cases h
      omega
    · cases h
  · split at h
    · cases h
      omega
    · cases h
  · cases h
    exact hpreset

theorem applyTaps_limit {r : TapReq} {pre main post : Nat}
    (h : tapAfter r.pre pre 0 = none ∨ tapAfter r.main main 12 = none ∨ tapAfter r.post post 3 = none) :
    applyTaps r pre main post = (pre, main, post, 1) := by
  unfold applyTaps
  split
  · next hp hm hpo => simp [hp, hm, hpo] at h
  · rfl

theorem applyTaps_some {r : TapReq} {pre main post a b c : Nat} (ha : tapAfter r.pre pre 0 = some a)
    (hb : tapAfter r.main main 12 = some b) (hc : tapAfter r.post post 3 = some c) :
    applyTaps r pre main post = if b < a + c then (pre, main, post, 2) else (a, b, c, 0) := by
  rw [applyTaps, ha, hb, hc]

/-- The lane with an answer in place of a far request. -/
def Lane.answers (l : Lane) (seq astat : Nat) : Lane := { l with train := { l.train with far := none, aseq := seq, astat := astat } }

theorem State.tapApply_none {s : State} {n : Nat} (h : (s.lane n).train.far = none) : s.tapApply n = s := by
  rw [State.tapApply, h]

/-- The register of a lane's taps with its own three written. -/
def State.setTaps (s : State) (n : Nat) (x : Nat × Nat × Nat × Nat) : State :=
  ((s.setF (R.LNE.TAPS n) 0 4 x.1).setF (R.LNE.TAPS n) 4 4 x.2.1).setF (R.LNE.TAPS n) 8 4 x.2.2.1

theorem State.reg_setTaps (s : State) (n : Nat) (x : Nat × Nat × Nat × Nat) :
    (s.setTaps n x).reg (R.LNE.TAPS n) = (s.reg (R.LNE.TAPS n)).withTaps x.1 x.2.1 x.2.2.1 := by
  rw [State.setTaps, State.reg_setF_same, State.reg_setF_same, State.reg_setF_same, Word.withTaps]

/-- The taps asked for, and the answer. -/
def State.tapAnswer (s : State) (n : Nat) (r : TapReq) : Nat × Nat × Nat × Nat :=
  applyTaps r (s.regF (R.LNE.TAPS n) 0 4) (s.regF (R.LNE.TAPS n) 4 4) (s.regF (R.LNE.TAPS n) 8 4)

theorem State.tapApply_some {s : State} {n : Nat} {q : Nat × TapReq} (h : (s.lane n).train.far = some q) :
    s.tapApply n = (s.setTaps n (s.tapAnswer n q.2)).setLane n ((s.lane n).answers q.1 (s.tapAnswer n q.2).2.2.2) := by
  rw [State.tapApply, h]
  rfl

theorem State.tapApply_spec {s : State} {n : Nat} {q : Nat × TapReq} (h : (s.lane n).train.far = some q) {t : State}
    (ht : t = s.tapApply n) : LaneStep [R.LNE.TAPS n] s t ∧ t.out = s.out ∧
    (t.lane n).train = { (s.lane n).train with far := none, aseq := q.1, astat := (s.tapAnswer n q.2).2.2.2 } ∧
    t.reg (R.LNE.TAPS n) = (s.reg (R.LNE.TAPS n)).withTaps (s.tapAnswer n q.2).1 (s.tapAnswer n q.2).2.1 (s.tapAnswer n q.2).2.2.1 := by
  have htaps : LaneStep [R.LNE.TAPS n] s (s.setTaps n (s.tapAnswer n q.2)) :=
    (((LaneStep.refl _ s).setF _ _ _ (by simp)).setF _ _ _ (by simp)).setF _ _ _ (by simp)
  have hout : (s.setTaps n (s.tapAnswer n q.2)).out = s.out := by simp [State.setTaps]
  have hreg := s.reg_setTaps n (s.tapAnswer n q.2)
  rw [ht, State.tapApply_some h]
  generalize s.setTaps n (s.tapAnswer n q.2) = u at *
  exact ⟨htaps.setLane _ _, hout, by rw [State.lane_setLane]; rfl, hreg⟩

/-! ### The eye and the end without UP (R141, R143) -/

theorem Train.measured_good (t : Train) {e eyeGood trnMax eyeMin : Nat} (hfirst : t.search = .first) (hgood : eyeGood ≤ e) :
    t.measured e eyeGood trnMax eyeMin = { t with eye := e, search := .ended, done := true } := by
  rw [Train.measured, hfirst]
  exact if_pos hgood

/-- A first eye that is too small asks for POST one step up. -/
theorem Train.measured_small (t : Train) {e eyeGood trnMax eyeMin : Nat} (hfirst : t.search = .first) (hsmall : e < eyeGood)
    (hmore : trnMax ≠ t.requests) :
    t.measured e eyeGood trnMax eyeMin = ({ t with eye := e } : Train).ask { post := 1 } (.asked 0) := by
  rw [Train.measured, hfirst]
  dsimp only
  rw [if_neg (by omega), Train.next, if_pos (by decide), if_neg fun h => hmore h.symm]
  rfl

/-- The instant at which an eye measurement of the present taps ends. -/
def State.eyeAt (s : State) (n : Nat) : Nat := (s.lane n).train.settled + (16384 * s.laneFifths n + 4) / 5

theorem State.eyeDone_idle {s : State} {n eye : Nat} (h : s.laneState n ≠ 3 ∨ (s.lane n).train.waiting = true) :
    s.eyeDone n eye = s := by
  refine if_neg ?_
  rcases h with h | h <;> simp [h]

theorem State.eyeDone_spec {s : State} {n eye : Nat} (hstate : s.laneState n = 3) (hidle : (s.lane n).train.waiting = false)
    (heye : eye < 64) {t : State} (ht : t = s.eyeDone n eye) :
    LaneStep [R.LNE.LNSTA n] (s.reach (s.eyeAt n)) t ∧ t.out = s.out ∧ t.regF (R.LNE.LNSTA n) 12 6 = eye ∧
    (t.lane n).train = { (s.lane n).train.measured eye (s.regF (R.LNE.LNCFG n) 22 6) (s.regF (R.LNE.TRNCFG n) 16 8)
      (s.regF (R.LNE.LNCFG n) 16 6) with settled := t.dt64 } := by
  have hdone : s.eyeDone n eye = _ := if_pos (by simp [hstate, hidle])
  rw [ht, hdone]
  refine ⟨((LaneStep.refl _ _).setF _ _ _ (by simp)).setLane _ _, s.reach_out _, ?_, ?_⟩
  · rw [State.regF_setLane, State.regF_setF_same _ _ _ _ _ (by decide)]
    exact Nat.mod_eq_of_lt heye
  · dsimp only
    rw [State.lane_setLane, State.lane_setF, State.lane_congr (s.reach_lanes _)]
    rfl

section
variable {s : State} {n : Nat} (hsvc : s.svc = []) (hn : n < 32)
include hsvc hn

/-- An exchange that fails: the lane locks anew, with TRAIN_FAIL and IRQS bit 2. -/
theorem State.trainFail_spec (hstate : s.laneState n = 3) {t : State} (ht : t = s.trainFail n) :
    ∃ u c, LaneStep (laneKeys n) s u ∧ t = { u with scribe := c } ∧ u.laneState n = 2 ∧
    u.regB (R.LNE.LNSTA n) 5 = false ∧ u.regB (R.IRQS (0x10 + n)) 2 = true ∧ s.raised t Src.TRAIN_FAIL (0x10 + n) ∧
    (s.injQuiet n → u.out = s.out) := by
  have hfail : s.trainFail n = ((s.laneGoto n 2).irq (0x10 + n) 2).fault Src.TRAIN_FAIL (0x10 + n) n := if_pos hstate
  have hgoto := State.laneGoto_step_low hsvc hn (by decide : 2 ≤ 2)
  have hnow := State.laneState_laneGoto hsvc hn (by decide : 2 ≤ 5)
  have halign := State.flag_laneGoto hsvc hn (by decide : 2 < 5) (by decide : 3 ≤ 5) (by decide)
  have hout := State.out_laneGoto hsvc hn (by decide : 2 < 5)
  rw [hfail] at ht
  generalize s.laneGoto n 2 = g at *
  have hstep : LaneStep (laneKeys n) s (g.irq (0x10 + n) 2) := hgoto.setB _ _ (by simp [laneKeys])
  have hlnsta : (g.irq (0x10 + n) 2).reg (R.LNE.LNSTA n) = g.reg (R.LNE.LNSTA n) := State.reg_irq_ne _ (by simp)
  refine ⟨g.irq (0x10 + n) 2, _, hstep, ht, (State.regF_reg hlnsta 0 3).trans hnow, (State.regB_reg hlnsta 5).trans halign,
    State.regB_irq_same _ _ (by decide), ?_, hout⟩
  rw [ht]
  exact hstep.raised ..

end

theorem LaneStep.rest_quiet {ks : List Nat} {s t : State} (h : LaneStep ks s t) (hout : t.out = s.out) :
    t = { s with regs := t.regs, lanes := t.lanes } := by
  have hrest := h.rest
  rwa [hout] at hrest

theorem LaneStep.rest_reach_quiet {ks : List Nat} {s t : State} {x : Nat} (h : LaneStep ks (s.reach x) t) (hout : t.out = s.out) :
    t = { s with dt64 := t.dt64, regs := t.regs, lanes := t.lanes } := by
  have hrest := h.rest_reach
  rwa [hout] at hrest

theorem pcfg_notMem_rsta : R.HPR.PCFG ∉ (List.range 32).map R.RNG.RSTA := by decide

/-- Both ends without UP bring ring time forward and fail the exchange (R143). -/
theorem exec_trainEnds {s : State} {n : Fin 32} {c : Instr} (hc : c = .trainTimeout n ∨ c = .trainSilence n)
    (htrain : s.laneState n = 3) : ∃ x, exec c s = .next (((s.reach x).trainFail n).tieSettle) := by
  rcases hc with rfl | rfl
  · exact ⟨_, by rw [exec_trainTimeout, State.trainExpired, if_pos htrain]⟩
  · exact ⟨_, by rw [exec_trainSilence, State.trainSilent, if_pos htrain]⟩

/-- Settles O28: each command of the exchange, by what it does to the lane before the exchange is found complete. -/
theorem laneTraining : Obligations.LaneTraining := by
  rintro s n hpaired hsvc m rfl l hl
  have hn : n.val < 32 := n.isLt
  have hpcfg : R.HPR.PCFG ∉ laneKeys n ++ (List.range 32).map R.RNG.RSTA := by
    rw [List.mem_append, not_or]
    exact ⟨pcfg_notMem_lane hn (offs := [0x110, 8, 0xC]) (by decide), pcfg_notMem_rsta⟩
  have hpcfg' : R.HPR.PCFG ∉ laneKeys n ++ R.LNE.TAPS n :: (List.range 32).map R.RNG.RSTA := by
    rw [List.mem_append, List.mem_cons, not_or, not_or]
    exact ⟨pcfg_notMem_lane hn (offs := [0x110, 8, 0xC]) (by decide), fun h => pcfg_notMem_lane hn (offs := [0x114]) (by decide)
      (h ▸ List.mem_singleton_self _), pcfg_notMem_rsta⟩
  refine ⟨fun hout => ⟨?_, ?_, ?_⟩, fun htrain => ?_, fun start f => ⟨fun hdrop hbad => ?_, fun hstate hdrop => ?_,
    fun hstate hdrop hstart hlen htype hpay hcrc p hp => ?_⟩, fun hfar => ?_, fun q hq => ?_, fun eye => ⟨fun hidle => ?_,
    fun htrain hidle => ?_⟩, fun c hc htrain => ?_⟩
  · rw [exec_trainingFrameTx, State.trainTx_untrained hout, State.tieSettle_unpaired hpaired]
  · rw [exec_trainTimeout, State.trainExpired, if_neg hout, State.tieSettle_unpaired hpaired]
  · rw [exec_trainSilence, State.trainSilent, if_neg hout, State.tieSettle_unpaired hpaired]
  · obtain ⟨hstep, hmem, hat, hstate, hsent⟩ := State.trainTx_spec hsvc hn htrain hl rfl
    have hp := (hstep.paired hpcfg).trans ((State.paired_congr (s.reg_reach _ _)).trans hpaired)
    obtain ⟨hlen, htype, hpay⟩ := s.trainFrame_spec n
    refine ⟨s.trainTx n, by rw [exec_trainingFrameTx, State.tieSettle_unpaired hp], ?_, hat, ⟨_, hmem, hlen, htype, hpay⟩, hstate,
      hsent, hstep.regs_reach, hstep.rest_reach⟩
    rintro due rfl
    exact hstep.dt64
  · rw [exec_trainingFrameRx, State.trainRx_invalid hdrop hbad, State.tieSettle_unpaired hpaired]
  · have hp : (s.setLane n { s.lane n with drop := false }).paired = false := hpaired
    refine ⟨_, by rw [exec_trainingFrameRx, State.trainRx_damaged start f hstate hdrop, State.tieSettle_unpaired hp], ?_, ?_, rfl⟩
    · rw [State.lane_setLane]
    · rw [State.lane_setLane, hl]
  · subst hp hstart
    obtain ⟨hstep, hheard, htaps, hnow, hout⟩ := State.trainHeard_spec hsvc hn (framePayload f) hl rfl
    obtain ⟨h16, h20, h24, h0⟩ := s.farTaps_fields n (framePayload f)
    have hrun := State.trainRx_valid hstate hdrop (trainValid_of hlen htype hpay hcrc)
    rw [← hrun] at hstep hheard htaps hnow hout
    have hp := (hstep.paired hpcfg').trans hpaired
    refine ⟨s.trainRx n kSoftr f, by rw [exec_trainingFrameRx, State.tieSettle_unpaired hp], ?_⟩
    generalize s.trainRx n kSoftr f = t at *
    exact ⟨(congrArg (fun h => h.2.1) hheard :), (congrArg (fun h => h.2.2.1) hheard :), (congrArg (fun h => h.1) hheard :),
      (State.regF_reg htaps 16 4).trans h16, (State.regF_reg htaps 20 4).trans h20, (State.regF_reg htaps 24 4).trans h24,
      (State.regF_reg htaps 0 12).trans h0, hnow, hstep.regs, hout, hstep.rest⟩
  · rw [exec_tapApply, State.tapApply_none (hl ▸ hfar)]
  · obtain ⟨hstep, hout, htr, hreg⟩ := State.tapApply_spec (hl ▸ hq) rfl
    refine ⟨_, exec_tapApply n s, ?_⟩
    generalize s.tapApply n = t at *
    rw [htr, hreg]
    refine ⟨rfl, rfl, fun hlimit => ?_, fun a ha b hb c hc => ⟨fun hrule => ?_, fun hrule => ?_⟩, hstep.regs, hstep.rest_quiet hout⟩
    · rw [State.tapAnswer, applyTaps_limit hlimit]
      exact ⟨rfl, Word.withTaps_same _⟩
    · rw [State.tapAnswer, applyTaps_some ha hb hc, if_pos hrule]
      exact ⟨rfl, Word.withTaps_same _⟩
    · have hanswer : s.tapAnswer n q.2 = (a, b, c, 0) := by
        rw [State.tapAnswer, applyTaps_some ha hb hc, if_neg (by omega)]
      obtain ⟨h0, h4, h8, h12⟩ := (s.reg (R.LNE.TAPS n)).withTaps_fields (tapAfter_lt (s.regF_lt _ _ _) (by decide) ha)
        (tapAfter_lt (s.regF_lt _ _ _) (by decide) hb) (tapAfter_lt (s.regF_lt _ _ _) (by decide) hc)
      rw [hanswer] at hreg ⊢
      exact ⟨rfl, by simpa only [State.regF, hreg] using ⟨h0, h4, h8, h12⟩⟩
  · rw [exec_eyeMeasureDone, State.eyeDone_idle (hl ▸ hidle), State.tieSettle_unpaired hpaired]
  · obtain ⟨hstep, hout, heye, htr⟩ := State.eyeDone_spec htrain (hl ▸ hidle) eye.isLt rfl
    have hp := (hstep.paired (pcfg_notMem_lane hn (offs := [0x110]) (by decide))).trans
      ((State.paired_congr (s.reg_reach _ _)).trans hpaired)
    refine ⟨s.eyeDone n eye.toNat, by rw [exec_eyeMeasureDone, State.tieSettle_unpaired hp], ?_⟩
    generalize s.eyeDone n eye.toNat = t at *
    rw [htr, ← hl]
    refine ⟨hl ▸ hstep.dt64, rfl, heye, fun hfirst hgood => ?_, fun hfirst hsmall hmore => ?_, hstep.regs_reach,
      hstep.rest_reach_quiet hout⟩
    · rw [Train.measured_good l hfirst hgood]
      exact ⟨rfl, rfl⟩
    · rw [Train.measured_small l hfirst hsmall hmore]
      exact ⟨rfl, rfl, rfl⟩
  · obtain ⟨x, hx⟩ := exec_trainEnds hc htrain
    obtain ⟨u, d, hstep, ht, hnow, halign, hirq, hraised, hout⟩ := State.trainFail_spec (s := s.reach x) ((s.reach_svc x).trans hsvc) hn
      ((State.regF_reg (s.reg_reach x _) 0 3).trans htrain) rfl
    have hp := (hstep.paired (pcfg_notMem_lane hn (offs := [0x110, 8, 0xC]) (by decide))).trans
      ((State.paired_congr (s.reg_reach _ _)).trans hpaired)
    rw [ht] at hraised hx
    exact ⟨{ u with scribe := d }, by rw [hx, State.tieSettle_unpaired]; exact hp, hnow, halign, hirq,
      State.raised_congr hraised (s.reach_scribe x).symm rfl, hstep.regs_reach.regs rfl,
      fun hquiet => (hout (State.injQuiet_kept hquiet (by rw [State.lane_congr (s.reach_lanes x)])
        (by rw [State.lane_congr (s.reach_lanes x)]))).trans (s.reach_out x),
      congrArg (fun t : State => { t with scribe := d }) hstep.rest_reach⟩

end Sys2Proof.Machine
end

section
/-! Proofs: RETRAIN, MODE and INJGO of a lane (chapter 04, R133, R147, R149). -/

namespace Sys2Proof.Machine

theorem exec_retrain {lane : Fin 32} {s : State} (hw : s.writable (0x10 + lane.val) = true) :
    exec (.retrain lane) s = .next ((s.retrain lane.val).tieSettle) := congrArg Host.Outcome.next (State.hostWr_writable _ hw)
theorem exec_laneModeWrite {lane : Fin 32} {s : State} (hw : s.writable (0x10 + lane.val) = true) (mode : BitVec 2) :
    exec (.laneModeWrite lane mode) s = .next ((s.laneMode lane.val mode.toNat).tieSettle) :=
  congrArg Host.Outcome.next (State.hostWr_writable _ hw)
theorem exec_injgo {lane : Fin 32} {s : State} (hw : s.writable (0x10 + lane.val) = true) :
    exec (.injgo lane) s = .next (s.injGo lane.val) := congrArg Host.Outcome.next (State.hostWr_writable _ hw)

theorem State.paired_irq (s : State) (n i : Nat) : (s.irq (0x10 + n) i).paired = s.paired := by
  refine State.paired_congr (State.reg_irq_ne _ ?_)
  have hpcfg : R.HPR.PCFG = 0x88100 := rfl
  simp only [R.IRQS]
  omega

/-! ### RETRAIN (R133) -/

theorem State.retrain_spec {s : State} {n : Nat} (hsvc : s.svc = []) (hn : n < 32) (hup : s.laneState n = 4) {t : State}
    (ht : t = s.retrain n) : LaneStep (laneKeys n ++ [R.LNE.TRNCNT n]) s t ∧ t.laneState n = 3 ∧
    t.regB (R.IRQS (0x10 + n)) 1 = true ∧ (s.injQuiet n → t.out = s.out) := by
  rw [ht, State.retrain, if_pos hup]
  exact ⟨State.laneGoto_step (st := 3) hsvc hn (by decide), State.laneState_laneGoto hsvc hn (by decide),
    State.down_laneGoto hsvc hup (by decide), State.out_laneGoto hsvc hn (by decide)⟩

/-! ### MODE (R149) -/

theorem State.lnRole_unpaired {s : State} (h : s.paired = false) (n : Nat) : s.lnRole n = s.regF (R.LNE.LNMAP n) 5 2 := by
  rw [State.lnRole, State.lnmap, State.isTie, h, if_neg (by simp)]
  rfl

/-- A lane of the ring map refuses a test while a plan runs. -/
theorem State.laneMode_refused {s : State} {n mode : Nat} (hpaired : s.paired = false) (hmode : mode ≠ 0)
    (hrole : s.regF (R.LNE.LNMAP n) 5 2 ≠ 0) (hrun : s.plan.run = true) : s.laneMode n mode = s.irq (0x10 + n) 4 := by
  rw [← State.lnRole_unpaired hpaired] at hrole
  exact if_pos (by simp [hmode, hrole, hrun])

/-- The lane with MODE written. -/
def State.moded (s : State) (n mode : Nat) : State := s.setF (R.LNE.LNCTL n) 1 2 mode

theorem State.moded_step (s : State) (n mode : Nat) : LaneStep [R.LNE.LNCTL n] s (s.moded n mode) :=
  (LaneStep.refl _ s).setF _ _ _ (by simp)

theorem State.moded_mode (s : State) (n : Nat) {mode : Nat} (h : mode < 4) : (s.moded n mode).regF (R.LNE.LNCTL n) 1 2 = mode :=
  (State.regF_setF_same _ _ _ _ _ (by decide)).trans (Nat.mod_eq_of_lt h)

theorem State.moded_pattern (s : State) (n mode : Nat) : (s.moded n mode).regF (R.LNE.LNCTL n) 4 2 = s.regF (R.LNE.LNCTL n) 4 2 :=
  State.regF_setF_ne _ _ (by decide) (.inr (by decide))

theorem State.laneState_moded (s : State) (n mode : Nat) : (s.moded n mode).laneState n = s.laneState n :=
  State.regF_reg ((s.moded_step n mode).reg (by simp)) 0 3

theorem State.injQuiet_moded {s : State} {n : Nat} (mode : Nat) (h : s.injQuiet n) : (s.moded n mode).injQuiet n := h

section
variable {s : State} {n : Nat}

theorem State.laneMode_test {mode : Nat} (hpaired : s.paired = false) (hmode : mode ≠ 0)
    (hfree : s.regF (R.LNE.LNMAP n) 5 2 = 0 ∨ s.plan.run = false) (hon : s.laneState n ≠ 0) :
    s.laneMode n mode = (s.moded n mode).laneGoto n 5 := by
  rw [← State.lnRole_unpaired hpaired] at hfree
  rw [State.laneMode, if_neg (by rcases hfree with h | h <;> simp [h])]
  dsimp only
  rw [if_pos hmode, if_neg hon, State.moded]

theorem State.laneMode_leaves (htest : s.laneState n = 5) : s.laneMode n 0 = ((s.moded n 0).laneGoto n 1).laneSettle n := by
  rw [State.laneMode, if_neg (by simp)]
  dsimp only
  rw [if_neg (by simp), if_pos htest, State.moded]

variable (hsvc : s.svc = []) (hn : n < 32)
include hsvc hn

/-- A test begins. -/
theorem State.moded_laneGoto_spec {mode : Nat} (hmode : mode < 4) {t : State} (ht : t = (s.moded n mode).laneGoto n 5) :
    LaneStep (laneKeys n ++ [R.LNE.LNCTL n, R.LNE.ELCNT n]) s t ∧ t.laneState n = 5 ∧ t.regF (R.LNE.LNCTL n) 1 2 = mode ∧
    (s.laneState n = 4 → t.regB (R.IRQS (0x10 + n)) 1 = true) ∧
    (mode = 2 → t.regB (R.LNE.LNSTA n) 4 = false ∧ t.regB (R.LNE.LNSTA n) 5 = true ∧ (t.lane n).loop = 0) := by
  have hsvc' : (s.moded n mode).svc = [] := hsvc
  have hstate := s.laneState_moded n mode
  have hmoded := s.moded_mode n hmode
  have hfirst := s.moded_step n mode
  generalize s.moded n mode = u at *
  have hgoto := State.laneGoto_step (s := u) (st := 5) hsvc' hn (by decide)
  rw [ht]
  refine ⟨(hfirst.mono (by simp)).trans (hgoto.mono (by simp +contextual [gotoKeys, or_imp])),
    State.laneState_laneGoto hsvc' hn (by decide), ?_, fun hup => State.down_laneGoto hsvc' (hstate.trans hup) (by decide), ?_⟩
  · exact (State.regF_reg (hgoto.reg (by simp [laneKeys, gotoKeys])) 1 2).trans hmoded
  · rintro rfl
    have htest := State.testMode_laneEntered_test (s := u) hn
    rw [hmoded] at htest
    refine ⟨?_, ?_, State.loop_laneGoto hsvc' hn hmoded⟩
    · rw [State.regB_lnsta_laneGoto hsvc' (by decide), if_pos htest, if_pos rfl]
    · rw [State.regB_lnsta_laneGoto hsvc' (by decide), if_pos htest, if_neg (by decide), if_pos rfl]

/-- What a test sends as it begins: pattern mode its pattern, and an injection of kind 3 that stands acts again. -/
theorem State.out_moded_laneGoto {mode : Nat} (hmode : mode < 4) {t : State} (ht : t = (s.moded n mode).laneGoto n 5) :
    (s.injQuiet n → mode = 1 → t.out = [.pattern n s.dt64 (s.regF (R.LNE.LNCTL n) 4 2)]) ∧
    (s.injQuiet n → mode ≠ 1 → t.out = s.out) ∧
    (∀ e, (s.lane n).inj = some e → (s.lane n).injOn = false → mode = 1 →
      t.out = [.pattern n s.dt64 (s.regF (R.LNE.LNCTL n) 4 2), .invert n s.dt64 1 (some e)]) := by
  have hsvc' : (s.moded n mode).svc = [] := hsvc
  have hmoded := s.moded_mode n hmode
  have hpattern := s.moded_pattern n mode
  have hnow : (s.moded n mode).dt64 = s.dt64 := (s.moded_step n mode).dt64
  have hout : (s.moded n mode).out = s.out := State.setF_out ..
  have hlane : (s.moded n mode).lane n = s.lane n := State.lane_setF ..
  have hquiet : s.injQuiet n → (s.moded n mode).injQuiet n := State.injQuiet_moded mode
  generalize s.moded n mode = u at *
  obtain ⟨hinj, hon⟩ := State.lane_laneEntered_test (s := u) (n := n)
  rw [ht]
  refine ⟨fun hq hone => ?_, fun hq hother => ?_, fun e hstands hoff hone => ?_⟩
  · rw [State.out_laneGoto_pattern hsvc' hn (hmoded.trans hone), hnow, hpattern,
      State.injFrames_quiet (State.injQuiet_kept (hquiet hq) hinj hon)]
  · exact (State.out_laneGoto_silent hsvc' hn (hmoded.trans_ne hother) (hquiet hq)).trans hout
  · rw [hlane] at hinj hon
    rw [State.out_laneGoto_pattern hsvc' hn (hmoded.trans hone), hnow, hpattern,
      State.injFrames_begins (hinj.trans hstands) (hon.trans hoff) (State.injActs_laneEntered_pattern hn (hmoded.trans hone)),
      (u.laneEntered_step n 5).dt64, hnow]

/-- A test ends. -/
theorem State.laneMode_leaves_spec (htest : s.laneState n = 5) {t : State} (ht : t = s.laneMode n 0) :
    LaneStep (laneKeys n ++ [R.LNE.LNCTL n]) s t ∧ t.laneState n = (if s.regB (R.LNE.LNSTA n) 3 then 1 else 2) ∧
    t.regF (R.LNE.LNCTL n) 1 2 = 0 ∧ (s.injQuiet n → t.out = s.out) := by
  have hsvc' : (s.moded n 0).svc = [] := hsvc
  have hmoded := s.moded_mode n (mode := 0) (by decide)
  have hfirst := s.moded_step n 0
  have hout : (s.moded n 0).out = s.out := State.setF_out ..
  have hquiet : s.injQuiet n → (s.moded n 0).injQuiet n := State.injQuiet_moded 0
  rw [State.laneMode_leaves htest] at ht
  generalize s.moded n 0 = u at *
  have hgoto := State.laneGoto_step_low hsvc' hn (by decide : 1 ≤ 2)
  have hlos := (State.flag_laneGoto (i := 3) hsvc' hn (by decide : 1 < 5) (by decide) (by decide)).trans
    (State.regB_reg (hfirst.reg (by simp)) 3)
  have hone := State.laneState_laneGoto hsvc' hn (by decide : 1 ≤ 5)
  have hgout := State.out_laneGoto hsvc' hn (by decide : 1 < 5)
  have hgquiet := State.injQuiet_laneGoto hsvc' hn (by decide : 1 < 5) (by decide)
  generalize u.laneGoto n 1 = v at *
  obtain ⟨hsettle, -, hstate, hsout⟩ := State.laneSettle_spec (hgoto.svc.trans hsvc') hn
  rw [← ht] at hsettle hstate hsout
  refine ⟨((hfirst.mono (by simp)).trans (hgoto.mono fun _ => List.mem_append_left _)).trans
    (hsettle.mono fun _ => List.mem_append_left _), ?_, ?_,
    fun hq => (hsout (hgquiet (hquiet hq))).trans ((hgout (hquiet hq)).trans hout)⟩
  · rw [hstate, hone, hlos]
    cases s.regB (R.LNE.LNSTA n) 3 <;> simp
  · rw [State.regF_reg (hsettle.reg (by simp [laneKeys])), State.regF_reg (hgoto.reg (by simp [laneKeys])), hmoded]

end

/-! ### INJGO (R147) -/

/-- The injector set by INJGO, and not acting yet. -/
def State.injSet (s : State) (n : Nat) : State :=
  s.setLane n { s.lane n with
    inj := if s.regF (R.LNE.LNCTL n) 8 2 = 3 then some (Nat.max 15 (s.regN (R.LNE.INJINT n)) + 1) else none, injOn := false }

/-- One bit or one burst, by the kind. -/
def State.injBurst (s : State) (n : Nat) : List OutFrame :=
  match s.regF (R.LNE.LNCTL n) 8 2 with
    | 1 => [.invert n s.dt64 1 none]
    | 2 => [.invert n s.dt64 (if s.regF (R.LNE.LNCTL n) 16 6 = 0 then 64 else s.regF (R.LNE.LNCTL n) 16 6) none]
    | _ => []

/-- The end of an injection of kind 3, and one bit or one burst. -/
def State.injShot (s : State) (n : Nat) : List OutFrame :=
  (if (s.lane n).injOn && s.regF (R.LNE.LNCTL n) 8 2 ≠ 3 then [.invert n s.dt64 0 none] else []) ++
  (if !s.injActs n then [] else s.injBurst n)

theorem State.injGo_eq (s : State) (n : Nat) : s.injGo n = (s.injSet n).injSync n (s.injShot n) := rfl

theorem State.bare_injShot (s : State) (n : Nat) : ∀ f ∈ s.injShot n, f.bare := by
  intro f hf
  rcases List.mem_append.1 hf with hf | hf
  · split at hf
    · exact List.mem_singleton.1 hf ▸ bare_invert _ _ _ _
    · cases hf
  · split at hf
    · cases hf
    · unfold State.injBurst at hf
      split at hf
      · exact List.mem_singleton.1 hf ▸ bare_invert _ _ _ _
      · exact List.mem_singleton.1 hf ▸ bare_invert _ _ _ _
      · cases hf

/-- One bit or one burst only where the injector acts, and none of kind 0 or 3. -/
theorem State.injShot_eq {s : State} {n : Nat} (hoff : (s.lane n).injOn = false ∨ s.regF (R.LNE.LNCTL n) 8 2 = 3) :
    s.injShot n = if !s.injActs n then [] else s.injBurst n := by
  rw [State.injShot, if_neg (by rcases hoff with h | h <;> simp [h]), List.nil_append]

section
variable (s : State) (n : Nat)

theorem State.lane_injSet : (s.injSet n).lane n = { s.lane n with
    inj := if s.regF (R.LNE.LNCTL n) 8 2 = 3 then some (Nat.max 15 (s.regN (R.LNE.INJINT n)) + 1) else none, injOn := false } := by
  rw [State.injSet, State.lane_setLane]

theorem State.injNow_injSet : (s.injSet n).injNow n = (decide (s.regF (R.LNE.LNCTL n) 8 2 = 3) && s.injActs n) := by
  have hacts : (s.injSet n).injActs n = s.injActs n := rfl
  rw [State.injNow, hacts, s.lane_injSet]
  by_cases h3 : s.regF (R.LNE.LNCTL n) 8 2 = 3 <;> simp [h3]

/-- An injection of kind 3 begins with INJGO where the injector acts. -/
theorem State.injFrames_injSet : (s.injSet n).injFrames n = if s.regF (R.LNE.LNCTL n) 8 2 = 3 ∧ s.injActs n = true
    then [.invert n s.dt64 1 (some (Nat.max 15 (s.regN (R.LNE.INJINT n)) + 1))] else [] := by
  have hnow := s.injNow_injSet n
  have hdt : (s.injSet n).dt64 = s.dt64 := State.dt64_setLane ..
  rw [State.injFrames, hnow, s.lane_injSet, hdt]
  by_cases h3 : s.regF (R.LNE.LNCTL n) 8 2 = 3 <;> simp [h3]

end

theorem State.setLane_frame (s : State) (n : Nat) (l : Lane) : s.setLane n l = { s with lanes := (s.setLane n l).lanes } := rfl

theorem State.withOut_frame {s t : State} (h : t = { s with lanes := t.lanes }) (o : List OutFrame) :
    { t with out := o } = { s with lanes := t.lanes, out := o } := congrArg (fun x : State => { x with out := o }) h

theorem State.injSynced_injSet (s : State) (n : Nat) :
    (s.injSet n).injSynced n = { s with lanes := ((s.injSet n).injSynced n).lanes } := by
  have hset : s.injSet n = { s with lanes := (s.injSet n).lanes } := s.setLane_frame n _
  have hsync : (s.injSet n).injSynced n = { s.injSet n with lanes := ((s.injSet n).injSynced n).lanes } :=
    (s.injSet n).setLane_frame n _
  generalize (s.injSet n).injSynced n = u at *
  exact hsync.trans (congrArg (fun x : State => { x with lanes := u.lanes }) hset)

theorem State.injGo_spec {s : State} {n : Nat} {t : State} (ht : t = s.injGo n) :
    t.lane n = { s.lane n with
      inj := if s.regF (R.LNE.LNCTL n) 8 2 = 3 then some (Nat.max 15 (s.regN (R.LNE.INJINT n)) + 1) else none,
      injOn := decide (s.regF (R.LNE.LNCTL n) 8 2 = 3) && s.injActs n } ∧
    t.out = (if s.injShot n ++ (s.injSet n).injFrames n = [] then s.out else s.injShot n ++ (s.injSet n).injFrames n) ∧
    t = { s with lanes := t.lanes, out := t.out } := by
  have hbare := s.bare_injShot n
  have heq := (s.injSet n).injSync_eq n hbare
  rw [ht, State.injGo_eq]
  refine ⟨?_, ?_, ?_⟩
  · rw [State.lane_injSync _ _ hbare, s.injNow_injSet, s.lane_injSet]
  · exact State.out_injSync _ _ hbare
  · rw [heq]
    exact State.withOut_frame (s.injSynced_injSet n) _

/-- What INJGO sends. -/
theorem State.out_injGo {s : State} {n : Nat} {t : State} (ht : t = s.injGo n) :
    (s.injActs n = true → s.regF (R.LNE.LNCTL n) 8 2 = 3 →
      t.out = [.invert n s.dt64 1 (some (Nat.max 15 (s.regN (R.LNE.INJINT n)) + 1))]) ∧
    ((s.lane n).injOn = false → (s.injActs n = false ∨ s.regF (R.LNE.LNCTL n) 8 2 = 0 → t.out = s.out) ∧
      (s.injActs n = true → s.regF (R.LNE.LNCTL n) 8 2 = 1 → t.out = [.invert n s.dt64 1 none]) ∧
      (s.injActs n = true → s.regF (R.LNE.LNCTL n) 8 2 = 2 → t.out =
        [.invert n s.dt64 (if s.regF (R.LNE.LNCTL n) 16 6 = 0 then 64 else s.regF (R.LNE.LNCTL n) 16 6) none])) := by
  obtain ⟨-, hout, -⟩ := State.injGo_spec ht
  rw [hout, s.injFrames_injSet]
  refine ⟨fun hacts h3 => ?_, fun hoff => ⟨fun hidle => ?_, fun hacts h1 => ?_, fun hacts h2 => ?_⟩⟩
  · simp [State.injShot_eq (.inr h3), hacts, h3, State.injBurst]
  · rcases hidle with hacts | h0
    · simp [State.injShot_eq (.inl hoff), hacts]
    · simp [State.injShot_eq (.inl hoff), h0, State.injBurst]
  · simp [State.injShot_eq (.inl hoff), hacts, h1, State.injBurst]
  · simp [State.injShot_eq (.inl hoff), hacts, h2, State.injBurst]

end Sys2Proof.Machine
end

section
/-! Proofs: code violations, the elastic FIFO and the millisecond of a lane (chapter 04, R128 to R131, R151). -/

namespace Sys2Proof.Machine

theorem exec_laneCode (lane : Fin 32) (idles : List Nat) (drift : List Int) (pwr : BitVec 16) (s : State) :
    exec (.laneCode lane idles drift pwr) s = .next (s.laneMs lane.val (idles.zip drift) pwr) := rfl
theorem exec_laneFifo (rx : FifoBreak) (s : State) :
    exec (.laneFifo rx) s = .next (s.laneFifo rx.lane.val rx.drift rx.inFrame) := rfl
theorem exec_codeViolation (lane : Fin 32) (rx : RxGroups) (s : State) :
    exec (.codeViolation lane rx) s = .next (s.rxGroups lane.val rx.groups) := rfl

theorem State.testMode_congr {s t : State} {n : Nat} (hlnsta : t.regF (R.LNE.LNSTA n) 0 3 = s.regF (R.LNE.LNSTA n) 0 3)
    (hlnctl : t.reg (R.LNE.LNCTL n) = s.reg (R.LNE.LNCTL n)) : t.testMode n = s.testMode n := by
  have hstate : t.laneState n = s.laneState n := hlnsta
  rw [State.testMode, State.testMode, hstate, State.regF_reg hlnctl]

theorem State.fibre_congr {s t : State} {n : Nat} (hlnsta : t.regF (R.LNE.LNSTA n) 0 3 = s.regF (R.LNE.LNSTA n) 0 3)
    (hlnctl : t.reg (R.LNE.LNCTL n) = s.reg (R.LNE.LNCTL n)) : t.fibre n = s.fibre n := by
  have hstate : t.laneState n = s.laneState n := hlnsta
  rw [State.fibre, State.fibre, hstate, State.testMode_congr hlnsta hlnctl]

/-! ### Code groups (R126, R128) -/

/-- The receiver past a code group: its disparity, its count of symbols and the frame it is in. -/
def Lane.past (l : Lane) (g : BitVec 10) : Lane :=
  { l with rxRd := rdPast g l.rxRd, rxCount := l.rxCount + 1, rxIn := inFrameAfter (specialOf g l.rxRd) l.rxIn }

/-- The lane with a violation of a millisecond taken; in a frame, where the lane receives frames, the frame is discarded. -/
def Lane.violated (l : Lane) (g : BitVec 10) (ms : Nat) (receives : Bool) : Lane :=
  { l.past g with cvMs := if l.cvIn = ms then l.cvMs + 1 else 1, cvIn := ms, viol := (l.rxCount :: l.viol).take 4,
                  drop := l.drop || (l.rxIn && receives) }

section
variable {s : State} {n : Nat} {g : BitVec 10}

theorem State.rxGroup_good (h : violates g (s.lane n).rxRd = false) : s.rxGroup n g = s.setLane n ((s.lane n).past g) := by
  rw [State.rxGroup, h]
  rfl

theorem State.rxGroup_bad (h : violates g (s.lane n).rxRd = true) : s.rxGroup n g =
    (s.setLane n ((s.lane n).violated g (s.dt64 / 16000000 + 1) (s.laneState n = 3 || s.laneState n = 4))).bump
      (R.LNE.CVCNT n) := by
  rw [State.rxGroup, h]
  rfl

theorem State.rxGroup_step (s : State) (n : Nat) (g : BitVec 10) : LaneStep [R.LNE.CVCNT n] s (s.rxGroup n g) := by
  by_cases h : violates g (s.lane n).rxRd = true
  · rw [State.rxGroup_bad h]
    exact ((LaneStep.refl _ s).setLane _ _).bump (by simp)
  · rw [State.rxGroup_good (by simpa using h)]
    exact (LaneStep.refl _ s).setLane _ _

theorem State.out_rxGroup (s : State) (n : Nat) (g : BitVec 10) : (s.rxGroup n g).out = s.out := by
  by_cases h : violates g (s.lane n).rxRd = true
  · rw [State.rxGroup_bad h]
    rfl
  · rw [State.rxGroup_good (by simpa using h), State.out_setLane]

/-- A receiver that sees no code groups. -/
theorem State.rxGroups_unseen (h : s.fibre n = false ∨ s.testMode n = 1) (l : List (BitVec 10)) : s.rxGroups n l = s :=
  if_pos (by rcases h with h | h <;> simp [h])

theorem State.rxGroups_seen (hfibre : s.fibre n = true) (hmode : s.testMode n ≠ 1) (l : List (BitVec 10)) :
    s.rxGroups n l = l.foldl (fun t g => t.rxGroup n g) s :=
  if_neg (by simp [hfibre, hmode])

/-- Groups are taken one after the other. -/
theorem State.rxGroups_cons (hfibre : s.fibre n = true) (hmode : s.testMode n ≠ 1) (g : BitVec 10) (l : List (BitVec 10)) :
    s.rxGroups n (g :: l) = (s.rxGroup n g).rxGroups n l := by
  have hlnsta := State.regF_reg ((s.rxGroup_step n g).reg (k := R.LNE.LNSTA n) (by simp)) 0 3
  have hlnctl := (s.rxGroup_step n g).reg (k := R.LNE.LNCTL n) (by simp)
  rw [State.rxGroups_seen hfibre hmode, State.rxGroups_seen ((State.fibre_congr hlnsta hlnctl).trans hfibre)
    (State.testMode_congr hlnsta hlnctl ▸ hmode), List.foldl_cons]

/-- What a group of any sort moves on. -/
theorem State.rxGroup_past {t : State} (ht : t = s.rxGroup n g) : (t.lane n).rxRd = rdPast g (s.lane n).rxRd ∧
    (t.lane n).rxCount = (s.lane n).rxCount + 1 ∧ (t.lane n).rxIn = inFrameAfter (specialOf g (s.lane n).rxRd) (s.lane n).rxIn := by
  by_cases h : violates g (s.lane n).rxRd = true
  · rw [ht, State.rxGroup_bad h, State.lane_bump, State.lane_setLane]
    exact ⟨rfl, rfl, rfl⟩
  · rw [ht, State.rxGroup_good (by simpa using h), State.lane_setLane]
    exact ⟨rfl, rfl, rfl⟩

end

/-! ### The elastic FIFO (R130, R131) -/

section
variable {s : State} {n : Nat}

theorem State.setFill_step (s : State) (n f : Nat) : LaneStep [R.LNE.LNSTA n] s (s.setFill n f) :=
  ((LaneStep.refl _ s).setLane _ _).setF _ _ _ (by simp)

theorem State.fill_setFill (s : State) (n f : Nat) : (s.setFill n f).regF (R.LNE.LNSTA n) 8 4 = Nat.min 15 f := by
  rw [State.setFill, State.regF_setF_same _ _ _ _ _ (by decide)]
  exact Nat.mod_eq_of_lt (Nat.lt_of_le_of_lt (Nat.min_le_left ..) (by decide))

theorem State.testMode_setFill (s : State) (n f : Nat) : (s.setFill n f).testMode n = s.testMode n :=
  State.testMode_congr (State.regF_setF_ne _ _ (by decide) (.inr (by decide))) ((s.setFill_step n f).reg (by simp))

/-- Without drift the FIFO is as full as it was. -/
theorem State.fifoDrift_zero (hfill : (s.lane n).fill ≤ 16) (inFrame : Bool) :
    s.fifoDrift n 0 inFrame = s.setFill n (s.lane n).fill := by
  unfold State.fifoDrift
  dsimp only
  rw [Int.add_zero, if_neg (by omega), if_neg (by omega), State.when, if_neg (by simp; omega), Int.toNat_natCast]

/-- A FIFO broken by a drift: recentred at the next run of idles, a frame in progress discarded. -/
def Lane.broken (l : Lane) (inFrame : Bool) : Lane := { l with recentre := true, drop := l.drop || inFrame }

/-- The fill of a FIFO of 16 symbols after a drift. -/
def fillAfter (f : Int) : Nat := if f < 0 then 0 else if 16 < f then 16 else f.toNat

/-- The FIFO with a drift that breaks it. -/
def State.fifoBroken (s : State) (n : Nat) (drift : Int) (inFrame : Bool) : State :=
  let t := s.setFill n (fillAfter ((s.lane n).fill + drift))
  t.setLane n ((t.lane n).broken inFrame)

theorem State.fifoDrift_breaks {drift : Int} (h : ((s.lane n).fill : Int) + drift < 0 ∨ 16 < ((s.lane n).fill : Int) + drift)
    (inFrame : Bool) : s.fifoDrift n drift inFrame = (s.fifoBroken n drift inFrame).fault Src.LANE_FIFO (0x10 + n) n := by
  unfold State.fifoDrift
  dsimp only
  rw [State.when, if_pos (by simpa using h)]
  rfl

theorem State.fifoBroken_spec (s : State) (n : Nat) (drift : Int) (inFrame : Bool) {t : State} (ht : t = s.fifoBroken n drift inFrame) :
    LaneStep [R.LNE.LNSTA n] s t ∧ t.out = s.out ∧ (t.lane n).drop = ((s.lane n).drop || inFrame) ∧ (t.lane n).recentre = true := by
  rw [ht, State.fifoBroken]
  refine ⟨(s.setFill_step n _).setLane _ _, rfl, ?_, ?_⟩
  · rw [State.lane_setLane, State.lane_setFill]
    rfl
  · rw [State.lane_setLane]
    rfl

/-- A run of fewer than 2 idles leaves the FIFO alone. -/
theorem State.fifoRun_short (hcentred : (s.lane n).recentre = false) {idles : Nat} (h : idles < 2) : s.fifoRun n idles = s := by
  unfold State.fifoRun
  dsimp only
  rw [if_neg (by simp [hcentred]), if_pos (by simp [h])]

/-- The symbols that a run of idles inserts and deletes are counted. -/
def State.elCounted (s : State) (n ins del : Nat) : State :=
  (s.setF (R.LNE.ELCNT n) 0 16 (Nat.min 0xFFFF (s.regF (R.LNE.ELCNT n) 0 16 + ins))).setF (R.LNE.ELCNT n) 16 16
    (Nat.min 0xFFFF (s.regF (R.LNE.ELCNT n) 16 16 + del))

theorem State.elCounted_step (s : State) (n ins del : Nat) : LaneStep [R.LNE.ELCNT n] s (s.elCounted n ins del) :=
  ((LaneStep.refl _ s).setF _ _ _ (by simp)).setF _ _ _ (by simp)

theorem State.elCounted_counts (s : State) (n ins del : Nat) :
    (s.elCounted n ins del).regF (R.LNE.ELCNT n) 0 16 = Nat.min 0xFFFF (s.regF (R.LNE.ELCNT n) 0 16 + ins) ∧
    (s.elCounted n ins del).regF (R.LNE.ELCNT n) 16 16 = Nat.min 0xFFFF (s.regF (R.LNE.ELCNT n) 16 16 + del) := by
  have hlt : ∀ x, Nat.min 0xFFFF x < 2 ^ 16 := fun x => Nat.lt_of_le_of_lt (Nat.min_le_left ..) (by decide)
  unfold State.elCounted
  constructor
  · rw [State.regF_setF_ne _ _ (by decide) (.inr (by decide)), State.regF_setF_same _ _ _ _ _ (by decide)]
    exact Nat.mod_eq_of_lt (hlt _)
  · rw [State.regF_setF_same _ _ _ _ _ (by decide)]
    exact Nat.mod_eq_of_lt (hlt _)

theorem State.lane_elCounted (s : State) (n ins del : Nat) : (s.elCounted n ins del).lane n = s.lane n := by
  rw [State.elCounted, State.lane_setF, State.lane_setF]

/-- A run of 2 or more idles brings the fill back to 8, as far as its idles last. -/
theorem State.fifoRun_long (hcentred : (s.lane n).recentre = false) {idles : Nat} (h : 2 ≤ idles) (hmode : s.testMode n = 0)
    {ins del : Nat} (hins : ins = 8 - (s.lane n).fill) (hdel : del = Nat.min ((s.lane n).fill - 8) (idles - 1)) :
    s.fifoRun n idles = (s.setFill n ((s.lane n).fill + ins - del)).elCounted n ins del := by
  have helcnt : ∀ f, (s.setFill n f).reg (R.LNE.ELCNT n) = s.reg (R.LNE.ELCNT n) := fun f => (s.setFill_step n f).reg (by simp)
  unfold State.fifoRun State.elCounted
  dsimp only
  rw [if_neg (by simp [hcentred]), if_neg (by simp [hmode]; omega), State.regF_reg (helcnt _), State.regF_reg (helcnt _), hins, hdel]

/-- What a run of idles that comes without drift does to a FIFO in step. -/
theorem State.fifoPass_spec (hcentred : (s.lane n).recentre = false) (hmode : s.testMode n = 0) {idles : Nat} {t : State}
    (ht : t = (s.setFill n (s.lane n).fill).fifoRun n idles) : LaneStep [R.LNE.ELCNT n, R.LNE.LNSTA n] s t ∧
    (idles < 2 → (t.lane n).fill = (s.lane n).fill ∧ t.reg (R.LNE.ELCNT n) = s.reg (R.LNE.ELCNT n)) ∧
    (2 ≤ idles → ∀ del, del = Nat.min ((s.lane n).fill - 8) (idles - 1) →
      (t.lane n).fill = (s.lane n).fill + (8 - (s.lane n).fill) - del ∧
      t.regF (R.LNE.ELCNT n) 0 16 = Nat.min 0xFFFF (s.regF (R.LNE.ELCNT n) 0 16 + (8 - (s.lane n).fill)) ∧
      t.regF (R.LNE.ELCNT n) 16 16 = Nat.min 0xFFFF (s.regF (R.LNE.ELCNT n) 16 16 + del)) ∧
    t.regF (R.LNE.LNSTA n) 8 4 = Nat.min 15 (t.lane n).fill := by
  have hfirst := s.setFill_step n (s.lane n).fill
  have hshown := s.fill_setFill n (s.lane n).fill
  have hmode' := (s.testMode_setFill n (s.lane n).fill).trans hmode
  have hcentred' : ((s.setFill n (s.lane n).fill).lane n).recentre = false := by rw [State.lane_setFill, hcentred]
  have hfill : ((s.setFill n (s.lane n).fill).lane n).fill = (s.lane n).fill := by rw [State.lane_setFill]
  generalize s.setFill n (s.lane n).fill = u at *
  have hel : u.reg (R.LNE.ELCNT n) = s.reg (R.LNE.ELCNT n) := hfirst.reg (by simp)
  have hstep : LaneStep [R.LNE.ELCNT n, R.LNE.LNSTA n] s t :=
    ht ▸ (hfirst.mono (by simp)).trans ((u.fifoRun_step n idles).mono (by simp))
  by_cases hshort : idles < 2
  · rw [State.fifoRun_short hcentred' hshort] at ht
    subst ht
    exact ⟨hstep, fun _ => ⟨hfill, hel⟩, fun h => absurd hshort (by omega), by rw [hshown, hfill]⟩
  · have hlong : 2 ≤ idles := by omega
    obtain ⟨del, hdel⟩ : ∃ del, del = Nat.min ((u.lane n).fill - 8) (idles - 1) := ⟨_, rfl⟩
    rw [State.fifoRun_long hcentred' hlong hmode' rfl hdel] at ht
    obtain ⟨h0, h16⟩ := State.elCounted_counts (u.setFill n ((u.lane n).fill + (8 - (u.lane n).fill) - del)) n (8 - (u.lane n).fill) del
    have hel' : (u.setFill n ((u.lane n).fill + (8 - (u.lane n).fill) - del)).reg (R.LNE.ELCNT n) = s.reg (R.LNE.ELCNT n) :=
      ((u.setFill_step n _).reg (by simp)).trans hel
    have hfill' : (t.lane n).fill = (u.lane n).fill + (8 - (u.lane n).fill) - del := by
      rw [ht, State.lane_elCounted, State.lane_setFill]
    refine ⟨hstep, fun h => absurd h hshort, ?_, ?_⟩
    · rw [← hfill]
      intro _ del' hdel'
      obtain rfl := hdel'.trans hdel.symm
      rw [ht, h0, h16, State.regF_reg hel', State.regF_reg hel', ← ht]
      exact ⟨hfill', rfl, rfl⟩
    · rw [hfill', ht, State.regF_reg ((State.elCounted_step _ n _ _).reg (by simp)), State.fill_setFill]

end

/-! ### A millisecond (R134, R151) -/

/-- The runs of idles of a millisecond have passed, and PWR reports. -/
def State.msTaken (s : State) (n : Nat) (idles : List (Nat × Int)) (pwr : BitVec 16) : State :=
  let s2 := s.when (s.fibre n) fun t => idles.foldl (fun u r => (u.fifoDrift n r.2 false).fifoRun n r.1) t
  s2.when (s2.fibre n) fun t => t.setReg (R.LNE.PWR n) (wd pwr.toNat)

/-- The millisecond that LANE_CODE ends. -/
def State.msNow (s : State) (n : Nat) : Nat := s.nextMultiple (s.lane n).msAt 16000000

/-- The millisecond is judged. -/
def State.msEnded (s : State) (n : Nat) (idles : List (Nat × Int)) (pwr : BitVec 16) : State :=
  let t := (s.reach (s.msNow n * 16000000)).msTaken n idles pwr
  t.setLane n { t.lane n with msAt := s.msNow n + 1 }

/-- More violations than CVTH fell in the millisecond that ends. -/
def State.msFaulty (s : State) (n : Nat) : Bool :=
  (s.lane n).cvIn = s.msNow n && Nat.blt (s.regF (R.LNE.LNCFG n) 8 8) (s.lane n).cvMs

theorem State.msFaulty_iff (s : State) (n : Nat) :
    s.msFaulty n = true ↔ (s.lane n).cvIn = s.msNow n ∧ s.regF (R.LNE.LNCFG n) 8 8 < (s.lane n).cvMs := by
  simp [State.msFaulty, Nat.blt_eq]

theorem State.laneMs_eq (s : State) (n : Nat) (idles : List (Nat × Int)) (pwr : BitVec 16) : s.laneMs n idles pwr =
    (s.msEnded n idles pwr).when (s.msFaulty n) fun t => t.fault Src.LANE_CODE (0x10 + n) n := rfl

theorem State.fibre_reach (s : State) (x n : Nat) : (s.reach x).fibre n = s.fibre n :=
  State.fibre_congr (State.regF_reg (s.reg_reach x _) 0 3) (s.reg_reach x _)

/-- A lane outside OFF and TEST sees its fibre and takes symbols. -/
theorem State.fibre_of_untested {s : State} {n : Nat} (hon : s.laneState n ≠ 0) (htest : s.laneState n ≠ 5) :
    s.testMode n = 0 ∧ s.fibre n = true := by
  have hmode : s.testMode n = 0 := if_neg htest
  exact ⟨hmode, by simp [State.fibre, hmode, hon]⟩

section
variable {s : State} {n : Nat} {pwr : BitVec 16}

/-- LANE_CODE raises its fault after the rest. -/
theorem State.laneMs_raises {idles : List (Nat × Int)} {t u : State} (hu : u = s.msEnded n idles pwr) (ht : t = s.laneMs n idles pwr)
    (hscribe : u.scribe = s.scribe) : (∃ c, t = { u with scribe := c }) ∧
    (s.msFaulty n = true → s.raised t Src.LANE_CODE (0x10 + n)) ∧ (s.msFaulty n = false → t.scribe = s.scribe) := by
  rw [State.laneMs_eq, ← hu] at ht
  rw [ht, State.when]
  cases s.msFaulty n
  · exact ⟨⟨u.scribe, rfl⟩, nofun, fun _ => hscribe⟩
  · exact ⟨⟨_, rfl⟩, fun _ => State.raised_fault_of (congrArg Scribe.inflight hscribe) _ _ _ _ _ _, nofun⟩

theorem State.msTaken_nil (s : State) (n : Nat) (pwr : BitVec 16) :
    s.msTaken n [] pwr = s.when (s.fibre n) fun t => t.setReg (R.LNE.PWR n) (wd pwr.toNat) := by
  have hnone : (s.when (s.fibre n) fun t => ([] : List (Nat × Int)).foldl (fun u r => (u.fifoDrift n r.2 false).fifoRun n r.1) t) = s :=
    ite_self s
  rw [State.msTaken, hnone]

/-- A millisecond in which no run of idles came. -/
theorem State.msEnded_nil {t : State} (ht : t = s.msEnded n [] pwr) :
    LaneStep [R.LNE.PWR n] (s.reach (s.msNow n * 16000000)) t ∧ t.out = s.out ∧ (t.lane n).msAt = s.msNow n + 1 ∧
    (s.fibre n = true → t.reg (R.LNE.PWR n) = wd pwr.toNat) := by
  have hfibre := s.fibre_reach (s.msNow n * 16000000) n
  have hout := s.reach_out (s.msNow n * 16000000)
  rw [ht, State.msEnded]
  generalize s.reach (s.msNow n * 16000000) = r at *
  have htaken : LaneStep [R.LNE.PWR n] r (r.msTaken n [] pwr) := by
    rw [State.msTaken_nil]
    exact (LaneStep.refl _ r).when fun _ => (LaneStep.refl _ r).setReg _ (by simp)
  have hout' : (r.msTaken n [] pwr).out = r.out := by
    rw [State.msTaken_nil]
    exact State.when_keeps State.out (f := fun t => t.setReg (R.LNE.PWR n) (wd pwr.toNat)) (fun _ => rfl) ..
  refine ⟨htaken.setLane _ _, hout'.trans hout, by rw [State.lane_setLane], fun hsees => ?_⟩
  rw [State.reg_setLane, State.msTaken_nil, State.when, if_pos (hfibre.trans hsees), State.reg_setReg_same]

theorem State.msTaken_run (hsees : s.fibre n = true) (hfill : (s.lane n).fill ≤ 16) (idles : Nat) :
    s.msTaken n [(idles, 0)] pwr = ((s.setFill n (s.lane n).fill).fifoRun n idles).when
      (((s.setFill n (s.lane n).fill).fifoRun n idles).fibre n) fun t => t.setReg (R.LNE.PWR n) (wd pwr.toNat) := by
  have hrun : (s.when (s.fibre n) fun t => [(idles, (0 : Int))].foldl (fun u r => (u.fifoDrift n r.2 false).fifoRun n r.1) t) =
      (s.setFill n (s.lane n).fill).fifoRun n idles := by
    rw [State.when, if_pos hsees, List.foldl_cons, List.foldl_nil, State.fifoDrift_zero hfill]
  rw [State.msTaken, hrun]

/-- A millisecond in which one run of idles came, without drift: the run passes the FIFO. -/
theorem State.msEnded_run (hsees : s.fibre n = true) (hfill : (s.lane n).fill ≤ 16) {idles : Nat} {t : State}
    (ht : t = s.msEnded n [(idles, 0)] pwr) :
    ∃ u v, u = s.reach (s.msNow n * 16000000) ∧ v = (u.setFill n (u.lane n).fill).fifoRun n idles ∧
      LaneStep [R.LNE.PWR n] v t ∧ (t.lane n).fill = (v.lane n).fill := by
  have hfibre := s.fibre_reach (s.msNow n * 16000000) n
  have hlane := State.lane_congr (s.reach_lanes (s.msNow n * 16000000)) n
  refine ⟨_, _, rfl, rfl, ?_⟩
  rw [State.msEnded] at ht
  generalize s.reach (s.msNow n * 16000000) = r at *
  rw [State.msTaken_run (hfibre.trans hsees) (hlane ▸ hfill)] at ht
  generalize (r.setFill n (r.lane n).fill).fifoRun n idles = v at *
  rw [ht]
  refine ⟨((LaneStep.refl _ v).when fun _ => (LaneStep.refl _ v).setReg _ (by simp)).setLane _ _, ?_⟩
  rw [State.lane_setLane]
  exact State.when_keeps (fun t => (t.lane n).fill) (f := fun t => t.setReg (R.LNE.PWR n) (wd pwr.toNat)) (fun _ => rfl) ..

end

end Sys2Proof.Machine
end

section
/-! Proofs: the pattern checker of a lane (chapter 04, R145, R146, R148). -/

namespace Sys2Proof.Machine

theorem exec_checkerLock (rx : LaneBits) (s : State) : exec (.checkerLock rx) s = .next (s.lineBits rx.lane.val rx.line) := rfl
theorem exec_checkerUnlock (lane : Fin 32) (line : List Bool) (last : Bool) (s : State) :
    exec (.checkerUnlock lane line last) s = .next (s.lineBits lane.val (line ++ [last])) := rfl
theorem exec_bitcntlRead (lane : Fin 32) (src : HSrc) (line : List Bool) (s : State) : exec (.bitcntlRead lane src line) s =
    .next ((s.lineBits lane.val line).hostRd (0x10 + lane.val) fun t => t.bitcntLatch lane.val (srcNo src)) := rfl

theorem bare_bits (n t : Nat) (line : List Bool) : (OutFrame.bits n t line).bare := fun _ => rfl

/-! ### One bit at the checker -/

/-- The bits in a row correct, after one more: the checker counts once its reference fills the pattern's register. -/
def Checker.runAfter (c : Checker) (pat : Nat) (b : Bool) : Nat :=
  if Nat.ble (prbsTaps pat).1 c.ref.length && b == prbsNext pat c.ref then c.run + 1 else 0

/-- The errors of the last 256 bits checked, after one more. -/
def Checker.errsAfter (c : Checker) (pat : Nat) (b : Bool) : List Bool := ((b != prbsNext pat c.ref) :: c.errs).take 256

/-- The checker seeking the pattern, after one bit. -/
def Checker.sought (c : Checker) (pat : Nat) (b : Bool) : Checker :=
  { ref := (b :: c.ref).take 31, run := if c.runAfter pat b = 256 then 0 else c.runAfter pat b, errs := [] }

/-- The locked checker after one bit. -/
def Checker.followed (c : Checker) (pat : Nat) (b : Bool) : Checker :=
  if 32 ≤ ((c.errsAfter pat b).filter id).length then {}
  else { c with ref := (prbsNext pat c.ref :: c.ref).take 31, errs := c.errsAfter pat b }

theorem Checker.bit_seeking (c : Checker) (pat : Nat) (b : Bool) :
    c.bit pat false b = (c.sought pat b, decide (c.runAfter pat b = 256), false) := by
  unfold Checker.bit Checker.sought
  dsimp only
  rw [if_neg (by decide), ← Checker.runAfter]
  by_cases h : c.runAfter pat b = 256
  · rw [if_pos h, if_pos h, decide_eq_true h]
  · rw [if_neg h, if_neg h, decide_eq_false h]

theorem Checker.bit_locked (c : Checker) (pat : Nat) (b : Bool) :
    c.bit pat true b = (c.followed pat b, decide (((c.errsAfter pat b).filter id).length < 32), b != prbsNext pat c.ref) := by
  unfold Checker.bit Checker.followed
  dsimp only
  rw [if_pos rfl, ← Checker.errsAfter]
  by_cases h : 32 ≤ ((c.errsAfter pat b).filter id).length
  · rw [if_pos (by simpa [Nat.ble_eq] using h), if_pos h, decide_eq_false (by omega)]
  · rw [if_neg (by simpa [Nat.ble_eq] using h), if_neg h, decide_eq_true (by omega)]

/-- The checker locks with the 256th bit of a row of correct ones. -/
theorem Checker.locks_iff (c : Checker) (pat : Nat) (b : Bool) : decide (c.runAfter pat b = 256) =
    (Nat.ble (prbsTaps pat).1 c.ref.length && b == prbsNext pat c.ref && decide (c.run = 255)) := by
  rw [Checker.runAfter]
  cases Nat.ble (prbsTaps pat).1 c.ref.length && b == prbsNext pat c.ref <;> simp

/-- The pattern that a lane's checker expects. -/
def State.chkPat (s : State) (n : Nat) : Nat := s.regF (R.LNE.LNCTL n) 4 2

/-- CHKLOCK shows, and the change is told. -/
def State.chkLockSet (s : State) (n : Nat) (b : Bool) : State := (s.setB (R.LNE.LNSTA n) 6 b).irq (0x10 + n) 3

theorem State.chkLockSet_spec (s : State) (n : Nat) (b : Bool) {t : State} (ht : t = s.chkLockSet n b) :
    LaneStep [R.LNE.LNSTA n, R.IRQS (0x10 + n)] s t ∧ t.out = s.out ∧ t.lane n = s.lane n ∧ t.regB (R.LNE.LNSTA n) 6 = b ∧
    t.regB (R.IRQS (0x10 + n)) 3 = true := by
  rw [ht, State.chkLockSet]
  refine ⟨((LaneStep.refl _ s).setB _ _ (by simp)).setB _ _ (by simp), rfl, ?_, ?_, State.regB_irq_same _ _ (by decide)⟩
  · rw [State.lane_irq, State.lane_setB]
  · rw [State.regB_reg (State.reg_irq_ne _ (by simp)), State.regB_setB_same _ _ _ _ (by decide)]

section
variable {s : State} {n : Nat} {b : Bool}

theorem State.checkBit_seeking (hlock : s.regB (R.LNE.LNSTA n) 6 = false) : s.checkBit n b =
    (s.setLane n { s.lane n with chk := (s.lane n).chk.sought (s.chkPat n) b }).when
      (decide ((s.lane n).chk.runAfter (s.chkPat n) b = 256)) fun t => t.chkLockSet n true := by
  unfold State.checkBit
  dsimp only
  rw [hlock, ← State.chkPat, Checker.bit_seeking]
  cases decide ((s.lane n).chk.runAfter (s.chkPat n) b = 256) <;> rfl

theorem State.checkBit_locked (hlock : s.regB (R.LNE.LNSTA n) 6 = true) : s.checkBit n b =
    ((s.setLane n { s.lane n with chk := (s.lane n).chk.followed (s.chkPat n) b,
                                  bitcnt := Nat.min (2 ^ 48 - 1) ((s.lane n).bitcnt + 1) }).when
      (b != prbsNext (s.chkPat n) (s.lane n).chk.ref) fun t => t.bumpAt (R.LNE.ERRCNT n) 0 32).when
        (!decide ((((s.lane n).chk.errsAfter (s.chkPat n) b).filter id).length < 32)) fun t => t.chkLockSet n false := by
  unfold State.checkBit
  dsimp only
  rw [hlock, ← State.chkPat, Checker.bit_locked]
  cases decide ((((s.lane n).chk.errsAfter (s.chkPat n) b).filter id).length < 32) <;> rfl

/-- What a bit does to a checker that seeks the pattern. -/
theorem State.checkBit_seeking_spec (hlock : s.regB (R.LNE.LNSTA n) 6 = false) {t : State} (ht : t = s.checkBit n b) :
    LaneStep [R.LNE.LNSTA n, R.IRQS (0x10 + n)] s t ∧ t.out = s.out ∧
    t.lane n = { s.lane n with chk := (s.lane n).chk.sought (s.chkPat n) b } ∧
    t.regB (R.LNE.LNSTA n) 6 = decide ((s.lane n).chk.runAfter (s.chkPat n) b = 256) ∧
    (t.regB (R.LNE.LNSTA n) 6 = true → t.regB (R.IRQS (0x10 + n)) 3 = true) := by
  rw [State.checkBit_seeking hlock, State.when] at ht
  have hset : LaneStep [R.LNE.LNSTA n, R.IRQS (0x10 + n)] s
      (s.setLane n { s.lane n with chk := (s.lane n).chk.sought (s.chkPat n) b }) := (LaneStep.refl _ s).setLane _ _
  have hlane := s.lane_setLane n { s.lane n with chk := (s.lane n).chk.sought (s.chkPat n) b }
  have hout := s.out_setLane n { s.lane n with chk := (s.lane n).chk.sought (s.chkPat n) b }
  have hkept := s.regB_setLane n { s.lane n with chk := (s.lane n).chk.sought (s.chkPat n) b } (R.LNE.LNSTA n) 6
  generalize s.setLane n { s.lane n with chk := (s.lane n).chk.sought (s.chkPat n) b } = u at *
  cases hlocks : decide ((s.lane n).chk.runAfter (s.chkPat n) b = 256)
  · rw [hlocks, if_neg (by decide)] at ht
    subst ht
    exact ⟨hset, hout, hlane, hkept.trans hlock, fun h => absurd (h.symm.trans (hkept.trans hlock)) (by decide)⟩
  · rw [hlocks, if_pos rfl] at ht
    obtain ⟨hstep, hout', hlane', hbit, hirq⟩ := u.chkLockSet_spec n true ht
    exact ⟨hset.trans hstep, hout'.trans hout, hlane'.trans hlane, hbit, fun _ => hirq⟩

/-- The bit is counted, and its error. -/
def State.bitCounted (s : State) (n : Nat) (b : Bool) : State :=
  (s.setLane n { s.lane n with chk := (s.lane n).chk.followed (s.chkPat n) b,
                               bitcnt := Nat.min (2 ^ 48 - 1) ((s.lane n).bitcnt + 1) }).when
    (b != prbsNext (s.chkPat n) (s.lane n).chk.ref) fun t => t.bumpAt (R.LNE.ERRCNT n) 0 32

theorem State.bitCounted_spec (s : State) (n : Nat) (b : Bool) {t : State} (ht : t = s.bitCounted n b) :
    LaneStep [R.LNE.ERRCNT n] s t ∧ t.out = s.out ∧ (t.lane n).bitcnt = Nat.min (2 ^ 48 - 1) ((s.lane n).bitcnt + 1) ∧
    t.reg (R.LNE.ERRCNT n) = (if b = prbsNext (s.chkPat n) (s.lane n).chk.ref then s.reg (R.LNE.ERRCNT n)
      else (s.bumpAt (R.LNE.ERRCNT n) 0 32).reg (R.LNE.ERRCNT n)) := by
  rw [State.bitCounted, State.when] at ht
  by_cases hgood : b = prbsNext (s.chkPat n) (s.lane n).chk.ref
  · rw [if_neg (by simpa using hgood)] at ht
    rw [ht, State.lane_setLane, State.out_setLane, State.reg_setLane, if_pos hgood]
    exact ⟨(LaneStep.refl _ s).setLane _ _, rfl, rfl, rfl⟩
  · rw [if_pos (by simpa using hgood)] at ht
    rw [ht, State.lane_bumpAt, State.lane_setLane, if_neg hgood]
    exact ⟨((LaneStep.refl _ s).setLane _ _).setF _ _ _ (by simp), State.setF_out .., rfl,
      (State.reg_setF_same ..).trans (State.reg_setF_same ..).symm⟩

/-- What a bit does to a locked checker: it is counted, with its error, and lock may fall. -/
theorem State.checkBit_locked_spec (hlock : s.regB (R.LNE.LNSTA n) 6 = true) {t : State} (ht : t = s.checkBit n b) :
    LaneStep [R.LNE.LNSTA n, R.IRQS (0x10 + n), R.LNE.ERRCNT n] s t ∧ t.out = s.out ∧
    (t.lane n).bitcnt = Nat.min (2 ^ 48 - 1) ((s.lane n).bitcnt + 1) ∧
    t.reg (R.LNE.ERRCNT n) = (if b = prbsNext (s.chkPat n) (s.lane n).chk.ref then s.reg (R.LNE.ERRCNT n)
      else (s.bumpAt (R.LNE.ERRCNT n) 0 32).reg (R.LNE.ERRCNT n)) ∧
    t.regB (R.LNE.LNSTA n) 6 = decide ((((s.lane n).chk.errsAfter (s.chkPat n) b).filter id).length < 32) ∧
    (t.regB (R.LNE.LNSTA n) 6 = false → t.regB (R.IRQS (0x10 + n)) 3 = true) := by
  obtain ⟨hcount, hout, hbits, herr⟩ := s.bitCounted_spec n b rfl
  rw [State.checkBit_locked hlock, ← State.bitCounted, State.when] at ht
  have hkept : (s.bitCounted n b).regB (R.LNE.LNSTA n) 6 = true := (State.regB_reg (hcount.reg (by simp)) 6).trans hlock
  generalize s.bitCounted n b = u at *
  have hstep : LaneStep [R.LNE.LNSTA n, R.IRQS (0x10 + n), R.LNE.ERRCNT n] s u := hcount.mono (by simp)
  cases hstays : decide ((((s.lane n).chk.errsAfter (s.chkPat n) b).filter id).length < 32)
  · rw [hstays, if_pos (by decide)] at ht
    obtain ⟨hset, hout', hlane, hbit, hirq⟩ := u.chkLockSet_spec n false ht
    refine ⟨hstep.trans (hset.mono (by simp)), hout'.trans hout, hlane ▸ hbits, ?_, hbit, fun _ => hirq⟩
    exact (hset.reg (by simp)).trans herr
  · rw [hstays, if_neg (by decide)] at ht
    subst ht
    exact ⟨hstep, hout, hbits, herr, hkept, fun h => absurd (h.symm.trans hkept) (by decide)⟩

end

theorem State.regF_whole (s : State) (k : Nat) : s.regF k 0 32 = s.regN k := by
  rw [State.regF, Word.fld, natFld_eq, pow_zero, Nat.div_one]
  exact Nat.mod_eq_of_lt (s.reg k).isLt

theorem State.regN_bumpAt (s : State) (k : Nat) : (s.bumpAt k 0 32).regN k = satInc 32 (s.regN k) := by
  rw [← State.regF_whole, State.regF_bumpAt _ _ _ _ (by decide), State.regF_whole]

/-! ### Rows of bits -/

section
variable {s : State} {n : Nat}

theorem State.bitsIn_length (s : State) (n : Nat) (line : List Bool) : (s.bitsIn n line).length = line.length := by
  unfold State.bitsIn
  split
  · rw [List.length_map, List.length_range]
  · rfl

/-- The lane's own serialiser has sent a number of bits in near-end loopback. -/
def State.loopAdvanced (s : State) (n len : Nat) : State :=
  s.when (s.testMode n = 2) fun t => t.setLane n { t.lane n with loop := (t.lane n).loop + len }

/-- A row of bits at the checker. -/
def State.checkBits (s : State) (n : Nat) (line : List Bool) : State := line.foldl (fun u b => u.checkBit n b) s

/-- The checker, where it is at work, takes a row of bits. -/
def State.rowChecked (s : State) (n : Nat) (line : List Bool) : State := s.when (s.checking n) fun t => t.checkBits n line

/-- Far-end loopback sends a row of bits on. -/
def State.rowLooped (s : State) (n : Nat) (line : List Bool) : State :=
  s.when (s.testMode n = 3) fun t => t.send [.bits n t.dt64 line]

theorem State.lineBits_on (hon : s.laneState n ≠ 0) (line : List Bool) : s.lineBits n line =
    ((s.loopAdvanced n line.length).rowChecked n (s.bitsIn n line)).rowLooped n (s.bitsIn n line) := by
  rw [← s.bitsIn_length n line]
  exact if_neg hon

theorem State.laneState_of_testMode {mode : Nat} (h : s.testMode n = mode) (h0 : mode ≠ 0) : s.laneState n = 5 := by
  by_contra hno
  exact h0 (h.symm.trans (if_neg hno))

theorem State.loopAdvanced_none (h : s.testMode n ≠ 2) (len : Nat) : s.loopAdvanced n len = s := if_neg (by simpa using h)

theorem State.rowChecked_none (h : s.checking n = false) (line : List Bool) : s.rowChecked n line = s := if_neg (by simp [h])

theorem State.rowLooped_eq (s : State) (n : Nat) (line : List Bool) : s.rowLooped n line =
    if s.testMode n = 3 then { s with out := [.bits n s.dt64 line] } else s := by
  have hbare : ∀ f ∈ [OutFrame.bits n s.dt64 line], f.bare := fun f hf => List.mem_singleton.1 hf ▸ bare_bits _ _ _
  rw [State.rowLooped, State.when]
  by_cases h3 : s.testMode n = 3
  · rw [if_pos (decide_eq_true h3), if_pos h3, State.send_bare _ hbare]
  · rw [if_neg (by simpa using h3), if_neg h3]

/-- An idle checker, away from the loopbacks, takes nothing. -/
theorem State.lineBits_idle (hchk : s.checking n = false) (h2 : s.testMode n ≠ 2) (h3 : s.testMode n ≠ 3) (line : List Bool) :
    s.lineBits n line = s := by
  by_cases hon : s.laneState n = 0
  · exact if_pos hon
  · rw [State.lineBits_on hon, State.loopAdvanced_none h2, State.rowChecked_none hchk, State.rowLooped_eq, if_neg h3]

/-- Far-end loopback sends the bits on. -/
theorem State.lineBits_farEnd (hchk : s.checking n = false) (h3 : s.testMode n = 3) (line : List Bool) :
    s.lineBits n line = { s with out := [.bits n s.dt64 line] } := by
  have hon := State.laneState_of_testMode h3 (by decide)
  have hbits : s.bitsIn n line = line := if_neg (by omega)
  rw [State.lineBits_on (by omega), State.loopAdvanced_none (by omega), State.rowChecked_none hchk, State.rowLooped_eq, if_pos h3, hbits]

/-- In near-end loopback the fibre's bits count by their number alone. -/
theorem State.lineBits_nearEnd (h2 : s.testMode n = 2) {line other : List Bool} (hlen : other.length = line.length) :
    s.lineBits n other = s.lineBits n line := by
  rw [State.lineBits, State.lineBits, State.bitsIn, State.bitsIn, if_pos h2, if_pos h2, hlen]

/-- What a bit leaves of a lane, whatever the checker finds. -/
theorem State.loop_checkBit (s : State) (n : Nat) (b : Bool) : ((s.checkBit n b).lane n).loop = (s.lane n).loop := by
  unfold State.checkBit
  dsimp only
  rw [State.when_keeps (fun t => (t.lane n).loop) (f := fun t => (t.setB (R.LNE.LNSTA n) 6 _).irq (0x10 + n) 3) fun _ => rfl,
    State.when_keeps (fun t => (t.lane n).loop) (f := fun t => t.bumpAt (R.LNE.ERRCNT n) 0 32) fun _ => rfl, State.lane_setLane]

theorem State.loop_checkBits (n : Nat) (line : List Bool) (s : State) : ((s.checkBits n line).lane n).loop = (s.lane n).loop := by
  induction line generalizing s with
  | nil => rfl
  | cons b line ih => exact (ih _).trans (s.loop_checkBit n b)

/-- Near-end loopback takes as many of the lane's own bits as come. -/
theorem State.loop_lineBits (h2 : s.testMode n = 2) (line : List Bool) :
    ((s.lineBits n line).lane n).loop = (s.lane n).loop + line.length := by
  have hon := State.laneState_of_testMode h2 (by decide)
  have hadv : ((s.loopAdvanced n line.length).lane n).loop = (s.lane n).loop + line.length := by
    rw [State.loopAdvanced, State.when, if_pos (decide_eq_true h2), State.lane_setLane]
  have hrow : ∀ (t : State) (l : List Bool), ((t.rowLooped n l).lane n).loop = (t.lane n).loop := by
    intro t l
    rw [State.rowLooped_eq]
    split <;> rfl
  rw [State.lineBits_on (by omega), hrow, State.rowChecked,
    State.when_keeps (fun t => (t.lane n).loop) (State.loop_checkBits n _), hadv]

/-! ### The checker at work -/

theorem State.testMode_checkBit (s : State) (n : Nat) (b : Bool) : (s.checkBit n b).testMode n = s.testMode n := by
  have hlock : ∀ (t : State) (c : Bool), ((t.setB (R.LNE.LNSTA n) 6 c).irq (0x10 + n) 3).testMode n = t.testMode n := fun t c =>
    State.testMode_congr ((State.regF_reg (State.reg_irq_ne _ (by simp)) 0 3).trans
      (State.regF_setB_ne _ _ (by decide) (.inr (by decide))))
      ((State.reg_irq_ne _ (by simp)).trans (State.reg_setB_ne _ _ _ (by simp)))
  have hcount : ∀ t : State, (t.bumpAt (R.LNE.ERRCNT n) 0 32).testMode n = t.testMode n := fun t =>
    State.testMode_congr (State.regF_reg (State.reg_bumpAt_ne _ _ _ (by simp)) 0 3) (State.reg_bumpAt_ne _ _ _ (by simp))
  unfold State.checkBit
  dsimp only
  rw [State.when_keeps (fun t => t.testMode n) fun t => hlock t _, State.when_keeps (fun t => t.testMode n) hcount]
  rfl

theorem State.testMode_checkBits (n : Nat) (line : List Bool) (s : State) : (s.checkBits n line).testMode n = s.testMode n := by
  induction line generalizing s with
  | nil => rfl
  | cons b line ih => exact (ih _).trans (s.testMode_checkBit n b)

/-- In the checker's own mode of TEST a row of bits concerns the checker alone. -/
theorem State.lineBits_pattern (h1 : s.testMode n = 1) (hchk : s.checking n = true) (line : List Bool) :
    s.lineBits n line = s.checkBits n line := by
  have hon := State.laneState_of_testMode h1 (by decide)
  have hkept := State.testMode_checkBits n line s
  have hbits : s.bitsIn n line = line := if_neg (by omega)
  rw [State.lineBits_on (by omega), State.loopAdvanced_none (by omega), hbits, State.rowChecked, State.when, if_pos hchk,
    State.rowLooped_eq, if_neg (by omega)]

theorem State.lineBits_one (h1 : s.testMode n = 1) (hchk : s.checking n = true) (b : Bool) : s.lineBits n [b] = s.checkBit n b :=
  State.lineBits_pattern h1 hchk [b]

/-- The reference of a seeking checker goes on filling the pattern's register. -/
theorem Checker.sought_ref {c : Checker} {pat : Nat} {b : Bool} (hdeg : (prbsTaps pat).1 ≤ c.ref.length) (hlen : c.ref.length ≤ 31) :
    (prbsTaps pat).1 ≤ (c.sought pat b).ref.length ∧ (c.sought pat b).ref.length ≤ 31 := by
  have hlength : (c.sought pat b).ref.length = min 31 (c.ref.length + 1) := by
    rw [Checker.sought, List.length_take, List.length_cons]
  omega

theorem Checker.runAfter_next {c : Checker} {pat : Nat} (hdeg : (prbsTaps pat).1 ≤ c.ref.length) :
    c.runAfter pat (prbsNext pat c.ref) = c.run + 1 := if_pos (by simpa [Nat.ble_eq] using hdeg)

/-- The pattern brings the checker into lock with the 256th correct bit. -/
theorem State.checkBits_locks (n : Nat) (line : List Bool) (s : State) (hlock : s.regB (R.LNE.LNSTA n) 6 = false)
    (hline : line = prbsBits (s.chkPat n) line.length (s.lane n).chk.ref)
    (hdeg : (prbsTaps (s.chkPat n)).1 ≤ (s.lane n).chk.ref.length) (hlen : (s.lane n).chk.ref.length ≤ 31)
    (hsome : 0 < line.length) (hrun : (s.lane n).chk.run + line.length = 256) {t : State} (ht : t = s.checkBits n line) :
    LaneStep [R.LNE.LNSTA n, R.IRQS (0x10 + n)] s t ∧ t.out = s.out ∧ (t.lane n).bitcnt = (s.lane n).bitcnt ∧
    t.regB (R.LNE.LNSTA n) 6 = true ∧ t.regB (R.IRQS (0x10 + n)) 3 = true := by
  induction line generalizing s with
  | nil => exact absurd hsome (by decide)
  | cons b line ih =>
    obtain ⟨hb, hrest⟩ := List.cons.inj hline
    obtain ⟨hstep, hout, hlane, hbit, hirq⟩ := State.checkBit_seeking_spec (b := b) hlock rfl
    have hafter : (s.lane n).chk.runAfter (s.chkPat n) b = (s.lane n).chk.run + 1 := hb ▸ Checker.runAfter_next hdeg
    have hpat : (s.checkBit n b).chkPat n = s.chkPat n := State.regF_reg (hstep.reg (by simp)) 4 2
    have ht' : t = (s.checkBit n b).checkBits n line := ht
    rw [hafter] at hbit
    generalize s.checkBit n b = u at *
    have hbitcnt : (u.lane n).bitcnt = (s.lane n).bitcnt := by rw [hlane]
    cases line with
    | nil =>
      have hu : t = u := ht'
      subst hu
      have hlast : (s.lane n).chk.run + 1 = 256 := hrun
      rw [decide_eq_true hlast] at hbit
      exact ⟨hstep, hout, hbitcnt, hbit, hirq hbit⟩
    | cons b' line =>
      have hmore : (s.lane n).chk.run + 1 ≠ 256 := by
        have : (s.lane n).chk.run + (line.length + 1 + 1) = 256 := hrun
        omega
      have hchk : (u.lane n).chk = (s.lane n).chk.sought (s.chkPat n) b := by rw [hlane]
      have hrun' : ((s.lane n).chk.sought (s.chkPat n) b).run = (s.lane n).chk.run + 1 := by
        simp [Checker.sought, hafter, hmore]
      obtain ⟨hdeg', hlen'⟩ := Checker.sought_ref (b := b) hdeg hlen
      obtain ⟨hstep', hout', hbitcnt', hlocked⟩ := ih u (hbit.trans (decide_eq_false hmore)) (by rw [hpat, hchk]; exact hb ▸ hrest)
        (by rw [hpat, hchk]; exact hdeg') (by rw [hchk]; exact hlen') (Nat.succ_pos _)
        (by rw [hchk, hrun', ← hrun, List.length_cons, List.length_cons, List.length_cons]; omega) ht'
      exact ⟨hstep.trans hstep', hout'.trans hout, hbitcnt'.trans hbitcnt, hlocked⟩

end

/-! ### BITCNTL (R146) -/

/-- No bits: near-end loopback advances by none, and an empty row may be sent on. -/
theorem State.lineBits_nil (s : State) (n : Nat) {t : State} (ht : t = s.lineBits n []) :
    LaneStep [] s t ∧ (t.lane n).bitcnt = (s.lane n).bitcnt ∧ (t.lane n).lat = (s.lane n).lat := by
  by_cases hon : s.laneState n = 0
  · have hsame : t = s := ht.trans (if_pos hon)
    subst hsame
    exact ⟨LaneStep.refl _ _, rfl, rfl⟩
  · have hbits : s.bitsIn n [] = [] := List.length_eq_zero_iff.1 (s.bitsIn_length n [])
    have hrow : ∀ u : State, u.rowChecked n [] = u := fun u => ite_self u
    have hadv : LaneStep [] s (s.loopAdvanced n 0) := (LaneStep.refl _ s).when fun _ => (LaneStep.refl _ s).setLane _ _
    have hlane : (s.loopAdvanced n 0).lane n = s.lane n := by
      rw [State.loopAdvanced, State.when]
      split
      · rw [State.lane_setLane]
        rfl
      · rfl
    rw [State.lineBits_on hon, hbits, hrow] at ht
    have hstep : LaneStep [] (s.loopAdvanced n 0) t := ht ▸ (LaneStep.refl _ _).when fun _ => (LaneStep.refl _ _).send _
    have htlane : t.lane n = (s.loopAdvanced n 0).lane n := by
      rw [ht, State.rowLooped_eq]
      split <;> rfl
    rw [htlane, hlane]
    exact ⟨hadv.trans hstep, rfl, rfl⟩

theorem State.pageUp_congr {s t : State} (h : t.rst = s.rst) (page : Nat) : t.pageUp page = s.pageUp page := by
  rw [State.pageUp, State.pageUp, State.domHeld, State.domHeld, State.domHeld, State.domHeld, h]

theorem LaneStep.rst {ks : List Nat} {s t : State} (h : LaneStep ks s t) : t.rst = s.rst := (congrArg State.rst h.rest :)

/-- The read latches the upper half for its source. -/
theorem State.bitcntLatch_spec (s : State) (n src : Nat) {t : State} (ht : t = s.bitcntLatch n src) :
    LaneStep [R.LNE.BITCNTL n] s t ∧ t.reg (R.LNE.BITCNTL n) = wd (s.lane n).bitcnt ∧
    (t.lane n).bitcnt = (s.lane n).bitcnt ∧
    ∀ o, NMap.get 0 (t.lane n).lat o = if o = src then (s.lane n).bitcnt / 2 ^ 32 else NMap.get 0 (s.lane n).lat o := by
  rw [ht, State.bitcntLatch, State.lane_setReg, State.lane_setLane, State.reg_setReg_same]
  exact ⟨((LaneStep.refl _ s).setLane _ _).setReg _ (by simp), rfl, rfl, fun o => NMap.get_put ..⟩

end Sys2Proof.Machine
end

section
/-! Proofs: control, counts and faults of a lane, put together (chapter 04, R128 to R151). -/

namespace Sys2Proof.Machine

section
variable {s : State} {n : Nat} {pwr : BitVec 16}

/-- LANE_CODE of a millisecond with one run of idles: the run's effect on the FIFO is that of the state before. -/
theorem State.laneMs_run (hon : s.laneState n ≠ 0) (htest : s.laneState n ≠ 5) (hcentred : (s.lane n).recentre = false)
    (hfill : (s.lane n).fill ≤ 16) {idles : Nat} {t : State} (ht : t = s.laneMs n [(idles, 0)] pwr) :
    regsBut s t [R.LNE.ELCNT n, R.LNE.LNSTA n, R.LNE.PWR n] ∧
    (idles < 2 → (t.lane n).fill = (s.lane n).fill ∧ t.reg (R.LNE.ELCNT n) = s.reg (R.LNE.ELCNT n)) ∧
    (2 ≤ idles → ∀ del, del = Nat.min ((s.lane n).fill - 8) (idles - 1) →
      (t.lane n).fill = (s.lane n).fill + (8 - (s.lane n).fill) - del ∧
      t.regF (R.LNE.ELCNT n) 0 16 = Nat.min 0xFFFF (s.regF (R.LNE.ELCNT n) 0 16 + (8 - (s.lane n).fill)) ∧
      t.regF (R.LNE.ELCNT n) 16 16 = Nat.min 0xFFFF (s.regF (R.LNE.ELCNT n) 16 16 + del)) ∧
    t.regF (R.LNE.LNSTA n) 8 4 = Nat.min 15 (t.lane n).fill := by
  obtain ⟨hmode, hsees⟩ := State.fibre_of_untested hon htest
  obtain ⟨r, v, hr, hv, hstep, hvfill⟩ := State.msEnded_run (pwr := pwr) (idles := idles) hsees hfill rfl
  obtain ⟨c, hc⟩ : ∃ c, t = { s.msEnded n [(idles, 0)] pwr with scribe := c } := by
    rw [ht, State.laneMs_eq, State.when]
    split
    · exact ⟨_, rfl⟩
    · exact ⟨_, rfl⟩
  generalize s.msEnded n [(idles, 0)] pwr = w at *
  have hlane : r.lane n = s.lane n := State.lane_congr (hr ▸ s.reach_lanes _) n
  have hreg : ∀ k, r.reg k = s.reg k := fun k => hr ▸ s.reg_reach _ k
  have hmode' : r.testMode n = 0 := (State.testMode_congr (State.regF_reg (hreg _) 0 3) (hreg _)).trans hmode
  obtain ⟨hpass, hshort, hlong, hshown⟩ := State.fifoPass_spec (hlane ▸ hcentred) hmode' hv
  rw [hlane] at hshort hlong
  rw [hreg] at hshort
  rw [State.regF_reg (hreg _), State.regF_reg (hreg _)] at hlong
  have hel : t.reg (R.LNE.ELCNT n) = v.reg (R.LNE.ELCNT n) := hc ▸ hstep.reg (k := R.LNE.ELCNT n) (by simp)
  have hst : t.reg (R.LNE.LNSTA n) = v.reg (R.LNE.LNSTA n) := hc ▸ hstep.reg (k := R.LNE.LNSTA n) (by simp)
  have hfill' : (t.lane n).fill = (v.lane n).fill := hc ▸ hvfill
  rw [hfill', hel, State.regF_reg hel, State.regF_reg hel, State.regF_reg hst]
  have hregs : regsBut s w [R.LNE.ELCNT n, R.LNE.LNSTA n, R.LNE.PWR n] := fun k hk =>
    ((hstep.reg (by simp at hk ⊢; exact hk.2.2)).trans (hpass.reg (by simp at hk ⊢; exact ⟨hk.1, hk.2.1⟩))).trans (hreg k)
  exact ⟨hc ▸ hregs.regs rfl, hshort, hlong, hshown⟩

end

/-- Settles O29: each command by what it does to the injector, the FIFO, the receiver or the checker of the lane. -/
theorem laneControlAndCounts : Obligations.LaneControlAndCounts := by
  rintro s n hpaired hsvc m rfl hw
  have hn : n.val < 32 := n.isLt
  have hnat : ∀ v : BitVec 2, v ≠ 0 → v.toNat ≠ 0 := fun v hv h => hv (BitVec.eq_of_toNat_eq h)
  refine ⟨fun hup => ?_, fun hother => ?_, fun v => ⟨fun hv hrole hrun => ?_, fun hv hfree hon => ?_, fun hv htest => ?_⟩,
    ?_, fun pwr => ?_, fun idles pwr hon htest hcentred hfill => ?_, fun drift inFrame => ⟨fun hdark => ?_, fun hsees hbreak => ?_⟩,
    fun g l rd hrd => ⟨fun hunseen => ?_, fun hsees hmode => ?_⟩, fun line hchk => ⟨fun h2 h3 => ?_, fun h3 => ?_⟩,
    fun h2 line => ?_, fun line hchk h1 hlock hline hdeg hlen hsome hrun => ?_, fun b hchk h1 p hp => ⟨fun hlock => ?_, fun hlock => ?_⟩,
    fun src hpage => ?_⟩
  · obtain ⟨hstep, hstate, hdown, hout⟩ := State.retrain_spec hsvc hn hup rfl
    have hp := (hstep.paired (pcfg_notMem_lane hn (offs := [0x110, 8, 0xC, 0x128]) (by decide))).trans hpaired
    exact ⟨_, by rw [exec_retrain hw, State.tieSettle_unpaired hp], hstate, hdown, hstep.regs, hout, hstep.rest⟩
  · rw [exec_retrain hw, State.retrain, if_neg hother, State.tieSettle_unpaired ((s.paired_irq n 4).trans hpaired)]
  · rw [exec_laneModeWrite hw, State.laneMode_refused hpaired (hnat v hv) hrole hrun,
      State.tieSettle_unpaired ((s.paired_irq n 4).trans hpaired)]
  · obtain ⟨hstep, hstate, hmode, hdown, hnear⟩ := State.moded_laneGoto_spec hsvc hn v.isLt rfl
    obtain ⟨hpattern, hsilent, hstands⟩ := State.out_moded_laneGoto hsvc hn v.isLt rfl
    have hp := (hstep.paired (pcfg_notMem_lane hn (offs := [0x110, 8, 0xC, 0x108, 0x12C]) (by decide))).trans hpaired
    refine ⟨_, by rw [exec_laneModeWrite hw, State.laneMode_test hpaired (hnat v hv) hfree hon, State.tieSettle_unpaired hp],
      hstate, hmode, hdown, fun hq h1 => hpattern hq (h1 ▸ rfl), fun hq h1 => hsilent hq fun h => h1 (BitVec.eq_of_toNat_eq h),
      fun e he hoff h1 => hstands e he hoff (h1 ▸ rfl), fun h2 => hnear (h2 ▸ rfl), hstep.regs, hstep.rest⟩
  · subst hv
    obtain ⟨hstep, hstate, hmode, hout⟩ := State.laneMode_leaves_spec hsvc hn htest rfl
    have hp := (hstep.paired (pcfg_notMem_lane hn (offs := [0x110, 8, 0xC, 0x108]) (by decide))).trans hpaired
    exact ⟨s.laneMode n 0, by rw [exec_laneModeWrite hw]; exact congrArg Host.Outcome.next (State.tieSettle_unpaired hp),
      hstate, hmode, hstep.regs, hout, hstep.rest⟩
  · rintro kind rfl e rfl acts rfl
    obtain ⟨hlane, -, hframe⟩ := State.injGo_spec (s := s) (n := n) rfl
    obtain ⟨hthree, hothers⟩ := State.out_injGo (s := s) (n := n) rfl
    refine ⟨_, exec_injgo hw, ?_, ?_, hthree, hothers, hframe⟩
    · rw [hlane]
    · rw [hlane]
      rfl
  · obtain ⟨hstep, hout, hms, hpwr⟩ := State.msEnded_nil (s := s) (n := n) (pwr := pwr) rfl
    obtain ⟨⟨c, hc⟩, hraised, hkept⟩ := State.laneMs_raises (s := s) (n := n) (pwr := pwr) rfl rfl
      (hstep.scribe.trans (s.reach_scribe _))
    refine ⟨s.laneMs n [] pwr, exec_laneCode n [] [] pwr s, ?_⟩
    generalize s.msEnded n [] pwr = u at *
    generalize s.laneMs n [] pwr = t at *
    subst hc
    exact ⟨hstep.dt64, hms, hpwr, fun hin hmany => hraised ((s.msFaulty_iff n).2 ⟨hin, hmany⟩),
      fun hno => hkept (Bool.eq_false_iff.2 fun h => by
        obtain ⟨hin, hmany⟩ := (s.msFaulty_iff n).1 h
        exact hno.elim (fun hne => hne hin) (fun hle => by omega)), hstep.regs_reach.regs rfl,
      congrArg (fun x : State => { x with scribe := c }) (hstep.rest_reach_quiet hout)⟩
  · obtain ⟨hregs, hshort, hlong, hshown⟩ := State.laneMs_run (pwr := pwr) (idles := idles) hon htest hcentred hfill rfl
    refine ⟨_, exec_laneCode n [idles] [0] pwr s, fun h => ?_, hlong, hshown, hregs⟩
    obtain ⟨hf, hel⟩ := hshort h
    exact ⟨hf, congrArg BitVec.toNat hel⟩
  · rw [exec_laneFifo, State.laneFifo, hdark, if_pos (by decide)]
  · obtain ⟨hstep, hout, hdrop, hre⟩ := s.fifoBroken_spec n drift inFrame rfl
    have hrun : s.laneFifo n drift inFrame = (s.fifoBroken n drift inFrame).fault Src.LANE_FIFO (0x10 + n) n := by
      rw [State.laneFifo, hsees, if_neg (by decide), State.fifoDrift_breaks hbreak]
    refine ⟨_, (exec_laneFifo _ s).trans (congrArg Host.Outcome.next hrun), ?_⟩
    generalize s.fifoBroken n drift inFrame = u at *
    exact ⟨hdrop, hre, hstep.raised .., hstep.regs.regs rfl,
      congrArg (fun x : State => { x with scribe := (u.fault Src.LANE_FIFO (0x10 + n) n).scribe }) (hstep.rest_quiet hout)⟩
  · rw [exec_codeViolation, State.rxGroups_unseen hunseen]
  · subst hrd
    have hstep := s.rxGroup_step n g
    obtain ⟨hrd, hcount, hin⟩ := State.rxGroup_past (s := s) (n := n) (g := g) rfl
    refine ⟨s.rxGroup n g, (exec_codeViolation ..).trans (congrArg Host.Outcome.next (State.rxGroups_seen hsees hmode [g])), ?_,
      hrd, hcount, hin, fun hgood => ?_, fun hbad => ?_, hstep.regs, hstep.rest_quiet (s.out_rxGroup n g)⟩
    · rw [exec_codeViolation, exec_codeViolation, State.rxGroups_cons hsees hmode]
    · rw [State.rxGroup_good hgood, State.lane_setLane]
      exact ⟨rfl, rfl, rfl⟩
    · rw [State.rxGroup_bad hbad, State.lane_bump, State.lane_setLane, State.regF_bump, State.regF_setLane]
      exact ⟨rfl, rfl, rfl, rfl⟩
  · exact ⟨by rw [exec_checkerLock, State.lineBits_idle hchk h2 h3], fun b => by
      rw [exec_checkerUnlock, State.lineBits_idle hchk h2 h3]⟩
  · rw [exec_checkerLock, State.lineBits_farEnd hchk h3]
  · refine ⟨s.lineBits n line, exec_checkerLock _ s, State.loop_lineBits h2 line, fun other hlen => ?_, ?_⟩
    · rw [exec_checkerLock, State.lineBits_nearEnd h2 hlen]
    · exact congrArg Host.Outcome.next (State.lineBits_nearEnd h2 (by rw [List.length_map, List.length_range]))
  · obtain ⟨hstep, hout, hbitcnt, hbit, hirq⟩ := State.checkBits_locks n line s hlock hline hdeg hlen hsome hrun rfl
    exact ⟨_, by rw [exec_checkerLock, State.lineBits_pattern h1 hchk], hbit, hirq, hbitcnt, hstep.regs, hstep.rest_quiet hout⟩
  · obtain ⟨hstep, hout, hlane, hbit, hirq⟩ := State.checkBit_seeking_spec (b := b) hlock rfl
    refine ⟨s.checkBit n b, (exec_checkerLock _ s).trans (congrArg Host.Outcome.next (State.lineBits_one h1 hchk b)), ?_, hirq, ?_, ?_,
      hstep.regs, hstep.rest_quiet hout⟩
    · rw [hbit, hp]
      exact Checker.locks_iff ..
    · rw [hlane]
      rfl
    · rw [hlane]
  · obtain ⟨hstep, hout, hbitcnt, herr, hbit, hirq⟩ := State.checkBit_locked_spec (b := b) hlock rfl
    refine ⟨s.checkBit n b, (exec_checkerUnlock n [] b s).trans (congrArg Host.Outcome.next (State.lineBits_one h1 hchk b)), hbitcnt,
      fun h => ?_, fun h => ?_, ?_, hirq, hstep.regs, hstep.rest_quiet hout⟩
    · rw [herr]
      exact if_pos (h.trans hp)
    · rw [← State.regN_bumpAt]
      exact congrArg BitVec.toNat (herr.trans (if_neg fun hb => h (hb.trans hp.symm)))
    · rw [hbit, hp]
      rfl
  · obtain ⟨hnil, hcnt, hlat⟩ := s.lineBits_nil n rfl
    have hread : exec (.bitcntlRead n src []) s = .next ((s.lineBits n []).bitcntLatch n (srcNo src)) := by
      rw [exec_bitcntlRead, State.hostRd_up _ ((State.pageUp_congr hnil.rst _).trans hpage)]
    generalize s.lineBits n [] = u at *
    obtain ⟨hstep, hreg, hcnt', hlat'⟩ := u.bitcntLatch_spec n (srcNo src) rfl
    rw [hcnt] at hreg hcnt' hlat'
    rw [hlat] at hlat'
    have hall := (hnil.mono (by simp)).trans hstep
    exact ⟨_, hread, hreg, by rw [hlat', if_pos rfl], fun o ho => by rw [hlat', if_neg ho], hcnt', hall.regs, hall.rest⟩

end Sys2Proof.Machine
end

section
/-! Proofs: frames that come up from the lane that ends a ring direction (chapter 04, R128, R137; chapter 05, R157). -/

namespace Sys2Proof.Machine

/-- A frame of lane `n` has been taken up: whether the lane had passed K30.7 up in it is told with it. -/
def State.taken (s : State) (n : Nat) : State := s.setLane n { s.lane n with drop := false }

@[simp] theorem State.reg_taken (s : State) (n k : Nat) : (s.taken n).reg k = s.reg k := rfl

theorem State.taken_frame (s : State) (n : Nat) : s.taken n = { s with lanes := (s.taken n).lanes } := rfl

/-- Ring time goes on past a frame taken up as without it. -/
theorem State.reach_taken (s : State) (n x : Nat) :
    (s.taken n).reach x = { s with dt64 := (s.reach x).dt64, lanes := (s.taken n).lanes } := by
  have hoff : (s.taken n).dtmOff = s.dtmOff := rfl
  have hnow : (s.taken n).dt64 = s.dt64 := rfl
  unfold State.reach
  rw [hoff, hnow]
  dsimp only
  split
  · rfl
  · split <;> rfl

section
variable {s : State} {ring n : Nat} {rev : Bool} (f : RxFrame) (hlane : s.rxLane ring rev = some n)
include hlane

theorem State.rxTake_down (hdown : s.laneUp n = false) : s.rxTake ring rev f = none := by
  unfold State.rxTake
  rw [hlane]
  exact if_pos (by simp [hdown])

theorem State.rxTake_up (hup : s.laneUp n = true) :
    s.rxTake ring rev f = some (s.taken n, { f with intact := f.intact && !(s.lane n).drop }) := by
  unfold State.rxTake
  rw [hlane]
  exact if_neg (by simp [hup])

theorem State.rxTake_whole (hup : s.laneUp n = true) (hdrop : (s.lane n).drop = false) :
    s.rxTake ring rev f = some (s.taken n, f) := by
  rw [State.rxTake_up f hlane hup, hdrop, Bool.not_false, Bool.and_true]

end

end Sys2Proof.Machine
end

section
/-! Proofs: a collector copy that fails its checks (chapter 05, R157, R174, R194). -/

namespace Sys2Proof.Machine

theorem exec_collectorCopyRx (ring : Fin 32) (rev : Bool) (f : RxFrame) (s : State) :
    exec (.collectorCopyRx ring rev f) s = .next (s.collectorRx ring.val rev f) := rfl

/-- The origin bit of a head, FOK or ROK, says of the last copy that it was valid (R194). -/
theorem State.collectorRx_rejected {s : State} {ring n : Nat} {rev : Bool} {f : RxFrame} {off : Nat}
    (hlane : s.rxLane ring rev = some n) (hup : s.laneUp n = true)
    (hbad : frameCheck ring rev { f with intact := f.intact && !(s.lane n).drop } = some off) :
    (s.collectorRx ring rev f).regB (R.RNG.RSTA ring) (b2n rev) = false := by
  unfold State.collectorRx
  rw [State.rxTake_up f hlane hup]
  dsimp only
  rw [hbad]
  exact State.regB_setB_same _ _ _ _ (by cases rev <;> decide)

/-- Lane 0, which ends the forward direction of ring 0, is UP, and the last forward copy was valid and from a head. -/
def forwardCopyValid : State :=
  ((State.reset.setReg (R.LNE.LNMAP 0) 0x40).setReg (R.LNE.LNSTA 0) 4).setB (R.RNG.RSTA 0) 0 true

/-- A frame that contains K30.7 (R157, check 1). -/
def abortedFrame : RxFrame := { bytes := [], intact := false, soft := false, sof := 0, eof := 0, phase := 0 }

/-- Refutes O31: its claim that of the registers a frame that fails R157 changes its counter alone. FOK says that the last
forward copy was valid (R174, R194), so that a failed one clears it: RSTA of the ring changes as well. (The clause of a late
collector names LATECNT alone in the same way.) -/
theorem not_telemetryCopies : ¬ Obligations.TelemetryCopies := by
  intro h
  have hlane : forwardCopyValid.rxLane 0 false = some 0 := by decide
  have hup : forwardCopyValid.laneUp 0 = true := by decide
  obtain ⟨-, htaken⟩ := h forwardCopyValid 0 false abortedFrame (by decide) 0 hlane
  obtain ⟨hrejected, -⟩ := htaken hup _ rfl
  obtain ⟨t, ht, -, hbut, -⟩ := hrejected 0x11C rfl
  obtain rfl : forwardCopyValid.collectorRx 0 false abortedFrame = t := by
    rw [exec_collectorCopyRx] at ht
    injection ht
  have hkept : (forwardCopyValid.collectorRx 0 false abortedFrame).regB (R.RNG.RSTA 0) 0 = forwardCopyValid.regB (R.RNG.RSTA 0) 0 :=
    State.regB_reg (hbut _ (by decide)) 0
  have hcleared := State.collectorRx_rejected (f := abortedFrame) hlane hup rfl
  have hstood : forwardCopyValid.regB (R.RNG.RSTA 0) 0 = true := State.regB_setB_same _ _ _ _ (by decide)
  exact Bool.false_ne_true (hcleared.symm.trans (hkept.trans hstood))

end Sys2Proof.Machine
end

section
/-! Proofs: the words of a store one by one, and rows of bytes read back (chapter 00, R10; chapter 02, R55). -/

namespace Sys2Proof.Machine

theorem Memory.writeBytes_append (m : Memory) (a : Nat) (l l' : List Byte) :
    m.writeBytes a (l ++ l') = (m.writeBytes a l).writeBytes (a + l.length) l' := by
  induction l generalizing m a with
  | nil => rfl
  | cons b l ih => rw [List.cons_append, Memory.writeBytes, ih, List.length_cons, Memory.writeBytes, Nat.add_assoc, Nat.add_comm 1]

/-- Words stored as bytes stand in memory one after the other. -/
theorem Memory.wordsPut_writeBytes (m : Memory) (a : Nat) (ws : List Word) :
    m.wordsPut (m.writeBytes a (ws.map fun w => natLe 4 w.toNat).flatten) a ws := by
  induction ws generalizing m a with
  | nil => exact Memory.wordsPut_nil ..
  | cons w ws ih =>
    rw [List.map_cons, List.flatten_cons, Memory.writeBytes_append, natLe_length]
    exact Memory.wordsPut_cons (ih ..)

/-- A number stored as part of a row of bytes reads back. -/
theorem Memory.readLE_writeBytes (m : Memory) (a : Nat) (l r : List Byte) (n v : Nat) :
    (m.writeBytes a (l ++ natLe n v ++ r)).readLE (a + l.length) n = v % 256 ^ n := by
  have hread := Memory.readBytes_writeBytes m a l r (natLe n v)
  rw [natLe_length] at hread
  rw [Memory.readLE, hread, leNat_natLe]

end Sys2Proof.Machine
end

section
/-! Proofs: capture streams, FORCE and the reads of CVAL (chapter 05, R186, R190; chapter 06, R230). -/

namespace Sys2Proof.Machine

theorem exec_captureStreamRx (ring : Fin 32) (rev : Bool) (f : RxFrame) (s : State) :
    exec (.captureStreamRx ring rev f) s = .next (s.captureRx ring.val rev f) := rfl
theorem exec_forceSrsync (ring : Fin 32) (mask : BitVec 8) (s : State) :
    exec (.forceSrsync ring mask) s = .next (s.hostWr (0x30 + ring.val) fun t => t.forceSrsync ring.val mask.toNat) := rfl
theorem exec_forceResync (ring : Fin 32) (s : State) :
    exec (.forceResync ring) s = .next (s.hostWr (0x30 + ring.val) fun t => t.rspend ring.val) := rfl
theorem exec_cvalRead (s : State) : exec .cvalRead s = .next (s.hostRd 0x70 fun t => t.cvalRead) := rfl

/-! ### The record of a capture frame (R186) -/

/-- Record header and payload, padded to 8 bytes. -/
def captureRecord (f : RxFrame) : List Byte :=
  let pl := framePayload f.bytes
  let body := natLe 2 pl.length ++ [BitVec.ofNat 8 (framePos f.bytes), 0] ++ natLe 4 (bitsOfInt 32 (sofStamp f)) ++ pl
  body ++ zeros ((8 - body.length % 8) % 8)

theorem captureRecord_length (f : RxFrame) : (captureRecord f).length = (8 + (framePayload f.bytes).length + 7) / 8 * 8 := by
  simp only [captureRecord, zeros, List.length_append, natLe_length, List.length_cons, List.length_nil, List.length_replicate]
  omega

/-- The record stored at an address: LEN, the arrival DT32 and the payload in their places, and nothing beside. -/
theorem Memory.writeBytes_captureRecord (m : Memory) (a : Nat) (f : RxFrame) {m' : Memory} (hm : m' = m.writeBytes a (captureRecord f)) :
    m'.readLE a 2 = (framePayload f.bytes).length % 65536 ∧ m'.readLE (a + 4) 4 = bitsOfInt 32 (sofStamp f) ∧
    m'.readBytes (a + 8) (framePayload f.bytes).length = framePayload f.bytes ∧
    ∀ c, c < a ∨ a + (captureRecord f).length ≤ c → m'.read c = m.read c := by
  subst hm
  obtain ⟨pad, hrecord⟩ : ∃ pad, captureRecord f = natLe 2 (framePayload f.bytes).length ++
    [BitVec.ofNat 8 (framePos f.bytes), 0] ++ natLe 4 (bitsOfInt 32 (sofStamp f)) ++ framePayload f.bytes ++ pad := ⟨_, rfl⟩
  have hstamp : bitsOfInt 32 (sofStamp f) % 256 ^ 4 = bitsOfInt 32 (sofStamp f) := Nat.mod_eq_of_lt (by unfold bitsOfInt; omega)
  refine ⟨?_, ?_, ?_, fun c hc => Memory.read_writeBytes_out _ _ _ _ hc⟩
  · rw [hrecord]
    simpa using Memory.readLE_writeBytes m a [] _ 2 (framePayload f.bytes).length
  · have hread := Memory.readLE_writeBytes m a (natLe 2 (framePayload f.bytes).length ++ [BitVec.ofNat 8 (framePos f.bytes), 0])
      (framePayload f.bytes ++ pad) 4 (bitsOfInt 32 (sofStamp f))
    rwa [hstamp, ← List.append_assoc, ← hrecord] at hread
  · have hread := Memory.readBytes_writeBytes m a (natLe 2 (framePayload f.bytes).length ++
      [BitVec.ofNat 8 (framePos f.bytes), 0] ++ natLe 4 (bitsOfInt 32 (sofStamp f))) pad (framePayload f.bytes)
    rwa [← hrecord, List.length_append, natLe_length] at hread

/-! ### CAPWP (R186) -/

theorem State.capSettle_step (s : State) (ring : Nat) : LaneStep [R.RNG.CAPWP ring] s (s.capSettle ring) := by
  unfold State.capSettle
  dsimp only
  split
  · exact LaneStep.refl _ s
  · exact (LaneStep.refl _ s).setReg _ (List.mem_singleton.2 rfl)

@[simp] theorem State.out_capSettle (s : State) (ring : Nat) : (s.capSettle ring).out = s.out := by
  unfold State.capSettle
  dsimp only
  split <;> rfl

/-- CAPWP after a record of `len` bytes at offset `d` of an area that ends within the buffer's address space. -/
theorem State.capSettle_stored {s : State} {ring d len : Nat}
    (hfits : s.regN (R.RNG.CAPB ring) ≤ d ∧ d + len ≤ s.regN (R.RNG.CAPB ring) + s.regN (R.RNG.CAPL ring))
    (harea : s.regN (R.RNG.CAPB ring) + s.regN (R.RNG.CAPL ring) ≤ 2 ^ 32) :
    ((s.setReg (R.RNG.CAPWP ring) (wd (d + len))).capSettle ring).reg (R.RNG.CAPWP ring) =
      wd (if d + len + capLeast ≤ s.regN (R.RNG.CAPB ring) + s.regN (R.RNG.CAPL ring) then d + len else s.regN (R.RNG.CAPB ring)) := by
  have hwp : (s.setReg (R.RNG.CAPWP ring) (wd (d + len))).regN (R.RNG.CAPWP ring) = (d + len) % 2 ^ 32 :=
    (congrArg BitVec.toNat (State.reg_setReg_same ..)).trans (BitVec.toNat_ofNat ..)
  have hb : (s.setReg (R.RNG.CAPWP ring) (wd (d + len))).regN (R.RNG.CAPB ring) = s.regN (R.RNG.CAPB ring) :=
    congrArg BitVec.toNat (State.reg_setReg_ne _ _ (by unfold R.RNG.CAPB R.RNG.CAPWP; omega))
  have hl : (s.setReg (R.RNG.CAPWP ring) (wd (d + len))).regN (R.RNG.CAPL ring) = s.regN (R.RNG.CAPL ring) :=
    congrArg BitVec.toNat (State.reg_setReg_ne _ _ (by unfold R.RNG.CAPL R.RNG.CAPWP; omega))
  have hlt : s.regN (R.RNG.CAPL ring) < 2 ^ 32 := BitVec.isLt _
  have hleast : 0 < capLeast := by decide
  obtain ⟨hlow, hhigh⟩ := hfits
  unfold State.capSettle
  simp only [hwp, hb, hl, Bool.and_eq_true, decide_eq_true_eq]
  split
  · rw [State.reg_setReg_same, if_pos (by omega)]
  · rw [State.reg_setReg_same, if_neg (by omega)]

/-- A record of `len` bytes has been stored at offset `d`: CAPWP goes on, and IRQS tells it. -/
def State.captureTold (s : State) (ring d len : Nat) : State :=
  ((s.setReg (R.RNG.CAPWP ring) (wd (d + len))).capSettle ring).irq (0x30 + ring) 4

theorem State.captureTold_spec (s : State) (ring d len : Nat) {t : State} (ht : t = s.captureTold ring d len) :
    regsBut s t [R.RNG.CAPWP ring, R.IRQS (0x30 + ring)] ∧ t = { s with regs := t.regs, lanes := t.lanes } ∧
    t.regB (R.IRQS (0x30 + ring)) 4 = true ∧
    t.reg (R.RNG.CAPWP ring) = ((s.setReg (R.RNG.CAPWP ring) (wd (d + len))).capSettle ring).reg (R.RNG.CAPWP ring) := by
  subst ht
  have hstep : LaneStep [R.RNG.CAPWP ring, R.IRQS (0x30 + ring)] s (s.captureTold ring d len) :=
    (((LaneStep.refl _ s).setReg _ (by simp)).trans ((State.capSettle_step _ ring).mono (by simp))).setB _ _ (by simp)
  refine ⟨hstep.regs, hstep.rest_quiet ?_, State.regB_irq_same _ _ (by decide), State.reg_irq_ne _ ?_⟩
  · exact State.out_capSettle ..
  · unfold R.RNG.CAPWP R.IRQS
    omega

/-! ### A capture frame arrives (R186) -/

section
variable {s : State} {ring n : Nat} {rev : Bool} {f : RxFrame} (hlane : s.rxLane ring rev = some n)
include hlane

theorem State.captureRx_down (hdown : s.laneUp n = false) : s.captureRx ring rev f = s := by
  rw [State.captureRx, State.rxTake_down f hlane hdown]

variable (hup : s.laneUp n = true) (hdrop : (s.lane n).drop = false) (hcheck : frameCheck ring rev f = none)
include hup hdrop hcheck

theorem State.captureRx_off (hoff : s.regB (R.RNG.RCTL ring) 16 = false) : s.captureRx ring rev f = s.taken n := by
  unfold State.captureRx
  rw [State.rxTake_whole f hlane hup hdrop]
  dsimp only
  rw [hcheck]
  exact if_pos (by simp [show (s.taken n).regB (R.RNG.RCTL ring) 16 = false from hoff])

/-- The offset at which a record of `len` bytes is stored. -/
def State.captureAt (s : State) (ring len : Nat) : Nat :=
  if s.regN (R.RNG.CAPB ring) ≤ s.regN (R.RNG.CAPWP ring) ∧
      s.regN (R.RNG.CAPWP ring) + len ≤ s.regN (R.RNG.CAPB ring) + s.regN (R.RNG.CAPL ring) then s.regN (R.RNG.CAPWP ring)
  else s.regN (R.RNG.CAPB ring)

theorem State.captureRx_stored (htype : frameType f.bytes = 8) (hon : s.regB (R.RNG.RCTL ring) 16 = true)
    (hholds : (captureRecord f).length ≤ s.regN (R.RNG.CAPL ring)) {d : Nat} (hd : d = s.captureAt ring (captureRecord f).length) :
    s.captureRx ring rev f =
      State.captureTold { s.taken n with mem := s.mem.writeBytes (capBase + d) (captureRecord f) } ring d (captureRecord f).length := by
  subst hd
  unfold State.captureRx
  rw [State.rxTake_whole f hlane hup hdrop]
  dsimp only
  rw [hcheck]
  have hon' : (s.taken n).regB (R.RNG.RCTL ring) 16 = true := hon
  have hmay : ¬(frameType f.bytes ≠ 8 || !(s.taken n).regB (R.RNG.RCTL ring) 16 ||
      (s.taken n).regN (R.RNG.CAPL ring) < (captureRecord f).length) = true := by
    simp only [htype, hon', ne_eq, not_true_eq_false, decide_false, Bool.not_true, Bool.or_self, Bool.false_or, decide_eq_true_eq]
    exact Nat.not_lt.2 hholds
  have hat : s.captureAt ring (captureRecord f).length =
      if (s.taken n).regN (R.RNG.CAPB ring) ≤ (s.taken n).regN (R.RNG.CAPWP ring) &&
        (s.taken n).regN (R.RNG.CAPWP ring) + (captureRecord f).length ≤
          (s.taken n).regN (R.RNG.CAPB ring) + (s.taken n).regN (R.RNG.CAPL ring) then (s.taken n).regN (R.RNG.CAPWP ring)
      else (s.taken n).regN (R.RNG.CAPB ring) := by
    simp only [Bool.and_eq_true, decide_eq_true_eq]
    rfl
  rw [hat]
  exact if_neg hmay

end

theorem State.captureAt_fits {s : State} {ring len : Nat} (h : len ≤ s.regN (R.RNG.CAPL ring)) :
    s.regN (R.RNG.CAPB ring) ≤ s.captureAt ring len ∧
      s.captureAt ring len + len ≤ s.regN (R.RNG.CAPB ring) + s.regN (R.RNG.CAPL ring) := by
  unfold State.captureAt
  split
  · assumption
  · omega

/-! ### FORCE (R190) -/

/-- SRSYNC is set for the cells asked. -/
theorem State.foldl_srsyncAt (base : Nat) (l : List Nat) (s : State) :
    ∃ c, l.foldl (fun t p => t.srsyncAt (base + p)) s = { s with cells := c } ∧
      ∀ a, NMap.get {} c a = { NMap.get {} s.cells a with
        srsync := decide (a ∈ l.map (base + ·)) || (NMap.get ({} : CellRx) s.cells a).srsync } := by
  induction l generalizing s with
  | nil => exact ⟨s.cells, rfl, fun a => by simp⟩
  | cons p l ih =>
    obtain ⟨c, hc, hget⟩ := ih (s.srsyncAt (base + p))
    refine ⟨c, hc, fun a => ?_⟩
    rw [hget, State.srsyncAt]
    dsimp only
    rw [NMap.get_put]
    by_cases ha : a = base + p
    · simp [ha]
    · simp [ha]

theorem State.forceSrsync_spec (s : State) (ring mask : Nat) :
    ∃ c, s.forceSrsync ring mask = { s with cells := c } ∧
      (∀ p < 8, (NMap.get ({} : CellRx) c (ring * 8 + p)).srsync =
        (mask.testBit p || (NMap.get ({} : CellRx) s.cells (ring * 8 + p)).srsync)) ∧
      ∀ a, a / 8 ≠ ring → NMap.get ({} : CellRx) c a = NMap.get {} s.cells a := by
  obtain ⟨c, hc, hget⟩ := State.foldl_srsyncAt (ring * 8) ((List.range 8).filter fun p => mask.testBit p) s
  refine ⟨c, hc, fun p hp => ?_, fun a ha => ?_⟩
  · rw [hget]
    simp [hp]
  · have hother : a ∉ ((List.range 8).filter fun p => mask.testBit p).map (ring * 8 + ·) := by
      simp only [List.mem_map, List.mem_filter, List.mem_range, not_exists, not_and]
      omega
    rw [hget, decide_eq_false hother, Bool.false_or]

/-- Settles O32: the record is that of `Memory.writeBytes_captureRecord`, and CAPWP follows it by `State.capSettle_stored`. -/
theorem captureAndForce : Obligations.CaptureAndForce := by
  intro s ring
  refine ⟨fun rev f n hlane => ⟨fun hdown => ?_, fun hup hdrop hcheck htype => ⟨fun hoff => ?_, ?_⟩⟩,
    fun hw => ⟨fun mask => ?_, ?_⟩, fun hpage => ⟨s.cvalRead, ?_, rfl, rfl, rfl⟩⟩
  · rw [exec_captureStreamRx, State.captureRx_down hlane hdown]
  · exact ⟨s.taken n, by rw [exec_captureStreamRx, State.captureRx_off hlane hup hdrop hcheck hoff], s.taken_frame n⟩
  · rintro len hlen b rfl l rfl wp rfl d hd hon hholds
    rw [← captureRecord_length] at hlen
    subst hlen
    obtain ⟨hbut, hframe, hirq, hnext⟩ := State.captureTold_spec _ ring.val d (captureRecord f).length
      (State.captureRx_stored hlane hup hdrop hcheck htype hon hholds hd)
    have hmem : (s.captureRx ring.val rev f).mem = s.mem.writeBytes (capBase + d) (captureRecord f) := by
      rw [hframe]
    obtain ⟨hlen, hstamp, hpayload, hrest⟩ := Memory.writeBytes_captureRecord s.mem (capBase + d) f hmem
    refine ⟨s.captureRx ring.val rev f, exec_captureStreamRx .., hlen, hstamp, hpayload, hrest, fun harea => ?_, hirq, hbut, ?_⟩
    · exact hnext.trans (State.capSettle_stored (hd ▸ State.captureAt_fits hholds) harea)
    · rw [hframe]
      rfl
  · obtain ⟨c, hc, hin, hout⟩ := s.forceSrsync_spec ring mask.toNat
    refine ⟨s.forceSrsync ring mask.toNat, ?_, ?_⟩
    · rw [exec_forceSrsync, State.hostWr_writable _ hw]
    · rw [hc]
      exact ⟨hin, hout, rfl⟩
  · rw [exec_forceResync, State.hostWr_writable _ hw]
    rfl
  · rw [exec_cvalRead, State.hostRd_up _ hpage]

end Sys2Proof.Machine
end

section
/-! Proofs: a service transaction completes (chapter 05, R184, R185, R193). -/

namespace Sys2Proof.Machine

/-! ### A descriptor is written back (R185) -/

/-- Words 1 to 3 of a descriptor stored by a port outside the result mirror. -/
theorem Memory.descWords_stored (m : Memory) {a : Nat} (w1 w2 w3 : Word) (hoff : offMirror (a + 4) 12 = true) {m' : Memory}
    (hm : m' = m.portBytes (a + 4) ([w1, w2, w3].map fun w => natLe 4 w.toNat).flatten) :
    m'.readWord (a + 4) = w1 ∧ m'.readWord (a + 8) = w2 ∧ m'.readWord (a + 12) = w3 ∧
      ∀ b, b < a + 4 ∨ a + 16 ≤ b → m'.read b = m.read b := by
  have hlen : (([w1, w2, w3].map fun w => natLe 4 w.toNat).flatten).length = 12 := by simp [natLe_length]
  rw [Memory.portBytes_offMirror _ (by rwa [hlen])] at hm
  subst hm
  obtain ⟨hwords, -, hrest⟩ := m.wordsPut_writeBytes (a + 4) [w1, w2, w3]
  exact ⟨hwords 0 (by simp), hwords 1 (by simp), hwords 2 (by simp), hrest⟩

theorem State.svWriteBack_frame (s : State) (a status tag nstat : Nat) :
    ∃ m e, s.svWriteBack a status tag nstat = { s with mem := m, eng := e } := by
  obtain ⟨e, he⟩ := s.portBytes_frame (a + 4) _
  exact ⟨_, e, he⟩

/-- A descriptor written back reads so whatever else has changed since, but memory and ring time. -/
theorem State.descWritten_congr {s t s' t' : State} {a w2 : Nat} (h : s.descWritten t a w2) (hs : s'.mem = s.mem) (ht : t'.mem = t.mem)
    (hnow : t'.dt64 = t.dt64) : s'.descWritten t' a w2 := by
  unfold State.descWritten
  rw [hs, ht, hnow]
  exact h

/-- The write-back of a descriptor outside the result mirror. -/
theorem State.svWriteBack_written (s : State) {a : Nat} (status tag nstat : Nat) (hoff : offMirror (a + 4) 12 = true) :
    s.descWritten (s.svWriteBack a status tag nstat) a (status + tag * 256 + nstat * 2 ^ 24) := by
  obtain ⟨e, he⟩ := s.portBytes_frame (a + 4) _
  obtain ⟨h1, h2, h3, hrest⟩ := s.mem.descWords_stored ((s.mem.readWord (a + 4)).setBit 31 false)
    (wd (status + tag * 256 + nstat * 2 ^ 24)) (wd s.dt64) hoff rfl
  rw [State.svWriteBack, he]
  refine ⟨?_, ?_, h2, h3, hrest⟩
  · rw [h1, Word.bit_setBit_same _ _ _ (by decide)]
  · rw [h1, Word.fld_setBit_ne _ _ (by decide) (.inr (by decide))]

/-! ### A transaction of a host descriptor completes (R184, R193) -/

/-- The tag is free again, the descriptor written back, and IRQS bit 2 set. -/
def State.svWrittenBack (s : State) (tag : Nat) (v : Svc) (status nstat : Nat) : State :=
  ({ s with svc := NMap.put none s.svc tag none }.svWriteBack v.at_ status tag nstat).irq (0x30 + v.ring) 2

/-- `t` is `s` after the transaction `v` of a tag has been completed with word 2 of its descriptor `w2`, but for a raise. -/
structure SvDone (s t : State) (tag : Nat) (v : Svc) (w2 : Nat) : Prop where
  free : NMap.get none t.svc tag = none
  written : offMirror (v.at_ + 4) 12 = true → s.descWritten t v.at_ w2
  irq : t.regB (R.IRQS (0x30 + v.ring)) 2 = true
  regs : regsBut s t [R.IRQS (0x30 + v.ring)]
  frame : t = { s with regs := t.regs, mem := t.mem, eng := t.eng, svc := t.svc, scribe := t.scribe }

theorem State.svWrittenBack_done (s : State) (tag : Nat) (v : Svc) (status nstat : Nat) :
    SvDone s (s.svWrittenBack tag v status nstat) tag v (status + tag * 256 + nstat * 2 ^ 24) ∧
      (s.svWrittenBack tag v status nstat).scribe = s.scribe := by
  unfold State.svWrittenBack
  obtain ⟨u, hu⟩ : ∃ u : State, u = { s with svc := NMap.put none s.svc tag none } := ⟨_, rfl⟩
  have hfree : NMap.get none u.svc tag = none := by
    rw [hu]
    exact NMap.get_put_same none s.svc tag none
  have hmem : s.mem = u.mem := by rw [hu]
  have hregs : u.regs = s.regs := by rw [hu]
  have hscribe : u.scribe = s.scribe := by rw [hu]
  have hframe : u = { s with svc := u.svc } := by rw [hu]
  rw [← hu]
  clear hu
  have hwritten := u.svWriteBack_written (a := v.at_) status tag nstat
  obtain ⟨m, e, he⟩ := u.svWriteBack_frame v.at_ status tag nstat
  rw [he] at hwritten ⊢
  refine ⟨⟨hfree, fun hoff => State.descWritten_congr (hwritten hoff) hmem (State.irq_mem ..) (State.irq_dt64 ..),
    State.regB_irq_same _ _ (by decide), (regsBut.eq_of_regs _ hregs).irq 2 (List.mem_singleton.2 rfl), ?_⟩, hscribe⟩
  rw [hframe]
  rfl

/-- Without a raise. -/
theorem State.svComplete_quiet {s : State} {tag : Nat} {v : Svc} (hv : NMap.get none s.svc tag = some v) (hkind : v.kind = none)
    (hdesc : v.desc.isSome = true) {status : Nat} (hstatus : status < 2) (nstat : Nat) (data : List Byte) :
    s.svComplete tag status nstat data = s.svWrittenBack tag v status nstat := by
  obtain ⟨i, hi⟩ := Option.isSome_iff_exists.1 hdesc
  have hnone : (status = 2 || status = 3) = false := by simp; omega
  unfold State.svComplete
  rw [hv]
  dsimp only
  rw [hi, hkind, hnone]
  simp [State.when, State.svWrittenBack]

/-- With SVC_LOST. -/
theorem State.svComplete_timeout {s : State} {tag : Nat} {v : Svc} (hv : NMap.get none s.svc tag = some v) (hkind : v.kind = none)
    (hdesc : v.desc.isSome = true) : s.svComplete tag 3 0 =
      (s.svWrittenBack tag v 3 0).fault Src.SVC_LOST (0x30 + v.ring) (v.ring + v.dst * 256) 0x2B := by
  obtain ⟨i, hi⟩ := Option.isSome_iff_exists.1 hdesc
  unfold State.svComplete
  rw [hv]
  dsimp only
  rw [hi, hkind]
  simp [State.when, State.svWrittenBack]

end Sys2Proof.Machine
end

section
/-! Proofs: the scan of service descriptors and their requests (chapter 05, R182, R183, R185; chapter 11, R367). -/

namespace Sys2Proof.Machine

theorem exec_svkick (ring : Fin 32) (s : State) :
    exec (.svkick ring) s = .next (s.hostWr (0x30 + ring.val) fun t => t.svKick ring.val) := rfl
theorem exec_serviceRequestLaunch (ring : Fin 32) (s : State) : exec (.serviceRequestLaunch ring) s = .next (s.svLaunch ring.val) := rfl

theorem State.svKick_spec (s : State) (ring : Nat) {t : State} (ht : t = s.svKick ring) :
    (NMap.get {} t.rings ring).svScan = Nat.blt 0 (s.regF (R.RNG.SVRN ring) 0 8) ∧ t = { s with rings := t.rings } := by
  subst ht
  exact ⟨congrArg Ring.svScan (NMap.get_put_same ..), rfl⟩

theorem State.svFreeTag_lt {s : State} {tag : Nat} (h : s.svFreeTag = some tag) : tag < 64 :=
  List.mem_range.1 (List.mem_of_find?_eq_some h)

theorem State.svLaunch_full {s : State} (ring : Nat) (h : s.svFreeTag = none) : s.svLaunch ring = s := by
  rw [State.svLaunch, h]

theorem State.svLaunch_waits {s : State} {ring : Nat} (h : s.svWho ≠ some ring) : s.svLaunch ring = s := by
  unfold State.svLaunch
  split
  · rfl
  · exact if_pos h

/-- The descriptor at the scan position is the ring's next, where the head has no request of its own. -/
theorem State.svNext_desc {s : State} {ring : Nat} (hown : s.jig.svc = []) (hscan : (NMap.get {} s.rings ring).svScan = true)
    (hlt : (NMap.get {} s.rings ring).svNext < s.regF (R.RNG.SVRN ring) 0 8) {a : Nat}
    (ha : a = csmBase + s.svDesc ring (NMap.get {} s.rings ring).svNext) :
    s.svNext ring = .desc (NMap.get {} s.rings ring).svNext a (s.mem.readWord (a + 4)) := by
  subst ha
  unfold State.svNext
  rw [hown]
  dsimp only [List.find?_nil]
  rw [hscan, if_pos hlt, if_neg (by simp; omega)]

/-- BAD_DESC, NO_PATH, or a descriptor to be launched. -/
theorem State.svReject_eq (s : State) (ring : Nat) (w1 : Word) {c : CellRx} (hc : c = NMap.get {} s.cells (ring * 8 + w1.fld 26 3)) :
    s.svReject ring w1 = if w1.fld 29 2 = 3 ∨ w1.fld 16 7 = 0 ∨ 64 < w1.fld 16 7 then 4
      else if s.active = false ∨ (2 ≤ c.ageF ∧ 2 ≤ c.ageR) then 5 else 0 := by
  subst hc
  simp [State.svReject, or_assoc]

theorem State.svReject_op {s : State} {ring : Nat} {w1 : Word} (h : s.svReject ring w1 = 0) : w1.fld 29 2 < 3 := by
  have hlt : w1.fld 29 2 < 4 := Nat.mod_lt _ (by decide)
  rw [State.svReject_eq s ring w1 rfl] at h
  split at h
  · cases h
  · omega

/-- The scan goes on past descriptor `i` of a ring. -/
def State.svPast (s : State) (ring i : Nat) : State :=
  { s with
    rings := NMap.put {} s.rings ring { NMap.get {} s.rings ring with svNext := nextIdx (s.regF (R.RNG.SVRN ring) 0 8) i },
    svTurn := ring }

/-- The transaction of a descriptor. -/
def State.svAsked (s : State) (ring i a : Nat) (w1 : Word) : Svc :=
  { ring := ring, rev := s.svDir ring (w1.fld 26 3), desc := some i, kind := none, pidx := s.regN R.TRG.PIDX,
    dst := ring * 8 + w1.fld 26 3, op := w1.fld 29 2, cnt := w1.fld 16 7, buf := (s.mem.readWord a).toNat, launch := s.dt64, at_ := a }

section
variable {s : State} {ring i a tag : Nat} {w1 : Word} (htag : s.svFreeTag = some tag) (hwho : s.svWho = some ring)
  (hnext : s.svNext ring = .desc i a w1)
include htag hwho hnext

theorem State.svLaunch_unowned (hown : w1.bit 31 = false) : s.svLaunch ring =
    { s with rings := NMap.put {} s.rings ring { NMap.get {} s.rings ring with svScan := false, svNext := i } } := by
  unfold State.svLaunch
  rw [htag]
  dsimp only
  rw [if_neg (not_not.2 hwho), hnext]
  exact if_pos (by rw [hown]; rfl)

theorem State.svLaunch_owned (hown : w1.bit 31 = true) : s.svLaunch ring =
    if s.svReject ring w1 ≠ 0 then ((s.svPast ring i).svWriteBack a (s.svReject ring w1) 0 0).irq (0x30 + ring) 2
    else (s.svPast ring i).svSend tag (s.svAsked ring i a w1) (w1.fld 0 16)
      (if w1.fld 29 2 = 0 then [] else s.mem.readBytes (s.mem.readWord a).toNat (4 * w1.fld 16 7)) := by
  unfold State.svLaunch
  rw [htag]
  dsimp only
  rw [if_neg (not_not.2 hwho), hnext]
  exact if_neg (by simp [hown])

end

/-! ### The request frame (R182, R183) -/

/-- The payload of a request: tag and operation, destination, register, count, data. -/
def requestPayload (tag : Nat) (v : Svc) (reg : Nat) (data : List Byte) : List Byte :=
  [BitVec.ofNat 8 (tag + v.op * 64), BitVec.ofNat 8 v.dst] ++ natLe 2 reg ++ [BitVec.ofNat 8 v.cnt, 0, 0, 0] ++ data

/-- The request frame of a transaction, with the head's header. -/
def State.requestFrame (s : State) (tag : Nat) (v : Svc) (reg : Nat) (data : List Byte) : List Byte :=
  frameOf (s.header 5 v.ring v.rev (requestPayload tag v reg data).length v.pidx false) (requestPayload tag v reg data)

theorem State.requestFrame_spec (s : State) {tag : Nat} {v : Svc} (reg : Nat) (data : List Byte) (htag : tag < 64) (hop : v.op < 3)
    (hring : v.ring < 32) {b : List Byte} (hb : b = s.requestFrame tag v reg data) :
    frameType b = 5 ∧ byteAt (framePayload b) 0 = tag % 64 + v.op * 64 ∧ byteAt (framePayload b) 1 = v.dst % 256 := by
  subst hb
  obtain ⟨htype, -⟩ := frame_header_fields 5 v.rev s.hid v.ring (requestPayload tag v reg data).length v.pidx s.datum.tv s.dstate
    false false (requestPayload tag v reg data) (by decide) s.hid_lt hring _ rfl
  refine ⟨htype, ?_, ?_⟩
  · rw [State.requestFrame, State.header, framePayload_frameOf (frameHeader_length ..)]
    refine (BitVec.toNat_ofNat ..).trans ?_
    omega
  · rw [State.requestFrame, State.header, framePayload_frameOf (frameHeader_length ..)]
    exact BitVec.toNat_ofNat ..

/-- A request leaves on the lane of its direction, which is UP. -/
theorem State.svSend_up (s : State) {v : Svc} {n : Nat} (tag reg : Nat) (data : List Byte) (hlane : s.txLane v.ring v.rev = some n)
    (hup : s.laneUp n = true) (hlit : s.onRing = true) : s.svSend tag v reg data =
      State.send { s with svc := NMap.put none s.svc tag (some v), svTurn := v.ring } [.exl n s.dt64 (s.requestFrame tag v reg data)] := by
  have hready : s.txUp v.ring v.rev = true := by
    unfold State.txUp
    rw [hlane]
    exact hup
  have hout : s.exlOut v.ring v.rev s.dt64 (s.requestFrame tag v reg data) = [.exl n s.dt64 (s.requestFrame tag v reg data)] := by
    rw [State.exlOut, hlane]
    exact if_pos (by rw [hup, hlit]; rfl)
  rw [← hout]
  unfold State.svSend
  dsimp only
  exact if_neg (show ¬(!s.txUp v.ring v.rev) = true by rw [hready]; decide)

/-! ### The descriptor in turn (R183, R185) -/

section
variable {s : State} {ring i a tag : Nat} {w1 : Word} (htag : s.svFreeTag = some tag) (hwho : s.svWho = some ring)
  (hnext : s.svNext ring = .desc i a w1) (hown : w1.bit 31 = true)
include htag hwho hnext hown

/-- A descriptor that needs no frame is written back at once. -/
theorem State.svLaunch_rejected (hreject : s.svReject ring w1 ≠ 0) (hoff : offMirror (a + 4) 12 = true) {t : State}
    (ht : t = s.svLaunch ring) : s.descWritten t a (s.svReject ring w1) ∧ t.regB (R.IRQS (0x30 + ring)) 2 = true ∧
      regsBut s t [R.IRQS (0x30 + ring)] ∧ t = { s with regs := t.regs, mem := t.mem, eng := t.eng, rings := t.rings, svTurn := ring } := by
  rw [State.svLaunch_owned htag hwho hnext hown, if_pos hreject] at ht
  have hwritten := (s.svPast ring i).svWriteBack_written (s.svReject ring w1) 0 0 hoff
  obtain ⟨m, e, he⟩ := (s.svPast ring i).svWriteBack_frame a (s.svReject ring w1) 0 0
  rw [he] at ht hwritten
  rw [Nat.zero_mul, Nat.zero_mul, Nat.add_zero] at hwritten
  subst ht
  refine ⟨State.descWritten_congr hwritten rfl (State.irq_mem ..) (State.irq_dt64 ..), State.regB_irq_same _ _ (by decide),
    (regsBut.eq_of_regs _ rfl).irq 2 (List.mem_singleton.2 rfl), rfl⟩

/-- A descriptor whose lane is UP takes the tag, its request leaves, and the scan goes on. -/
theorem State.svLaunch_sent {n : Nat} (hreject : s.svReject ring w1 = 0) (hlane : s.txLane ring (s.svDir ring (w1.fld 26 3)) = some n)
    (hup : s.laneUp n = true) (hlit : s.onRing = true) {t : State} (ht : t = s.svLaunch ring) :
    NMap.get none t.svc tag = some (s.svAsked ring i a w1) ∧
      (NMap.get {} t.rings ring).svNext = nextIdx (s.regF (R.RNG.SVRN ring) 0 8) i ∧
      (∃ data, t.out = [.exl n s.dt64 (s.requestFrame tag (s.svAsked ring i a w1) (w1.fld 0 16) data)]) ∧
      t = { s with rings := t.rings, svc := t.svc, svTurn := ring, out := t.out, lanes := t.lanes } := by
  rw [State.svLaunch_owned htag hwho hnext hown, if_neg (not_not.2 hreject),
    (s.svPast ring i).svSend_up (v := s.svAsked ring i a w1) tag (w1.fld 0 16) _ hlane hup hlit] at ht
  obtain ⟨x, hx⟩ := State.send_frame { s.svPast ring i with svc := NMap.put none s.svc tag (some (s.svAsked ring i a w1)) } _
  obtain rfl := ht.trans hx
  exact ⟨NMap.get_put_same none s.svc tag (some (s.svAsked ring i a w1)), congrArg Ring.svNext (NMap.get_put_same ..), ⟨_, rfl⟩, rfl⟩

end

end Sys2Proof.Machine
end

section
/-! Proofs: responses and timeouts of service transactions, and the service put together (chapter 05, R182 to R185, R193, R194). -/

namespace Sys2Proof.Machine

theorem exec_serviceResponseRx (ring : Fin 32) (rev : Bool) (f : RxFrame) (s : State) :
    exec (.serviceResponseRx ring rev f) s = .next (s.svResponse ring.val rev f) := rfl
theorem exec_serviceTimeout (tag : Fin 64) (s : State) : exec (.serviceTimeout tag) s = .next (s.svTimeout tag.val) := rfl

/-! ### 1 ms after its launch (R184) -/

theorem State.svTimeout_free {s : State} {tag : Nat} (h : NMap.get none s.svc tag = none) : s.svTimeout tag = s := by
  rw [State.svTimeout, h]

/-- A tag in flight is free again, its descriptor written back, and SVC_LOST is raised. -/
theorem State.svTimeout_spec {s : State} {tag : Nat} {v : Svc} (hv : NMap.get none s.svc tag = some v) (hkind : v.kind = none)
    (hdesc : v.desc.isSome = true) {t : State} (ht : t = s.svTimeout tag) :
    SvDone (s.reach (v.launch + 16000000)) t tag v (3 + tag * 256) ∧ s.raised t Src.SVC_LOST (0x30 + v.ring) := by
  obtain ⟨u, hu⟩ : ∃ u, u = s.reach (v.launch + 16000000) := ⟨_, rfl⟩
  have hvu : NMap.get none u.svc tag = some v := by rw [hu, State.reach_svc, hv]
  have hlog : u.scribe = s.scribe := by rw [hu, State.reach_scribe]
  rw [State.svTimeout, hv] at ht
  dsimp only at ht
  rw [← hu, State.svComplete_timeout hvu hkind hdesc] at ht
  obtain ⟨hdone, hscribe⟩ := u.svWrittenBack_done tag v 3 0
  rw [Nat.zero_mul, Nat.add_zero] at hdone
  obtain ⟨hfree, hwritten, hirq, hbut, hframe⟩ := hdone
  rw [← hu, ht]
  generalize u.svWrittenBack tag v 3 0 = w at *
  refine ⟨⟨hfree, fun hoff => State.descWritten_congr (hwritten hoff) rfl rfl rfl, hirq, hbut.regs rfl, ?_⟩,
    State.raised_fault_of (congrArg Scribe.inflight (hscribe.trans hlog)) ..⟩
  exact congrArg (fun x : State => { x with scribe := (w.fault Src.SVC_LOST (0x30 + v.ring) (v.ring + v.dst * 256) 0x2B).scribe }) hframe

/-! ### A response arrives (R184, R185) -/

/-- The data of a read stand in memory before its descriptor is written back. -/
def State.svData (s : State) (v : Svc) (nstat : Nat) (data : List Byte) : State :=
  if v.op = 0 && nstat = 0 && v.desc.isSome then s.portBytes v.buf data else s

theorem State.svData_frame (s : State) (v : Svc) (nstat : Nat) (data : List Byte) :
    ∃ m e, s.svData v nstat data = { s with mem := m, eng := e } := by
  unfold State.svData
  split
  · obtain ⟨e, he⟩ := s.portBytes_frame v.buf data
    exact ⟨_, e, he⟩
  · exact ⟨s.mem, s.eng, rfl⟩

/-- Without data of a read memory is as it was. -/
theorem State.svData_none {s : State} {v : Svc} {nstat : Nat} (data : List Byte) (h : v.op ≠ 0 ∨ nstat ≠ 0) :
    s.svData v nstat data = s := if_neg (by rcases h with h | h <;> simp [h])

theorem State.mem_svData {s : State} {v : Svc} {nstat : Nat} (data : List Byte) (hop : v.op = 0) (hok : nstat = 0)
    (hdesc : v.desc.isSome = true) : (s.svData v nstat data).mem = s.mem.portBytes v.buf data := by
  obtain ⟨e, he⟩ := s.portBytes_frame v.buf data
  rw [State.svData, if_pos (by simp [hop, hok, hdesc]), he]

section
variable {s : State} {ring n : Nat} {rev : Bool} {f : RxFrame} (hlane : s.rxLane ring rev = some n)
include hlane

theorem State.svResponse_down (hdown : s.laneUp n = false) : s.svResponse ring rev f = s := by
  rw [State.svResponse, State.rxTake_down f hlane hdown]

variable (hup : s.laneUp n = true) (hdrop : (s.lane n).drop = false) (hcheck : frameCheck ring rev f = none)
  {p : List Byte} (hp : p = framePayload f.bytes)
include hup hdrop hcheck hp

theorem State.svResponse_unmatched (hnone : NMap.get none s.svc (byteAt p 0 % 64) = none) :
    s.svResponse ring rev f = ((s.taken n).reach f.eof).bump (R.RNG.SVLCNT ring) := by
  have hsvc : ((s.taken n).reach f.eof).svc = s.svc := State.reach_svc ..
  unfold State.svResponse
  rw [State.rxTake_whole f hlane hup hdrop]
  dsimp only
  rw [hcheck]
  dsimp only
  rw [hsvc, ← hp, hnone]

theorem State.svResponse_matched {v : Svc} (hv : NMap.get none s.svc (byteAt p 0 % 64) = some v)
    (hpast : (s.reach f.eof).passed (v.launch + 16000000) = false) (htype : frameType f.bytes = 6) (hdst : byteAt p 1 = v.dst)
    (hpidx : leAt p 2 2 = v.pidx) (hring : v.ring = ring) (hkind : v.kind = none) (hdesc : v.desc.isSome = true) :
    s.svResponse ring rev f = (((s.taken n).reach f.eof).svData v (byteAt p 5)
      ((p.drop 8).take (4 * Nat.min v.cnt (byteAt p 4 % 128)))).svWrittenBack (byteAt p 0 % 64) v
        (if byteAt p 5 = 0 then 0 else 1) (byteAt p 5) := by
  have hsvc : ((s.taken n).reach f.eof).svc = s.svc := State.reach_svc ..
  have hpast' : ((s.taken n).reach f.eof).passed (v.launch + 16000000) = false := by
    rw [State.reach_taken]
    exact hpast
  obtain ⟨m, e, he⟩ := ((s.taken n).reach f.eof).svData_frame v (byteAt p 5) ((p.drop 8).take (4 * Nat.min v.cnt (byteAt p 4 % 128)))
  rw [← State.svComplete_quiet (v := v) (by rw [he]; exact hsvc ▸ hv) hkind hdesc (by split <;> decide)]
  unfold State.svResponse
  rw [State.rxTake_whole f hlane hup hdrop]
  dsimp only
  rw [hcheck]
  dsimp only
  rw [hsvc, ← hp, hv]
  dsimp only
  rw [hpast', if_neg (by decide), if_pos (by simp [htype, hdst, hpidx, hring])]
  rfl

/-- A response in time: the data of a read, and then the write-back; of the rest of the state ring time and the lane go on. -/
theorem State.svResponse_done {v : Svc} (hv : NMap.get none s.svc (byteAt p 0 % 64) = some v)
    (hpast : (s.reach f.eof).passed (v.launch + 16000000) = false) (htype : frameType f.bytes = 6) (hdst : byteAt p 1 = v.dst)
    (hpidx : leAt p 2 2 = v.pidx) (hring : v.ring = ring) (hkind : v.kind = none) (hdesc : v.desc.isSome = true)
    {q : List Byte} (hq : q = (p.drop 8).take (4 * Nat.min v.cnt (byteAt p 4 % 128))) {t : State} (ht : t = s.svResponse ring rev f) :
    SvDone (((s.taken n).reach f.eof).svData v (byteAt p 5) q) t (byteAt p 0 % 64) v
        ((if byteAt p 5 = 0 then 0 else 1) + byteAt p 0 % 64 * 256 + byteAt p 5 * 2 ^ 24) ∧
      regsBut s t [R.IRQS (0x30 + ring)] ∧
      t = { s with dt64 := (s.reach f.eof).dt64, regs := t.regs, mem := t.mem, eng := t.eng, lanes := t.lanes, svc := t.svc } := by
  rw [State.svResponse_matched hlane hup hdrop hcheck hp hv hpast htype hdst hpidx hring hkind hdesc, ← hq] at ht
  obtain ⟨hdone, hscribe⟩ := (((s.taken n).reach f.eof).svData v (byteAt p 5) q).svWrittenBack_done (byteAt p 0 % 64) v
    (if byteAt p 5 = 0 then 0 else 1) (byteAt p 5)
  rw [← ht] at hdone hscribe
  obtain ⟨m, e, hdata⟩ := ((s.taken n).reach f.eof).svData_frame v (byteAt p 5) q
  rw [State.reach_taken] at hdata
  have hframe := hdone.frame
  have hbut := hdone.regs
  rw [hscribe, State.reach_taken, hdata] at hframe
  rw [State.reach_taken, hdata] at hbut
  exact ⟨hdone, hring ▸ hbut, by rw [hframe]⟩

end

/-- Memory after a read's data and the write-back: outside the buffer and the descriptor as before, and the data in the buffer,
where the descriptor does not lie in it. -/
theorem SvDone.data {s t : State} {tag : Nat} {v : Svc} {nstat w2 : Nat} {q : List Byte} (h : SvDone (s.svData v nstat q) t tag v w2)
    (hoff : offMirror (v.at_ + 4) 12 = true) (hop : v.op = 0) (hok : nstat = 0) (hdesc : v.desc.isSome = true) :
    ((v.buf + q.length ≤ v.at_ ∨ v.at_ + 16 ≤ v.buf) → offMirror v.buf q.length = true → t.mem.readBytes v.buf q.length = q) ∧
      ∀ b, (b < v.at_ + 4 ∨ v.at_ + 16 ≤ b) → (b < v.buf ∨ v.buf + q.length ≤ b) → t.mem.read b = s.mem.read b := by
  obtain ⟨-, -, -, -, hrest⟩ := h.written hoff
  have hmem := State.mem_svData (s := s) q hop hok hdesc
  rw [hmem] at hrest
  refine ⟨fun hapart hbuf => Memory.readBytes_eq fun i hi => ?_, fun b hdescr hdata => ?_⟩
  · rw [hrest _ (by omega), Memory.portBytes_offMirror _ hbuf, Memory.read_writeBytes_in _ _ _ _ hi]
  · rw [hrest b hdescr, Memory.read_portBytes_out _ _ _ _ hdata]

/-- Settles O30: a scan by `State.svLaunch_rejected` and `State.svLaunch_sent`, a completion by `SvDone`. -/
theorem serviceTransactions : Obligations.ServiceTransactions := by
  rintro s ring g rfl
  refine ⟨fun hw => ?_, fun hfull => ?_, fun hwaits => ?_, ?_, fun rev f n hlane => ⟨fun hdown => ?_, ?_⟩,
    fun tag => ⟨fun hnone => ?_, fun v hv hkind hdesc => ?_⟩⟩
  · exact ⟨s.svKick ring.val, by rw [exec_svkick, State.hostWr_writable _ hw], s.svKick_spec ring.val rfl⟩
  · rw [exec_serviceRequestLaunch, State.svLaunch_full _ hfull]
  · rw [exec_serviceRequestLaunch, State.svLaunch_waits hwaits]
  · intro tag htag hwho hown hscan hlt a ha w hw
    have hnext := State.svNext_desc hown hscan hlt ha
    rw [← hw] at hnext
    refine ⟨fun hidle => ?_, fun c hc st hst => ?_⟩
    · refine ⟨_, exec_serviceRequestLaunch ring s, ?_⟩
      rw [State.svLaunch_unowned htag hwho hnext hidle]
      exact ⟨congrArg Ring.svScan (NMap.get_put_same ..), rfl⟩
    rw [← State.svReject_eq s ring.val w hc] at hst
    subst hst
    refine ⟨fun howned hreject hoff => ?_, fun howned hsent hup hlit => ?_⟩
    · exact ⟨_, exec_serviceRequestLaunch ring s, State.svLaunch_rejected htag hwho hnext howned hreject hoff rfl⟩
    · obtain ⟨n, hlane, hlaneUp⟩ := (Option.any_eq_true ..).1 hup
      obtain ⟨hsvc, hturn, ⟨data, hout⟩, hframe⟩ := State.svLaunch_sent htag hwho hnext howned hsent hlane hlaneUp hlit rfl
      obtain ⟨htype, htagged, hdst⟩ := s.requestFrame_spec
        (v := s.svAsked ring.val (NMap.get {} s.rings ring.val).svNext a w) (w.fld 0 16) data (State.svFreeTag_lt htag)
        (State.svReject_op hsent) ring.isLt rfl
      exact ⟨_, exec_serviceRequestLaunch ring s, by rw [hsvc]; rfl, by rw [hsvc]; rfl, ⟨n, _, hlane, hout, htype, htagged, hdst⟩,
        hturn, hframe⟩
  · rw [exec_serviceResponseRx, State.svResponse_down hlane hdown]
  · rintro hup hdrop hcheck p hp
    refine ⟨fun hnone => ?_, ?_⟩
    · refine ⟨_, exec_serviceResponseRx .., ?_⟩
      rw [State.svResponse_unmatched hlane hup hdrop hcheck hp hnone, State.regF_bump, State.reach_taken]
      exact ⟨rfl, (regsBut.eq_of_regs _ rfl).setF _ _ _ (List.mem_singleton.2 rfl), rfl⟩
    · rintro v hv hpast htype hdst hpidx hring hkind hdesc a rfl hoff
      obtain ⟨hdone, hbut, hframe⟩ := State.svResponse_done hlane hup hdrop hcheck hp hv hpast htype hdst hpidx hring hkind hdesc rfl rfl
      have hmem : ((s.taken n).reach f.eof).mem = s.mem := State.reach_mem ..
      obtain ⟨hown, -, hstatus, htime, hrest⟩ := hdone.written hoff
      refine ⟨s.svResponse ring.val rev f, exec_serviceResponseRx .., hdone.free, hown, hstatus, htime, ?_, fun hnodata => ?_,
        fun hop hok q hq => ?_, hring ▸ hdone.irq, hbut, ?_⟩
      · rw [hframe]
      · rwa [State.svData_none _ hnodata, hmem] at hrest
      · rw [← hq] at hdone
        rw [← hmem]
        exact hdone.data hoff hop hok hdesc
      · rw [hframe]
  · rw [exec_serviceTimeout, State.svTimeout_free hnone]
  · obtain ⟨⟨hfree, hwritten, hirq, hbut, hframe⟩, hraised⟩ := State.svTimeout_spec hv hkind hdesc rfl
    refine ⟨s.svTimeout tag.val, exec_serviceTimeout tag s, hfree, ?_, fun hoff => ?_, hraised, hirq, ?_, ?_⟩
    · rw [hframe]
    · exact State.descWritten_congr (hwritten hoff) (State.reach_mem ..).symm rfl rfl
    · exact (regsBut.eq_of_regs _ (State.reach_regs ..)).trans hbut
    · rw [hframe, State.reach_eq]

end Sys2Proof.Machine
end

section
/-! Proofs: the PLL of the shipped stack programs moves between its states (chapter 07, R243 to R245, R260; chapter 11, R367). -/

namespace Sys2Proof.Machine

theorem clampInt_mem {lo hi : Int} (z : Int) (h : lo ≤ hi) : lo ≤ clampInt lo hi z ∧ clampInt lo hi z ≤ hi := by
  unfold clampInt
  split
  · exact ⟨le_refl lo, h⟩
  · split <;> omega

theorem turnAdd_lt (theta : Nat) (d : Int) : turnAdd theta d < 2 ^ 32 := by
  have hpos : (0 : Int) < one := by decide
  exact (Int.toNat_lt (Int.emod_nonneg _ hpos.ne')).2 (Int.emod_lt_of_pos _ hpos)

/-! ### What a period does to the state -/

/-- The angle turns on by a period at the frequency. -/
def CalState.turned (g : CalPar) (p : CalState) : CalState := { p with theta := turnAdd p.theta (perSec p.f g.per) }

/-- COAST is entered (R244). -/
def CalState.coasted (g : CalPar) (p : CalState) : CalState := { p with pll := 2, good := 0 }.turned g

/-- A hard resync (R245). -/
def CalState.resynced (g : CalPar) (p : CalState) : CalState :=
  { p with theta := turnAdd p.theta p.err, pll := 1, ramp := some 0, xd := 0, xq := 0, cold := false }.turned g

/-- The good periods of COAST after this one (R244). -/
def CalState.goodNow (g : CalPar) (p : CalState) : Nat := if qmul (g.amin + g.ahys) (g.amin + g.ahys) ≤ p.a2 then p.good + 1 else 0

/-- Where the PLL starts with the plan it does so at FNOM (log 153). -/
def CalState.atStart (g : CalPar) (p : CalState) : CalState := if p.pll = 0 then { p with f := g.fnom } else p

/-- The good periods are counted, in COAST and where the PLL starts (R244). -/
def CalState.counted (g : CalPar) (p : CalState) : CalState := { p.atStart g with good := (p.atStart g).goodNow g }

theorem CalState.atStart_f {g : CalPar} {p : CalState} (hlo : g.fmin ≤ g.fnom) (hhi : g.fnom ≤ g.fmax)
    (hf : g.fmin ≤ p.f ∧ p.f ≤ g.fmax) : g.fmin ≤ (p.atStart g).f ∧ (p.atStart g).f ≤ g.fmax := by
  unfold CalState.atStart
  split
  · exact ⟨hlo, hhi⟩
  · exact hf

theorem CalState.counted_on {g : CalPar} {p : CalState} (h : p.pll ≠ 0) : p.counted g = { p with good := p.goodNow g } := by
  rw [CalState.counted, CalState.atStart, if_neg h]

/-- A period of TRACK whose a² is high enough: the frequency is limited, and the integrator where it is updated (R244, R260). -/
def CalState.tracked (g : CalPar) (sig : Int) (p : CalState) : CalState :=
  let d := perSec (qmul g.kipll p.err) g.per
  let x1 := clampInt (g.fmin - g.fnom) (g.fmax - g.fnom) (p.x + d)
  let raw := g.fnom + qmul g.kpll p.err + x1 + qmul sig g.fnom
  let x := if (decide (g.fmax < raw) && decide (0 < d)) || (decide (raw < g.fmin) && decide (d < 0)) then p.x else x1
  { p with x := x, f := clampInt g.fmin g.fmax (g.fnom + qmul g.kpll p.err + x + qmul sig g.fnom) }.turned g

section
variable {g : CalPar} {sig : Int} {p : CalState}

theorem CalState.tracked_f (h : g.fmin ≤ g.fmax) : g.fmin ≤ (p.tracked g sig).f ∧ (p.tracked g sig).f ≤ g.fmax := clampInt_mem _ h

theorem CalState.tracked_x (hlo : g.fmin ≤ g.fnom) (hhi : g.fnom ≤ g.fmax) : (p.tracked g sig).x = p.x ∨
    (g.fmin - g.fnom ≤ (p.tracked g sig).x ∧ (p.tracked g sig).x ≤ g.fmax - g.fnom) := by
  unfold CalState.tracked CalState.turned
  dsimp only
  split
  · exact .inl rfl
  · exact .inr (clampInt_mem _ (by omega))

/-! ### The step in each state -/

theorem pllStep_cold (h : p.cold = true) : pllStep g sig p = ((p.atStart g).resynced g, false, true) := by
  unfold pllStep CalState.atStart
  rw [if_pos h]
  split <;> rfl

variable (hwarm : p.cold = false)
include hwarm

theorem pllStep_track (hpll : p.pll = 1) : pllStep g sig p =
    if p.a2 < qmul g.amin g.amin then (p.coasted g, true, false) else (p.tracked g sig, false, false) := by
  unfold pllStep
  rw [if_neg (by simp [hwarm])]
  split
  · rfl
  · omega
  · exact absurd hpll ‹_›

theorem pllStep_slew (hpll : p.pll = 3) : pllStep g sig p =
    if p.a2 < qmul g.amin g.amin then (p.coasted g, true, false)
    else if qabs p.err ≤ g.trkeps then ({ p with pll := 1 }.turned g, false, false)
    else ({ p with theta := turnAdd p.theta (clampInt (-g.slew) g.slew p.err) }.turned g, false, false) := by
  unfold pllStep
  rw [if_neg (by simp [hwarm])]
  split
  · omega
  · rfl
  · exact absurd hpll ‹_›

/-- COAST, and OFF at the start of the plan, count good periods. -/
theorem pllStep_coast (htrack : p.pll ≠ 1) (hslew : p.pll ≠ 3) : pllStep g sig p =
    if (p.counted g).good < 8 then ({ p.counted g with pll := 2 }.turned g, false, false)
    else if qabs (p.counted g).err ≤ g.rslim then ({ p.counted g with pll := 3 }.turned g, false, false)
    else ((p.counted g).resynced g, false, true) := by
  unfold pllStep
  rw [if_neg (by simp [hwarm])]
  split
  · exact absurd ‹p.pll = 1› htrack
  · exact absurd ‹p.pll = 3› hslew
  · unfold CalState.counted CalState.atStart
    split <;> rfl

end

/-! ### The clauses of R244 -/

/-- What any period of the PLL keeps: the frequency within FMIN to FMAX, the angle below one turn, and COAST as it is entered. -/
def CalPar.Keeps (g : CalPar) (o : CalState × Bool × Bool) : Prop :=
  g.fmin ≤ o.1.f ∧ o.1.f ≤ g.fmax ∧ o.1.theta < 2 ^ 32 ∧ (o.2.1 = true → o.1.pll = 2 ∧ o.1.good = 0)

section
variable {g : CalPar} {sig : Int} {p : CalState}

theorem CalPar.keeps_quiet {q : CalState} {resync : Bool} (hf : g.fmin ≤ q.f ∧ q.f ≤ g.fmax) (htheta : q.theta < 2 ^ 32) :
    g.Keeps (q, false, resync) := ⟨hf.1, hf.2, htheta, fun h => absurd h Bool.false_ne_true⟩

theorem CalPar.keeps_coasted (hf : g.fmin ≤ p.f ∧ p.f ≤ g.fmax) : g.Keeps (p.coasted g, true, false) :=
  ⟨hf.1, hf.2, turnAdd_lt .., fun _ => ⟨rfl, rfl⟩⟩

theorem pllStep_keeps (hlo : g.fmin ≤ g.fnom) (hhi : g.fnom ≤ g.fmax) (hf : g.fmin ≤ p.f ∧ p.f ≤ g.fmax) :
    g.Keeps (pllStep g sig p) := by
  have hstart := CalState.atStart_f hlo hhi hf
  cases hcold : p.cold with
  | true =>
    rw [pllStep_cold hcold]
    exact CalPar.keeps_quiet hstart (turnAdd_lt ..)
  | false =>
    by_cases htrack : p.pll = 1
    · rw [pllStep_track hcold htrack]
      split
      · exact CalPar.keeps_coasted hf
      · exact CalPar.keeps_quiet (CalState.tracked_f (hlo.trans hhi)) (turnAdd_lt ..)
    by_cases hslew : p.pll = 3
    · rw [pllStep_slew hcold hslew]
      split
      · exact CalPar.keeps_coasted hf
      · split
        · exact CalPar.keeps_quiet hf (turnAdd_lt ..)
        · exact CalPar.keeps_quiet hf (turnAdd_lt ..)
    · rw [pllStep_coast hcold htrack hslew]
      have hcounted : g.fmin ≤ (p.counted g).f ∧ (p.counted g).f ≤ g.fmax := hstart
      split
      · exact CalPar.keeps_quiet hcounted (turnAdd_lt ..)
      · split
        · exact CalPar.keeps_quiet hcounted (turnAdd_lt ..)
        · exact CalPar.keeps_quiet hcounted (turnAdd_lt ..)

variable {q : CalState} {coast resync : Bool} (hstep : pllStep g sig p = (q, coast, resync))
include hstep

theorem pllStep_cold_spec (hcold : p.cold = true) :
    resync = true ∧ q.pll = 1 ∧ q.cold = false ∧ q.ramp = some 0 ∧ q.xd = 0 ∧ q.xq = 0 := by
  rw [pllStep_cold hcold] at hstep
  cases hstep
  exact ⟨rfl, rfl, rfl, rfl, rfl, rfl⟩

variable (hwarm : p.cold = false)
include hwarm

theorem pllStep_track_spec (hpll : p.pll = 1) (hlo : g.fmin ≤ g.fnom) (hhi : g.fnom ≤ g.fmax) {low : Bool}
    (hlow : low = decide (p.a2 < qmul g.amin g.amin)) : coast = low ∧ resync = false ∧ q.pll = (if low then 2 else 1) ∧
      (low = true → q.f = p.f ∧ q.x = p.x) ∧ (low = false → q.x = p.x ∨ (g.fmin - g.fnom ≤ q.x ∧ q.x ≤ g.fmax - g.fnom)) ∧
      q.theta = turnAdd p.theta (perSec q.f g.per) := by
  rw [pllStep_track hwarm hpll] at hstep
  split at hstep
  case isTrue h =>
    rw [decide_eq_true h] at hlow
    subst hlow
    cases hstep
    exact ⟨rfl, rfl, rfl, fun _ => ⟨rfl, rfl⟩, fun h => absurd h (by decide), rfl⟩
  case isFalse h =>
    rw [decide_eq_false h] at hlow
    subst hlow
    cases hstep
    exact ⟨rfl, rfl, hpll, fun h => absurd h (by decide), fun _ => CalState.tracked_x hlo hhi, rfl⟩

theorem pllStep_slew_spec (hpll : p.pll = 3) {low : Bool} (hlow : low = decide (p.a2 < qmul g.amin g.amin)) :
    coast = low ∧ resync = false ∧ q.f = p.f ∧ q.x = p.x ∧
      q.pll = (if low then 2 else if qabs p.err ≤ g.trkeps then 1 else 3) ∧
      (q.pll ≠ 3 → q.theta = turnAdd p.theta (perSec p.f g.per)) ∧
      (q.pll = 3 → q.theta = turnAdd (turnAdd p.theta (clampInt (-g.slew) g.slew p.err)) (perSec p.f g.per)) := by
  rw [pllStep_slew hwarm hpll] at hstep
  split at hstep
  case isTrue h =>
    rw [decide_eq_true h] at hlow
    subst hlow
    cases hstep
    exact ⟨rfl, rfl, rfl, rfl, rfl, fun _ => rfl, fun h => absurd h (by decide : 2 ≠ 3)⟩
  case isFalse h =>
    rw [decide_eq_false h] at hlow
    subst hlow
    split at hstep
    case isTrue hnear =>
      cases hstep
      exact ⟨rfl, rfl, rfl, rfl, (if_pos hnear).symm, fun _ => rfl, fun h => absurd h (by decide : 1 ≠ 3)⟩
    case isFalse hfar =>
      cases hstep
      exact ⟨rfl, rfl, rfl, rfl, hpll.trans (if_neg hfar).symm, fun h => absurd hpll h, fun _ => rfl⟩

theorem pllStep_coast_spec (hpll : p.pll = 2) {good : Nat} (hgood : good = p.goodNow g) :
    coast = false ∧ q.f = p.f ∧ q.x = p.x ∧ q.good = good ∧ resync = (decide (8 ≤ good) && decide (g.rslim < qabs p.err)) ∧
      q.pll = (if good < 8 then 2 else if resync then 1 else 3) ∧
      (resync = true → q.ramp = some 0 ∧ q.xd = 0 ∧ q.xq = 0 ∧
        q.theta = turnAdd (turnAdd p.theta p.err) (perSec p.f g.per)) ∧
      (resync = false → q.ramp = p.ramp ∧ q.xd = p.xd ∧ q.xq = p.xq ∧ q.theta = turnAdd p.theta (perSec p.f g.per)) := by
  rw [pllStep_coast hwarm (by omega) (by omega), CalState.counted_on (by omega), ← hgood] at hstep
  dsimp only at hstep
  split at hstep
  case isTrue hfew =>
    cases hstep
    exact ⟨rfl, rfl, rfl, rfl, by simp [hfew], (if_pos hfew).symm, fun h => absurd h (by decide), fun _ => ⟨rfl, rfl, rfl, rfl⟩⟩
  case isFalse hmany =>
    split at hstep
    case isTrue hnear =>
      cases hstep
      exact ⟨rfl, rfl, rfl, rfl, by simp [hnear], by rw [if_neg hmany]; rfl, fun h => absurd h (by decide),
        fun _ => ⟨rfl, rfl, rfl, rfl⟩⟩
    case isFalse hfar =>
      cases hstep
      exact ⟨rfl, rfl, rfl, rfl, by simp [Nat.le_of_not_lt hmany, Int.lt_of_not_ge hfar], by rw [if_neg hmany]; rfl,
        fun _ => ⟨rfl, rfl, rfl, rfl⟩, fun h => absurd h (by decide)⟩

end

end Sys2Proof.Machine
end

section
/-! Proofs: telemetry of a cell as the arm's program takes it in (chapter 07, R240, R241, R253, R268; chapter 10, R328). -/

namespace Sys2Proof.Machine

/-! ### The program set's record of a cell -/

theorem State.ctl_congr {s t : State} (h : t.pset.cells = s.pset.cells) (b : Nat) : t.ctl b = s.ctl b :=
  congrArg (fun m => NMap.get ({} : CellCtl) m b) h

@[simp] theorem State.ctl_setCtl_same (s : State) (a : Nat) (c : CellCtl) : (s.setCtl a c).ctl a = c := NMap.get_put_same ..

theorem State.ctl_setCtl_ne (s : State) {a b : Nat} (c : CellCtl) (h : b ≠ a) : (s.setCtl a c).ctl b = s.ctl b :=
  NMap.get_put_ne _ _ _ h

@[simp] theorem State.pset_jigEvent (s : State) (i e : Nat) : (s.jigEvent i e).pset = s.pset := rfl
@[simp] theorem State.scribe_jigEvent (s : State) (i e : Nat) : (s.jigEvent i e).scribe = s.scribe := rfl

/-- A source of the set raised for a cell, with the event for JG0 (R268, R328). -/
def State.calCell (s : State) (c : Bool) (src at_ eng cell e : Nat) : State :=
  (s.calRaise c src at_ eng).when c fun t => t.jigEvent cell e

section
variable (s : State) (c : Bool) (src at_ eng cell e : Nat)

@[simp] theorem State.pset_calCell : (s.calCell c src at_ eng cell e).pset = s.pset := by
  rw [State.calCell, State.when_keeps State.pset fun t => t.pset_jigEvent cell e]
  exact State.when_keeps State.pset (f := fun t => t.fault src 0x71 at_ (0x10 + eng)) (fun _ => rfl) s c

theorem State.scribe_calCell_false : (s.calCell false src at_ eng cell e).scribe = s.scribe := rfl

theorem State.raised_calCell_true {s t : State} (h : t.scribe = s.scribe) :
    s.raised (t.calCell true src at_ eng cell e) src 0x71 :=
  State.raised_congr (State.raised_fault_of (congrArg Scribe.inflight h) src 0x71 at_ (0x10 + eng) 0 0) rfl rfl

@[simp] theorem State.ctl_calCell (b : Nat) : (s.calCell c src at_ eng cell e).ctl b = s.ctl b :=
  State.ctl_congr (congrArg CalState.cells (s.pset_calCell ..)) b

end

/-! ### A slot is taken in -/

/-- What the program keeps of a cell whose slot is valid (R240). -/
def State.ctlMeasured (s : State) (arm addr : Nat) : CellCtl :=
  { s.ctl addr with v := s.recV addr, i := (s.recWord addr 1).toInt * Config.ampsPerCount arm, stale := 0 }

/-- What it keeps of a cell whose slot is stale: the prediction sent, and the arm's mean current (R241). -/
def State.ctlBridged (s : State) (mean : Int) (addr : Nat) : CellCtl :=
  { s.ctl addr with
    v := if (s.ctl addr).vpred = 0xFFFF then (s.ctl addr).v else 50 * (s.ctl addr).vpred, i := mean,
    stale := (s.ctl addr).stale + 1 }

/-- A valid voltage beyond VCMAX raises CELL_OV, of a cell that is RANGED (R268; word 9 bit 5). -/
def State.calExceeds (s : State) (arm addr : Nat) : Bool := Nat.blt (s.vcmax arm) (s.recV addr) && !(s.recWord addr 9).bit 5

/-- A stale cell with a weight above 0 passes STALEMAX (R268). -/
def State.calLoses (s : State) (addr : Nat) : Bool :=
  decide ((s.ctl addr).stale + 1 = s.staleMax + 1) && decide (0 < s.weight addr)

/-- A bridged slot is counted. -/
def State.calBridged (s : State) : State := s.putP { s.pset with bridged := s.pset.bridged + 1 }

section
variable {s : State} {arm addr : Nat} {mean : Int}

theorem State.calTake_valid (h : (s.recWord addr 9).bit 0 = false) : s.calTake arm mean addr =
    (s.setCtl addr (s.ctlMeasured arm addr)).calCell (s.calExceeds arm addr) Src.CELL_OV
      (addr + arm * 256) (armEngine arm) addr 0 :=
  if_neg (ne_true_of_eq_false h)

theorem State.calTake_stale (h : (s.recWord addr 9).bit 0 = true) : s.calTake arm mean addr =
    (s.setCtl addr (s.ctlBridged mean addr)).calBridged.calCell (s.calLoses addr)
      Src.CELL_LOST (addr + arm * 256) (armEngine arm) addr 4 :=
  if_pos h

theorem State.ctl_calBridged (b : Nat) : s.calBridged.ctl b = s.ctl b := rfl

/-- Taking in a slot changes no other cell's record. -/
theorem State.ctl_calTake_ne {b : Nat} (h : b ≠ addr) : (s.calTake arm mean addr).ctl b = s.ctl b := by
  cases hslot : (s.recWord addr 9).bit 0 with
  | false => rw [State.calTake_valid hslot, State.ctl_calCell, State.ctl_setCtl_ne _ _ h]
  | true => rw [State.calTake_stale hslot, State.ctl_calCell, State.ctl_calBridged, State.ctl_setCtl_ne _ _ h]

theorem State.ctl_calTake_valid (h : (s.recWord addr 9).bit 0 = false) :
    (s.calTake arm mean addr).ctl addr = s.ctlMeasured arm addr := by
  rw [State.calTake_valid h, State.ctl_calCell, State.ctl_setCtl_same]

theorem State.ctl_calTake_stale (h : (s.recWord addr 9).bit 0 = true) :
    (s.calTake arm mean addr).ctl addr = s.ctlBridged mean addr := by
  rw [State.calTake_stale h, State.ctl_calCell, State.ctl_calBridged, State.ctl_setCtl_same]

theorem State.bridged_calTake_valid (h : (s.recWord addr 9).bit 0 = false) :
    (s.calTake arm mean addr).pset.bridged = s.pset.bridged := by
  rw [State.calTake_valid h, State.pset_calCell]
  rfl

theorem State.bridged_calTake_stale (h : (s.recWord addr 9).bit 0 = true) :
    (s.calTake arm mean addr).pset.bridged = s.pset.bridged + 1 := by
  rw [State.calTake_stale h, State.pset_calCell]
  rfl

theorem State.calExceeds_iff :
    s.calExceeds arm addr = true ↔ s.vcmax arm < s.recV addr ∧ (s.recWord addr 9).bit 5 = false := by
  rw [State.calExceeds, Bool.and_eq_true, Nat.blt_eq, Bool.not_eq_true']

/-- The count of stale periods passes STALEMAX in one period only. -/
theorem State.calLoses_iff : s.calLoses addr = true ↔ (s.ctl addr).stale = s.staleMax ∧ 0 < s.weight addr := by
  rw [State.calLoses, Bool.and_eq_true, decide_eq_true_iff, decide_eq_true_iff, Nat.add_right_cancel_iff]

theorem State.scribe_calTake_below (h : (s.recWord addr 9).bit 0 = false) (hbelow : s.calExceeds arm addr = false) :
    (s.calTake arm mean addr).scribe = s.scribe := by
  rw [State.calTake_valid h, hbelow, State.scribe_calCell_false]
  rfl

theorem State.raised_calTake_above (h : (s.recWord addr 9).bit 0 = false) (habove : s.calExceeds arm addr = true) :
    s.raised (s.calTake arm mean addr) Src.CELL_OV 0x71 := by
  rw [State.calTake_valid h, habove]
  exact State.raised_calCell_true _ _ _ _ _ rfl

theorem State.scribe_calTake_bridged (h : (s.recWord addr 9).bit 0 = true) (hkept : s.calLoses addr = false) :
    (s.calTake arm mean addr).scribe = s.scribe := by
  rw [State.calTake_stale h, hkept, State.scribe_calCell_false]
  rfl

theorem State.raised_calTake_lost (h : (s.recWord addr 9).bit 0 = true) (hlost : s.calLoses addr = true) :
    s.raised (s.calTake arm mean addr) Src.CELL_LOST 0x71 := by
  rw [State.calTake_stale h, hlost]
  exact State.raised_calCell_true _ _ _ _ _ rfl

end

/-! ### Stages released (R232; log 54) -/

theorem State.calRecognised_idle {s : State} (k : Nat) (h : s.plan.started = false) : s.calRecognised k = s := by
  unfold State.calRecognised
  simp [h]

theorem State.calRecognised_other {s : State} {k : Nat} (h1 : k ≠ 1) (h2 : k ≠ 2) (h5 : k ≠ 5) : s.calRecognised k = s := by
  unfold State.calRecognised
  split
  · rfl
  · split
    · exact absurd rfl h1
    · exact absurd rfl h5
    · exact absurd rfl h2
    · rfl

end Sys2Proof.Machine
end

section
/-! Proofs: the shipped stack programs, put together (chapter 07, R240, R241, R243 to R245, R253, R254, R268; log 54). -/

namespace Sys2Proof.Machine

/-- Settles O60: the PLL by its step in each state, a cell's telemetry by what a valid and a stale slot leave. -/
theorem stackProgramSteps : Obligations.StackProgramSteps := by
  refine ⟨?_, ?_, ?_⟩
  · rintro g sig p hlo hhi hmin hmax q coast resync hstep low hlow good hgood
    have hkeeps := pllStep_keeps (sig := sig) hlo hhi ⟨hmin, hmax⟩
    rw [hstep] at hkeeps
    obtain ⟨hqmin, hqmax, htheta, hcoast⟩ := hkeeps
    exact ⟨hqmin, hqmax, htheta, hcoast, pllStep_cold_spec hstep, fun hwarm hpll => pllStep_track_spec hstep hwarm hpll hlo hhi hlow,
      fun hwarm hpll => pllStep_coast_spec hstep hwarm hpll hgood, fun hwarm hpll => pllStep_slew_spec hstep hwarm hpll hlow⟩
  · rintro s arm addr mean t rfl
    refine ⟨fun b hb => State.ctl_calTake_ne hb, fun hvalid => ?_, fun hstale => ?_⟩
    · rw [State.ctl_calTake_valid hvalid, State.bridged_calTake_valid hvalid]
      refine ⟨rfl, rfl, rfl, fun hbelow => ?_, fun habove hbit => ?_⟩
      · exact State.scribe_calTake_below hvalid
          (Bool.eq_false_iff.2 fun hexceeds => hbelow.not_gt (State.calExceeds_iff.1 hexceeds).1)
      · exact State.raised_calTake_above hvalid (State.calExceeds_iff.2 ⟨habove, hbit⟩)
    · rw [State.ctl_calTake_stale hstale, State.bridged_calTake_stale hstale]
      refine ⟨rfl, rfl, fun hsent => if_neg hsent, rfl, fun hlost => ?_, fun hkept => ?_⟩
      · exact State.raised_calTake_lost hstale (State.calLoses_iff.2 hlost)
      · refine State.scribe_calTake_bridged hstale (Bool.eq_false_iff.2 fun hloses => ?_)
        obtain ⟨hcount, hweight⟩ := State.calLoses_iff.1 hloses
        exact hkept.elim (absurd hcount) (absurd hweight ∘ Int.not_lt.2)
  · rintro s k (hset | hplan | ⟨h1, h2, h5⟩)
    · exact State.calRecognised_unshipped k hset
    · exact State.calRecognised_idle k hplan
    · exact State.calRecognised_other h1 h2 h5

end Sys2Proof.Machine
end

section
/-! Proofs: the copy of instruction memory that a pair of SHADOW begins with (chapter 08, R287, R288). -/

namespace Sys2Proof.Machine

theorem exec_pe7Shadow (v : BitVec 3) (s : State) :
    exec (.pe7Shadow v) s = .next (s.hostWr 0x67 fun t => t.pecfgMode 1 v.toNat) := rfl

/-- PE7 is FREE, its EN = 0 and the lock of its page open. The memory list, which is not in canonical form, names the first byte
of PE0's instruction memory twice, with 1 and then with 2. -/
def imemByteTwice : State :=
  { (State.reset.setB R.RST.BSTA 4 true).setB (R.WLCK 0x67) 0 true with
    rst := { State.reset.rst with held := 0 }, mem := [(engBase 0, 1), (engBase 0, 2)] }

theorem imemByteTwice_writable : imemByteTwice.writable 0x67 = true := by decide

/-- The first of the two listings is the one that is read. -/
theorem imemByteTwice_read : imemByteTwice.mem.read (engBase 0) = 1 := by decide

/-- The copy stores the two listings in their order, so that the last one stays. -/
theorem imemByteTwice_shadow_read : (imemByteTwice.pecfgMode 1 0).mem.read (engBase 7) = 2 := by decide +kernel

/-- Refutes O38: its claim that PE7 in SHADOW reads TARGET's instruction memory, byte for byte, in every state. The statement does
not ask that the memory list is in canonical form (`State.Inv`). Where it names a byte of PE0's instruction memory twice, a read
finds the first listing, while the copy writes all of them one after another: the byte is 1 in PE0 and 2 in PE7. -/
theorem not_spareEngineModes : ¬ Obligations.SpareEngineModes := by
  intro h
  obtain ⟨-, hopen, -⟩ := h imemByteTwice imemByteTwice_writable
  obtain ⟨hshadow, -⟩ := hopen 0 (by decide) (by decide) 0 rfl
  obtain ⟨t, ht, -, -, hcopied, -⟩ := hshadow (by decide)
  rw [exec_pe7Shadow, State.hostWr_writable _ imemByteTwice_writable] at ht
  obtain rfl : imemByteTwice.pecfgMode 1 0 = t := by injection ht
  have hsame : (2 : Byte) = 1 := calc
    2 = (imemByteTwice.pecfgMode 1 0).mem.read (engBase 7) := imemByteTwice_shadow_read.symm
    _ = imemByteTwice.mem.read (engBase 0) := hcopied 0 (by decide)
    _ = 1 := imemByteTwice_read
  exact absurd hsame (by decide)

end Sys2Proof.Machine
end

section
/-! Proofs: the parts of a slot's execution and what each leaves alone (chapter 08, R286; chapter 20, R551, R552). -/

namespace Sys2Proof.Machine

/-! ### What lies outside the engines -/

/-- The state outside the engines, the registers and the performance counters. -/
def State.outside (s : State) : State := { s with eng := [], regs := [], pmc := {} }

theorem State.eq_of_outside {s t : State} (h : t.outside = s.outside) :
    t = { s with eng := t.eng, regs := t.regs, pmc := t.pmc } :=
  calc t = { t.outside with eng := t.eng, regs := t.regs, pmc := t.pmc } := rfl
    _ = { s.outside with eng := t.eng, regs := t.regs, pmc := t.pmc } := by rw [h]
    _ = { s with eng := t.eng, regs := t.regs, pmc := t.pmc } := rfl

section
variable {s t : State} (h : t.outside = s.outside)
include h

theorem State.dmem_of_outside : t.dmem = s.dmem := show t.outside.dmem = s.outside.dmem by rw [h]
theorem State.sxm_of_outside : t.sxm = s.sxm := show t.outside.sxm = s.outside.sxm by rw [h]
theorem State.free_of_outside : t.free = s.free := show t.outside.free = s.outside.free by rw [h]
theorem State.scribe_of_outside : t.scribe = s.scribe := show t.outside.scribe = s.outside.scribe by rw [h]

end

@[simp] theorem State.outside_setReg (s : State) (k : Nat) (v : Word) : (s.setReg k v).outside = s.outside := rfl
@[simp] theorem State.outside_putG (s : State) (n i : Nat) (v : Word) : (s.putG n i v).outside = s.outside := rfl

@[simp] theorem State.outside_setFlags (s : State) (n fclr fset : Nat) : (s.setFlags n fclr fset).outside = s.outside := by
  unfold State.setFlags
  exact State.when_keeps State.outside (fun t => t.outside_setReg _ _) _ _

@[simp] theorem State.outside_pmcAdd (s : State) (n e k : Nat) : (s.pmcAdd n e k).outside = s.outside := by
  unfold State.pmcAdd
  split <;> rfl

@[simp] theorem State.regs_pmcAdd (s : State) (n e k : Nat) : (s.pmcAdd n e k).regs = s.regs := by
  unfold State.pmcAdd
  split <;> rfl

@[simp] theorem State.eng_pmcAdd (s : State) (n e k : Nat) : (s.pmcAdd n e k).eng = s.eng := by
  unfold State.pmcAdd
  split <;> rfl

@[simp] theorem State.eng_setFlags (s : State) (n fclr fset : Nat) : (s.setFlags n fclr fset).eng = s.eng := by
  unfold State.setFlags
  exact State.when_keeps State.eng (fun t => t.setReg_eng _ _) _ _

theorem State.engine_congr {s t : State} (h : t.eng = s.eng) (n : Nat) : t.engine n = s.engine n := by
  unfold State.engine
  rw [h]

@[simp] theorem State.engine_setEng_same (s : State) (n : Nat) (e : Eng) : (s.setEng n e).engine n = e :=
  NMap.get_put_same ..

/-! ### Sticky flags (R285, R286) -/

theorem State.flagsOf_lt (s : State) (n : Nat) : s.flagsOf n < 16 := Nat.mod_lt _ (by decide)

theorem State.regF_congr {s t : State} (h : t.regs = s.regs) (k lo len : Nat) : t.regF k lo len = s.regF k lo len :=
  congrArg (fun v => Word.fld v lo len) (State.reg_congr h k)

theorem State.regB_congr {s t : State} (h : t.regs = s.regs) (k i : Nat) : t.regB k i = s.regB k i :=
  congrArg (fun v => Word.bit v i) (State.reg_congr h k)

theorem State.flagsOf_congr {s t : State} (h : t.regs = s.regs) (n : Nat) : t.flagsOf n = s.flagsOf n := State.regF_congr h ..

theorem State.flagsOf_setFlags (s : State) (n fclr fset : Nat) :
    (s.setFlags n fclr fset).flagsOf n = (s.flagsOf n - (s.flagsOf n &&& fclr) ||| fset) % 16 := by
  have hset (v : Nat) : (s.setF (R.PE.FLAGS (engPage n)) 0 4 v).flagsOf n = v % 16 := State.regF_setF_same _ _ _ _ _ (by decide)
  rw [← hset]
  refine State.when_keeps (fun t : State => t.flagsOf n) (fun t => ?_) _ _
  unfold State.flagsOf State.regF
  rw [State.reg_irq_ne _ (by simp only [R.PE.FLAGS, R.IRQS]; omega)]

/-- Flags set join those that stand. -/
theorem State.flagsOf_setFlags_or (s : State) (n : Nat) {fset : Nat} (h : fset < 16) :
    (s.setFlags n 0 fset).flagsOf n = s.flagsOf n ||| fset := by
  rw [State.flagsOf_setFlags, Nat.and_zero, Nat.sub_zero]
  exact Nat.mod_eq_of_lt (Nat.or_lt_two_pow (n := 4) (s.flagsOf_lt n) h)

/-- Flags cleared by a mask. -/
theorem State.testBit_flagsOf_setFlags (s : State) (n : Nat) {fclr i : Nat} (hclr : fclr < 16) (hi : i < 4) :
    ((s.setFlags n fclr 0).flagsOf n).testBit i = ((s.flagsOf n).testBit i && !fclr.testBit i) := by
  have hbits : ∀ f < 16, ∀ m < 16, ∀ j < 4, ((f - (f &&& m) ||| 0) % 16).testBit j = (f.testBit j && !m.testBit j) := by decide
  rw [State.flagsOf_setFlags]
  exact hbits _ (s.flagsOf_lt n) _ hclr _ hi

theorem State.regB_setFlags_irqs (s : State) (n fclr : Nat) {fset : Nat} (h : fset ≠ 0) :
    (s.setFlags n fclr fset).regB (R.IRQS (engPage n)) 1 = true := by
  simp only [State.setFlags, State.when, decide_eq_true h, if_true]
  exact State.regB_irq_same _ _ (by decide)

/-- No flag set and none cleared: every register reads as before. -/
theorem State.reg_setFlags_none (s : State) (n k : Nat) : (s.setFlags n 0 0).reg k = s.reg k := by
  have hsame : s.flagsOf n - (s.flagsOf n &&& 0) ||| 0 = s.flagsOf n := by simp
  have hset : s.setFlags n 0 0 = s.setF (R.PE.FLAGS (engPage n)) 0 4 (s.flagsOf n - (s.flagsOf n &&& 0) ||| 0) := rfl
  rw [hset, hsame]
  by_cases hk : k = R.PE.FLAGS (engPage n)
  · rw [hk, State.reg_setF_same]
    exact Word.setFld_fld ..
  · exact State.reg_setF_ne _ _ _ _ hk

theorem regsBut_setFlags_clear (s : State) (n fclr : Nat) : regsBut s (s.setFlags n fclr 0) [R.PE.FLAGS (engPage n)] :=
  (regsBut.refl s _).setF _ _ _ (by simp)

theorem regsBut_setFlags_set (s : State) (n fset : Nat) :
    regsBut s (s.setFlags n 0 fset) (if fset = 0 then [] else [R.PE.FLAGS (engPage n), R.IRQS (engPage n)]) := by
  split
  · next h =>
    rw [h]
    exact fun k _ => s.reg_setFlags_none n k
  · have hflags := (regsBut.refl s [R.PE.FLAGS (engPage n), R.IRQS (engPage n)]).setF (k := R.PE.FLAGS (engPage n)) 0 4
      (s.flagsOf n - (s.flagsOf n &&& 0) ||| fset) (by simp)
    exact State.when_induct (P := fun t => regsBut s t _) _ hflags (hflags.irq (page := engPage n) 1 (by simp))

/-! ### One engine acts -/

/-- Of the engines, `t` differs from `s` in engine `n` alone, which has registers `r` and accesses in flight `acc`. -/
structure State.EngineActs (s t : State) (n : Nat) (r : EngRegs) (acc : List CsmAcc) : Prop where
  engRegs : (t.engine n).r = r
  engAcc : (t.engine n).acc = acc
  others : ∀ m, m ≠ n → t.engine m = s.engine m

/-- Besides, no register of a page and nothing outside the engines changes but the performance counters. -/
structure State.EngineOnly (s t : State) (n : Nat) (r : EngRegs) (acc : List CsmAcc) : Prop where
  acts : s.EngineActs t n r acc
  regs : t.regs = s.regs
  outside : t.outside = s.outside

/-- Nor do the engine's registers and accesses in flight, as where cycles and slots are counted. -/
abbrev State.Counted (s t : State) (n : Nat) : Prop := s.EngineOnly t n (s.engine n).r (s.engine n).acc

section
variable {s t u : State} {n : Nat} {r r' : EngRegs} {acc acc' : List CsmAcc}

theorem State.EngineActs.refl (s : State) (n : Nat) : s.EngineActs s n (s.engine n).r (s.engine n).acc :=
  ⟨rfl, rfl, fun _ _ => rfl⟩

theorem State.EngineActs.trans (h : s.EngineActs t n r acc) (h' : t.EngineActs u n r' acc') : s.EngineActs u n r' acc' :=
  ⟨h'.engRegs, h'.engAcc, fun m hm => (h'.others m hm).trans (h.others m hm)⟩

/-- What follows without touching registers and accesses keeps those that stand. -/
theorem State.EngineActs.counted (h : s.EngineActs t n r acc) (h' : t.Counted u n) : s.EngineActs u n r acc :=
  ⟨h'.acts.engRegs.trans h.engRegs, h'.acts.engAcc.trans h.engAcc, (h.trans h'.acts).others⟩

/-- What does not concern the engines leaves what they did. -/
theorem State.EngineActs.congr (h : s.EngineActs t n r acc) (hu : u.eng = t.eng) : s.EngineActs u n r acc where
  engRegs := by rw [State.engine_congr hu, h.engRegs]
  engAcc := by rw [State.engine_congr hu, h.engAcc]
  others m hm := by rw [State.engine_congr hu, h.others m hm]

theorem State.EngineOnly.trans (h : s.EngineOnly t n r acc) (h' : t.EngineOnly u n r' acc') : s.EngineOnly u n r' acc' :=
  ⟨h.acts.trans h'.acts, h'.regs.trans h.regs, h'.outside.trans h.outside⟩

theorem State.EngineOnly.counted (h : s.EngineOnly t n r acc) (h' : t.Counted u n) : s.EngineOnly u n r acc :=
  ⟨h.acts.counted h', h'.regs.trans h.regs, h'.outside.trans h.outside⟩

theorem State.EngineOnly.setEng (h : s.EngineOnly t n r acc) (e : Eng) : s.EngineOnly (t.setEng n e) n e.r e.acc where
  acts := ⟨by rw [State.engine_setEng_same], by rw [State.engine_setEng_same],
    fun m hm => (State.engine_setEng_ne _ _ hm).trans (h.acts.others m hm)⟩
  regs := h.regs
  outside := h.outside

theorem State.EngineOnly.regsBut (h : s.EngineOnly t n r acc) : regsBut s t [] := fun k _ => State.reg_congr h.regs k

theorem State.EngineOnly.frame (h : s.EngineOnly t n r acc) : t = { s with eng := t.eng, regs := t.regs, pmc := t.pmc } :=
  State.eq_of_outside h.outside

theorem State.Counted.refl (s : State) (n : Nat) : s.Counted s n := ⟨.refl s n, rfl, rfl⟩

theorem State.EngineOnly.pmcAdd (h : s.EngineOnly t n r acc) (m e k : Nat) : s.EngineOnly (t.pmcAdd m e k) n r acc where
  acts := h.acts.congr (t.eng_pmcAdd m e k)
  regs := (t.regs_pmcAdd m e k).trans h.regs
  outside := (t.outside_pmcAdd m e k).trans h.outside

theorem State.EngineOnly.pmcSlots (h : s.EngineOnly t n r acc) (m ev k : Nat) : s.EngineOnly (t.pmcSlots m ev k) n r acc :=
  (h.pmcAdd ..).pmcAdd ..

theorem State.EngineOnly.pmcCycles (h : s.EngineOnly t n r acc) (m ev k : Nat) : s.EngineOnly (t.pmcCycles m ev k) n r acc :=
  (h.pmcAdd ..).pmcSlots ..

theorem State.EngineOnly.countOp (h : s.EngineOnly t n r acc) (m op : Nat) : s.EngineOnly (t.countOp m op) n r acc := by
  unfold State.countOp
  split
  · exact h.pmcAdd ..
  · exact h

theorem State.Counted.acctHolds (s : State) (n : Nat) (h : Nat × Nat × Nat) (c : Nat) : s.Counted (s.acctHolds n h c) n :=
  ((((refl s n).pmcCycles ..).pmcCycles ..).pmcCycles ..).setEng _

end

/-! ### The A slot (R298, R299, R311) -/

/-- The A slot of a bundle, with predicate condition and instruction read from the registers at issue: its effect takes place in a
state `z` that differs from the one at issue by counts alone, and only counts and the half bundle follow it. -/
theorem State.aSlot_spec (s : State) (n : Nat) {w : Word} (hw : w = s.imemWord n (s.pcOf n)) {r : EngRegs}
    (hr : r = ((s.atIssue n).engine n).r) : ∃ z, (s.atIssue n).Counted z n ∧
      (if predTrue w r.p then z.aEffect n (slotOp false w) w r (s.bundleAt n) else z).Counted (s.aSlot n) n ∧
      ((s.aSlot n).engine n).half.map (fun h => (h.old, h.at_, h.jump, h.wait)) = some (r, s.bundleAt n,
        if predTrue w r.p then branchTo (slotOp false w) w r else none,
        if predTrue w r.p && slotOp false w = 0x22 then some (insCh w) else none) := by
  subst hw
  generalize ht : s.aSlot n = t
  unfold State.aSlot at ht
  extract_lets pc wa wm op h c s0 r' on e0 s1 s2 jump half at ht
  subst ht
  have hs0 : (s.atIssue n).Counted s0 n := by
    unfold s0 State.atIssue
    split
    · exact .refl ..
    · exact .acctHolds ..
  have hs1 : (s.atIssue n).Counted s1 n := by
    unfold s1
    split
    · exact hs0.counted ((State.Counted.refl s0 n).setEng _)
    · exact hs0
  have hr' : r' = r := hs0.acts.engRegs.trans hr.symm
  have hs2 : (if predTrue wa r.p then s1.aEffect n op wa r (s.bundleAt n) else s1).Counted s2 n := by
    unfold s2 on
    rw [hr']
    split
    · exact (State.Counted.refl _ n).countOp n op
    · exact .refl ..
  have hslots := ((hs2.pmcAdd n evCYC 1).pmcAdd n evBUNDLE 1).pmcSlots n (slotClass op wa r'.p evRETA) 1
  refine ⟨s1, hs1, hslots.counted ((State.Counted.refl _ n).setEng _), ?_⟩
  rw [State.setHalf, State.engine_setEng_same, ← hr']
  rfl

/-- The engine's next slot is the A slot of a bundle that holds the instruction named: it executes. -/
theorem State.insCmd_aSlot {s : State} {n op : Nat} (hrun : s.engState n = 2) (hhalf : (s.engine n).half = none)
    (hop : slotOp false (s.imemWord n (s.pcOf n)) = op) : s.insCmd n op = s.aSlot n := by
  unfold State.insCmd
  rw [if_neg (not_not_intro hrun), hhalf]
  exact if_pos hop

/-- An A-slot instruction but WAIT executes as what its opcode says. -/
theorem slotOp_eq_insOp {w : Word} (hpred : predValid (insPred w) = true) (hlt : insOp w < 0x25) (hwait : insOp w ≠ 0x22) :
    slotOp false w = insOp w := by
  simp [slotOp, hpred, hlt, hwait]

end Sys2Proof.Machine
end

section
/-! Proofs: the A-slot instructions that write registers (chapter 09, R298, R299, R302, R304). -/

namespace Sys2Proof.Machine

/-! ### An A slot executes, or its predicate is false -/

section
variable {s : State} {n op : Nat} {w : Word} {r : EngRegs}

/-- With its predicate true, the bundle is left with the registers of the instruction's effect and the jump and WAIT it names. -/
theorem State.aSlot_executed (hw : w = s.imemWord n (s.pcOf n)) (hr : r = ((s.atIssue n).engine n).r) (hop : slotOp false w = op)
    (htrue : predTrue w r.p = true) : ∃ z, (s.atIssue n).Counted z n ∧
      (z.aEffect n op w r (s.bundleAt n)).Counted (s.aSlot n) n ∧
      ∀ r' acc, z.EngineActs (z.aEffect n op w r (s.bundleAt n)) n r' acc →
        s.aDone (s.aSlot n) n r' (branchTo op w r) (if op = 0x22 then some (insCh w) else none) := by
  subst hop
  obtain ⟨z, hz, ht, hhalf⟩ := s.aSlot_spec n hw hr
  rw [if_pos htrue] at ht
  refine ⟨z, hz, ht, fun r' acc hacts => ?_⟩
  have hall := (hz.acts.trans hacts).counted ht
  refine ⟨hall.engRegs, hhalf.trans ?_, hall.others⟩
  simp [htrue, ← hr]

/-- An instruction that concerns its own engine alone. -/
theorem State.aSlot_engineOnly (hw : w = s.imemWord n (s.pcOf n)) (hr : r = ((s.atIssue n).engine n).r)
    (hop : slotOp false w = op) (htrue : predTrue w r.p = true) {r' : EngRegs} {acc : List CsmAcc}
    (heff : ∀ z, (s.atIssue n).Counted z n → z.EngineOnly (z.aEffect n op w r (s.bundleAt n)) n r' acc) :
    s.aDone (s.aSlot n) n r' (branchTo op w r) (if op = 0x22 then some (insCh w) else none) ∧
      (s.atIssue n).EngineOnly (s.aSlot n) n r' acc := by
  obtain ⟨z, hz, ht, hdone⟩ := State.aSlot_executed hw hr hop htrue
  exact ⟨hdone _ _ (heff z hz).acts, (hz.trans (heff z hz)).counted ht⟩

/-- With its predicate false, no register changes. -/
theorem State.aSlot_squashed (hw : w = s.imemWord n (s.pcOf n)) (hr : r = ((s.atIssue n).engine n).r)
    (hfalse : predTrue w r.p = false) : s.aDone (s.aSlot n) n r none none ∧ (s.atIssue n).Counted (s.aSlot n) n := by
  obtain ⟨z, hz, ht, hhalf⟩ := s.aSlot_spec n hw hr
  rw [if_neg (by simp [hfalse])] at ht
  refine ⟨⟨hr ▸ (hz.counted ht).acts.engRegs, hhalf.trans ?_, (hz.counted ht).acts.others⟩, hz.counted ht⟩
  simp [hfalse, ← hr]

end

/-! ### The values of R304 -/

theorem aluVal_abs (w : Word) (r : EngRegs) (f : Nat) : aluVal 0x05 w r f = sat32f ((r.gr (insRa w)).toInt.natAbs : Int) := by
  have habs (x : Int) : (if x < 0 then -x else x) = (x.natAbs : Int) := by split <;> omega
  exact congrArg sat32f (habs _)

/-- The register that holds the lesser number, and the one that holds the greater. -/
theorem wdInt_min (a b : Word) : wdInt (min a.toInt b.toInt) = if a.toInt ≤ b.toInt then a else b := by
  rw [min_def, wdInt]
  split <;> exact BitVec.ofInt_toInt

theorem wdInt_max (a b : Word) : wdInt (max a.toInt b.toInt) = if a.toInt ≤ b.toInt then b else a := by
  rw [max_def, wdInt]
  split <;> exact BitVec.ofInt_toInt

theorem aluVal_min (w : Word) (r : EngRegs) (f : Nat) :
    aluVal 0x07 w r f = (wdInt (min (r.gr (insRa w)).toInt (r.gr (insRb w)).toInt), 0) := by
  rw [wdInt_min]
  rfl

theorem aluVal_max (w : Word) (r : EngRegs) (f : Nat) :
    aluVal 0x08 w r f = (wdInt (max (r.gr (insRa w)).toInt (r.gr (insRb w)).toInt), 0) := by
  rw [wdInt_max]
  rfl

theorem aluVal_shl (w : Word) (r : EngRegs) (f : Nat) :
    aluVal 0x0C w r f = sat32f ((r.gr (insRa w)).toInt * 2 ^ shiftCount w r) := by
  rw [← Nat.cast_ofNat (R := Int) (n := 2), ← Nat.cast_pow]
  rfl

theorem aluVal_shr (w : Word) (r : EngRegs) (f : Nat) : aluVal 0x0D w r f = (wdInt (((r.gr (insRa w)).toInt +
    (if (insX w).testBit 8 && Nat.ble 1 (shiftCount w r) then 2 ^ (shiftCount w r - 1) else 0)) / 2 ^ shiftCount w r), 0) := by
  have hpow (k : Nat) : ((2 ^ k : Nat) : Int) = 2 ^ k := by push_cast; rfl
  have hval : aluVal 0x0D w r f = if (insX w).testBit 8 && Nat.ble 1 (shiftCount w r)
      then (b32 (((r.gr (insRa w)).toInt + ((2 ^ (shiftCount w r - 1) : Nat) : Int)) / ((2 ^ shiftCount w r : Nat) : Int)), 0)
      else (b32 ((r.gr (insRa w)).toInt / ((2 ^ shiftCount w r : Nat) : Int)), 0) := rfl
  rw [hval]
  split <;> simp [b32, hpow]

theorem aluVal_clamp (w : Word) (r : EngRegs) (f : Nat) : aluVal 0x10 w r f =
    (wdInt (min (max (r.gr (insRd w)).toInt (r.gr (insRa w)).toInt) (r.gr (insRb w)).toInt), 0) := by
  have hmax : max (r.gr (insRd w)).toInt (r.gr (insRa w)).toInt =
      (if (r.gr (insRd w)).toInt ≤ (r.gr (insRa w)).toInt then r.gr (insRa w) else r.gr (insRd w)).toInt := by
    rw [max_def]
    split <;> rfl
  rw [hmax, wdInt_min]
  rfl

theorem aluVal_movh (w : Word) (r : EngRegs) (f : Nat) :
    aluVal 0x14 w r f = (wd ((r.gr (insRd w)).toNat % 65536 + insImm16 w * 65536), 0) := by
  have himm : insImm16 w < 65536 := Nat.mod_lt _ (by decide)
  have hset : (r.gr (insRd w)).setFld 16 16 (insImm16 w) = wd ((r.gr (insRd w)).toNat % 65536 + insImm16 w * 65536) := by
    have hlt := (r.gr (insRd w)).isLt
    apply BitVec.eq_of_toNat_eq
    rw [Word.setFld_toNat _ _ _ _ (by decide), wd, BitVec.toNat_ofNat]
    omega
  rw [← hset]
  rfl

theorem sat32f_flag (x : Int) : (sat32f x).2 = 0 ∨ (sat32f x).2 = fSV := by
  unfold sat32f
  dsimp only
  split
  · exact .inl rfl
  · exact .inr rfl

/-- The only flag an ALU instruction sets is SV. -/
theorem aluVal_flag (op : Nat) (w : Word) (r : EngRegs) (f : Nat) : (aluVal op w r f).2 = 0 ∨ (aluVal op w r f).2 = fSV := by
  unfold aluVal
  dsimp only
  split
  case h_13 => split <;> exact .inl rfl
  case h_1 | h_2 | h_5 | h_6 | h_12 | h_17 => exact sat32f_flag _
  all_goals exact .inl rfl

/-! ### ADD to FRD -/

/-- The opcodes of the instructions that write rd by a rule of R304. -/
def aluOp (op : Nat) : Bool := (Nat.ble 1 op && Nat.ble op 0x14) || op == 0x18 || op == 0x19 || op == 0x24

theorem aluOp_iff {op : Nat} : aluOp op = true ↔ (1 ≤ op ∧ op ≤ 0x14) ∨ op = 0x18 ∨ op = 0x19 ∨ op = 0x24 := by
  simp [aluOp, or_assoc]

theorem branchTo_alu {op : Nat} (h : aluOp op = true) (w : Word) (r : EngRegs) : branchTo op w r = none := by
  unfold branchTo
  split
  case h_5 => rfl
  all_goals exact absurd h (by decide)

theorem State.aEffect_alu {op : Nat} (h : aluOp op = true) (s : State) (n : Nat) (w : Word) (r : EngRegs) (c : Nat) :
    s.aEffect n op w r c =
      ((s.putG n (insRd w) (aluVal op w r (s.flagsOf n)).1).setFlags n 0 (aluVal op w r (s.flagsOf n)).2).when
      ((aluVal op w r (s.flagsOf n)).2 ≠ 0) fun t => t.pmcAdd n 27 1 := by
  have hop := aluOp_iff.1 h
  unfold State.aEffect
  rw [if_neg (by omega), if_neg (by omega), if_neg (by omega), if_neg (by omega), if_neg (by omega), if_neg (by omega),
    if_neg (by omega), if_neg (by omega), if_neg (by omega), if_neg (by omega), if_pos]
  simpa [or_assoc] using hop

end Sys2Proof.Machine
end

section
/-! Proofs: results of the A slot (chapter 09, R298, R299, R302, R304; chapter 08, R285, R286). -/

namespace Sys2Proof.Machine

/-- An ALU instruction writes its value to rd, and the flag it sets joins the sticky flags. -/
theorem State.aEffect_alu_spec {op : Nat} (h : aluOp op = true) (s : State) (n : Nat) (w : Word) (r : EngRegs) (c : Nat)
    {v : Word × Nat} (hv : aluVal op w r (s.flagsOf n) = v) :
    s.EngineActs (s.aEffect n op w r c) n ((s.engine n).r.setG (insRd w) v.1) (s.engine n).acc ∧
      (s.aEffect n op w r c).flagsOf n = s.flagsOf n ||| v.2 ∧
      (v.2 ≠ 0 → (s.aEffect n op w r c).regB (R.IRQS (engPage n)) 1 = true) ∧
      regsBut s (s.aEffect n op w r c) (if v.2 = 0 then [] else [R.PE.FLAGS (engPage n), R.IRQS (engPage n)]) ∧
      (s.aEffect n op w r c).outside = s.outside := by
  have hflag : v.2 < 16 := by
    subst hv
    obtain h | h := aluVal_flag op w r (s.flagsOf n) <;> rw [h] <;> decide
  rw [State.aEffect_alu h, hv]
  generalize hu : (s.putG n (insRd w) v.1).setFlags n 0 v.2 = u
  have hcount (c : Bool) : u.Counted (u.when c fun t => t.pmcAdd n 27 1) n :=
    State.when_induct (P := fun t => u.Counted t n) c (.refl u n) ((State.Counted.refl u n).pmcAdd ..)
  have hkept := hcount (v.2 ≠ 0)
  have hput : s.EngineOnly (s.putG n (insRd w) v.1) n ((s.engine n).r.setG (insRd w) v.1) (s.engine n).acc :=
    (State.Counted.refl s n).setEng _
  subst hu
  refine ⟨(hput.acts.congr (State.eng_setFlags ..)).counted hkept, ?_, fun hset => ?_, ?_, ?_⟩
  · rw [State.flagsOf_congr hkept.regs, State.flagsOf_setFlags_or _ _ hflag]
    rfl
  · rw [State.regB_congr hkept.regs]
    exact State.regB_setFlags_irqs _ _ _ hset
  · exact (regsBut_setFlags_set (s.putG n (insRd w) v.1) n v.2).regs hkept.regs
  · rw [hkept.outside, State.outside_setFlags, State.outside_putG]

/-- A bundle whose A slot holds an ALU instruction with its predicate true. -/
theorem State.aSlot_alu {s : State} {n op : Nat} {w : Word} {r : EngRegs} (hw : w = s.imemWord n (s.pcOf n))
    (hr : r = ((s.atIssue n).engine n).r) (hop : slotOp false w = op) (halu : aluOp op = true) (htrue : predTrue w r.p = true)
    {v : Word × Nat} (hv : aluVal op w r ((s.atIssue n).flagsOf n) = v) :
    s.aDone (s.aSlot n) n (r.setG (insRd w) v.1) none none ∧ (s.aSlot n).flagsOf n = (s.atIssue n).flagsOf n ||| v.2 ∧
      (v.2 ≠ 0 → (s.aSlot n).regB (R.IRQS (engPage n)) 1 = true) ∧
      regsBut (s.atIssue n) (s.aSlot n) (if v.2 = 0 then [] else [R.PE.FLAGS (engPage n), R.IRQS (engPage n)]) ∧
      s.aSlot n = { s.atIssue n with eng := (s.aSlot n).eng, regs := (s.aSlot n).regs, pmc := (s.aSlot n).pmc } := by
  obtain ⟨z, hz, ht, hdone⟩ := State.aSlot_executed hw hr hop htrue
  have hflags : z.flagsOf n = (s.atIssue n).flagsOf n := State.flagsOf_congr hz.regs n
  obtain ⟨hacts, hsticky, hirq, hregs, hout⟩ :=
    z.aEffect_alu_spec halu n w r (s.bundleAt n) ((congrArg (aluVal op w r) hflags).trans hv)
  rw [hz.acts.engRegs, ← hr] at hacts
  have hwait : op ≠ 0x22 := by
    rintro rfl
    exact absurd halu (by decide)
  refine ⟨?_, ?_, fun hset => ?_, ?_, State.eq_of_outside ((ht.outside.trans hout).trans hz.outside)⟩
  · have hleft := hdone _ _ hacts
    rwa [branchTo_alu halu, if_neg hwait] at hleft
  · rw [State.flagsOf_congr ht.regs, hsticky, hflags]
  · rw [State.regB_congr ht.regs]
    exact hirq hset
  · exact (((regsBut.refl (s.atIssue n) _).regs hz.regs).trans hregs).regs ht.regs

/-- Settles O33: each of the 23 instructions is a row of `aluVal`, and one lemma says what a row leaves. -/
theorem isaAluResults : Obligations.IsaAluResults := by
  unfold Obligations.IsaAluResults
  rintro s n hrun hhalf w hw hpred z rfl r hr a rfl b rfl d rfl k rfl l rfl u rfl q hq hop
  have hrow : exec q.1 s = .next (s.insCmd n.val q.2.1) ∧ aluOp q.2.1 = true ∧
      aluVal q.2.1 w r ((s.atIssue n.val).flagsOf n.val) = q.2.2 := by
    simp only [List.mem_cons, List.not_mem_nil, or_false] at hq
    rcases hq with rfl | rfl | rfl | rfl | rfl | rfl | rfl | rfl | rfl | rfl | rfl | rfl | rfl | rfl | rfl | rfl | rfl | rfl |
      rfl | rfl | rfl | rfl | rfl
    exacts [⟨rfl, rfl, rfl⟩, ⟨rfl, rfl, rfl⟩, ⟨rfl, rfl, rfl⟩, ⟨rfl, rfl, rfl⟩, ⟨rfl, rfl, aluVal_abs ..⟩, ⟨rfl, rfl, rfl⟩,
      ⟨rfl, rfl, aluVal_min ..⟩, ⟨rfl, rfl, aluVal_max ..⟩, ⟨rfl, rfl, rfl⟩, ⟨rfl, rfl, rfl⟩, ⟨rfl, rfl, rfl⟩,
      ⟨rfl, rfl, aluVal_shl ..⟩, ⟨rfl, rfl, aluVal_shr ..⟩, ⟨rfl, rfl, rfl⟩, ⟨rfl, rfl, rfl⟩, ⟨rfl, rfl, aluVal_clamp ..⟩,
      ⟨rfl, rfl, rfl⟩, ⟨rfl, rfl, rfl⟩, ⟨rfl, rfl, rfl⟩, ⟨rfl, rfl, aluVal_movh ..⟩, ⟨rfl, rfl, rfl⟩, ⟨rfl, rfl, rfl⟩,
      ⟨rfl, rfl, rfl⟩]
  obtain ⟨hexec, halu, hval⟩ := hrow
  have hop' : slotOp false w = q.2.1 := by
    have hrange := aluOp_iff.1 halu
    rw [slotOp_eq_insOp hpred (by omega) (by omega), hop]
  rw [hexec, State.insCmd_aSlot hrun hhalf (hw ▸ hop')]
  refine ⟨fun htrue => ⟨_, rfl, State.aSlot_alu hw hr hop' halu htrue hval⟩, fun hfalse => ?_⟩
  obtain ⟨hdone, hcounted⟩ := State.aSlot_squashed hw hr hfalse
  exact ⟨_, rfl, hdone, hcounted.regsBut, hcounted.frame⟩

end Sys2Proof.Machine
end

section
/-! Proofs: predicates, branches and flags of the A slot (chapter 09, R299, R302 to R304, R306). -/

namespace Sys2Proof.Machine

/-- An instruction writes the registers of its engine and does nothing else. -/
theorem State.EngineOnly.writes (s : State) (n : Nat) (r : EngRegs) :
    s.EngineOnly (s.setEng n { s.engine n with r := r }) n r (s.engine n).acc := (State.Counted.refl s n).setEng _

/-- What counts have led to has the registers and accesses from before them. -/
theorem State.Counted.stays {s t : State} {n : Nat} (h : s.Counted t n) : t.EngineOnly t n (s.engine n).r (s.engine n).acc :=
  ⟨⟨h.acts.engRegs, h.acts.engAcc, fun _ _ => rfl⟩, rfl, rfl⟩

theorem State.EngineOnly.putG (s : State) (n i : Nat) (v : Word) :
    s.EngineOnly (s.putG n i v) n ((s.engine n).r.setG i v) (s.engine n).acc := .writes ..

/-- DBNZ branches unless its register held 1. -/
theorem branchTo_dbnz (w : Word) (r : EngRegs) :
    branchTo 0x21 w r = if r.gr (insRd w) = 1 then none else some (8 * insTgt w) := by
  have hzero : r.gr (insRd w) - 1 ≠ 0 ↔ r.gr (insRd w) ≠ 1 := not_congr sub_eq_zero
  simp only [branchTo, hzero, ite_not]

/-- FCLR clears the flags of its mask, and only these. -/
theorem State.aEffect_fclr (s : State) (n : Nat) (w : Word) (r : EngRegs) (c : Nat) :
    s.aEffect n 0x23 w r c = s.setFlags n (insMask w) 0 := rfl

theorem insMask_lt (w : Word) : insMask w < 16 := Nat.mod_lt _ (by decide)

/-- WAIT on a channel there is executes as WAIT. -/
theorem slotOp_wait {w : Word} (hpred : predValid (insPred w) = true) (hop : insOp w = 0x22) (hch : insCh w ≤ 16) :
    slotOp false w = 0x22 := by
  simp [slotOp, hpred, hop, hch]

theorem State.pcOf_congr {s t : State} (h : t.regs = s.regs) (n : Nat) : t.pcOf n = s.pcOf n := State.regF_congr h ..

/-- WAIT and NOP write no register, whatever their predicate; WAIT leaves its channel where the predicate is true. -/
theorem State.aSlot_idle {s : State} {n op : Nat} {w : Word} {r : EngRegs} (hw : w = s.imemWord n (s.pcOf n))
    (hr : r = ((s.atIssue n).engine n).r) (hop : slotOp false w = op)
    (hidle : ∀ (z : State) (c : Nat), z.aEffect n op w r c = z) (hjump : branchTo op w r = none) :
    s.aDone (s.aSlot n) n r none (if predTrue w r.p && op = 0x22 then some (insCh w) else none) ∧
      (s.atIssue n).Counted (s.aSlot n) n := by
  cases hon : predTrue w r.p with
  | false => simpa using State.aSlot_squashed hw hr hon
  | true =>
    have hdone := State.aSlot_engineOnly hw hr hop hon fun z hz => by
      rw [hidle]
      exact hz.stays
    rw [hjump, ← hr] at hdone
    simpa using hr ▸ hdone

/-- Settles O34: an instruction of the list writes its engine's registers alone; WAIT and NOP write nothing; FCLR its flags. -/
theorem isaPredicatesAndBranches : Obligations.IsaPredicatesAndBranches := by
  unfold Obligations.IsaPredicatesAndBranches
  rintro s n hrun hhalf w hw hpred z rfl r hr a rfl b rfl
  refine ⟨fun q hq hop => ?_, fun hop hch => ?_, fun hop htrue => ?_, fun hop => ?_⟩
  · have hrow : exec q.1 s = .next (s.insCmd n.val q.2.1) ∧ (q.2.1 < 0x25 ∧ q.2.1 ≠ 0x22) ∧ branchTo q.2.1 w r = q.2.2.2.1 ∧
        none = q.2.2.2.2 ∧ ∀ (z : State) (c : Nat), (z.engine n.val).r = r → z.pcOf n.val = (s.atIssue n.val).pcOf n.val →
          z.EngineOnly (z.aEffect n.val q.2.1 w r c) n.val q.2.2.1 (z.engine n.val).acc := by
      simp only [List.mem_cons, List.not_mem_nil, or_false] at hq
      rcases hq with rfl | rfl | rfl | rfl | rfl | rfl | rfl
      · exact ⟨rfl, by simp, rfl, rfl, fun z c hz _ => hz ▸ .writes ..⟩
      · exact ⟨rfl, by simp, rfl, rfl, fun z c hz _ => hz ▸ .writes ..⟩
      · exact ⟨rfl, by simp, rfl, rfl, fun z c hz _ => hz ▸ .writes ..⟩
      · exact ⟨rfl, by simp, rfl, rfl, fun z c hz _ => hz ▸ State.Counted.refl z n.val⟩
      · exact ⟨rfl, by simp, rfl, rfl, fun z c hz hpc => hz ▸ hpc ▸ .writes ..⟩
      · exact ⟨rfl, by simp, rfl, rfl, fun z c hz _ => hz ▸ State.Counted.refl z n.val⟩
      · exact ⟨rfl, by simp, branchTo_dbnz .., rfl, fun z c hz _ => hz ▸ .writes ..⟩
    obtain ⟨hexec, ⟨hlt, hwait⟩, hjump, hgoes, heff⟩ := hrow
    have hop' : slotOp false w = q.2.1 := by rw [slotOp_eq_insOp hpred (hop ▸ hlt) (hop ▸ hwait), hop]
    rw [hexec, State.insCmd_aSlot hrun hhalf (hw ▸ hop')]
    refine ⟨fun htrue => ?_, fun hfalse => ?_⟩
    · obtain ⟨hdone, honly⟩ := State.aSlot_engineOnly hw hr hop' htrue fun z hz =>
        hz.acts.engAcc ▸ heff z (s.bundleAt n.val) (hz.acts.engRegs.trans hr.symm) (State.pcOf_congr hz.regs n.val)
      rw [hjump, if_neg hwait, hgoes] at hdone
      exact ⟨_, rfl, hdone, honly.regsBut, honly.frame⟩
    · obtain ⟨hdone, hcounted⟩ := State.aSlot_squashed hw hr hfalse
      exact ⟨_, rfl, hdone, hcounted.regsBut, hcounted.frame⟩
  · have hop' := slotOp_wait hpred hop hch
    obtain ⟨hdone, hcounted⟩ := State.aSlot_idle hw hr hop' (fun _ _ => rfl) rfl
    rw [decide_eq_true rfl, Bool.and_true] at hdone
    exact ⟨_, congrArg Host.Outcome.next (State.insCmd_aSlot hrun hhalf (hw ▸ hop')), hdone, hcounted.regsBut, hcounted.frame⟩
  · have hop' : slotOp false w = 0x23 := by rw [slotOp_eq_insOp hpred (by omega) (by omega), hop]
    obtain ⟨z, hz, ht, hdone⟩ := State.aSlot_executed hw hr hop' htrue
    have hflags : z.flagsOf n.val = (s.atIssue n.val).flagsOf n.val := State.flagsOf_congr hz.regs n.val
    have hacts := (State.EngineActs.refl z n.val).congr (z.eng_setFlags n.val (insMask w) 0)
    rw [hz.acts.engRegs, ← hr] at hacts
    rw [State.aEffect_fclr] at ht hdone
    refine ⟨_, congrArg Host.Outcome.next (State.insCmd_aSlot hrun hhalf (hw ▸ hop')), hdone _ _ hacts, fun i hi => ?_, ?_,
      State.eq_of_outside ((ht.outside.trans (z.outside_setFlags ..)).trans hz.outside)⟩
    · rw [State.flagsOf_congr ht.regs, State.testBit_flagsOf_setFlags _ _ (insMask_lt w) hi, hflags]
    · exact (((regsBut.refl (s.atIssue n.val) _).regs hz.regs).trans (regsBut_setFlags_clear z n.val (insMask w))).regs ht.regs
  · obtain ⟨hdone, hcounted⟩ := State.aSlot_idle hw hr hop (fun _ _ => rfl) rfl
    rw [decide_eq_false (by decide), Bool.and_false] at hdone
    exact ⟨_, congrArg Host.Outcome.next (State.insCmd_aSlot hrun hhalf (hw ▸ hop)), hdone, hcounted.regsBut, hcounted.frame⟩

end Sys2Proof.Machine
end

section
/-! Proofs: loads and stores at issue (chapter 09, R299, R305; chapter 08, R271). -/

namespace Sys2Proof.Machine

/-! ### What a load or store does to the state it acts in (R305) -/

theorem State.aEffect_ld (s : State) (n : Nat) (w : Word) (r : EngRegs) (c : Nat) : s.aEffect n 0x1A w r c =
    match s.dmemWord n (insAddr w r % 0x20000) with
    | some v => s.putG n (insRd w) v
    | none => (s.putG n (insRd w) s.freeWord).useFree := rfl

theorem State.aEffect_st (s : State) (n : Nat) (w : Word) (r : EngRegs) (c : Nat) :
    s.aEffect n 0x1B w r c = s.dmemStore n (insAddr w r % 0x20000) (r.gr (insRd w)) := rfl

theorem State.aEffect_ldc (s : State) {n : Nat} (hn : n ≠ 9) (w : Word) (r : EngRegs) (c : Nat) : s.aEffect n 0x1C w r c =
    s.setEng n { s.engine n with acc := (s.engine n).acc ++
      [{ due := c + 3, store := false, addr := insAddr w r % 0x80000, rd := insRd w, val := 0 }] } := if_neg hn

theorem State.aEffect_ldc_tenon (s : State) (w : Word) (r : EngRegs) (c : Nat) :
    s.aEffect 9 0x1C w r c = s.putG 9 (insRd w) (s.sxm.readWord (insAddr w r % sxmSize)) := rfl

theorem State.aEffect_stc {s : State} {n : Nat} (hn : n ≠ 9) (hmode : s.pe7Mode ≠ 1) (w : Word) (r : EngRegs) (c : Nat) :
    s.aEffect n 0x1D w r c = s.setEng n { s.engine n with acc := (s.engine n).acc ++
      [{ due := c + 3, store := true, addr := insAddr w r % 0x80000, rd := 0, val := r.gr (insRd w) }] } := by
  generalize hu : s.setEng n _ = u
  have hstore : s.aEffect n 0x1D w r c =
      if n = 9 then { s with sxm := s.sxm.writeWord (insAddr w r % sxmSize) (r.gr (insRd w)) }
      else if s.pe7Mode = 1 && (n = 7 || n = s.pe7Target)
        then u.shadowStore (n == 7) (insAddr w r % 0x80000) (r.gr (insRd w)) else u := by
    rw [← hu]
    rfl
  rw [hstore, if_neg hn, decide_eq_false hmode, Bool.false_and, if_neg Bool.false_ne_true]

theorem State.aEffect_stc_tenon (s : State) (w : Word) (r : EngRegs) (c : Nat) : s.aEffect 9 0x1D w r c =
    { s with sxm := s.sxm.writeWord (insAddr w r % sxmSize) (r.gr (insRd w)) } := rfl

theorem State.dmemWord_congr {s t : State} (h : t.dmem = s.dmem) (n off : Nat) : t.dmemWord n off = s.dmemWord n off := by
  unfold State.dmemWord
  rw [h]

/-- LD loads the word, or a free value where nothing was stored, and uses no register of a page. -/
theorem State.aEffect_ld_spec (s : State) (n : Nat) (w : Word) (r : EngRegs) (c : Nat) {v : Option Word}
    (hv : s.dmemWord n (insAddr w r % 0x20000) = v) :
    s.EngineActs (s.aEffect n 0x1A w r c) n ((s.engine n).r.setG (insRd w) (v.getD s.freeWord)) (s.engine n).acc ∧
      (s.aEffect n 0x1A w r c).regs = s.regs ∧
      (s.aEffect n 0x1A w r c).outside = { s with free := if v.isNone then s.free + 1 else s.free }.outside := by
  have hput (x : Word) := State.EngineOnly.putG s n (insRd w) x
  rw [State.aEffect_ld, hv]
  cases v with
  | none => exact ⟨(hput s.freeWord).acts.congr rfl, rfl, rfl⟩
  | some x => exact ⟨(hput x).acts, rfl, rfl⟩

/-! ### The predicates do not wait for loads and results -/

theorem State.eng_resultRead (s : State) (sel : Nat) (w : Word) : (s.resultRead sel w).1.eng = s.eng := by
  unfold State.resultRead
  split
  · split <;> rfl
  · rfl

theorem State.eng_csmRead (s : State) (off : Nat) : (s.csmRead off).1.eng = s.eng := by
  unfold State.csmRead
  dsimp only
  split
  · exact State.eng_resultRead ..
  · rfl

/-- A step that writes no predicate. -/
def State.SamePreds (s t : State) : Prop := ∀ n, (t.engine n).r.p = (s.engine n).r.p

namespace State.SamePreds

variable {s t u : State}

theorem refl (s : State) : s.SamePreds s := fun _ => rfl

theorem trans (h : s.SamePreds t) (h' : t.SamePreds u) : s.SamePreds u := fun n => (h' n).trans (h n)

theorem congr (h : s.SamePreds t) (hu : u.eng = t.eng) : s.SamePreds u := fun n =>
  (congrArg (fun e : Eng => e.r.p) (State.engine_congr hu n)).trans (h n)

theorem setEng (h : s.SamePreds t) {m : Nat} {e : Eng} (he : e.r.p = (t.engine m).r.p) : s.SamePreds (t.setEng m e) := by
  intro n
  by_cases hn : n = m
  · rw [hn, State.engine_setEng_same, he, h m]
  · rw [State.engine_setEng_ne _ _ hn, h n]

theorem mWrite (s : State) (m : Nat) (x : MPend) : s.SamePreds (s.mWrite m x) := by
  unfold State.mWrite
  dsimp only
  refine State.when_induct (P := s.SamePreds) _ ?_ ?_
  · refine ((refl s).setEng ?_).congr (State.eng_setFlags ..)
    split <;> rfl
  · refine ((refl s).setEng ?_).congr ((State.eng_pmcAdd ..).trans (State.eng_setFlags ..))
    split <;> rfl

theorem mFlush (s : State) (m c : Nat) : s.SamePreds (s.mFlush m c) :=
  State.foldl_induct (P := s.SamePreds) (fun t x ht => ht.trans (mWrite t m x)) _ ((refl s).setEng rfl)

theorem csmAct (s : State) (m : Nat) (x : CsmAcc) : s.SamePreds (s.csmAct m x) := by
  unfold State.csmAct
  extract_lets s0 e s1 v
  have hs0 : s.SamePreds s0 := by
    unfold s0
    split
    · exact refl s
    · exact mFlush s m x.due
  have hs1 : s.SamePreds s1 := hs0.setEng rfl
  split
  · split
    · exact hs1
    · refine hs1.congr ?_
      unfold State.csmWrite
      split <;> rfl
  · split
    · exact hs1.setEng rfl
    · exact (hs1.congr (s1.eng_csmRead x.addr)).setEng rfl

theorem csmRun (s : State) (lim fuel : Nat) : s.SamePreds (s.csmRun lim fuel) := by
  induction fuel generalizing s with
  | zero => exact refl s
  | succ fuel ih =>
    unfold State.csmRun
    split
    · split
      · exact (csmAct s _ _).trans (ih _)
      · exact refl s
    · exact refl s

theorem atIssue (s : State) (n : Nat) : s.SamePreds (s.atIssue n) := by
  unfold State.atIssue
  split
  · exact refl s
  · exact (csmRun s _ _).trans (mFlush _ n _)

end State.SamePreds

/-! ### A memory error on the word read (R271) -/

theorem State.when_true (s : State) (f : State → State) : s.when true f = f s := rfl

theorem State.when_false (s : State) (f : State → State) : s.when false f = s := rfl

/-- An engine enters a state: its page shows it in ESTA and PSTA. -/
theorem regsBut_setEst (s : State) (n st ch : Nat) : regsBut s (s.setEst n st ch) [R.PE.ESTA (engPage n), R.PSTA (engPage n)] :=
  ((((regsBut.refl s _).setReg (k := R.PE.ESTA (engPage n)) _ (by simp)).setF (k := R.PSTA (engPage n)) _ _ _ (by simp)).setB
    (k := R.PSTA (engPage n)) _ _ (by simp)).setB (k := R.PSTA (engPage n)) _ _ (by simp)

theorem State.regF_setEst (s : State) {n k : Nat} (hk : k ∉ [R.PE.ESTA (engPage n), R.PSTA (engPage n)]) (st ch lo len : Nat) :
    (s.setEst n st ch).regF k lo len = s.regF k lo len :=
  congrArg (fun v => Word.fld v lo len) (regsBut_setEst s n st ch k hk)

theorem State.scribe_setEst (s : State) (n st ch : Nat) : (s.setEst n st ch).scribe = s.scribe :=
  (State.setB_scribe ..).trans ((State.setB_scribe ..).trans ((State.setF_scribe ..).trans (State.setReg_scribe ..)))

theorem State.engState_setEst_halted (s : State) (n ch : Nat) : (s.setEst n 4 ch).engState n = 4 := by
  have hpsta : R.PE.ESTA (engPage n) ≠ R.PSTA (engPage n) := by simp only [R.PE.ESTA, R.PSTA]; omega
  have hesta : (s.setEst n 4 ch).reg (R.PE.ESTA (engPage n)) = wd 4 :=
    (State.reg_setB_ne _ _ _ hpsta).trans ((State.reg_setB_ne _ _ _ hpsta).trans ((State.reg_setF_ne _ _ _ _ hpsta).trans
      (State.reg_setReg_same ..)))
  rw [State.engState, State.regF, hesta]
  decide

@[simp] theorem State.scribe_setEng (s : State) (n : Nat) (e : Eng) : (s.setEng n e).scribe = s.scribe := rfl
@[simp] theorem State.scribe_rowError (s : State) (key : Nat) (ue : Bool) : (s.rowError key ue).scribe = s.scribe := rfl
@[simp] theorem State.eng_rowError (s : State) (key : Nat) (ue : Bool) : (s.rowError key ue).eng = s.eng := rfl
@[simp] theorem State.regs_setEng (s : State) (n : Nat) (e : Eng) : (s.setEng n e).regs = s.regs := rfl
@[simp] theorem State.regs_rowError (s : State) (key : Nat) (ue : Bool) : (s.rowError key ue).regs = s.regs := rfl

/-- An error is counted, shown in ECCADR and in IRQS, and raised; an uncorrected one halts the engine besides. -/
theorem State.engEcc_spec (s : State) (n off : Nat) (ue : Bool) :
    (s.engEcc n off ue).regF (R.PE.ECCCNT (engPage n)) (if ue then 16 else 0) 16 =
        satInc 16 (s.regF (R.PE.ECCCNT (engPage n)) (if ue then 16 else 0) 16) ∧
      s.raised (s.engEcc n off ue) (if ue then Src.ENG_ECC_UE else Src.ENG_ECC_CE) (engPage n) ∧
      (ue = false → (s.engEcc n off ue).eng = s.eng ∧ regsBut s (s.engEcc n off ue)
        [R.PE.ECCCNT (engPage n), R.PE.ECCADR (engPage n), R.IRQS (engPage n)]) ∧
      (ue = true → (s.engEcc n off ue).engState n = 4) := by
  unfold State.engEcc
  extract_lets p s1 row s2
  have hcnt : s1.regF (R.PE.ECCCNT p) (if ue then 16 else 0) 16 =
      satInc 16 (s.regF (R.PE.ECCCNT p) (if ue then 16 else 0) 16) := by
    have hother : s1.reg (R.PE.ECCCNT p) = (s.bumpAt (R.PE.ECCCNT p) (if ue then 16 else 0) 16).reg (R.PE.ECCCNT p) :=
      (State.reg_irq_ne _ (by simp only [R.PE.ECCCNT, R.IRQS]; omega)).trans
        (State.reg_setReg_ne _ _ (by simp only [R.PE.ECCCNT, R.PE.ECCADR]; omega))
    rw [State.regF, hother]
    exact State.regF_bumpAt _ _ _ _ (by split <;> decide)
  have hregs : regsBut s s1 [R.PE.ECCCNT p, R.PE.ECCADR p, R.IRQS p] :=
    (((regsBut.refl s _).setF (k := R.PE.ECCCNT p) _ _ _ (by simp)).setReg (k := R.PE.ECCADR p) _ (by simp)).irq
      (page := p) _ (by simp)
  have hs2 : s2.regs = s1.regs := (State.fault_regs ..).trans (State.regs_rowError ..)
  have hraised : s.raised s2 (if ue then Src.ENG_ECC_UE else Src.ENG_ECC_CE) p :=
    State.raised_fault_of (congrArg Scribe.inflight (State.scribe_rowError ..)) ..
  cases ue with
  | false =>
    rw [State.when_false]
    exact ⟨(State.regF_congr hs2 ..).trans hcnt, hraised,
      fun _ => ⟨(State.fault_eng ..).trans (State.eng_rowError ..), hregs.regs hs2⟩, nofun⟩
  | true =>
    rw [State.when_true]
    have hkey : R.PE.ECCCNT (engPage n) ∉ [R.PE.ESTA (engPage n), R.PSTA (engPage n)] := by simp
    exact ⟨(State.regF_setEst _ hkey ..).trans
        ((State.regF_congr (State.regs_setEng ..) ..).trans ((State.regF_congr hs2 ..).trans hcnt)),
      State.raised_congr hraised rfl ((State.scribe_setEst ..).trans (State.scribe_setEng ..)), nofun,
      fun _ => State.engState_setEst_halted ..⟩

/-- LD with an error on the word read, where LD executes: the error follows the load. -/
theorem State.ldCmd_upset {s : State} {n : Nat} {w : Word} (hw : w = s.imemWord n (s.pcOf n)) (hrun : s.engState n = 2)
    (hhalf : (s.engine n).half = none) (hop : slotOp false w = 0x1A)
    (htrue : predTrue w ((s.atIssue n).engine n).r.p = true) {upset : Nat} (hupset : upset ≠ 0) :
    ∃ off, s.ldCmd n upset = (s.aSlot n).engEcc n off (Nat.ble 2 upset) := by
  subst hw
  unfold State.ldCmd
  rw [State.SamePreds.atIssue s n n] at htrue
  rw [State.insCmd_aSlot hrun hhalf hop]
  exact ⟨_, if_neg (by simp [hrun, hhalf, hop, htrue, hupset])⟩

/-- LD without an error is the load alone. -/
theorem State.ldCmd_sound (s : State) (n : Nat) : s.ldCmd n 0 = s.insCmd n 0x1A := if_pos (by simp)

end Sys2Proof.Machine
end

section
/-! Proofs: the CSM access that comes first (chapter 08, R273 to R275, R289). -/

namespace Sys2Proof.Machine

/-! ### The order of R275 -/

/-- The earlier of the access found so far and the oldest of engine `n`. -/
def State.csmEarlier (s : State) (b : Option (Nat × CsmAcc)) (n : Nat) : Option (Nat × CsmAcc) :=
  match (s.engine n).acc with
  | [] => b
  | x :: _ => match b with
    | some (m, y) => if s.csmKey n x < s.csmKey m y then some (n, x) else b
    | none => some (n, x)

/-- The access found over the engines of a list: none of them has any, or it is the oldest of one of them, and no other comes
before it. -/
def State.FirstOf (s : State) (l : List Nat) : Option (Nat × CsmAcc) → Prop
  | none => ∀ n ∈ l, (s.engine n).acc = []
  | some (m, y) => m ∈ l ∧ (s.engine m).acc.head? = some y ∧
    ∀ n ∈ l, ∀ x, (s.engine n).acc.head? = some x → s.csmKey m y ≤ s.csmKey n x

theorem State.firstOf_foldl (s : State) (l : List Nat) : s.FirstOf l (l.foldl s.csmEarlier none) := by
  induction l using List.reverseRecOn with
  | nil => exact fun n hn => absurd hn List.not_mem_nil
  | append_singleton l n ih =>
    rw [List.foldl_append, List.foldl_cons, List.foldl_nil]
    generalize l.foldl s.csmEarlier none = b at ih
    have hlast {p : Nat → Prop} (hl : ∀ m ∈ l, p m) (hn : p n) : ∀ m ∈ l ++ [n], p m := by
      intro m hm
      obtain hm | hm := List.mem_append.1 hm
      · exact hl m hm
      · exact List.mem_singleton.1 hm ▸ hn
    unfold State.csmEarlier
    split
    next hnone =>
      cases b with
      | none => exact hlast ih hnone
      | some q =>
        obtain ⟨hm, hhead, hmin⟩ := ih
        exact ⟨List.mem_append_left _ hm, hhead, hlast hmin (by simp [hnone])⟩
    next x rest hacc =>
      have hx : (s.engine n).acc.head? = some x := by rw [hacc]; rfl
      have hself : ∀ y, (s.engine n).acc.head? = some y → s.csmKey n x ≤ s.csmKey n y := by
        intro y hy
        obtain rfl : x = y := Option.some.inj (hx.symm.trans hy)
        exact le_rfl
      split
      next m y =>
        obtain ⟨hm, hhead, hmin⟩ := ih
        split
        next hlt => exact ⟨by simp, hx, hlast (fun k hk z hz => hlt.le.trans (hmin k hk z hz)) hself⟩
        next hle =>
          refine ⟨List.mem_append_left _ hm, hhead, hlast hmin fun z hz => ?_⟩
          obtain rfl : x = z := Option.some.inj (hx.symm.trans hz)
          exact Nat.le_of_not_lt hle
      next =>
        exact ⟨by simp, hx, hlast (fun k hk z hz => by simp [ih k hk] at hz) hself⟩

theorem State.csmFirst_spec (s : State) : s.FirstOf (List.range 9) s.csmFirst := s.firstOf_foldl (List.range 9)

/-- An access that comes before the oldest of every other engine is the first. -/
theorem State.csmFirst_eq {s : State} {n : Nat} {x : CsmAcc} (hn : n < 9) (hx : (s.engine n).acc.head? = some x)
    (hfirst : ∀ m < 9, m ≠ n → ∀ y, (s.engine m).acc.head? = some y → s.csmKey n x < s.csmKey m y) :
    s.csmFirst = some (n, x) := by
  have hspec := s.csmFirst_spec
  cases hfound : s.csmFirst with
  | none =>
    rw [hfound] at hspec
    rw [hspec n (List.mem_range.2 hn)] at hx
    exact absurd hx (by simp)
  | some q =>
    obtain ⟨m, y⟩ := q
    rw [hfound] at hspec
    obtain ⟨hm, hy, hmin⟩ := hspec
    have hle := hmin n (List.mem_range.2 hn) x hx
    have hmn : m = n := by
      by_contra hne
      exact (hfirst m (List.mem_range.1 hm) hne y hy).not_ge hle
    subst hmn
    rw [Option.some.inj (hy.symm.trans hx)]

/-- The place of an access in its cycle: loads before stores (R275). -/
theorem State.csmKey_bounds (s : State) {n : Nat} (hn : n < 9) (x : CsmAcc) :
    x.due * 64 + b2n x.store * 32 ≤ s.csmKey n x ∧ s.csmKey n x < x.due * 64 + b2n x.store * 32 + 32 := by
  have hport : s.csmPort n < 32 := by
    have htarget : s.pe7Target < 8 := Nat.mod_lt _ (by decide)
    unfold State.csmPort
    split <;> omega
  unfold State.csmKey
  omega

theorem b2n_le (b : Bool) : b2n b ≤ 1 := by cases b <;> decide

/-- Every access that is left stands in a later cycle: a run up to the end of cycle `d` goes no further. -/
theorem State.csmRun_later {s : State} {d lim : Nat} (hlim : lim ≤ (d + 1) * 64)
    (hlater : ∀ m < 9, ∀ y, (s.engine m).acc.head? = some y → d < y.due) (fuel : Nat) : s.csmRun lim fuel = s := by
  cases fuel with
  | zero => rfl
  | succ fuel =>
    have hspec := s.csmFirst_spec
    unfold State.csmRun
    split
    next m y hfound =>
      rw [hfound] at hspec
      obtain ⟨hm, hy, -⟩ := hspec
      have hdue := hlater m (List.mem_range.1 hm) y hy
      have hkey := (s.csmKey_bounds (List.mem_range.1 hm) y).1
      exact if_neg (by omega)
    next => rfl

/-- The accesses in flight bound the run. -/
theorem State.fuel_pos {s : State} {n : Nat} (hn : n < 9) (h : (s.engine n).acc ≠ []) :
    0 < (List.range 9).foldl (fun k m => k + (s.engine m).acc.length) 0 := by
  have hsum : (List.range 9).foldl (fun k m => k + (s.engine m).acc.length) 0 =
      ((List.range 9).map fun m => (s.engine m).acc.length).sum := by
    rw [List.sum_eq_foldl, List.foldl_map]
  rw [hsum]
  exact (List.length_pos_of_ne_nil h).trans_le
    (List.le_sum_of_mem (List.mem_map.2 ⟨n, List.mem_range.2 hn, rfl⟩))

/-- The first access takes place, and those of later cycles wait. -/
theorem State.csmRun_first {s : State} {n lim : Nat} {x : CsmAcc} {rest : List CsmAcc} (hn : n < 9)
    (hacc : (s.engine n).acc = x :: rest) (hrest : ∀ y ∈ rest, x.due < y.due)
    (hothers : ∀ m < 9, m ≠ n → ∀ y ∈ (s.engine m).acc, x.due < y.due)
    (hlo : x.due * 64 + b2n x.store * 32 + 32 ≤ lim) (hhi : lim ≤ (x.due + 1) * 64)
    (hact : ((s.csmAct n x).engine n).acc = rest) (hkeep : ∀ m, m ≠ n → (s.csmAct n x).engine m = s.engine m) :
    s.csmRun lim ((List.range 9).foldl (fun k m => k + (s.engine m).acc.length) 0) = s.csmAct n x := by
  obtain ⟨fuel, hfuel⟩ := Nat.exists_eq_add_of_lt (s.fuel_pos hn (by simp [hacc]))
  rw [hfuel]
  have hkey := s.csmKey_bounds hn x
  have hfirst : s.csmFirst = some (n, x) := by
    refine State.csmFirst_eq hn (by rw [hacc]; rfl) fun m hm hmn y hy => ?_
    have hdue := hothers m hm hmn y (List.mem_of_mem_head? hy)
    have hkey' := (s.csmKey_bounds hm y).1
    have hle := b2n_le x.store
    omega
  rw [Nat.zero_add, State.csmRun, hfirst]
  dsimp only
  rw [if_pos (by omega)]
  refine State.csmRun_later hhi (fun m hm y hy => ?_) fuel
  by_cases hmn : m = n
  · subst hmn
    rw [hact] at hy
    exact hrest y (List.mem_of_mem_head? hy)
  · rw [hkeep m hmn] at hy
    exact hothers m hm hmn y (List.mem_of_mem_head? hy)

/-! ### A load delivers, a store writes (R274, R275) -/

/-- No result is usable yet. -/
theorem State.mFlush_early {s : State} {n c : Nat} (h : ∀ y ∈ (s.engine n).pend, c < y.due) :
    s.mFlush n c = s.setEng n (s.engine n) := by
  have hready : (s.engine n).pend.filter (fun x => Nat.ble x.due c) = [] :=
    List.filter_eq_nil_iff.2 fun y hy => by simpa using h y hy
  have hwait : (s.engine n).pend.filter (fun x => !Nat.ble x.due c) = (s.engine n).pend :=
    List.filter_eq_self.2 fun y hy => by simpa [← Bool.not_eq_true] using h y hy
  unfold State.mFlush
  dsimp only
  rw [hready, hwait]
  rfl

theorem State.csmRead_ram (s : State) {off : Nat} (h : inMirror off = false) :
    s.csmRead off = (s, s.mem.readWord (csmBase + off)) := by
  unfold State.csmRead
  rw [h]
  rfl

/-- A state that differs from another in its engines alone still does after one of them is written. -/
theorem State.setEng_frame {s t : State} (h : t = { s with eng := t.eng }) (n : Nat) (e : Eng) :
    t.setEng n e = { s with eng := (t.setEng n e).eng } := by
  have hset : t.setEng n e = { t with eng := (t.setEng n e).eng } := rfl
  generalize (t.setEng n e).eng = l at hset ⊢
  rw [hset, h]

/-- A load takes its word from CSM into its register, and is in flight no more. -/
theorem State.csmAct_load {s : State} {n : Nat} {x : CsmAcc} (hload : x.store = false) (hgot : x.got = false)
    (hram : inMirror x.addr = false) (hpend : ∀ y ∈ (s.engine n).pend, x.due < y.due) :
    s.EngineActs (s.csmAct n x) n ((s.engine n).r.setG x.rd (s.mem.readWord (csmBase + x.addr))) ((s.engine n).acc.drop 1) ∧
      s.csmAct n x = { s with eng := (s.csmAct n x).eng } := by
  have hact : s.csmAct n x = ((s.setEng n (s.engine n)).setEng n { s.engine n with acc := (s.engine n).acc.drop 1 }).setEng n
      { s.engine n with r := (s.engine n).r.setG x.rd (s.mem.readWord (csmBase + x.addr)), acc := (s.engine n).acc.drop 1 } := by
    unfold State.csmAct
    rw [hload, hgot, State.mFlush_early hpend]
    simp only [Bool.false_eq_true, if_false, State.csmRead_ram _ hram, State.engine_setEng_same]
    rfl
  rw [hact]
  have honly := (((State.Counted.refl s n).setEng (s.engine n)).setEng { s.engine n with acc := (s.engine n).acc.drop 1 }).setEng
      { s.engine n with r := (s.engine n).r.setG x.rd (s.mem.readWord (csmBase + x.addr)), acc := (s.engine n).acc.drop 1 }
  exact ⟨honly.acts, State.setEng_frame (State.setEng_frame (State.setEng_frame rfl ..) ..) ..⟩

/-- Does a store reach CSM? Not in the result mirror, and not PE7's in SHADOW (R289, R411). -/
def State.csmTakes (s : State) (n : Nat) (x : CsmAcc) : Bool := !(n = 7 && s.pe7Mode = 1) && !inMirror x.addr

/-- A store writes its word where CSM takes it, and is in flight no more. -/
theorem State.csmAct_store {s : State} {n : Nat} {x : CsmAcc} (hstore : x.store = true) :
    s.EngineActs (s.csmAct n x) n (s.engine n).r ((s.engine n).acc.drop 1) ∧
      (s.csmAct n x).mem = (if s.csmTakes n x then s.mem.writeWord (csmBase + x.addr) x.val else s.mem) ∧
      s.csmAct n x = { s with eng := (s.csmAct n x).eng, mem := (s.csmAct n x).mem } := by
  have hacts := ((State.Counted.refl s n).setEng { s.engine n with acc := (s.engine n).acc.drop 1 }).acts
  have hact : s.csmAct n x = if n = 7 && s.pe7Mode = 1 then s.setEng n { s.engine n with acc := (s.engine n).acc.drop 1 }
      else (s.setEng n { s.engine n with acc := (s.engine n).acc.drop 1 }).csmWrite x.addr x.val := by
    unfold State.csmAct
    rw [hstore]
    rfl
  rw [hact, State.csmTakes]
  cases n = 7 && s.pe7Mode = 1 with
  | true => exact ⟨hacts, rfl, rfl⟩
  | false =>
    unfold State.csmWrite
    cases inMirror x.addr with
    | true => exact ⟨hacts, rfl, rfl⟩
    | false => exact ⟨hacts.congr rfl, rfl, rfl⟩

end Sys2Proof.Machine
end

section
/-! Proofs: loads and stores, put together (chapter 09, R299, R305; chapter 08, R271, R273 to R275, R289). -/

namespace Sys2Proof.Machine

theorem State.aDone_congr {s t u : State} {n : Nat} {r : EngRegs} {jump wait : Option Nat} (h : s.aDone t n r jump wait)
    (hu : u.eng = t.eng) : s.aDone u n r jump wait := by
  simp only [State.aDone, State.engine_congr hu]
  exact h

section
variable {s : State} {n : Nat} {w : Word} {r : EngRegs}

/-- LD executes. -/
theorem State.aSlot_ld (hw : w = s.imemWord n (s.pcOf n)) (hr : r = ((s.atIssue n).engine n).r) (hop : slotOp false w = 0x1A)
    (htrue : predTrue w r.p = true) {v : Option Word} (hv : v = (s.atIssue n).dmemWord n (insAddr w r % 0x20000)) :
    s.aDone (s.aSlot n) n (r.setG (insRd w) (v.getD (s.atIssue n).freeWord)) none none ∧ (s.aSlot n).regs = (s.atIssue n).regs ∧
      (s.aSlot n).outside =
        { s.atIssue n with free := if v.isNone then (s.atIssue n).free + 1 else (s.atIssue n).free }.outside := by
  obtain ⟨z, hz, ht, hdone⟩ := State.aSlot_executed hw hr hop htrue
  have hdmem : z.dmem = (s.atIssue n).dmem := State.dmem_of_outside hz.outside
  have hfree : z.free = (s.atIssue n).free := State.free_of_outside hz.outside
  obtain ⟨hacts, hregs, hout⟩ := z.aEffect_ld_spec n w r (s.bundleAt n) ((State.dmemWord_congr hdmem ..).trans hv.symm)
  rw [hz.acts.engRegs, ← hr, State.freeWord, hfree] at hacts
  rw [hfree] at hout
  refine ⟨hdone _ _ hacts, ht.regs.trans (hregs.trans hz.regs), ht.outside.trans (hout.trans ?_)⟩
  exact congrArg (fun o : State => { o with free := if v.isNone then (s.atIssue n).free + 1 else (s.atIssue n).free }) hz.outside

/-- An error after a load adds to the count, and to the raises, that stood at issue. -/
theorem State.aSlot_ld_upset (hregs : (s.aSlot n).regs = (s.atIssue n).regs) (hscribe : (s.aSlot n).scribe = (s.atIssue n).scribe)
    (off : Nat) (ue : Bool) :
    ((s.aSlot n).engEcc n off ue).regF (R.PE.ECCCNT (engPage n)) (if ue then 16 else 0) 16 =
        satInc 16 ((s.atIssue n).regF (R.PE.ECCCNT (engPage n)) (if ue then 16 else 0) 16) ∧
      (s.atIssue n).raised ((s.aSlot n).engEcc n off ue) (if ue then Src.ENG_ECC_UE else Src.ENG_ECC_CE) (engPage n) := by
  obtain ⟨hcnt, hraised, -, -⟩ := (s.aSlot n).engEcc_spec n off ue
  exact ⟨hcnt.trans (congrArg (satInc 16) (State.regF_congr hregs ..)), State.raised_congr hraised hscribe.symm rfl⟩

/-- ST stores its word, and no other byte. -/
theorem State.aSlot_st (hw : w = s.imemWord n (s.pcOf n)) (hr : r = ((s.atIssue n).engine n).r) (hop : slotOp false w = 0x1B)
    (htrue : predTrue w r.p = true) {off : Nat} (hoff : insAddr w r % 0x20000 = off) :
    s.aDone (s.aSlot n) n r none none ∧ (s.aSlot n).dmemWord n off = some (r.gr (insRd w)) ∧
      (∀ x, x < dmemAddr n off ∨ dmemAddr n off + 4 ≤ x →
        dmemByte (s.aSlot n).dmem x = dmemByte (s.atIssue n).dmem x) ∧
      (s.aSlot n).regs = (s.atIssue n).regs ∧
      (s.aSlot n).outside = { s.atIssue n with dmem := (s.aSlot n).dmem }.outside := by
  obtain ⟨z, hz, ht, hdone⟩ := State.aSlot_executed hw hr hop htrue
  rw [State.aEffect_st, hoff] at ht hdone
  have hdmem : (s.aSlot n).dmem = (z.dmemStore n off (r.gr (insRd w))).dmem := State.dmem_of_outside ht.outside
  refine ⟨hdone _ (z.engine n).acc ⟨hz.acts.engRegs.trans hr.symm, rfl, fun _ _ => rfl⟩, ?_, fun x hx => ?_,
    ht.regs.trans hz.regs, ?_⟩
  · rw [State.dmemWord_congr hdmem, State.dmemWord_dmemStore_same]
  · rw [hdmem, State.dmemByte_dmemStore, if_neg (by omega)]
    rw [State.dmem_of_outside hz.outside]
  · rw [ht.outside, hdmem]
    exact congrArg (fun o : State => { o with dmem := (z.dmemStore n off (r.gr (insRd w))).dmem }) hz.outside

/-- LDC and STC put their access in flight. -/
theorem State.aSlot_ldc (hw : w = s.imemWord n (s.pcOf n)) (hr : r = ((s.atIssue n).engine n).r) (hop : slotOp false w = 0x1C)
    (htrue : predTrue w r.p = true) (hn : n ≠ 9) :
    s.aDone (s.aSlot n) n r none none ∧ (s.atIssue n).EngineOnly (s.aSlot n) n r (((s.atIssue n).engine n).acc ++
      [{ due := s.bundleAt n + 3, store := false, addr := insAddr w r % 0x80000, rd := insRd w, val := 0 }]) := by
  refine State.aSlot_engineOnly hw hr hop htrue fun z hz => ?_
  rw [State.aEffect_ldc _ hn, ← hz.acts.engAcc, hr, ← hz.acts.engRegs]
  exact (State.Counted.refl z n).setEng _

theorem State.aSlot_stc (hw : w = s.imemWord n (s.pcOf n)) (hr : r = ((s.atIssue n).engine n).r) (hop : slotOp false w = 0x1D)
    (htrue : predTrue w r.p = true) (hn : n ≠ 9) (hmode : (s.atIssue n).pe7Mode ≠ 1) :
    s.aDone (s.aSlot n) n r none none ∧ (s.atIssue n).EngineOnly (s.aSlot n) n r (((s.atIssue n).engine n).acc ++
      [{ due := s.bundleAt n + 3, store := true, addr := insAddr w r % 0x80000, rd := 0, val := r.gr (insRd w) }]) := by
  refine State.aSlot_engineOnly hw hr hop htrue fun z hz => ?_
  have hmode' : z.pe7Mode ≠ 1 := fun h => hmode ((State.regF_congr hz.regs ..).symm.trans h)
  rw [State.aEffect_stc hn hmode', ← hz.acts.engAcc, hr, ← hz.acts.engRegs]
  exact (State.Counted.refl z n).setEng _

/-- Tenon's LDC and STC act on the exchange memory at once. -/
theorem State.aSlot_ldc_tenon (hw : w = s.imemWord n (s.pcOf n)) (hr : r = ((s.atIssue n).engine n).r)
    (hop : slotOp false w = 0x1C) (htrue : predTrue w r.p = true) (hn : n = 9) :
    s.aDone (s.aSlot n) n (r.setG (insRd w) (s.sxm.readWord (insAddr w r % sxmSize))) none none ∧
      (s.atIssue n).EngineOnly (s.aSlot n) n (r.setG (insRd w) (s.sxm.readWord (insAddr w r % sxmSize)))
        ((s.atIssue n).engine n).acc := by
  subst hn
  refine State.aSlot_engineOnly hw hr hop htrue fun z hz => ?_
  have hsxm : z.sxm = s.sxm := State.sxm_of_outside hz.outside
  have hput := State.EngineOnly.putG z 9 (insRd w) (s.sxm.readWord (insAddr w r % sxmSize))
  rw [hz.acts.engRegs, ← hr, hz.acts.engAcc] at hput
  rwa [State.aEffect_ldc_tenon, hsxm]

theorem State.aSlot_stc_tenon (hw : w = s.imemWord n (s.pcOf n)) (hr : r = ((s.atIssue n).engine n).r)
    (hop : slotOp false w = 0x1D) (htrue : predTrue w r.p = true) (hn : n = 9) :
    s.aDone (s.aSlot n) n r none none ∧ (s.aSlot n).sxm = s.sxm.writeWord (insAddr w r % sxmSize) (r.gr (insRd w)) ∧
      (s.aSlot n).regs = (s.atIssue n).regs ∧
      (s.aSlot n).outside = { s.atIssue n with sxm := (s.aSlot n).sxm }.outside := by
  subst hn
  obtain ⟨z, hz, ht, hdone⟩ := State.aSlot_executed hw hr hop htrue
  rw [State.aEffect_stc_tenon] at ht hdone
  have hsxm : z.sxm = s.sxm := State.sxm_of_outside hz.outside
  rw [hsxm] at ht hdone
  have hsxm' : (s.aSlot 9).sxm = s.sxm.writeWord (insAddr w r % sxmSize) (r.gr (insRd w)) := State.sxm_of_outside ht.outside
  refine ⟨hdone _ (z.engine 9).acc ⟨hz.acts.engRegs.trans hr.symm, rfl, fun _ _ => rfl⟩, hsxm', ht.regs.trans hz.regs, ?_⟩
  rw [ht.outside, hsxm']
  exact congrArg (fun o : State => { o with sxm := s.sxm.writeWord (insAddr w r % sxmSize) (r.gr (insRd w)) }) hz.outside

end

/-- The oldest load delivers its word (R274). -/
theorem State.ldcDeliver_spec {s : State} {n : Nat} {x : CsmAcc} {rest : List CsmAcc} (hn : n < 9)
    (hacc : (s.engine n).acc = x :: rest) (hrest : ∀ y ∈ rest, x.due < y.due)
    (hothers : ∀ m < 9, m ≠ n → ∀ y ∈ (s.engine m).acc, x.due < y.due) (hpend : ∀ y ∈ (s.engine n).pend, x.due < y.due)
    (hload : x.store = false) (hgot : x.got = false) (hram : inMirror x.addr = false) :
    s.EngineActs (s.ldcDeliver n) n ((s.engine n).r.setG x.rd (s.mem.readWord (csmBase + x.addr))) rest ∧
      s.ldcDeliver n = { s with eng := (s.ldcDeliver n).eng } := by
  obtain ⟨hacts, hframe⟩ := State.csmAct_load hload hgot hram hpend
  rw [hacc, List.drop_one, List.tail_cons] at hacts
  have hfind : (s.engine n).acc.find? (fun y => !y.store) = some x := by simp [hacc, hload]
  have hrun : s.ldcDeliver n = s.csmAct n x := by
    unfold State.ldcDeliver
    rw [hfind]
    exact State.csmRun_first hn hacc hrest hothers (by simp [hload, b2n]) (by omega) hacts.engAcc hacts.others
  rw [hrun]
  exact ⟨hacts, hframe⟩

/-- The oldest store writes its word where CSM takes it (R275). -/
theorem State.stcWrite_spec {s : State} {n : Nat} {x : CsmAcc} {rest : List CsmAcc} (hn : n < 9)
    (hacc : (s.engine n).acc = x :: rest) (hrest : ∀ y ∈ rest, x.due < y.due)
    (hothers : ∀ m < 9, m ≠ n → ∀ y ∈ (s.engine m).acc, x.due < y.due) (hstore : x.store = true) :
    s.EngineActs (s.stcWrite n) n (s.engine n).r rest ∧
      (s.stcWrite n).mem = (if s.csmTakes n x then s.mem.writeWord (csmBase + x.addr) x.val else s.mem) ∧
      s.stcWrite n = { s with eng := (s.stcWrite n).eng, mem := (s.stcWrite n).mem } := by
  obtain ⟨hacts, hmem, hframe⟩ := State.csmAct_store (n := n) hstore
  rw [hacc, List.drop_one, List.tail_cons] at hacts
  have hfind : (s.engine n).acc.find? (fun y => y.store) = some x := by simp [hacc, hstore]
  have hrun : s.stcWrite n = s.csmAct n x := by
    unfold State.stcWrite
    rw [hfind]
    exact State.csmRun_first hn hacc hrest hothers (by simp [hstore, b2n]; omega) le_rfl hacts.engAcc hacts.others
  rw [hrun]
  exact ⟨hacts, hmem, hframe⟩

/-- Settles O36: at issue by what each load and store does in the A slot, in the CSM by the access that comes first. -/
theorem isaMemoryAccesses : Obligations.IsaMemoryAccesses := by
  unfold Obligations.IsaMemoryAccesses
  refine ⟨?_, ?_⟩
  · rintro s n hrun hhalf w hw hpred z rfl r hr htrue a rfl
    have hslot {op : Nat} (hop : insOp w = op) (hlt : op < 0x22) : slotOp false w = op := by
      rw [slotOp_eq_insOp hpred (by omega) (by omega), hop]
    have hissue {op : Nat} (hop : insOp w = op) (hlt : op < 0x22) : s.insCmd n.val op = s.aSlot n.val :=
      State.insCmd_aSlot hrun hhalf (hw ▸ hslot hop hlt)
    refine ⟨fun hop v hv => ?_, fun hop => ?_, fun hn hop => ?_, fun hn hop => ?_, fun hn hmode hop => ?_, fun hn hop => ?_⟩
    · have hop' := hslot hop (by decide)
      obtain ⟨hdone, hregs, hout⟩ := State.aSlot_ld hw hr hop' htrue hv
      have hscribe : (s.aSlot n.val).scribe = (s.atIssue n.val).scribe :=
        (State.scribe_of_outside hout).trans rfl
      have hupset {k : Nat} := State.ldCmd_upset hw hrun hhalf hop' (hr ▸ htrue) (upset := k)
      refine ⟨⟨_, congrArg Host.Outcome.next ((s.ldCmd_sound n.val).trans (hissue hop (by decide))), hdone,
        (regsBut.refl _ _).regs hregs, State.eq_of_outside hout⟩, ?_, ?_⟩
      · obtain ⟨off, herr⟩ := hupset (k := 1) (by decide)
        obtain ⟨-, -, hcorrected, -⟩ := (s.aSlot n.val).engEcc_spec n.val off false
        obtain ⟨heng, hbut⟩ := hcorrected rfl
        obtain ⟨hcnt, hraised⟩ := State.aSlot_ld_upset hregs hscribe off false
        exact ⟨_, congrArg Host.Outcome.next herr, State.aDone_congr hdone heng, hcnt, hraised,
          ((regsBut.refl _ _).regs hregs).trans hbut⟩
      · obtain ⟨off, herr⟩ := hupset (k := 2) (by decide)
        obtain ⟨-, -, -, hhalted⟩ := (s.aSlot n.val).engEcc_spec n.val off true
        obtain ⟨hcnt, hraised⟩ := State.aSlot_ld_upset hregs hscribe off true
        exact ⟨_, congrArg Host.Outcome.next herr, hhalted rfl, hraised, hcnt⟩
    · obtain ⟨hdone, hword, hbytes, hregs, hout⟩ := State.aSlot_st hw hr (hslot hop (by decide)) htrue rfl
      exact ⟨_, congrArg Host.Outcome.next (hissue hop (by decide)), hdone, hword, hbytes, (regsBut.refl _ _).regs hregs,
        State.eq_of_outside hout⟩
    · obtain ⟨hdone, honly⟩ := State.aSlot_ldc hw hr (hslot hop (by decide)) htrue hn
      exact ⟨_, congrArg Host.Outcome.next (hissue hop (by decide)), hdone, honly.acts.engAcc, honly.regsBut, honly.frame⟩
    · obtain ⟨hdone, honly⟩ := State.aSlot_ldc_tenon hw hr (hslot hop (by decide)) htrue hn
      exact ⟨_, congrArg Host.Outcome.next (hissue hop (by decide)), hn ▸ hdone, honly.regsBut, honly.frame⟩
    · obtain ⟨hdone, honly⟩ := State.aSlot_stc hw hr (hslot hop (by decide)) htrue hn hmode
      exact ⟨_, congrArg Host.Outcome.next (hissue hop (by decide)), hdone, honly.acts.engAcc, honly.regsBut, honly.frame⟩
    · obtain ⟨hdone, hsxm, hregs, hout⟩ := State.aSlot_stc_tenon hw hr (hslot hop (by decide)) htrue hn
      refine ⟨_, congrArg Host.Outcome.next (hissue hop (by decide)), hn ▸ hdone, ?_, fun x hx => ?_,
        (regsBut.refl _ _).regs hregs, State.eq_of_outside hout⟩
      · rw [hsxm, Memory.readWord_writeWord]
      · rw [hsxm, Memory.read_writeWord_out _ _ _ _ hx]
  · intro s n x rest hacc hrest hothers hpend
    refine ⟨fun hload hgot hram => ?_, fun hstore => ?_⟩
    · obtain ⟨hacts, hframe⟩ := State.ldcDeliver_spec n.isLt hacc hrest hothers hpend hload hgot hram
      exact ⟨_, rfl, hacts.engAcc, hacts.engRegs, hframe⟩
    · obtain ⟨hacts, hmem, hframe⟩ := State.stcWrite_spec n.isLt hacc hrest hothers hstore
      refine ⟨_, rfl, hacts.engAcc, hacts.engRegs, fun hram htakes => ?_, fun hkept => ?_, fun b hb => ?_, hframe⟩
      · have ht : s.csmTakes n.val x = true := by
          simpa [State.csmTakes, hram, imp_iff_not_or] using htakes
        rw [hmem, if_pos ht, Memory.readWord_writeWord]
      · have ht : s.csmTakes n.val x = false := by
          obtain hmirror | hshadow := hkept
          · simp [State.csmTakes, hmirror]
          · simp [State.csmTakes, hshadow]
        rw [hmem, ht]
        rfl
      · rw [hmem]
        split
        · exact Memory.read_writeWord_out _ _ _ _ hb
        · rfl

end Sys2Proof.Machine
end

section
/-! Proofs: the branch target at the end of a bundle (chapter 09, R298, R306). -/

namespace Sys2Proof.Machine

theorem exec_nop (n : Fin 10) (s : State) : exec (.nop n) s = .next (s.insCmd n.val 0) := rfl

/-- What the A slot of `jumpPastMemory` has left: a branch to the first byte beyond the 64 KiB that PC.PC counts. -/
def halfPastMemory : Half := { old := {}, at_ := 0, jump := some 0x10000 }

/-- PE0 RUNNING at the M slot of a bundle whose two words are 0, which both execute as NOP. -/
def jumpPastMemory : State :=
  { State.reset.setEst 0 2 0 with eng := [(0, { half := some halfPastMemory })] }

theorem jumpPastMemory_slot : slotOp true (jumpPastMemory.imemWord 0 (jumpPastMemory.pcOf 0 + 4)) = 0 := by decide +kernel

/-- The program counter, a 16-bit field, takes the low bits of the target. -/
theorem jumpPastMemory_pc : (jumpPastMemory.insCmd 0 0).pcOf 0 = 0 := by decide +kernel

/-- Refutes O35: its claim that the program counter is the branch's target when the bundle ends. The statement takes any half
bundle in the engine, also one whose `jump` is not below 2^16; the program counter then holds the target modulo 2^16, here 0 where
the target is 0x10000. (The A slot itself leaves targets below 2^16 alone, `branchTo`; no hypothesis of the statement says so.) -/
theorem not_isaMacResults : ¬ Obligations.IsaMacResults := by
  unfold Obligations.IsaMacResults
  intro h
  obtain ⟨-, -, -, -, hnop, -⟩ := h jumpPastMemory 0 (by decide +kernel) halfPastMemory rfl rfl _ rfl (by decide +kernel)
    _ rfl _ rfl _ rfl _ rfl _ rfl _ rfl
  obtain ⟨t, ht, ⟨-, -, -, hpc, -⟩, -⟩ := hnop jumpPastMemory_slot
  rw [exec_nop] at ht
  obtain rfl : jumpPastMemory.insCmd 0 0 = t := by injection ht
  have htarget : (0 : Nat) = 0x10000 := jumpPastMemory_pc.symm.trans hpc
  exact absurd htarget (by decide)

end Sys2Proof.Machine
end

section
/-! Proofs: the instances of the Jig engines, one rule per operation (chapter 10, R317, R338). -/

namespace Sys2Proof.Machine

@[simp] theorem State.inst_setInst_same (s : State) (i : Nat) (j : JInst) : (s.setInst i j).inst i = j := NMap.get_put_same ..

theorem State.inst_setInst_ne (s : State) {i k : Nat} (j : JInst) (h : k ≠ i) : (s.setInst i j).inst k = s.inst k :=
  NMap.get_put_ne _ _ _ h

@[simp] theorem State.inst_jigEvent_same (s : State) (i e : Nat) : (s.jigEvent i e).inst i = (s.inst i).raise e :=
  State.inst_setInst_same ..

theorem State.inst_jigEvent_ne (s : State) {i k : Nat} (e : Nat) (h : k ≠ i) : (s.jigEvent i e).inst k = s.inst k :=
  State.inst_setInst_ne _ _ h

end Sys2Proof.Machine
end

section
/-! Proofs: the commands to cells and to the stack, retirement entries, bank checks and row repairs (chapter 10, R324, R338,
R341, R343, R344, R347; chapter 15, R448). -/

namespace Sys2Proof.Machine

/-! ### Commands (R338, R347) -/

/-- The commands of a cell, each with the event it raises in JG0. -/
def cellCommands (a : BitVec 8) : List (Instr × Nat) :=
  [(.cmdInsert a, 8), (.cmdRemove a, 9), (.cmdBypass a, 10), (.cmdCharge a, 11), (.cmdRetire a, 12), (.cmdReturn a, 13)]

/-- The commands of the stack, each with the event it raises in JG1. -/
def stackCommands : List (Instr × Nat) := [(.jcmdStart, 4), (.jcmdStop, 3)]

/-- Each command of a cell is the write of its code to CLS.CMD. -/
theorem exec_of_mem_cellCommands {a : BitVec 8} {q : Instr × Nat} (hq : q ∈ cellCommands a) (s : State) :
    ∃ code, code ≠ 0 ∧ code ≤ 6 ∧ q.2 = 7 + code ∧
      exec q.1 s = .next (s.hostWr 0x50 fun t => t.cellCommand a.toNat code) := by
  simp only [cellCommands, List.mem_cons, List.not_mem_nil, or_false] at hq
  obtain rfl | rfl | rfl | rfl | rfl | rfl := hq
  · exact ⟨1, by decide, by decide, rfl, rfl⟩
  · exact ⟨2, by decide, by decide, rfl, rfl⟩
  · exact ⟨3, by decide, by decide, rfl, rfl⟩
  · exact ⟨4, by decide, by decide, rfl, rfl⟩
  · exact ⟨5, by decide, by decide, rfl, rfl⟩
  · exact ⟨6, by decide, by decide, rfl, rfl⟩

/-- A free command port of the stack takes START and STOP. -/
theorem exec_of_mem_stackCommands {q : Instr × Nat} (hq : q ∈ stackCommands) {s : State} (hw : s.writable 0x52 = true)
    (hfree : s.regB (R.JG.JCMDSTA 1) 0 = false) :
    exec q.1 s = .next ((s.setReg (R.JG.JCMDSTA 1) (wd 1)).jigEvent stackInst q.2) := by
  have hwrite : ∀ code, s.hostWr 0x52 (fun t => t.stackCommand code) = s.stackCommand code :=
    fun code => State.hostWr_writable _ hw
  simp only [stackCommands, List.mem_cons, List.not_mem_nil, or_false] at hq
  obtain rfl | rfl := hq
  · show Host.Outcome.next _ = _
    rw [hwrite, State.stackCommand, if_neg (by simp [hfree]), if_pos rfl]
  · show Host.Outcome.next _ = _
    rw [hwrite, State.stackCommand, if_neg (by simp [hfree]), if_neg (by decide), if_pos rfl]

/-- A posted command: its port shows it busy and its event is pending in the engine. -/
theorem State.commandPosted_spec (s : State) (k : Nat) (v : Word) (i e : Nat) {t : State} (ht : t = (s.setReg k v).jigEvent i e) :
    t.reg k = v ∧ (t.inst i).pend = (s.inst i).pend ||| 2 ^ e ∧ t.inst i = { s.inst i with pend := (t.inst i).pend } ∧
      (∀ j, j ≠ i → t.inst j = s.inst j) ∧ regsBut s t [k] ∧ t = { s with regs := t.regs, jig := t.jig } := by
  have hinst : t.inst i = (s.inst i).raise e := ht ▸ State.inst_jigEvent_same ..
  refine ⟨ht ▸ State.reg_setReg_same .., congrArg JInst.pend hinst, ?_, fun j hj => ht ▸ State.inst_jigEvent_ne _ _ hj, ?_,
    by rw [ht]; rfl⟩
  · rw [hinst]
    rfl
  · rw [ht]
    exact ((regsBut.refl s _).setReg v (List.mem_singleton_self k)).regs rfl

theorem State.cellCommand_busy {s : State} (h : s.regB R.CLS.CMDSTA 0 = true) (addr code : Nat) :
    s.cellCommand addr code = s.irq 0x50 3 := if_pos h

theorem State.cellCommand_mapped {s : State} {addr code : Nat} (hfree : s.regB R.CLS.CMDSTA 0 = false)
    (hmap : s.inMap addr = true) (h0 : code ≠ 0) (h6 : code ≤ 6) :
    s.cellCommand addr code = (s.setReg R.CLS.CMDSTA (wd (addr * 65536 + 1))).jigEvent addr (7 + code) := by
  unfold State.cellCommand
  rw [if_neg (by simp [hfree]), if_neg (by simp; omega), if_neg (by simp [hmap])]

/-- The answer to a command for an address outside the arm map. -/
def State.unmappedAnswer (s : State) (addr : Nat) : State :=
  ((s.setReg R.CLS.CMDSTA (wd (addr * 65536 + (s.inst addr).st * 256 + 8))).irq 0x50 0).bump R.CLS.REJCNT

theorem State.cellCommand_unmapped {s : State} {addr code : Nat} (hfree : s.regB R.CLS.CMDSTA 0 = false)
    (hmap : s.inMap addr = false) (h0 : code ≠ 0) (h6 : code ≤ 6) : s.cellCommand addr code = s.unmappedAnswer addr := by
  unfold State.cellCommand
  rw [if_neg (by simp [hfree]), if_neg (by simp; omega), if_pos (by simp [hmap])]
  rfl

theorem State.unmappedAnswer_spec (s : State) (addr : Nat) {t : State} (ht : t = s.unmappedAnswer addr) :
    t.reg R.CLS.CMDSTA = wd (addr * 65536 + (s.inst addr).st * 256 + 8) ∧ t.regB (R.IRQS 0x50) 0 = true ∧
      t.regF R.CLS.REJCNT 0 16 = satInc 16 (s.regF R.CLS.REJCNT 0 16) ∧
      regsBut s t [R.CLS.CMDSTA, R.IRQS 0x50, R.CLS.REJCNT] ∧ t = { s with regs := t.regs } := by
  subst ht
  refine ⟨?_, ?_, ?_, ?_, rfl⟩
  · rw [State.unmappedAnswer, State.reg_bump_ne _ (by decide), State.reg_irq_ne _ (by decide), State.reg_setReg_same]
  · rw [State.unmappedAnswer, State.regB_reg (State.reg_bump_ne _ (by decide)), State.regB_irq_same _ _ (by decide)]
  · rw [State.unmappedAnswer, State.regF_bump, State.regF_reg (State.reg_irq_ne _ (by decide)),
      State.regF_reg (State.reg_setReg_ne _ _ (by decide))]
  · exact (((regsBut.refl s _).setReg _ (by simp)).irq 0 (by simp)).setF _ _ _ (by simp)

/-! ### Retirement entries (R341) -/

theorem State.retclr_run {s : State} (h : s.plan.run = true) (addr : Nat) : s.retclr addr = s := if_pos h

/-- The retirement of a cell deleted. -/
theorem State.retclr_idle_spec {s : State} (h : s.plan.run = false) (addr : Nat) {t : State} (ht : t = s.retclr addr) :
    t.regB (R.CLS.RETMAP (addr / 32)) (addr % 32) = false ∧
      (∀ i < 32, i ≠ addr % 32 → t.regB (R.CLS.RETMAP (addr / 32)) i = s.regB (R.CLS.RETMAP (addr / 32)) i) ∧
      NMap.get none t.spare.cells addr = none ∧ regsBut s t [R.CLS.RETMAP (addr / 32)] ∧
      t = { s with regs := t.regs, spare := t.spare } := by
  have hbit : addr % 32 < 32 := Nat.mod_lt _ (by decide)
  rw [State.retclr, if_neg (by simp [h])] at ht
  have hregs : t.regs = (s.setB (R.CLS.RETMAP (addr / 32)) (addr % 32) false).regs := by rw [ht]
  refine ⟨?_, fun i _ hi => ?_, ?_, ?_, by rw [ht]; rfl⟩
  · rw [State.regB_congr hregs, State.regB_setB_same _ _ _ _ hbit]
  · rw [State.regB_congr hregs, State.regB_setB _ _ _ _ _ hbit, if_neg fun h => hi h.2]
  · rw [ht]
    exact NMap.get_put_same none s.spare.cells addr none
  · exact ((regsBut.refl s _).setB _ false (List.mem_singleton_self _)).regs hregs

/-! ### Banks (R324, R344) -/

theorem State.tbld_spec (s : State) (e b : Nat) {t : State} (ht : t = s.tbld e b) :
    NMap.get none t.jig.check e = some b ∧ t.regB (R.JG.TBSTA (1 + e)) 9 = true ∧ regsBut s t [R.JG.TBSTA (1 + e)] ∧
      t = { s with regs := t.regs, jig := t.jig } := by
  subst ht
  exact ⟨NMap.get_put_same none s.jig.check e (some b), State.regB_setB_same _ _ _ _ (by decide),
    ((regsBut.refl s _).regs rfl).setB 9 true (List.mem_singleton_self _), rfl⟩

theorem State.bankDone_none {s : State} {e : Nat} (h : NMap.get none s.jig.check e = none) : s.bankDone e = s := by
  rw [State.bankDone, h]

/-- The bits of TBSTA as the check of bank `b` leaves them. -/
def State.bankShown (s : State) (k b : Nat) (ok : Bool) : State := ((s.setB k 9 false).setB k b ok).setB k (4 + b) (!ok)

theorem State.bankShown_spec (s : State) (k : Nat) {b : Nat} (hb : b < 4) (ok : Bool) {t : State} (ht : t = s.bankShown k b ok) :
    t.regB k 9 = false ∧ t.regB k b = ok ∧ t.regB k (4 + b) = !ok ∧ regsBut s t [k] := by
  subst ht
  refine ⟨?_, ?_, State.regB_setB_same _ _ _ _ (by omega), ?_⟩
  · rw [State.bankShown, State.regB_setB _ _ _ _ _ (by omega), if_neg (by omega), State.regB_setB _ _ _ _ _ (by omega),
      if_neg (by omega), State.regB_setB_same _ _ _ _ (by decide)]
  · rw [State.bankShown, State.regB_setB _ _ _ _ _ (by omega), if_neg (by omega), State.regB_setB_same _ _ _ _ (by omega)]
  · exact (((regsBut.refl s _).setB _ _ (List.mem_singleton_self k)).setB _ _ (List.mem_singleton_self k)).setB _ _
      (List.mem_singleton_self k)

theorem State.bankDone_spec {s : State} {e b : Nat} (h : NMap.get none s.jig.check e = some b) (hb : b < 4)
    {t : State} (ht : t = s.bankDone e) :
    NMap.get none t.jig.check e = none ∧ t.regB (R.JG.TBSTA (1 + e)) 9 = false ∧
      t.regB (R.JG.TBSTA (1 + e)) b = bankOk s.mem (s.bankAt e b) (s.curveAt e 0) (s.regF (R.JG.CVN (1 + e)) 0 8) (e == 1) ∧
      t.regB (R.JG.TBSTA (1 + e)) (4 + b) = !t.regB (R.JG.TBSTA (1 + e)) b ∧ t.regB (R.IRQS (0x51 + e)) 0 = true ∧
      regsBut s t [R.JG.TBSTA (1 + e), R.IRQS (0x51 + e)] ∧ t = { s with regs := t.regs, jig := t.jig } := by
  generalize hok : bankOk s.mem (s.bankAt e b) (s.curveAt e 0) (s.regF (R.JG.CVN (1 + e)) 0 8) (e == 1) = ok
  obtain ⟨ended, hended⟩ : ∃ u : State, u = { s with jig := { s.jig with check := NMap.put none s.jig.check e none } } := ⟨_, rfl⟩
  have hdone : t = (ended.bankShown (R.JG.TBSTA (1 + e)) b ok).irq (0x51 + e) 0 := by
    rw [ht, State.bankDone, h, hended, ← hok]
    rfl
  obtain ⟨h9, hvalid, hrefused, hbut⟩ := ended.bankShown_spec (R.JG.TBSTA (1 + e)) hb ok rfl
  have hkeep : t.reg (R.JG.TBSTA (1 + e)) = (ended.bankShown (R.JG.TBSTA (1 + e)) b ok).reg (R.JG.TBSTA (1 + e)) := by
    rw [hdone]
    exact State.reg_irq_ne _ (by unfold R.JG.TBSTA R.IRQS; omega)
  have ht9 := (State.regB_reg hkeep 9).trans h9
  have htvalid := (State.regB_reg hkeep b).trans hvalid
  have htrefused := (State.regB_reg hkeep (4 + b)).trans hrefused
  refine ⟨?_, ht9, htvalid, htrefused.trans (by rw [htvalid]), ?_, ?_, ?_⟩
  · rw [hdone, hended]
    exact NMap.get_put_same none s.jig.check e none
  · rw [hdone]
    exact State.regB_irq_same _ _ (by decide)
  · rw [hdone]
    exact ((((regsBut.refl s _).regs (by rw [hended])).trans hbut).mono (by simp)).irq 0 (by simp)
  · rw [hdone, hended]
    rfl

/-! ### Row repair (R343, R448) -/

/-- The block that raises the fault of a memory's row. -/
abbrev rowPage (m : Nat) : Nat := if m < 20 then 0x60 + m / 2 else 0xB0

/-- What ROW_REPAIR does for a row that has failed and is not yet logged, by whether a spare row is left. -/
theorem State.rowRepair_spec {s : State} {m row base size spares : Nat} (hmem : memoryRows m = some (base, size, spares))
    (hrow : row * 256 < size) (hfail : s.spare.failing.contains (m * 2 ^ 20 + row) = true)
    (hlogged : s.spare.rows.count (m * 2 ^ 20 + row) ≤ s.spare.applied.count (m * 2 ^ 20 + row)) {t : State}
    (ht : t = s.rowRepair m row) :
    ((s.spare.rows.filter fun r => r / 2 ^ 20 == m).length < spares →
        t.spare.rows = s.spare.rows ++ [m * 2 ^ 20 + row] ∧ s.raised t Src.ROW_REPAIR (rowPage m)) ∧
      (spares ≤ (s.spare.rows.filter fun r => r / 2 ^ 20 == m).length →
        t.spare.rows = s.spare.rows ∧ s.raised t Src.ROW_SPARE_OUT (rowPage m)) ∧
      t = { s with spare := { s.spare with rows := t.spare.rows, failing := s.spare.failing.erase (m * 2 ^ 20 + row) },
                   scribe := t.scribe } := by
  have hacts : (!s.spare.failing.contains (m * 2 ^ 20 + row) || Nat.ble size (row * 256) ||
      Nat.blt (s.spare.applied.count (m * 2 ^ 20 + row)) (s.spare.rows.count (m * 2 ^ 20 + row))) = false := by
    have hin : Nat.ble size (row * 256) = false := Bool.eq_false_iff.2 fun h => Nat.not_le.2 hrow (Nat.le_of_ble_eq_true h)
    have hnew : Nat.blt (s.spare.applied.count (m * 2 ^ 20 + row)) (s.spare.rows.count (m * 2 ^ 20 + row)) = false :=
      Bool.eq_false_iff.2 fun h => Nat.not_lt.2 hlogged (Nat.blt_eq ▸ h)
    rw [hfail, hin, hnew]
    rfl
  rw [State.rowRepair, hmem] at ht
  simp only [hacts, Bool.false_eq_true, if_false] at ht
  by_cases hspare : (s.spare.rows.filter fun r => r / 2 ^ 20 == m).length < spares
  · rw [if_pos hspare] at ht
    subst ht
    exact ⟨fun _ => ⟨rfl, _, rfl, rfl, rfl⟩, fun h => absurd hspare (Nat.not_lt.2 h), rfl⟩
  · rw [if_neg hspare] at ht
    subst ht
    exact ⟨fun h => absurd h hspare, fun _ => ⟨rfl, _, rfl, rfl, rfl⟩, rfl⟩

/-- Settles O40: each command by what it does where it is taken, and the frame of each from the registers it names. -/
theorem cellAndStackCommands : Obligations.CellAndStackCommands := by
  intro s
  refine ⟨fun hw a q hq => ?_, fun hw q hq hfree => ?_, fun hw a => ⟨fun hrun => ?_, fun hidle => ?_⟩,
    fun e => ⟨fun hw b => ?_, fun hnone => ?_, fun b hcheck hb => ?_⟩, fun m row base size spares hmem hrow hfail hlogged => ?_⟩
  · obtain ⟨code, h0, h6, hevent, hexec⟩ := exec_of_mem_cellCommands hq s
    rw [hexec, State.hostWr_writable _ hw]
    refine ⟨fun hbusy => ?_, fun hfree hmap => ?_, fun hfree hmap => ?_⟩
    · rw [State.cellCommand_busy hbusy]
    · rw [State.cellCommand_mapped hfree hmap h0 h6, ← hevent]
      exact ⟨_, rfl, s.commandPosted_spec _ _ _ _ rfl⟩
    · rw [State.cellCommand_unmapped hfree hmap h0 h6]
      exact ⟨_, rfl, s.unmappedAnswer_spec _ rfl⟩
  · rw [exec_of_mem_stackCommands hq hw hfree]
    obtain ⟨hport, hpend, -, hothers, hbut, hframe⟩ := s.commandPosted_spec (R.JG.JCMDSTA 1) (wd 1) stackInst q.2 rfl
    exact ⟨_, rfl, hport, hpend, hothers, hbut, hframe⟩
  · exact congrArg Host.Outcome.next ((State.hostWr_writable _ hw).trans (State.retclr_run hrun _))
  · exact ⟨_, congrArg Host.Outcome.next (State.hostWr_writable _ hw), State.retclr_idle_spec hidle _ rfl⟩
  · exact ⟨_, congrArg Host.Outcome.next (State.hostWr_writable _ hw), s.tbld_spec _ _ rfl⟩
  · exact congrArg Host.Outcome.next (State.bankDone_none hnone)
  · exact ⟨_, rfl, State.bankDone_spec hcheck hb rfl⟩
  · exact ⟨_, rfl, State.rowRepair_spec hmem hrow hfail hlogged rfl⟩

end Sys2Proof.Machine
end

section
/-! Proofs: a pass of JG0 in which the action of one cell's entry raises an event for another (chapter 10, R318, R330, R339). -/

namespace Sys2Proof.Machine

theorem exec_jg0Pass (fit : Nat) (cycles : BitVec 16) (s : State) : exec (.jg0Pass fit cycles) s = .next (s.jg0Pass fit cycles.toNat) := rfl

/-- JG0's pass is due for the cells 1 and 2 of the arm map. Cell 1 has DESAT (event 1) pending, whose entry in state 0 has the
action START_CELLS (0x10); cell 2 has SEEN (event 16) pending, whose entry in state 0 has NEXT 2. -/
def startCellsPending : State :=
  { (State.reset.setReg (R.PCTL 0x51) 1).setReg (R.PSTA 0x51) 1 with
    mem := [(tblBase + 0x105, 4), (tblBase + 0x140, 2), (tblBase + 0x401, 0x80), (tblBase + 0x402, 0x80)]
    jig := { jg0Due := true, inst := [(1, { pend := 2 ^ 1 }), (2, { pend := 2 ^ 16 })] } }

theorem startCellsPending_cells : startCellsPending.mapCells = [1, 2] := by decide +kernel

theorem startCellsPending_states (i : Nat) : (startCellsPending.inst i).st < 64 := by
  have hst : (startCellsPending.inst i).st = 0 := by
    simp only [State.inst, startCellsPending, NMap.get]
    split
    · rfl
    · split <;> rfl
  omega

/-- The entry of SEEN in cell 2's state: to state 2, with no action and no guard. -/
theorem startCellsPending_entry : entryOf startCellsPending.mem (startCellsPending.bankInUse 0) (startCellsPending.inst 2).st 16 = 2 := by
  decide +kernel

/-- Cell 2 takes STACK_START (event 15), which cell 1's action has raised and whose entry leaves it in state 0. -/
theorem startCellsPending_pass : ((startCellsPending.jg0Pass 2 0).inst 2).st = 0 := by decide +kernel

/-- Refutes O41: its claim that a cell with one pending event takes that event's entry. The statement asks nothing of the entries
that the other cells take in the same pass, and the action START_CELLS of one (a code of JG1's, which R324 refuses in a bank of JG0
and no hypothesis excludes) raises STACK_START at every cell before the later cells are taken: event 15 goes before event 16. -/
theorem not_jigPasses : ¬ Obligations.JigPasses := by
  unfold Obligations.JigPasses
  intro h
  obtain ⟨hpass, -, -⟩ := h
  obtain ⟨-, hdue⟩ := hpass startCellsPending 2 0 (by decide +kernel) startCellsPending_states (by decide +kernel)
  obtain ⟨t, ht, -, -, -, htaken, -⟩ := hdue rfl (by decide +kernel) _ rfl
  rw [exec_jg0Pass] at ht
  obtain rfl : startCellsPending.jg0Pass 2 0 = t := by injection ht
  have hseen := htaken 2 (by rw [startCellsPending_cells]; decide) 16 (by decide) rfl rfl rfl _ rfl
  rw [startCellsPending_entry] at hseen
  obtain ⟨hst, -⟩ := hseen (by decide) (by decide) (by decide) (by decide)
  have hstate : (0 : Nat) = 2 := startCellsPending_pass.symm.trans hst
  exact absurd hstate (by decide)

end Sys2Proof.Machine
end

section
/-! Proofs: CLAIM_OUT while the clamps hold the outputs low (chapter 11, R354; chapter 17, R499). -/

namespace Sys2Proof.Machine

/-- At the clamps CLAIM_OUT is low whatever the role is (R354). -/
theorem State.claimOut_clamped {s : State} (h : s.rst.clamp = true) (t : Nat) : s.claimOut t = false := by
  simp [State.claimOut, h]

/-- A paired head in CLAIMING, whose CLAIM_OUT is to toggle (HSTA), before the clamps have released its outputs. -/
def claimingClamped : State := (State.reset.setReg R.HPR.PCFG 1).setReg R.HPR.HSTA 0x23

theorem claimingClamped_toggles : claimingClamped.regB R.HPR.HSTA 5 = true := by decide

/-- Refutes O42: its clause that CLAIM_OUT is high for the first 50 SFB cycles wherever HSTA says that it toggles. The statement
asks nothing of the reset controller, and while the clamps hold, the land is low (R354, R499): here at the entry to CLAIMING. -/
theorem not_pairRoles : ¬ Obligations.PairRoles := by
  unfold Obligations.PairRoles
  rintro ⟨-, h⟩
  obtain ⟨-, -, -, -, -, -, -, -, -, hout, -⟩ := h claimingClamped
  have hhigh := hout 0 0 (by decide)
  rw [claimingClamped_toggles, State.claimOut_clamped rfl] at hhigh
  exact absurd hhigh (by decide)

end Sys2Proof.Machine
end

section
/-! Proofs: steps that concern registers alone (chapter 02, R57). -/

namespace Sys2Proof.Machine

/-- From `s` to `t` nothing differs but registers among `ks`. -/
structure RegStep (ks : List Nat) (s t : State) : Prop where
  rest : t = { s with regs := t.regs }
  regs : regsBut s t ks

namespace RegStep

variable {ks : List Nat} {s t u : State}

theorem refl (ks : List Nat) (s : State) : RegStep ks s s := ⟨rfl, regsBut.refl s ks⟩

theorem trans (h : RegStep ks s t) (h' : RegStep ks t u) : RegStep ks s u :=
  ⟨h'.rest.trans (by rw [h.rest]), h.regs.trans h'.regs⟩

theorem setReg (h : RegStep ks s t) {k : Nat} (v : Word) (hk : k ∈ ks) : RegStep ks s (t.setReg k v) :=
  h.trans ⟨rfl, (regsBut.refl t ks).setReg v hk⟩

theorem setB (h : RegStep ks s t) {k : Nat} (i : Nat) (b : Bool) (hk : k ∈ ks) : RegStep ks s (t.setB k i b) := h.setReg _ hk

theorem irq (h : RegStep ks s t) {page : Nat} (bit : Nat) (hk : R.IRQS page ∈ ks) : RegStep ks s (t.irq page bit) := h.setB _ _ hk

/-- The same with a fault raised on the way. -/
theorem rest_fault {js : List Nat} {src page a m acc d : Nat} (h : RegStep ks s t) (h' : RegStep js (t.fault src page a m acc d) u) :
    u = { s with regs := u.regs, scribe := u.scribe } := by
  rw [h'.rest, h.rest]
  rfl

end RegStep

end Sys2Proof.Machine
end

section
/-! Proofs: frames that fail R157 on a ring, and the full-state requests that a frame carries (chapter 05, R157, R190). -/

namespace Sys2Proof.Machine

/-! ### A frame that fails R157 -/

/-- The counters of R157 stand between LATECNT and the registers after HDRCNT. -/
theorem frameCheck_counter {ring off : Nat} {rev : Bool} {r : RxFrame} (h : frameCheck ring rev r = some off) :
    0x110 < off ∧ off < 0x124 := by
  unfold frameCheck at h
  dsimp only at h
  split_ifs at h <;> (injection h with h; omega)

theorem State.frameErr_frame (s : State) (ring off : Nat) :
    ∃ r g c, s.frameErr ring off = { s with regs := r, rings := g, scribe := c } := by
  unfold State.frameErr
  extract_lets ms s1 r s2
  exact State.when_induct (P := fun t => ∃ r g c, t = { s with regs := r, rings := g, scribe := c }) _ ⟨_, _, _, rfl⟩
    ⟨_, _, _, rfl⟩

theorem State.reg_frameErr (s : State) (ring off k : Nat) :
    (s.frameErr ring off).reg k = (s.bump ((0x30 + ring) * 0x1000 + off)).reg k := by
  unfold State.frameErr
  extract_lets ms s1 r s2
  exact (State.when_keeps (fun t => t.reg k) (fun _ => State.reg_fault ..) s2 _).trans rfl

theorem State.regF_frameErr (s : State) (ring off : Nat) : (s.frameErr ring off).regF ((0x30 + ring) * 0x1000 + off) 0 16 =
    satInc 16 (s.regF ((0x30 + ring) * 0x1000 + off) 0 16) :=
  (State.regF_reg (s.reg_frameErr ..) 0 16).trans (State.regF_bump ..)

/-! ### Requests for the full state that a frame carries (R190) -/

/-- From `s` to `t` nothing differs but the requests of cells for their full state. -/
structure SrsyncOnly (s t : State) : Prop where
  rest : t = { s with cells := t.cells }
  cells : ∀ a, { NMap.get ({} : CellRx) t.cells a with srsync := false } =
    { NMap.get ({} : CellRx) s.cells a with srsync := false }

namespace SrsyncOnly

theorem refl (s : State) : SrsyncOnly s s := ⟨rfl, fun _ => rfl⟩

theorem trans {s t u : State} (h : SrsyncOnly s t) (h' : SrsyncOnly t u) : SrsyncOnly s u :=
  ⟨h'.rest.trans (by rw [h.rest]), fun a => (h'.cells a).trans (h.cells a)⟩

theorem foldl {f : State → Nat → State} (hf : ∀ t p, SrsyncOnly t (f t p)) (l : List Nat) (s : State) :
    SrsyncOnly s (l.foldl f s) := by
  induction l generalizing s with
  | nil => exact refl s
  | cons p l ih => exact (hf s p).trans (ih (f s p))

/-- A cell's request has gone with the frame. -/
theorem cleared (s : State) (c : Nat) : SrsyncOnly s
    { s with cells := NMap.put {} s.cells c { NMap.get ({} : CellRx) s.cells c with srsync := false } } := by
  refine ⟨rfl, fun a => ?_⟩
  dsimp only
  rw [NMap.get_put]
  split
  · rename_i e
    rw [e]
  · rfl

theorem regs {s t : State} (h : SrsyncOnly s t) : t.regs = s.regs := (congrArg State.regs h.rest :)

end SrsyncOnly

/-- A frame has gone on a ring: RSPEND may have cleared, with its event, and requests of cells. -/
structure SyncStep (ring : Nat) (s t : State) : Prop where
  rest : t = { s with regs := t.regs, cells := t.cells }
  regs : regsBut s t [R.RNG.RSTA ring, R.IRQS (0x30 + ring)]
  cells : ∀ a, { NMap.get ({} : CellRx) t.cells a with srsync := false } =
    { NMap.get ({} : CellRx) s.cells a with srsync := false }

theorem SyncStep.refl (ring : Nat) (s : State) : SyncStep ring s s := ⟨rfl, regsBut.refl s _, fun _ => rfl⟩

/-- RSPEND of the ring clears where the frame carried RESYNC and the framing had asked for it. -/
def State.rspendSent (s : State) (ring : Nat) (resync : Bool) : State :=
  s.when (resync && (s.ownFrame ring).1 && s.regB (R.RNG.RSTA ring) 4) fun t =>
    (t.setB (R.RNG.RSTA ring) 4 false).irq (0x30 + ring) 3

theorem State.syncSent_cells (s : State) (ring : Nat) (resync : Bool) (pl : List Byte) :
    SrsyncOnly (s.rspendSent ring resync) (s.syncSent ring resync pl) :=
  SrsyncOnly.foldl (fun t _ => State.when_induct (P := SrsyncOnly t) _ (SrsyncOnly.refl t) (SrsyncOnly.cleared t _)) _ _

theorem State.rspendSent_frame (s : State) (ring : Nat) (resync : Bool) :
    ∃ r, s.rspendSent ring resync = { s with regs := r } :=
  State.when_induct (P := fun t => ∃ r, t = { s with regs := r }) _ ⟨_, rfl⟩ ⟨_, rfl⟩

theorem State.syncSent_step (s : State) (ring : Nat) (resync : Bool) (pl : List Byte) :
    SyncStep ring s (s.syncSent ring resync pl) := by
  have hcells := s.syncSent_cells ring resync pl
  obtain ⟨r, hr⟩ := s.rspendSent_frame ring resync
  have hregs : regsBut s (s.rspendSent ring resync) [R.RNG.RSTA ring, R.IRQS (0x30 + ring)] :=
    (regsBut.refl s _).when _ (((regsBut.refl s _).setB _ _ (by simp)).irq _ (by simp))
  refine ⟨?_, hregs.regs hcells.regs, fun a => (hcells.cells a).trans ?_⟩
  · rw [hcells.rest, hr]
  · rw [hr]

theorem State.rspend_syncSent {s : State} {ring : Nat} (hown : (s.ownFrame ring).1 = true) (pl : List Byte) :
    (s.syncSent ring true pl).regB (R.RNG.RSTA ring) 4 = false := by
  rw [State.regB_reg (State.reg_congr (s.syncSent_cells ring true pl).regs _), State.rspendSent, State.when, hown]
  cases hpend : s.regB (R.RNG.RSTA ring) 4
  · exact hpend
  · exact (State.regB_reg (State.reg_irq_ne _ (by simp)) 4).trans (State.regB_setB_same _ _ _ _ (by decide))

end Sys2Proof.Machine
end

section
/-! Proofs: the active's command copies at a standby, its own frame in their place, and their comparison (chapter 11, R357 to
R360), and the copies relayed to the active (R366). -/

namespace Sys2Proof.Machine

theorem exec_activeCopyRelay (ring : Fin 32) (f : RxFrame) (s : State) :
    exec (.activeCopyRelay ring f) s = .next (s.activeCopy ring.val f) := rfl
theorem exec_relaySubst (ring : Fin 32) (s : State) : exec (.relaySubst ring) s = .next (s.relaySubst ring.val) := rfl
theorem exec_twinDiverge (s : State) : exec .twinDiverge s = .next s.twinDiff := rfl
theorem exec_relayedCopyRx (ring : Fin 32) (f : RxFrame) (s : State) :
    exec (.relayedCopyRx ring f) s = .next (s.relayedCopy ring.val f) := rfl

/-! ### A copy is relayed (R357) -/

/-- A standby relays while its plan has started and HPR runs. -/
def State.relays (s : State) : Bool := s.role = 2 && s.plan.started && s.hprRuns

/-- A copy starts 800 ns to 20 ns before R_k. -/
def State.inWindow (s : State) (ring : Nat) (g : RxFrame) : Bool :=
  decide ((s.relayAt ring : Int) - 12800 ≤ sofStamp g) && decide (sofStamp g ≤ (s.relayAt ring : Int) - 320)

/-- What leaves for a copy that is relayed: the copy so marked, with its CRC made anew, or cut where it arrived damaged. -/
def State.relayOut (s : State) (ring : Nat) (g : RxFrame) : List OutFrame :=
  let body := relayHeader g.bytes s.hid ++ framePayload g.bytes
  match s.txLane ring s.ownDir with
  | some n => if !s.laneUp n then [] else
      if wireOk g then [OutFrame.exl n (s.relayAt ring) (body ++ natLe 4 (crc32 body))]
      else [OutFrame.cut n (s.relayAt ring) body]
  | none => []

/-- The relayed copy is noted and leaves. -/
def State.relayLeaves (s : State) (ring : Nat) (g : RxFrame) : State :=
  (s.setPair { s.pair with relayed := s.pair.relayed ||| 2 ^ ring }).send (s.relayOut ring g)

/-- A copy in the window is relayed, and with it go the requests that the standby's own framing had made too. -/
def State.relayGoes (s : State) (ring : Nat) (g : RxFrame) : State :=
  (s.relayLeaves ring g).when (!(s.relayOut ring g).isEmpty && wireOk g) fun u =>
    u.syncSent ring ((byteAt g.bytes 6).testBit 4) (framePayload g.bytes)

/-- A copy is relayed in its window, counted outside it. -/
def State.copyTimed (s : State) (ring : Nat) (g : RxFrame) : State :=
  if !s.relays then s else if !s.inWindow ring g then s.bump R.HPR.RLYLATE else s.relayGoes ring g

/-- A copy is held where it is valid, else counted. -/
def State.copyJudged (s : State) (ring : Nat) (rev : Bool) (g : RxFrame) : State :=
  match frameCheck ring rev g with
  | some off => s.frameErr ring off
  | none => s.takeCopy ring g.bytes

theorem State.activeCopy_elsewhere {s : State} (h : s.paired = false ∨ s.role = 4 ∨ s.role = 0) (ring : Nat) (f : RxFrame) :
    s.activeCopy ring f = s := by
  unfold State.activeCopy
  rw [if_pos (by rcases h with h | h | h <;> simp [h])]

/-- A frame taken up is relayed and judged where it is a command copy. -/
theorem State.activeCopy_eq {s : State} (hpaired : s.paired = true) (h4 : s.role ≠ 4) (h0 : s.role ≠ 0) (ring : Nat) (f : RxFrame) :
    s.activeCopy ring f = (s.rxTake ring (!s.ownDir) f).elim s fun q =>
      if frameType q.2.bytes ≠ 1 then q.1 else (q.1.copyTimed ring q.2).copyJudged ring (!s.ownDir) q.2 := by
  unfold State.activeCopy
  rw [if_neg (by simp [hpaired, h4, h0])]
  dsimp only
  cases s.rxTake ring (!s.ownDir) f with
  | none => rfl
  | some q => rfl

section
variable {s : State} {ring n : Nat} {f : RxFrame} (hlane : s.rxLane ring (!s.ownDir) = some n)
include hlane

theorem State.activeCopy_down (hdown : s.laneUp n = false) : s.activeCopy ring f = s := by
  by_cases h : s.paired = false ∨ s.role = 4 ∨ s.role = 0
  · exact State.activeCopy_elsewhere h ring f
  · obtain ⟨hpaired, h4, h0⟩ : s.paired = true ∧ s.role ≠ 4 ∧ s.role ≠ 0 := by simpa using h
    rw [State.activeCopy_eq hpaired h4 h0, State.rxTake_down f hlane hdown]
    rfl

variable {g : RxFrame} (hup : s.laneUp n = true) (hpaired : s.paired = true) (h4 : s.role ≠ 4) (h0 : s.role ≠ 0)
  (hg : g = { f with intact := f.intact && !(s.lane n).drop })
include hup hpaired h4 h0 hg

theorem State.activeCopy_other (htype : frameType g.bytes ≠ 1) : s.activeCopy ring f = s.taken n := by
  rw [State.activeCopy_eq hpaired h4 h0, State.rxTake_up f hlane hup, ← hg]
  exact if_pos htype

theorem State.activeCopy_command (htype : frameType g.bytes = 1) :
    s.activeCopy ring f = ((s.taken n).copyTimed ring g).copyJudged ring (!s.ownDir) g := by
  rw [State.activeCopy_eq hpaired h4 h0, State.rxTake_up f hlane hup, ← hg]
  exact if_neg (not_not_intro htype)

end

/-- From `s` to `t` a copy has been relayed or counted as late, or neither. -/
structure CopyTimed (ring : Nat) (s t : State) : Prop where
  rest : t = { s with regs := t.regs, lanes := t.lanes, out := t.out, pair := { s.pair with relayed := t.pair.relayed },
                      cells := t.cells }
  regs : regsBut s t [R.HPR.RLYLATE, R.RNG.RSTA ring, R.IRQS (0x30 + ring)]
  cells : ∀ a, { NMap.get ({} : CellRx) t.cells a with srsync := false } =
    { NMap.get ({} : CellRx) s.cells a with srsync := false }

section
variable (s : State) (ring : Nat) (g : RxFrame)

theorem State.relayLeaves_frame : ∃ x, s.relayLeaves ring g =
    { s with lanes := x, out := s.relayOut ring g, pair := { s.pair with relayed := s.pair.relayed ||| 2 ^ ring } } := by
  obtain ⟨x, hx⟩ := (s.setPair { s.pair with relayed := s.pair.relayed ||| 2 ^ ring }).send_frame (s.relayOut ring g)
  exact ⟨x, hx⟩

theorem State.relayGoes_step : SyncStep ring (s.relayLeaves ring g) (s.relayGoes ring g) :=
  State.when_induct (P := SyncStep ring (s.relayLeaves ring g)) _ (SyncStep.refl ring _) (State.syncSent_step ..)

theorem State.relayGoes_timed : CopyTimed ring s (s.relayGoes ring g) := by
  have hstep := s.relayGoes_step ring g
  obtain ⟨x, hx⟩ := s.relayLeaves_frame ring g
  rw [hx] at hstep
  refine ⟨?_, ?_, hstep.cells⟩
  · rw [hstep.rest]
  · exact (regsBut.eq_of_regs _ rfl).trans (hstep.regs.mono (by simp))

theorem State.out_relayGoes : (s.relayGoes ring g).out = s.relayOut ring g := by
  rw [(s.relayGoes_step ring g).rest]
  rfl

theorem State.relayed_relayGoes : (s.relayGoes ring g).pair.relayed.testBit ring = true := by
  obtain ⟨x, hx⟩ := s.relayLeaves_frame ring g
  rw [(s.relayGoes_step ring g).rest, hx]
  simp [Nat.testBit_or]

theorem State.copyTimed_spec : CopyTimed ring s (s.copyTimed ring g) := by
  unfold State.copyTimed
  split
  · exact ⟨rfl, regsBut.refl s _, fun _ => rfl⟩
  · split
    · exact ⟨rfl, (regsBut.refl s _).setReg _ (by simp), fun _ => rfl⟩
    · exact s.relayGoes_timed ring g

end

section
variable {s : State} {ring : Nat} {g : RxFrame}

theorem State.copyTimed_off (hoff : s.relays = false) : s.copyTimed ring g = s := if_pos (by simp [hoff])

theorem State.copyTimed_late (hrel : s.relays = true) (hwin : s.inWindow ring g = false) :
    s.copyTimed ring g = s.bump R.HPR.RLYLATE := by
  rw [State.copyTimed, if_neg (by simp [hrel]), if_pos (by simp [hwin])]

theorem State.copyTimed_in (hrel : s.relays = true) (hwin : s.inWindow ring g = true) :
    s.copyTimed ring g = s.relayGoes ring g := by
  rw [State.copyTimed, if_neg (by simp [hrel]), if_neg (by simp [hwin])]

theorem State.rlylate_relayGoes (hring : ring < 32) : (s.relayGoes ring g).reg R.HPR.RLYLATE = s.reg R.HPR.RLYLATE := by
  obtain ⟨x, hx⟩ := s.relayLeaves_frame ring g
  have hkey : R.HPR.RLYLATE ∉ [R.RNG.RSTA ring, R.IRQS (0x30 + ring)] := by
    simp only [R.HPR.RLYLATE, R.RNG.RSTA, R.IRQS, List.mem_cons, List.not_mem_nil, or_false]
    omega
  rw [(s.relayGoes_step ring g).regs _ hkey, hx]
  rfl

theorem State.relayOut_up {m : Nat} (htx : s.txLane ring s.ownDir = some m) (hup : s.laneUp m = true) :
    ∀ body, body = relayHeader g.bytes s.hid ++ framePayload g.bytes → s.relayOut ring g =
      if wireOk g then [.exl m (s.relayAt ring) (body ++ natLe 4 (crc32 body))] else [.cut m (s.relayAt ring) body] := by
  rintro body rfl
  simp [State.relayOut, htx, hup]

/-- A copy that carries RESYNC, relayed whole, answers a request of the standby's own framing. -/
theorem State.rspend_relayGoes (hwire : wireOk g = true) (htx : (s.txLane ring s.ownDir).any s.laneUp = true)
    (hsync : (byteAt g.bytes 6).testBit 4 = true) (hown : (s.ownFrame ring).1 = true) :
    (s.relayGoes ring g).regB (R.RNG.RSTA ring) 4 = false := by
  obtain ⟨m, hm, hup⟩ := (Option.any_eq_true _ _).1 htx
  obtain ⟨x, hx⟩ := s.relayLeaves_frame ring g
  have hout : (s.relayOut ring g).isEmpty = false := by
    rw [State.relayOut_up hm hup _ rfl, if_pos hwire]
    rfl
  rw [State.relayGoes, State.when, if_pos (by simp [hout, hwire]), hsync]
  exact State.rspend_syncSent (by rw [hx]; exact hown) _

end

/-! ### A copy is held and compared (R357, R359) -/

/-- The active's last tie beacon ends a handover that asks for one; a copy ends a claim request otherwise. -/
theorem State.takeCopy_spec (s : State) (ring : Nat) (b : List Byte) : ∃ p, s.takeCopy ring b = s.setPair p ∧
    p.relayed = s.pair.relayed ∧ NMap.get none p.copies ring = some (framePidx b, framePayload b) ∧
    p.request = (s.pair.request && s.handsOver) :=
  ⟨_, rfl, rfl, NMap.get_put_same none s.pair.copies ring (some (framePidx b, framePayload b)), rfl⟩

/-- From `s` to `t` a copy has been held, or counted as failed. -/
structure CopyJudged (ring : Nat) (s t : State) : Prop where
  rest : t = { s with regs := t.regs, pair := t.pair, rings := t.rings, scribe := t.scribe }
  reg : ∀ k, (∀ off, 0x110 < off → off < 0x124 → k ≠ (0x30 + ring) * 0x1000 + off) → t.reg k = s.reg k
  relayed : t.pair.relayed = s.pair.relayed

section
variable {s : State} {ring : Nat} {rev : Bool} {g : RxFrame}

theorem State.copyJudged_valid (h : frameCheck ring rev g = none) : s.copyJudged ring rev g = s.takeCopy ring g.bytes := by
  rw [State.copyJudged, h]

theorem State.copyJudged_failed {off : Nat} (h : frameCheck ring rev g = some off) :
    s.copyJudged ring rev g = s.frameErr ring off := by
  rw [State.copyJudged, h]

theorem State.copyJudged_spec : CopyJudged ring s (s.copyJudged ring rev g) := by
  cases h : frameCheck ring rev g with
  | none =>
    obtain ⟨p, hp, hrelayed, -⟩ := s.takeCopy_spec ring g.bytes
    rw [State.copyJudged_valid h, hp]
    exact ⟨rfl, fun _ _ => rfl, hrelayed⟩
  | some off =>
    obtain ⟨hlo, hhi⟩ := frameCheck_counter h
    obtain ⟨_, _, _, hframe⟩ := s.frameErr_frame ring off
    rw [State.copyJudged_failed h]
    refine ⟨by rw [hframe], fun k hk => ?_, by rw [hframe]⟩
    rw [State.reg_frameErr, State.reg_bump_ne _ (hk off hlo hhi)]

end

/-! ### The standby's own frame in place of a copy (R358) -/

/-- An ARMED standby sends its own frame where PCFG says so, the active's tie beacon is there and no copy has been relayed. -/
def State.substitutes (s : State) (ring : Nat) : Bool :=
  s.paired && s.role = 2 && s.plan.started && !s.restoring && s.hprRuns && !s.pair.relayed.testBit ring &&
    !s.pair.subst.testBit ring && s.regB R.HPR.PCFG 3 && s.regB R.HPR.HSTA 6 && s.beaconNow.any (fun b => b.role == 4) &&
    !(s.ownFrame ring).2.isEmpty

/-- The standby's own frame of a ring, marked as relayed. -/
def State.substOut (s : State) (ring : Nat) : List OutFrame :=
  s.exlOut ring s.ownDir (s.relayAt ring)
    (frameOf (relayHeader (s.header 1 ring (!s.ownDir) (s.ownFrame ring).2.length s.nextPidx (s.ownFrame ring).1) s.hid)
      (s.ownFrame ring).2)

/-- The substitution is noted and the frame leaves. -/
def State.substLeaves (s : State) (ring : Nat) : State :=
  (s.setPair { s.pair with subst := s.pair.subst ||| 2 ^ ring }).send (s.substOut ring)

/-- With the frame go the requests of the standby's framing. -/
def State.substGoes (s : State) (ring : Nat) : State :=
  (s.substLeaves ring).when (!(s.substOut ring).isEmpty) fun t => t.syncSent ring (s.ownFrame ring).1 (s.ownFrame ring).2

/-- The substitution shows in SUBMAP and raises its source. -/
def State.substShown (s : State) (ring : Nat) : State :=
  ((s.substGoes ring).setB R.HPR.SUBMAP ring true).fault Src.RELAY_SUBST hprPage ring

section
variable {s : State} {ring : Nat}

theorem State.relaySubst_none (h : s.substitutes ring = false) : s.relaySubst ring = s :=
  if_neg (show ¬s.substitutes ring = true by simp [h])

theorem State.relaySubst_some (h : s.substitutes ring = true) :
    s.relaySubst ring = (s.reach (s.relayAt ring)).substShown ring := by
  have hsubst : s.relaySubst ring = _ := if_pos h
  rw [hsubst, s.reach_eq (s.relayAt ring)]
  rfl

theorem State.substLeaves_frame (s : State) (ring : Nat) : ∃ x, s.substLeaves ring =
    { s with lanes := x, out := s.substOut ring, pair := { s.pair with subst := s.pair.subst ||| 2 ^ ring } } := by
  obtain ⟨x, hx⟩ := (s.setPair { s.pair with subst := s.pair.subst ||| 2 ^ ring }).send_frame (s.substOut ring)
  exact ⟨x, hx⟩

/-- The requests go with a frame that has left. -/
theorem State.substGoes_step (s : State) (ring : Nat) : ∃ x, SyncStep ring
    { s with lanes := x, out := s.substOut ring, pair := { s.pair with subst := s.pair.subst ||| 2 ^ ring } } (s.substGoes ring) := by
  obtain ⟨x, hx⟩ := s.substLeaves_frame ring
  exact ⟨x, hx ▸ State.when_induct (P := SyncStep ring (s.substLeaves ring)) _ (SyncStep.refl ring _) (State.syncSent_step ..)⟩

theorem State.substShown_frame (s : State) (ring : Nat) : ∃ x r c d, s.substShown ring =
    { s with regs := r, lanes := x, out := s.substOut ring, scribe := d, cells := c,
             pair := { s.pair with subst := s.pair.subst ||| 2 ^ ring } } := by
  obtain ⟨x, hstep⟩ := s.substGoes_step ring
  unfold State.substShown
  rw [hstep.rest]
  exact ⟨_, _, _, _, rfl⟩

theorem State.cells_substShown (s : State) (ring a : Nat) :
    { NMap.get ({} : CellRx) (s.substShown ring).cells a with srsync := false } =
      { NMap.get ({} : CellRx) s.cells a with srsync := false } := by
  obtain ⟨x, hstep⟩ := s.substGoes_step ring
  exact hstep.cells a

theorem State.regsBut_substShown (s : State) (ring : Nat) :
    regsBut s (s.substShown ring) [R.HPR.SUBMAP, R.RNG.RSTA ring, R.IRQS (0x30 + ring)] := by
  obtain ⟨x, hstep⟩ := s.substGoes_step ring
  exact (((regsBut.eq_of_regs _ rfl).trans (hstep.regs.mono (by simp))).setB ring true (by simp)).regs rfl

theorem State.raised_substShown (s : State) (ring : Nat) : s.raised (s.substShown ring) Src.RELAY_SUBST hprPage := by
  obtain ⟨x, hstep⟩ := s.substGoes_step ring
  have hscribe : ((s.substGoes ring).setB R.HPR.SUBMAP ring true).scribe = s.scribe := (congrArg State.scribe hstep.rest :)
  exact State.raised_fault_of (congrArg Scribe.inflight hscribe) _ _ _ _ _ _

theorem State.substOut_reach (x : Nat) : (s.reach x).substOut ring = s.substOut ring := by
  rw [s.reach_eq]
  rfl

/-- The frame leaves on a lane that is UP, as the ring transmitters of a standby are lit, and with it RESYNC. -/
theorem State.rspend_substShown (hrole : s.role = 2) (htx : (s.txLane ring s.ownDir).any s.laneUp = true)
    (hown : (s.ownFrame ring).1 = true) : (s.substShown ring).regB (R.RNG.RSTA ring) 4 = false := by
  obtain ⟨m, hm, hup⟩ := (Option.any_eq_true _ _).1 htx
  obtain ⟨x, hx⟩ := s.substLeaves_frame ring
  have hout : (s.substOut ring).isEmpty = false := by
    simp [State.substOut, State.exlOut, hm, hup, State.onRing, hrole]
  have hkey : R.RNG.RSTA ring ≠ R.HPR.SUBMAP := by
    simp only [R.RNG.RSTA, R.HPR.SUBMAP]
    omega
  have hgoes : (s.substShown ring).reg (R.RNG.RSTA ring) = (s.substGoes ring).reg (R.RNG.RSTA ring) :=
    State.reg_setB_ne _ _ _ hkey
  rw [State.regB_reg hgoes, State.substGoes, State.when, if_pos (by simp [hout]), hown]
  exact State.rspend_syncSent (by rw [hx]; exact hown) _

end

/-! ### A difference of a compared period (R359) -/

theorem State.twinDiff_none {s : State} (h : s.pair.diff = none ∨ s.pair.diffDone = true ∨ s.compared = false) :
    s.twinDiff = s := by
  unfold State.twinDiff
  split
  · rfl
  · rename_i hdiff
    rw [if_pos (by rcases h with h | h | h <;> simp_all)]

/-- The difference is counted. -/
def State.diffCounted (s : State) : State := (s.setPair { s.pair with diffDone := true, cmpBad := true }).bump R.HPR.DIVCNT

/-- Where the difference was is recorded. -/
def State.diffRecorded (s : State) (d : Nat × Nat) : State :=
  ((s.setReg R.HPR.DIVPIDX (wd s.nextPidx)).setReg R.HPR.DIVPOS (wd (d.1 + d.2 * 65536))).irq hprPage 1

/-- The difference is recorded and raised, and the standby is ARMED no more. -/
def State.diverged (s : State) (d : Nat × Nat) : State :=
  ((s.diffRecorded d).fault Src.TWIN_DIVERGE hprPage d.1).setArmed false

theorem State.twinDiff_some {s : State} {d : Nat × Nat} (hdiff : s.pair.diff = some d) (hdone : s.pair.diffDone = false)
    (hcompared : s.compared = true) :
    s.twinDiff = if s.regB R.HPR.HSTA 6 then s.diffCounted.diverged d else s.diffCounted := by
  have harmed : s.diffCounted.regB R.HPR.HSTA 6 = s.regB R.HPR.HSTA 6 :=
    State.regB_reg (State.reg_bump_ne _ (by decide)) 6
  unfold State.twinDiff
  rw [hdiff, ← harmed]
  exact if_neg (by simp [hdone, hcompared])

theorem State.diffCounted_frame (s : State) : s.diffCounted =
    { s with regs := s.diffCounted.regs, pair := { s.pair with diffDone := true, cmpBad := true } } := rfl

theorem State.regsBut_diffCounted (s : State) : regsBut s s.diffCounted [R.HPR.DIVCNT] :=
  ((regsBut.refl s _).regs rfl).setReg _ (by simp)

theorem State.nextPidx_diffCounted (s : State) : s.diffCounted.nextPidx = s.nextPidx := by
  have hpidx : s.diffCounted.reg R.TRG.PIDX = s.reg R.TRG.PIDX := State.reg_bump_ne _ (by decide)
  unfold State.nextPidx State.regN
  rw [hpidx]

theorem State.regF_diffCounted (s : State) : s.diffCounted.regF R.HPR.DIVCNT 0 16 = satInc 16 (s.regF R.HPR.DIVCNT 0 16) :=
  State.regF_bump ..

/-- The registers of the comparison that a divergence writes. -/
def divergeKeys : List Nat := [R.HPR.DIVPIDX, R.HPR.DIVPOS, R.HPR.HSTA, R.IRQS hprPage]

theorem State.reg_diffRecorded (s : State) (d : Nat × Nat) (k : Nat) : (s.diffRecorded d).reg k =
    if k = R.IRQS hprPage then (s.reg k).setBit 1 true else
      if k = R.HPR.DIVPOS then wd (d.1 + d.2 * 65536) else if k = R.HPR.DIVPIDX then wd s.nextPidx else s.reg k := by
  rw [State.diffRecorded, State.irq, State.setB, State.reg_setReg, State.reg_setReg, State.reg_setReg]
  split
  · rename_i e
    rw [e, if_neg (by decide), if_neg (by decide)]
  · rw [State.reg_setReg, State.reg_setReg]

theorem State.diffRecorded_step (s : State) (d : Nat × Nat) : RegStep divergeKeys s (s.diffRecorded d) :=
  (((RegStep.refl _ s).setReg _ (by decide)).setReg _ (by decide)).irq 1 (by decide)

section
variable {s : State} (harmed : s.regB R.HPR.HSTA 6 = true) (d : Nat × Nat)
include harmed

theorem State.diverged_armed : s.diverged d =
    (((s.diffRecorded d).fault Src.TWIN_DIVERGE hprPage d.1).setB R.HPR.HSTA 6 false).irq hprPage 2 := by
  have hstands : (s.diffRecorded d).regB R.HPR.HSTA 6 = true :=
    (State.regB_reg (s.reg_diffRecorded d R.HPR.HSTA) 6).trans harmed
  unfold State.diverged State.setArmed
  rw [if_neg (by rw [State.regB_fault, hstands]; decide)]

theorem State.diverged_step : RegStep divergeKeys ((s.diffRecorded d).fault Src.TWIN_DIVERGE hprPage d.1) (s.diverged d) := by
  rw [State.diverged_armed harmed]
  exact ((RegStep.refl _ _).setB 6 false (by decide)).irq 2 (by decide)

theorem State.regsBut_diverged : regsBut s (s.diverged d) divergeKeys :=
  ((s.diffRecorded_step d).regs.regs (State.fault_regs ..)).trans (State.diverged_step harmed d).regs

theorem State.reg_diverged {k : Nat} (hk : k ≠ R.HPR.HSTA) (hirqs : k ≠ R.IRQS hprPage) :
    (s.diverged d).reg k = (s.diffRecorded d).reg k := by
  rw [State.diverged_armed harmed, State.reg_irq_ne _ hirqs, State.reg_setB_ne _ _ _ hk, State.reg_fault]

/-- Both events of a divergence are set, and ARMED is clear. -/
theorem State.diverged_events : (s.diverged d).regB (R.IRQS hprPage) 1 = true ∧
    (s.diverged d).regB (R.IRQS hprPage) 2 = true ∧ (s.diverged d).regB R.HPR.HSTA 6 = false := by
  rw [State.diverged_armed harmed]
  refine ⟨?_, State.regB_irq_same _ _ (by decide), ?_⟩
  · rw [State.irq, State.regB_setB _ _ _ _ _ (by decide), if_neg (by decide),
      State.regB_reg (State.reg_setB_ne _ _ _ (by decide)), State.regB_fault]
    exact State.regB_irq_same _ _ (by decide)
  · rw [State.regB_reg (State.reg_irq_ne _ (by decide)), State.regB_setB_same _ _ _ _ (by decide)]

theorem State.raised_diverged : s.raised (s.diverged d) Src.TWIN_DIVERGE hprPage := by
  have hscribe : (s.diffRecorded d).scribe = s.scribe := (congrArg State.scribe (s.diffRecorded_step d).rest :)
  have hraised := State.raised_fault_of (congrArg Scribe.inflight hscribe) Src.TWIN_DIVERGE hprPage d.1 0 0 0
  exact State.raised_congr hraised rfl (congrArg State.scribe (State.diverged_step harmed d).rest :)

theorem State.diverged_frame : s.diverged d = { s with regs := (s.diverged d).regs, scribe := (s.diverged d).scribe } :=
  (s.diffRecorded_step d).rest_fault (State.diverged_step harmed d)

end

/-! ### A relayed copy at the active (R366) -/

/-- A frame that passes its checks shows a relay where it is a relayed command copy of the next period, in time. -/
def State.relayShown (s : State) (g : RxFrame) : Bool :=
  frameType g.bytes = 1 && frameRelay g.bytes && framePidx g.bytes = s.nextPidx &&
    decide (eofStamp g ≤ ((s.tCC + 3200 : Nat) : Int))

theorem State.relayedCopy_elsewhere {s : State} (h : s.paired = false ∨ s.role ≠ 4) (ring : Nat) (f : RxFrame) :
    s.relayedCopy ring f = s := if_pos (by rcases h with h | h <;> simp [h])

/-- A frame taken up is counted, noted, or neither. -/
def State.relayJudged (s : State) (ring : Nat) (rev : Bool) (g : RxFrame) : State :=
  match frameCheck ring rev g with
  | some off => s.frameErr ring off
  | none => if s.relayShown g then s.setPair { s.pair with rlyRx := true } else s

theorem State.relayedCopy_eq {s : State} (hpaired : s.paired = true) (h4 : s.role = 4) (ring : Nat) (f : RxFrame) :
    s.relayedCopy ring f = (s.rxTake ring (!s.ownDir) f).elim s fun q => q.1.relayJudged ring (!s.ownDir) q.2 := by
  unfold State.relayedCopy
  rw [if_neg (by simp [hpaired, h4])]
  dsimp only
  cases s.rxTake ring (!s.ownDir) f with
  | none => rfl
  | some q => rfl

theorem State.relayJudged_valid {s : State} {ring : Nat} {rev : Bool} {g : RxFrame} (h : frameCheck ring rev g = none) :
    s.relayJudged ring rev g = s.setPair { s.pair with rlyRx := s.pair.rlyRx || s.relayShown g } := by
  rw [State.relayJudged, h]
  dsimp only
  cases s.relayShown g with
  | false => rw [Bool.or_false]; rfl
  | true => rw [Bool.or_true]; rfl

theorem State.relayJudged_failed {s : State} {ring off : Nat} {rev : Bool} {g : RxFrame} (h : frameCheck ring rev g = some off) :
    s.relayJudged ring rev g = s.frameErr ring off := by
  rw [State.relayJudged, h]

theorem State.relayJudged_frame (s : State) (ring : Nat) (rev : Bool) (g : RxFrame) : ∃ r p d c,
    s.relayJudged ring rev g = { s with regs := r, pair := p, rings := d, scribe := c } := by
  cases h : frameCheck ring rev g with
  | none =>
    rw [State.relayJudged_valid h]
    exact ⟨_, _, _, _, rfl⟩
  | some off =>
    obtain ⟨r, d, c, hframe⟩ := s.frameErr_frame ring off
    rw [State.relayJudged_failed h]
    exact ⟨r, _, d, c, hframe⟩

end Sys2Proof.Machine
end

section
/-! Proofs: the standby's relay, substitution and comparison together (chapter 11, R357 to R360, R366). -/

namespace Sys2Proof.Machine

/-- The counters of R157 of a ring are none of the registers that a relay may write. -/
theorem ne_counter {ring k : Nat} (hk : k ∈ [R.HPR.RLYLATE, R.RNG.RSTA ring, R.IRQS (0x30 + ring)])
    {off : Nat} (hlo : 0x110 < off) (hhi : off < 0x124) : k ≠ (0x30 + ring) * 0x1000 + off := by
  simp only [R.HPR.RLYLATE, R.RNG.RSTA, R.IRQS, List.mem_cons, List.not_mem_nil, or_false] at hk
  omega

section
variable {s : State} {ring : Nat} {g : RxFrame}

/-- A copy that is not relayed in its window leaves the requests and the ring's status. -/
theorem State.copyTimed_apart (h : s.relays = false ∨ s.inWindow ring g = false) :
    (s.copyTimed ring g).cells = s.cells ∧ (s.copyTimed ring g).reg (R.RNG.RSTA ring) = s.reg (R.RNG.RSTA ring) := by
  cases hrel : s.relays with
  | false => rw [State.copyTimed_off hrel]; exact ⟨rfl, rfl⟩
  | true =>
    rw [State.copyTimed_late hrel (h.resolve_left (by simp [hrel]))]
    exact ⟨rfl, State.reg_bump_ne _ (by simp only [R.RNG.RSTA, R.HPR.RLYLATE]; omega)⟩

end

/-- Settles O43: a command copy by its relay and then its judgement, the standby's own frame by what it leaves and the requests
that go with it. -/
theorem relayAndComparison : Obligations.RelayAndComparison := by
  intro s
  refine ⟨fun ring f => ⟨fun hidle => ?_, fun n hlane hdown => ?_, fun n hlane hup hpaired h4 h0 g hg => ⟨fun htype => ?_,
    fun htype => ?_⟩⟩, ?_, fun hnone => ?_, ?_, fun ring f => ⟨fun hidle => ?_, fun n hlane hdown => ?_, ?_⟩⟩
  · rw [exec_activeCopyRelay, State.activeCopy_elsewhere hidle]
  · rw [exec_activeCopyRelay, State.activeCopy_down hlane hdown]
  · exact ⟨s.taken n, by rw [exec_activeCopyRelay, State.activeCopy_other hlane hup hpaired h4 h0 hg htype], rfl⟩
  · rintro relays (hrel : relays = (s.taken n).relays) inWin (hwin : inWin = (s.taken n).inWindow ring g)
    subst hrel hwin
    rw [exec_activeCopyRelay, State.activeCopy_command hlane hup hpaired h4 h0 hg htype]
    have hring : ring.val < 32 := ring.isLt
    have htimed := (s.taken n).copyTimed_spec ring g
    have hjudged := State.copyJudged_spec (s := (s.taken n).copyTimed ring g) (ring := ring) (rev := !s.ownDir) (g := g)
    have hkey : ∀ k ∈ [R.HPR.RLYLATE, R.RNG.RSTA ring.val, R.IRQS (0x30 + ring.val)],
        (((s.taken n).copyTimed ring g).copyJudged ring (!s.ownDir) g).reg k = ((s.taken n).copyTimed ring g).reg k :=
      fun k hk => hjudged.reg k fun _ => ne_counter hk
    have hout := (congrArg State.out hjudged.rest :)
    have hcells := (congrArg State.cells hjudged.rest :)
    refine ⟨_, rfl, fun hr hw body hbody => ?_, fun hr hw => ?_, fun hr => ?_, fun hvalid => ?_,
      fun hr hw hwire htx hsync hown => ?_, fun a => ?_, fun hoff => ?_, fun off hfail => ?_, ?_⟩
    · rw [hjudged.relayed, hkey _ (by simp), hout, State.copyTimed_in hr hw]
      exact ⟨State.relayed_relayGoes .., State.rlylate_relayGoes hring, fun m htx hm =>
        (State.out_relayGoes ..).trans (State.relayOut_up (s := s.taken n) htx hm body hbody)⟩
    · rw [State.regF_reg (hkey _ (by simp)), hout, State.copyTimed_late hr hw]
      exact ⟨State.regF_bump .., rfl⟩
    · rw [hjudged.relayed, hkey _ (by simp), hout, State.copyTimed_off hr]
      exact ⟨rfl, rfl, rfl⟩
    · obtain ⟨p, hp, -, hcopies, hrequest⟩ := ((s.taken n).copyTimed ring g).takeCopy_spec ring g.bytes
      rw [State.copyJudged_valid hvalid, hp]
      refine ⟨hcopies, hrequest.trans ?_, htimed.regs⟩
      rw [State.handsOver, htimed.rest]
      rfl
    · rw [State.regB_reg (hkey _ (by simp)), State.copyTimed_in hr hw]
      exact State.rspend_relayGoes (s := s.taken n) hwire htx hsync hown
    · rw [hcells]
      exact htimed.cells a
    · obtain ⟨hc, hreg⟩ := State.copyTimed_apart hoff
      exact ⟨hcells.trans hc, (hkey _ (by simp)).trans hreg⟩
    · obtain ⟨hlo, hhi⟩ := frameCheck_counter hfail
      obtain ⟨_, _, _, hframe⟩ := ((s.taken n).copyTimed ring g).frameErr_frame ring off
      have hcount : ((s.taken n).copyTimed ring g).reg ((0x30 + ring) * 0x1000 + off) = s.reg ((0x30 + ring) * 0x1000 + off) :=
        htimed.regs _ fun hk => ne_counter hk hlo hhi rfl
      rw [State.copyJudged_failed hfail, State.regF_frameErr, State.regF_reg hcount, hframe, htimed.rest]
      exact ⟨rfl, rfl⟩
    · rw [hjudged.rest, htimed.rest]
      rfl
  · rintro ring own rfl subst (hsubst : subst = s.substitutes ring)
    subst hsubst
    refine ⟨fun hnone => ?_, fun hgoes => ?_⟩
    · rw [exec_relaySubst, State.relaySubst_none hnone]
    · have hrole : s.role = 2 := by
        simp only [State.substitutes, Bool.and_eq_true, decide_eq_true_eq] at hgoes
        tauto
      rw [exec_relaySubst, State.relaySubst_some hgoes]
      obtain ⟨x, r, c, d, hframe⟩ := (s.reach (s.relayAt ring)).substShown_frame ring
      have hregs := (s.reach (s.relayAt ring)).regsBut_substShown ring
      have hraised := (s.reach (s.relayAt ring)).raised_substShown ring
      have hcells := (s.reach (s.relayAt ring)).cells_substShown ring
      refine ⟨_, rfl, ?_, ?_, ?_, ?_, ?_, fun htx hown => ?_, fun a => ?_, ?_, ?_⟩
      · rw [hframe]
      · rw [hframe]
        simp [Nat.testBit_or]
      · exact State.regB_setB_same _ _ _ _ ring.isLt
      · exact State.raised_congr hraised (State.reach_scribe ..).symm rfl
      · rw [hframe]
        exact State.substOut_reach _
      · rw [s.reach_eq]
        exact State.rspend_substShown (s := { s with dt64 := _ }) hrole htx hown
      · rw [hcells, State.reach_cells]
      · exact (regsBut.eq_of_regs _ (State.reach_regs ..)).trans hregs
      · rw [hframe, s.reach_eq]
  · rw [exec_twinDiverge, State.twinDiff_none hnone]
  · intro d hdiff hdone hcompared
    have harmed : s.diffCounted.regB R.HPR.HSTA 6 = s.regB R.HPR.HSTA 6 := State.regB_reg (State.reg_bump_ne _ (by decide)) 6
    rw [exec_twinDiverge, State.twinDiff_some hdiff hdone hcompared]
    cases h6 : s.regB R.HPR.HSTA 6 with
    | false =>
      refine ⟨_, rfl, s.regF_diffCounted, rfl, harmed.trans h6, fun h => absurd h (by decide), fun _ => ⟨s.regsBut_diffCounted, rfl⟩,
        s.regsBut_diffCounted.mono (by simp), rfl⟩
    | true =>
      have h6' := harmed.trans h6
      obtain ⟨h1, h2, hclear⟩ := State.diverged_events h6' d
      have hframe := State.diverged_frame h6' d
      have hreg : ∀ k, k ≠ R.HPR.HSTA → k ≠ R.IRQS hprPage → _ := fun k => State.reg_diverged (k := k) h6' d
      refine ⟨_, rfl, ?_, ?_, hclear, fun _ => ⟨?_, ?_, h1, h2, ?_⟩, fun h => absurd h (by decide), ?_, ?_⟩
      · rw [if_pos rfl, State.regF_reg (hreg R.HPR.DIVCNT (by decide) (by decide)), State.regF_reg (State.reg_diffRecorded ..)]
        exact s.regF_diffCounted
      · rw [if_pos rfl, hframe]
        rfl
      · rw [if_pos rfl, hreg _ (by decide) (by decide), State.reg_diffRecorded,
          s.nextPidx_diffCounted]
        rfl
      · rw [if_pos rfl, hreg _ (by decide) (by decide), State.reg_diffRecorded]
        rfl
      · exact State.raised_congr (State.raised_diverged h6' d) rfl rfl
      · exact (s.regsBut_diffCounted.mono (by simp)).trans ((State.regsBut_diverged h6' d).mono (by decide))
      · rw [if_pos rfl, hframe]
        rfl
  · rw [exec_relayedCopyRx, State.relayedCopy_elsewhere hidle]
  · rw [exec_relayedCopyRx]
    by_cases h : s.paired = false ∨ s.role ≠ 4
    · rw [State.relayedCopy_elsewhere h]
    · obtain ⟨hpaired, h4⟩ : s.paired = true ∧ s.role = 4 := by simpa using h
      rw [State.relayedCopy_eq hpaired h4, State.rxTake_down f hlane hdown]
      rfl
  · rintro n hlane hup hpaired h4 g hg
    rw [exec_relayedCopyRx, State.relayedCopy_eq hpaired h4, State.rxTake_up f hlane hup, ← hg]
    refine ⟨(s.taken n).relayJudged ring (!s.ownDir) g, rfl, fun off hfail => ?_, fun hvalid => ?_, ?_⟩
    · obtain ⟨_, _, _, hframe⟩ := (s.taken n).frameErr_frame ring off
      rw [State.relayJudged_failed hfail, State.regF_frameErr, hframe]
      exact ⟨rfl, rfl⟩
    · rw [State.relayJudged_valid hvalid]
      exact ⟨rfl, rfl, rfl⟩
    · obtain ⟨r, p, d, c, hframe⟩ := (s.taken n).relayJudged_frame ring (!s.ownDir) g
      rw [hframe]
      rfl

end Sys2Proof.Machine
end

section
/-! Proofs: frames that arrive on the tie (chapter 11, R350; chapter 04, R128). -/

namespace Sys2Proof.Machine

/-- A frame that was being discarded on the tie has ended (R128). -/
def State.tieTaken (s : State) : State :=
  if (s.lane s.tieLane).drop then s.setLane s.tieLane { s.lane s.tieLane with drop := false } else s

theorem State.tieTaken_frame (s : State) : ∃ x, s.tieTaken = { s with lanes := x } := by
  unfold State.tieTaken
  split
  · exact ⟨_, rfl⟩
  · exact ⟨s.lanes, rfl⟩

/-- A frame that a head takes from the tie goes to what handles its type; one it does not take ends there. -/
def State.tieThen (s : State) (type : Nat) (r : RxFrame) (f : State → RxFrame → State) : State :=
  (s.tieRx type r).2.elim (s.tieRx type r).1 (f (s.tieRx type r).1)

section
variable {s : State} {type : Nat} {r g : RxFrame} {f : State → RxFrame → State}

theorem State.tieThen_down (h : s.paired = false ∨ s.laneUp s.tieLane = false) : s.tieThen type r f = s := by
  have hrx : s.tieRx type r = (s, none) := if_pos (by rcases h with h | h <;> simp [h])
  rw [State.tieThen, hrx]
  rfl

variable (hpaired : s.paired = true) (hup : s.laneUp s.tieLane = true)
  (hg : g = { r with intact := r.intact && !(s.lane s.tieLane).drop })
include hpaired hup hg

theorem State.tieThen_refused
    (h : (frameCheck (frameRing g.bytes) (frameRev g.bytes) g).isNone = false ∨ frameType g.bytes ≠ type) :
    s.tieThen type r f = s.tieTaken := by
  subst hg
  have hrx : s.tieRx type r = (s.tieTaken, none) := by
    unfold State.tieRx
    refine (if_neg (by simp [hpaired, hup])).trans (if_pos ?_)
    rcases h with h | h
    · rw [Option.isNone_eq_false_iff] at h
      exact Bool.or_eq_true_iff.2 (.inl h)
    · exact Bool.or_eq_true_iff.2 (.inr (decide_eq_true h))
  rw [State.tieThen, hrx]
  rfl

theorem State.tieThen_taken (hok : (frameCheck (frameRing g.bytes) (frameRev g.bytes) g).isNone = true)
    (htype : frameType g.bytes = type) : s.tieThen type r f = f s.tieTaken g := by
  subst hg
  have hrx : s.tieRx type r = (s.tieTaken, some { r with intact := r.intact && !(s.lane s.tieLane).drop }) := by
    unfold State.tieRx
    refine (if_neg (by simp [hpaired, hup])).trans (if_neg ?_)
    rw [Option.isNone_iff_eq_none] at hok
    simp [hok, htype]
  rw [State.tieThen, hrx]
  rfl

end

/-! ### The frames by their types -/

/-- PEER shows a beacon of the peer. -/
def State.peerShown (s : State) (b : TieBeacon) : State :=
  (s.setReg R.HPR.PEER (wd (b.role + b2n b.armed * 8 + b2n b.hovr * 16 + b.pidx * 65536))).tieSync

/-- A beacon is held; one of the active's settles the claim request. -/
def State.beaconHeld (s : State) (b : TieBeacon) : State :=
  s.setPair { s.pair with beacon := some b, tieLost := false,
                          request := if b.role = 4 then b.hovr && s.role = 2 else s.pair.request }

/-- The frame plan follows a beacon of the active (R363). -/
def State.planFollows (s : State) (b : TieBeacon) : State :=
  if !decide (b.role = 4) || s.role = 4 then s
  else if s.regB R.HPR.HSTA 9 && s.plan.run then
    if s.planAgrees b then s
    else
      let t := (s.planHalt.setB R.HPR.HSTA 9 false).setArmed false
      t.setPair { t.pair with relock := true }
  else if s.tieLock && (s.role = 1 || s.pair.relock) then s.planLock b
  else s

/-- A tie beacon taken. -/
def State.beaconTaken (s : State) (g : RxFrame) : State :=
  if (framePayload g.bytes).length ≠ 16 then s
  else
    (((s.peerShown (parseBeacon g.bytes)).beaconHeld (parseBeacon g.bytes)).planFollows (parseBeacon g.bytes)).listenCheck.tryClaim

theorem State.tieBeaconRx_eq (s : State) (r : RxFrame) : s.tieBeaconRx r = s.tieThen 3 r State.beaconTaken := by
  unfold State.tieBeaconRx State.tieThen
  rcases s.tieRx 3 r with ⟨s0, _ | g⟩ <;> rfl

/-- A Jig state frame taken. -/
def State.jigTaken (s : State) (g : RxFrame) : State :=
  if (framePayload g.bytes).length ≠ 260 || s.role = 4 then s
  else s.setPair { s.pair with jig := (framePayload g.bytes).take 257 }

theorem State.jigRx_eq (s : State) (r : RxFrame) : s.jigRx r = s.tieThen 1 r State.jigTaken := by
  unfold State.jigRx State.tieThen
  rcases s.tieRx 1 r with ⟨s0, _ | g⟩ <;> rfl

/-- Does a tie slots frame come too late, or for another period? -/
def State.slotsLate (s : State) (g : RxFrame) : Bool :=
  !s.plan.started || framePidx g.bytes ≠ s.regN R.TRG.PIDX ||
    decide (((s.plan.start + s.regF R.TRG.TTC 0 20 : Nat) : Int) < eofStamp g)

/-- A tie slots frame taken. -/
def State.slotsTaken (s : State) (g : RxFrame) : State :=
  if s.slotsLate g then s
  else (s.tieSlots 32 (framePayload g.bytes)).foldl (fun t q => t.tieSlot (eofStamp g).toNat q.1 q.2) s

theorem State.tieSlotsRx_eq (s : State) (r : RxFrame) : s.tieSlotsRx r = s.tieThen 2 r State.slotsTaken := by
  unfold State.tieSlotsRx State.tieThen
  rcases s.tieRx 2 r with ⟨s0, _ | g⟩ <;> rfl

/-- When a tie ranging frame is returned, asked for at `launch`. -/
def State.echoAt (s : State) (g : RxFrame) (launch : Nat) : Nat :=
  s.tieFree (if launch < g.eof then g.eof else Nat.min launch (g.sof + 160000)) 28

/-- The frame that returns a tie ranging frame at an instant, with its stamps. -/
def State.echoFrame (s : State) (g : RxFrame) (at_ : Nat) : List Byte :=
  s.tieFrame 4 0 false (framePidx g.bytes)
    ((framePayload g.bytes).take 8 ++ natLe 4 (bitsOfInt 32 (sofStamp g)) ++ natLe 4 (bitsOfInt 32 (txStamp at_ 0)))

/-- A tie ranging frame taken by the ACTIVE head. -/
def State.echoTaken (s : State) (launch : Nat) (g : RxFrame) : State :=
  if s.role ≠ 4 || (framePayload g.bytes).length ≠ 16 then s
  else
    let u := s.reach (s.echoAt g launch)
    u.send (u.tieOut (s.echoAt g launch) (u.echoFrame g (s.echoAt g launch)))

theorem State.tieRangeEcho_eq (s : State) (r : RxFrame) (launch : Nat) :
    s.tieRangeEcho r launch = s.tieThen 4 r fun t => t.echoTaken launch := by
  unfold State.tieRangeEcho State.tieThen
  rcases s.tieRx 4 r with ⟨s0, _ | g⟩ <;> rfl

/-- e of a tie ranging frame that has returned (R362). -/
def tieError (g : RxFrame) : Int :=
  freeRound (dt32Diff (leAt (framePayload g.bytes) 0 8 % 2 ^ 32) (leAt (framePayload g.bytes) 8 4) +
    dt32Diff (bitsOfInt 32 (sofStamp g)) (leAt (framePayload g.bytes) 12 4)) 2

/-- e stands in TOFS, and no ranging frame is in flight. -/
def State.offsetShown (s : State) (g : RxFrame) (e : Int) : State :=
  ((s.reach g.sof).setPair { s.pair with tieRange := none }).setReg R.HPR.TOFS (wdInt (satSym e))

/-- A standby whose e is beyond STEPLIM goes back to LISTEN. -/
def State.offsetJudged (s : State) (e : Int) : State :=
  if s.role = 2 && Nat.blt (s.regN R.DTM.STEPLIM) e.natAbs then (s.planHalt.setB R.HPR.HSTA 9 false).roleTo 1 else s

/-- A tie ranging frame taken by its sender. -/
def State.rangeTaken (s : State) (g : RxFrame) : State :=
  match s.pair.tieRange with
  | none => s
  | some t1 =>
    if s.role = 4 || (framePayload g.bytes).length ≠ 16 || leAt (framePayload g.bytes) 0 8 ≠ t1 then s
    else ((s.offsetShown g (tieError g)).offsetJudged (tieError g)).measure (tieError g)

/-- A ranging copy taken. -/
def State.copyTaken (s : State) (g : RxFrame) : State :=
  if (framePayload g.bytes).length ≠ 8 + 8 * s.ringCells (frameRing g.bytes) || s.ringCells (frameRing g.bytes) = 0 then s
  else s.travReturn (frameRing g.bytes) (frameRev g.bytes)
    { launch := leAt (framePayload g.bytes) 0 8, entries := rangeEntries (s.ringCells (frameRing g.bytes)) (framePayload g.bytes),
      arrival := none }

theorem State.rangeCopyRx_eq (s : State) (r : RxFrame) : s.rangeCopyRx r = s.tieThen 5 r State.copyTaken := by
  unfold State.rangeCopyRx State.tieThen
  rcases s.tieRx 5 r with ⟨s0, _ | g⟩ <;> rfl

theorem State.tieRangeRx_eq (s : State) (r : RxFrame) : s.tieRangeRx r = s.tieThen 4 r State.rangeTaken := by
  unfold State.tieRangeRx State.tieThen
  rcases s.tieRx 4 r with ⟨s0, _ | g⟩
  · rfl
  · show _ = s0.rangeTaken g
    unfold State.rangeTaken
    dsimp only
    cases h : s0.pair.tieRange with
    | none => rfl
    | some t1 =>
      dsimp only
      split
      · rfl
      · rename_i htaken
        have hown : t1 = leAt (framePayload g.bytes) 0 8 := by
          simp only [Bool.or_eq_true, decide_eq_true_eq, not_or, not_not] at htaken
          exact htaken.2.symm
        rw [hown]
        rfl

end Sys2Proof.Machine
end

section
/-! Proofs: what changes of role and of the frame plan leave alone (chapter 11, R352, R353, R363). -/

namespace Sys2Proof.Machine

theorem State.setArmed_step (s : State) (b : Bool) : RegStep [R.HPR.HSTA, R.IRQS 0x88] s (s.setArmed b) := by
  unfold State.setArmed
  split
  · exact RegStep.refl _ s
  · exact ((RegStep.refl _ s).setB 6 b (by simp)).irq 2 (by simp)

theorem State.reg_setArmed_hsta (s : State) (b : Bool) : (s.setArmed b).reg R.HPR.HSTA = (s.setB R.HPR.HSTA 6 b).reg R.HPR.HSTA ∨
    s.setArmed b = s ∧ s.regB R.HPR.HSTA 6 = b := by
  unfold State.setArmed
  split
  · exact .inr ⟨rfl, ‹_›⟩
  · exact .inl (State.reg_irq_ne _ (by decide))

/-- From `s` to `t` ARMED may have changed, Scribe's free instant, the local legs and what the ring transmitters do. -/
structure HeadStep (s t : State) : Prop where
  rest : t = { s with regs := t.regs, scribe := t.scribe, lanes := t.lanes, loc := t.loc, out := t.out }
  regs : regsBut s t [R.HPR.HSTA, R.IRQS 0x88]
  role : t.role = s.role
  hsta : ∀ i, i ≠ 6 → t.regB R.HPR.HSTA i = s.regB R.HPR.HSTA i

namespace HeadStep

variable {s t u : State}

/-- What concerns no register. -/
theorem of_parts (s : State) (c : Scribe) (lanes : NMap Lane) (loc : Local) (out : List OutFrame) :
    HeadStep s { s with scribe := c, lanes := lanes, loc := loc, out := out } :=
  ⟨rfl, regsBut.eq_of_regs _ rfl, rfl, fun _ _ => rfl⟩

theorem refl (s : State) : HeadStep s s := of_parts s _ _ _ _

theorem trans (h : HeadStep s t) (h' : HeadStep t u) : HeadStep s u :=
  ⟨h'.rest.trans (by rw [h.rest]), h.regs.trans h'.regs, h'.role.trans h.role, fun i hi => (h'.hsta i hi).trans (h.hsta i hi)⟩

theorem when (h : HeadStep s t) (c : Bool) {f : State → State} (hf : ∀ u, HeadStep u (f u)) : HeadStep s (t.when c f) :=
  State.when_induct (P := HeadStep s) c h (h.trans (hf t))

theorem setArmed (s : State) (b : Bool) : HeadStep s (s.setArmed b) := by
  have hstep := s.setArmed_step b
  rcases s.reg_setArmed_hsta b with hreg | ⟨hsame, -⟩
  · refine ⟨?_, hstep.regs, ?_, fun i hi => ?_⟩
    · rw [hstep.rest]
    · exact (State.regF_reg hreg 0 3).trans (State.regF_setB_ne _ _ (by decide) (by decide))
    · rw [State.regB_reg hreg, State.regB_setB _ _ _ _ _ (by decide), if_neg fun h => hi h.2]
  · rw [hsame]
    exact refl s

theorem resetFree (s : State) : HeadStep s s.resetFree := by
  obtain ⟨c, hc, -⟩ := s.resetFree_frame
  rw [hc]
  exact of_parts s c _ _ _

theorem ringLight (s : State) (on : Bool) : HeadStep s (s.ringLight on) := by
  have hlanes : ∀ (l : List Nat) (u : State), HeadStep u (l.foldl (fun t n => t.setLane n { t.lane n with lit := on }) u) := by
    intro l u
    exact State.foldl_induct (P := HeadStep u) (fun t n h => h.trans (of_parts t _ (t.setLane n _).lanes _ _)) l (refl u)
  unfold State.ringLight
  dsimp only
  split
  · exact hlanes _ s
  · obtain ⟨x, hx⟩ := State.send_frame (s.ringLanes.foldl (fun t n => t.setLane n { t.lane n with lit := on }) s)
      (s.ringLanes.map fun n => .dark n s.dt64)
    rw [hx]
    exact (hlanes _ s).trans (of_parts _ _ x _ _)

theorem legsDrop (s : State) : HeadStep s s.legsDrop :=
  State.foldl_induct (P := HeadStep s) (fun t k h => h.trans (of_parts t _ _ (t.setLl k _).loc _)) _ (refl s)

end HeadStep

/-! ### A change of role -/

/-- HSTA and HPR's status show a role, with its event, before ARMED and the lanes follow. -/
def State.roleShown (s : State) (r : Nat) : State :=
  ((((s.setPair { s.pair with litAt := none }).setF R.HPR.HSTA 0 3 r).setF (R.PSTA 0x88) 16 3 r).setB R.HPR.HSTA 5
    (r = 3 || r = 4)).irq 0x88 0

theorem State.roleGoto_step {s : State} {r : Nat} (h : s.role ≠ r) : HeadStep (s.roleShown r) (s.roleGoto r) := by
  have hshown : HeadStep (s.roleShown r) (((s.roleShown r).when (r ≠ 2 && r ≠ 3) fun t => t.setArmed false).resetFree) :=
    ((HeadStep.refl _).when _ fun t => HeadStep.setArmed t false).trans (HeadStep.resetFree _)
  unfold State.roleGoto
  rw [if_neg h]
  dsimp only
  split
  · exact hshown.trans (HeadStep.ringLight _ _)
  · split
    · exact hshown.trans (HeadStep.ringLight _ _)
    · exact hshown

/-- A head that changes its role drops its local legs first where it leaves ACTIVE. -/
theorem State.roleTo_step {s : State} {r : Nat} (h : s.role ≠ r) :
    ∃ u, HeadStep s u ∧ HeadStep (u.roleShown r) (s.roleTo r) := by
  unfold State.roleTo
  split
  · have hlegs := HeadStep.legsDrop s
    exact ⟨s.legsDrop, hlegs, State.roleGoto_step (by rw [hlegs.role]; exact h)⟩
  · exact ⟨s, HeadStep.refl s, State.roleGoto_step h⟩

theorem State.roleShown_step (s : State) (r : Nat) :
    RegStep [R.HPR.HSTA, R.PSTA 0x88, R.IRQS 0x88] (s.setPair { s.pair with litAt := none }) (s.roleShown r) :=
  ((((RegStep.refl _ _).setReg _ (by simp)).setReg _ (by simp)).setB 5 _ (by simp)).irq 0 (by simp)

theorem State.plan_roleShown (s : State) (r : Nat) : (s.roleShown r).plan = s.plan :=
  (congrArg State.plan (s.roleShown_step r).rest :)

theorem State.reg_roleShown_hsta (s : State) (r : Nat) : (s.roleShown r).reg R.HPR.HSTA =
    ((s.reg R.HPR.HSTA).setFld 0 3 r).setBit 5 (r = 3 || r = 4) := by
  unfold State.roleShown
  rw [State.reg_irq_ne _ (by decide), State.reg_setB_same, State.reg_setF_ne _ _ _ _ (by decide), State.reg_setF_same]
  rfl

/-- A head whose role changes shows it; the bits of HSTA from TIEUP on and the plan are as they were. -/
theorem State.roleTo_spec {s : State} {r : Nat} (h : s.role ≠ r) (hr : r < 8) : (s.roleTo r).role = r ∧
    (∀ i, 7 ≤ i → (s.roleTo r).regB R.HPR.HSTA i = s.regB R.HPR.HSTA i) ∧ (s.roleTo r).plan = s.plan := by
  obtain ⟨u, hu, hstep⟩ := State.roleTo_step h
  refine ⟨hstep.role.trans ?_, fun i hi => (hstep.hsta i (by omega)).trans (Eq.trans ?_ (hu.hsta i (by omega))), ?_⟩
  · unfold State.role State.regF
    rw [State.reg_roleShown_hsta, Word.fld_setBit_ne _ _ (by decide) (by decide), Word.fld_setFld_same _ _ _ _ (by decide)]
    exact Nat.mod_eq_of_lt hr
  · unfold State.regB
    rw [State.reg_roleShown_hsta, Word.bit_setBit_ne _ _ (by decide) (by omega), Word.bit_setFld _ _ _ _ _ (by decide),
      if_neg (by omega)]
  · exact (congrArg State.plan hstep.rest :).trans ((u.plan_roleShown r).trans (congrArg State.plan hu.rest :))

/-! ### What the head keeps of the tie -/

/-- The registers that a change of role or of the frame plan may write. -/
def roleKeys : List Nat := [R.HPR.HSTA, R.PSTA 0x88, R.IRQS 0x88, R.PSTA 9, R.IRQS 9, R.IRQS 0x71]

/-- From `s` to `t` ring time, memory and slots have not changed, nor what the head has of the tie, nor a register but those of the
role and the plan. -/
structure TieKept (s t : State) : Prop where
  dt64 : t.dt64 = s.dt64
  mem : t.mem = s.mem
  cells : t.cells = s.cells
  beacon : t.pair.beacon = s.pair.beacon
  tieLost : t.pair.tieLost = s.pair.tieLost
  tieRange : t.pair.tieRange = s.pair.tieRange
  regs : regsBut s t roleKeys
  tieUp : t.regB R.HPR.HSTA 7 = s.regB R.HPR.HSTA 7

namespace TieKept

variable {s t u : State}

theorem refl (s : State) : TieKept s s := ⟨rfl, rfl, rfl, rfl, rfl, rfl, regsBut.refl s _, rfl⟩

theorem trans (h : TieKept s t) (h' : TieKept t u) : TieKept s u :=
  ⟨h'.dt64.trans h.dt64, h'.mem.trans h.mem, h'.cells.trans h.cells, h'.beacon.trans h.beacon, h'.tieLost.trans h.tieLost,
    h'.tieRange.trans h.tieRange, h.regs.trans h'.regs, h'.tieUp.trans h.tieUp⟩

theorem when (h : TieKept s t) (c : Bool) {f : State → State} (hf : ∀ u, TieKept u (f u)) : TieKept s (t.when c f) :=
  State.when_induct (P := TieKept s) c h (h.trans (hf t))

theorem setReg (s : State) {k : Nat} (v : Word) (hk : k ∈ roleKeys)
    (hup : (s.setReg k v).regB R.HPR.HSTA 7 = s.regB R.HPR.HSTA 7) :
    TieKept s (s.setReg k v) :=
  ⟨rfl, rfl, rfl, rfl, rfl, rfl, (regsBut.refl s _).setReg v hk, hup⟩

theorem setB (s : State) {k i : Nat} (b : Bool) (hi : i < 32) (hk : k ∈ roleKeys) (hne : k ≠ R.HPR.HSTA ∨ i ≠ 7) :
    TieKept s (s.setB k i b) := by
  refine setReg s _ hk ?_
  have h := s.regB_setB k b R.HPR.HSTA 7 hi
  rwa [if_neg (by omega)] at h

theorem setF (s : State) {k lo len : Nat} (v : Nat) (hlen : lo + len ≤ 32) (hk : k ∈ roleKeys)
    (hne : k ≠ R.HPR.HSTA ∨ lo + len ≤ 7) : TieKept s (s.setF k lo len v) := by
  refine setReg s _ hk ?_
  have h := s.regB_setF k v R.HPR.HSTA 7 hlen
  rwa [if_neg (by omega)] at h

theorem irq (s : State) {page bit : Nat} (hb : bit < 32) (hk : R.IRQS page ∈ roleKeys) (hne : R.IRQS page ≠ R.HPR.HSTA) :
    TieKept s (s.irq page bit) := setB s true hb hk (.inl hne)

theorem setPair (s : State) {p : Pair} (hb : p.beacon = s.pair.beacon) (hl : p.tieLost = s.pair.tieLost)
    (hr : p.tieRange = s.pair.tieRange) : TieKept s (s.setPair p) :=
  ⟨rfl, rfl, rfl, hb, hl, hr, regsBut.eq_of_regs _ rfl, rfl⟩

theorem of_head (h : HeadStep s t) : TieKept s t := by
  have hregs := h.regs.mono (js := roleKeys) (by decide)
  have hup := h.hsta 7 (by decide)
  refine ⟨?_, ?_, ?_, ?_, ?_, ?_, hregs, hup⟩ <;> rw [h.rest]

theorem roleShown (s : State) (r : Nat) : TieKept s (s.roleShown r) :=
  ((((setPair s (p := { s.pair with litAt := none }) rfl rfl rfl).trans
    (setF _ r (by decide) (by decide) (.inr (by decide)))).trans (setF _ r (by decide) (by decide) (.inl (by decide)))).trans
    (setB _ _ (by decide) (by decide) (.inr (by decide)))).trans (irq _ (by decide) (by decide) (by decide))

theorem roleTo (s : State) (r : Nat) : TieKept s (s.roleTo r) := by
  by_cases h : s.role = r
  · have hsame : s.roleTo r = s := by
      unfold State.roleTo State.roleGoto
      rw [if_neg (by simp [h]), if_pos h]
    rw [hsame]
    exact refl s
  · obtain ⟨u, hu, hstep⟩ := State.roleTo_step h
    exact ((of_head hu).trans (roleShown u r)).trans (of_head hstep)

theorem listenCheck (s : State) : TieKept s s.listenCheck := (refl s).when _ fun t => roleTo t 2

theorem tryClaim (s : State) : TieKept s s.tryClaim :=
  (refl s).when _ fun t =>
    (setPair t (p := { t.pair with claimAt := t.dt64, from_ := t.role, init := false }) rfl rfl rfl).trans (roleTo _ 3)

theorem planHalt (s : State) : TieKept s s.planHalt := by
  cases h : s.plan.run with
  | false =>
    have hidle : s.planHalt = s := if_pos (by simp [h])
    rw [hidle]
    exact refl s
  | true =>
    have hregs : regsBut s s.planHalt roleKeys := fun k hk => by
      simp only [roleKeys, List.mem_cons, List.not_mem_nil, or_false, not_or] at hk
      obtain ⟨-, -, -, hpsta, hirqs, hstk⟩ := hk
      exact State.reg_planHalt h hpsta hirqs hstk
    have hup := State.regB_reg (State.reg_planHalt h (k := R.HPR.HSTA) (by decide) (by decide) (by decide)) 7
    obtain ⟨r, d, e, j, c, hframe, -⟩ := State.planHalt_frame h
    refine ⟨?_, ?_, ?_, ?_, ?_, ?_, hregs, hup⟩ <;> rw [hframe]

theorem planLock (s : State) (b : TieBeacon) : TieKept s (s.planLock b) := by
  unfold State.planLock
  extract_lets s0 at_ p0 p joined s1 lit p1 s2
  have h1 : TieKept s s1 :=
    ((((planHalt s).trans (u := { s0 with plan := p }) ⟨rfl, rfl, rfl, rfl, rfl, rfl, regsBut.eq_of_regs _ rfl, rfl⟩).trans
      (setB _ _ (by decide) (by decide) (.inl (by decide)))).trans (setB _ _ (by decide) (by decide) (.inl (by decide)))).trans
      (setB _ _ (by decide) (by decide) (.inr (by decide)))
  have h2 : TieKept s1 s2 := setPair s1 (by rfl) (by rfl) (by rfl)
  exact (h1.trans h2).when _ fun t => of_head (HeadStep.ringLight t true)

theorem planFollows (s : State) (b : TieBeacon) : TieKept s (s.planFollows b) := by
  unfold State.planFollows
  split
  · exact refl s
  · split
    · split
      · exact refl s
      · exact (((planHalt s).trans (setB _ _ (by decide) (by decide) (.inr (by decide)))).trans
          (of_head (HeadStep.setArmed _ false))).trans
          (setPair _ rfl rfl rfl)
    · split
      · exact planLock s b
      · exact refl s

end TieKept

end Sys2Proof.Machine
end

section
/-! Proofs: what a measurement leaves alone (chapter 03, R92 to R98). -/

namespace Sys2Proof.Machine

/-- The registers that a measurement may write once OFFS reads its error. -/
def judgeKeys : List Nat := [R.DTM.DTSTA, R.DTM.FOREIGN, R.DTM.FADJ, R.DTM.FAVG, R.IRQS dtmPage] ++ channelKeys

/-- From `s` to `t` memory and slots have not changed, nor whether a plan runs or a tie ranging frame is in flight, nor a register
but those of a measurement. -/
structure JudgeKept (s t : State) : Prop where
  mem : t.mem = s.mem
  cells : t.cells = s.cells
  run : t.plan.run = s.plan.run
  tieRange : t.pair.tieRange = s.pair.tieRange
  regs : regsBut s t judgeKeys

namespace JudgeKept

variable {s t u : State}

theorem refl (s : State) : JudgeKept s s := ⟨rfl, rfl, rfl, rfl, regsBut.refl s _⟩

theorem trans (h : JudgeKept s t) (h' : JudgeKept t u) : JudgeKept s u :=
  ⟨h'.mem.trans h.mem, h'.cells.trans h.cells, h'.run.trans h.run, h'.tieRange.trans h.tieRange, h.regs.trans h'.regs⟩

theorem servo (s : State) (e : Int) (slew : Bool) : JudgeKept s (s.servo e slew) := by
  have hregs := (s.regsBut_servo e slew).mono (js := judgeKeys) (by decide)
  obtain ⟨_, _, _, _, _, h, -⟩ := s.servo_frame e slew
  refine ⟨?_, ?_, ?_, ?_, hregs⟩ <;> rw [h]

theorem datumJudge (s : State) (x : Int) : JudgeKept s (s.datumJudge x) := by
  have hregs := (s.regsBut_datumJudge x).mono (js := judgeKeys) (by decide)
  obtain ⟨_, _, _, h⟩ := s.datumJudge_frame x
  refine ⟨?_, ?_, ?_, ?_, hregs⟩ <;> rw [h]

theorem datumAvg (s : State) : JudgeKept s s.datumAvg := by
  have hregs := s.regsBut_datumAvg.mono (js := judgeKeys) (by decide)
  obtain ⟨_, _, h⟩ := s.datumAvg_frame
  refine ⟨?_, ?_, ?_, ?_, hregs⟩ <;> rw [h]

theorem heldAs (s : State) (e : Int) : JudgeKept s (s.heldAs e) :=
  ⟨rfl, rfl, rfl, rfl, (s.regsBut_heldAs e).mono (by decide)⟩

theorem run_tsFire (s : State) (i at_ : Nat) : (s.tsFire i at_).plan.run = s.plan.run := by
  unfold State.tsFire
  extract_lets p0 s1
  exact State.when_induct (P := fun u => (u.irq 9 (5 + i)).plan.run = s.plan.run) _ rfl rfl

theorem run_dueAfterStep (s : State) : s.dueAfterStep.plan.run = s.plan.run := by
  unfold State.dueAfterStep
  exact State.foldl_induct (P := fun t => t.plan.run = s.plan.run)
    (fun t i h => State.when_induct (P := fun u => u.plan.run = s.plan.run) _ h ((run_tsFire t i t.dt64).trans h)) _ rfl

theorem run_restartAfter (s : State) (cycle : Nat) : (s.restartAfter cycle).plan.run = s.plan.run := by
  unfold State.restartAfter
  split
  · rfl
  · rfl

theorem stepTime (s : State) (e : Int) : JudgeKept s (s.stepTime e) := by
  have hregs := (s.regsBut_stepTime e).mono (js := judgeKeys) (by decide)
  have hrun : (s.stepTime e).plan.run = s.plan.run :=
    (run_dueAfterStep (s.stepShown e)).trans ((run_restartAfter (s.timeMoved e) s.dt64).trans rfl)
  obtain ⟨_, _, _, h⟩ := s.stepTime_frame e
  obtain ⟨_, _, _, h'⟩ := s.stepShown_frame e
  refine ⟨?_, ?_, hrun, ?_, hregs⟩ <;> (rw [h, h']; rfl)

/-- A foreign offset is dropped where an automatic step is due. -/
theorem autostep (s : State) : JudgeKept s
    (if s.datum.autostep then { s with datum := { s.datum with autostep := false } }.setForeign none else s) := by
  split
  · exact ⟨rfl, rfl, rfl, rfl,
      ((regsBut.refl s _).regs rfl).trans ((State.regsBut_setForeign { s with datum := _ } none).mono (by decide))⟩
  · exact refl s

/-- OFFS reads a measurement's error, and then it is judged. -/
theorem measure (hst : s.dstate ≠ 4) (e : Int) : JudgeKept (s.withOffs e) (s.measure e) := by
  unfold State.measure
  rw [if_neg hst]
  extract_lets s0 _ s1 lim hold
  have h1 : JudgeKept (s.withOffs e) s1 := autostep s0
  have hhold : ∀ x, JudgeKept (s.withOffs e) (hold s1 x) := fun x => (h1.trans (heldAs s1 e)).trans (datumJudge _ x)
  have hservo : ∀ x slew, JudgeKept (s.withOffs e) ((s1.servo x slew).datumJudge x).datumAvg :=
    fun x slew => ((h1.trans (servo s1 x slew)).trans (datumJudge _ x)).trans (datumAvg _)
  split
  · split
    · exact hhold _
    · exact hservo _ _
  · split
    · exact hservo _ _
    · split
      · exact hhold _
      · exact (h1.trans (stepTime s1 e)).trans (datumJudge _ e)

end JudgeKept

end Sys2Proof.Machine
end

section
/-! Proofs: the slots that the peer shares (chapter 11, R360; chapter 05, R172 to R175). -/

namespace Sys2Proof.Machine

/-- From `s` to `t` no slot but `a`'s has changed, nor ring time, the pairing, or a ring's configuration. -/
structure SlotStep (a : Nat) (s t : State) : Prop where
  dt64 : t.dt64 = s.dt64
  pair : t.pair = s.pair
  rcfg : ∀ r, t.reg (R.RNG.RCFG r) = s.reg (R.RNG.RCFG r)
  cells : ∀ b, b ≠ a → NMap.get {} t.cells b = NMap.get {} s.cells b

namespace SlotStep

variable {a : Nat} {s t u : State}

theorem refl (a : Nat) (s : State) : SlotStep a s s := ⟨rfl, rfl, fun _ => rfl, fun _ _ => rfl⟩

theorem trans (h : SlotStep a s t) (h' : SlotStep a t u) : SlotStep a s u :=
  ⟨h'.dt64.trans h.dt64, h'.pair.trans h.pair, fun r => (h'.rcfg r).trans (h.rcfg r),
    fun b hb => (h'.cells b hb).trans (h.cells b hb)⟩

/-- A step that concerns neither registers nor slots. -/
theorem of_eq (hnow : t.dt64 = s.dt64) (hpair : t.pair = s.pair) (hregs : t.regs = s.regs) (hcells : t.cells = s.cells) :
    SlotStep a s t := ⟨hnow, hpair, fun _ => State.reg_congr hregs _, fun _ _ => by rw [hcells]⟩

theorem setReg (s : State) {k : Nat} (v : Word) (hk : k % 0x1000 ≠ 0x100) : SlotStep a s (s.setReg k v) :=
  ⟨rfl, rfl, fun r => State.reg_setReg_ne _ _ fun e => hk (by rw [← e]; simp only [R.RNG.RCFG]; omega), fun _ _ => rfl⟩

theorem irq (s : State) (page bit : Nat) : SlotStep a s (s.irq page bit) := setReg s _ (by simp only [R.IRQS]; omega)

theorem fault (s : State) (src page x m acc d : Nat) : SlotStep a s (s.fault src page x m acc d) := of_eq rfl rfl rfl rfl

theorem jigEvent (s : State) (i e : Nat) : SlotStep a s (s.jigEvent i e) := of_eq rfl rfl rfl rfl

theorem putCell (s : State) (c : CellRx) : SlotStep a s { s with cells := NMap.put {} s.cells a c } :=
  ⟨rfl, rfl, fun _ => rfl, fun _ hb => NMap.get_put_ne _ _ _ hb⟩

theorem portBytes (s : State) (x : Nat) (l : List Byte) : SlotStep a s (s.portBytes x l) := by
  obtain ⟨e, he⟩ := s.portBytes_frame x l
  rw [he]
  exact of_eq rfl rfl rfl rfl

theorem when (h : SlotStep a s t) (c : Bool) {f : State → State} (hf : ∀ u, SlotStep a u (f u)) : SlotStep a s (t.when c f) :=
  State.when_induct (P := SlotStep a s) c h (h.trans (hf t))

/-! ### The parts of a slot's decoding -/

theorem writeRecord (s : State) (slot : List Byte) (v : Int) (w9 : Nat) : SlotStep a s (s.writeRecord a slot v w9) := by
  obtain ⟨e, he⟩ := s.csmClaim_frame (recAt (s.regN R.TRG.PIDX) a) 96
  unfold State.writeRecord
  dsimp only
  rw [he]
  exact ⟨rfl, rfl, fun _ => rfl, fun _ hb => NMap.get_put_ne _ _ _ hb⟩

theorem cellTemp (s : State) (slot : List Byte) : SlotStep a s (s.cellTemp a slot) := by
  unfold State.cellTemp
  split
  · exact refl a s
  · extract_lets n t best m0 s1
    have h1 : SlotStep a s s1 := of_eq rfl rfl rfl rfl
    split
    · have hhot : SlotStep a s1 { s1 with mon := { s1.mon with cellHot := true } } := of_eq rfl rfl rfl rfl
      exact ((h1.trans hhot).trans (irq _ _ _)).trans (fault _ _ _ _ _ _ _)
    · exact h1

theorem escTally (s : State) (ring : Nat) (was now : Bool) : SlotStep a s (s.escTally ring was now) := by
  have hkey : R.RNG.ESCCNT ring % 0x1000 ≠ 0x100 := by
    simp only [R.RNG.ESCCNT]
    omega
  unfold State.escTally
  dsimp only
  split
  · exact refl a s
  · split
    · exact setReg s _ hkey
    · exact setReg s _ hkey

theorem slotEvents (s : State) (slot : List Byte) : SlotStep a s (s.slotEvents a slot) := by
  unfold State.slotEvents
  extract_lets fl nr s0 j ranged s1 s2 hf s3 s4
  have h0 : SlotStep a s s0 := by
    unfold s0
    split
    · exact putCell s _
    · exact refl a s
  have h1 : SlotStep a s s1 := h0.trans (jigEvent s0 _ _)
  have step : ∀ (u : State) (c : Prop) [Decidable c] (e : Nat),
      SlotStep a s u → SlotStep a s (if c then u.jigEvent a e else u) := by
    intro u c _ e h
    split
    · exact h.trans (jigEvent u _ _)
    · exact h
  have h2 : SlotStep a s s2 := step _ _ _ h1
  split
  · exact h0
  · split
    · exact h2
    · exact step _ _ _ (step _ _ _ (step _ _ _ h2))

theorem withdrawDecode (s : State) : SlotStep a s (s.withdrawDecode a) := of_eq rfl rfl rfl rfl

theorem useCopy (s : State) (p : SlotCopy) (mism : Bool) : SlotStep a s (s.useCopy a p mism) := by
  unfold State.useCopy
  extract_lets ring c pidx nr esc base wasBad was prior priorUndef put t1
  have hput : ∀ t bad, SlotStep a t (put t bad) := fun t bad => putCell t _
  split
  · exact (((hput s true).trans (portBytes _ _ _)).trans (escTally _ _ _ _)).when _ fun t => fault t _ _ _ _ _ _
  · extract_lets t2 t3
    have h1 : SlotStep a s t1 := by
      unfold t1
      split
      · exact withdrawDecode s
      · exact refl a s
    have h2 : SlotStep a s t2 := (h1.trans (hput t1 false)).trans (writeRecord _ _ _ _)
    have h3 : SlotStep a s t3 := by
      unfold t3
      split
      · exact h2
      · exact h2.trans (cellTemp _ _)
    exact (h3.trans (escTally _ _ _ _)).trans (slotEvents _ _)

theorem slotRx (s : State) (rev node : Bool) (stamp : Nat) (slot : List Byte) : SlotStep a s (s.slotRx a rev node stamp slot) := by
  have hkey : R.RNG.MISCNT (a / 8) % 0x1000 ≠ 0x100 := by
    simp only [R.RNG.MISCNT]
    omega
  unfold State.slotRx
  split
  · exact refl a s
  · extract_lets ring c x pidx
    split
    · exact useCopy s _ _
    · split
      · exact useCopy s _ _
      · split
        · exact refl a s
        · extract_lets mism s1 w9 s2
          have h1 : SlotStep a s s1 := by
            unfold s1
            split
            · exact ((setReg s _ hkey).trans (irq _ _ _)).trans (fault _ _ _ _ _ _ _)
            · exact refl a s
          split
          · exact h1.trans (useCopy s1 _ _)
          · have h2 : SlotStep a s s2 := h1.trans (putCell s1 _)
            split
            · exact h2
            · exact h2.trans (portBytes s2 _ _)

end SlotStep

/-! ### The slots of a frame -/

/-- Has a cell a copy of its own, or is it in no ring of the map? -/
def State.slotClosed (s : State) (b : Nat) : Prop := b ∉ s.ringAddrs ∨ (NMap.get {} s.cells b).copy ≠ none

/-- From `s` to `t` no cell has changed that takes no slot of the peer. -/
structure SharedSlots (s t : State) : Prop where
  dt64 : t.dt64 = s.dt64
  pair : t.pair = s.pair
  rcfg : ∀ r, t.reg (R.RNG.RCFG r) = s.reg (R.RNG.RCFG r)
  cells : ∀ b, s.slotClosed b → NMap.get {} t.cells b = NMap.get {} s.cells b

theorem State.ringAddrs_congr {s t : State} (h : ∀ r, t.reg (R.RNG.RCFG r) = s.reg (R.RNG.RCFG r)) :
    t.ringAddrs = s.ringAddrs := by
  have hcells : ∀ r, t.ringCells r = s.ringCells r := fun r => State.regF_reg (h r) 0 4
  unfold State.ringAddrs
  simp only [hcells]

namespace SharedSlots

theorem refl (s : State) : SharedSlots s s := ⟨rfl, rfl, fun _ => rfl, fun _ _ => rfl⟩

theorem trans {s t u : State} (h : SharedSlots s t) (h' : SharedSlots t u) : SharedSlots s u := by
  refine ⟨h'.dt64.trans h.dt64, h'.pair.trans h.pair, fun r => (h'.rcfg r).trans (h.rcfg r), fun b hb => ?_⟩
  have hclosed : t.slotClosed b := by
    unfold State.slotClosed
    rwa [State.ringAddrs_congr h.rcfg, h.cells b hb]
  exact (h'.cells b hclosed).trans (h.cells b hb)

theorem tieSlot (s : State) (stamp a : Nat) (slot : List Byte) : SharedSlots s (s.tieSlot stamp a slot) := by
  have of_step : ∀ t, SlotStep a s t → ¬ s.slotClosed a → SharedSlots s t := fun t h hopen =>
    ⟨h.dt64, h.pair, h.rcfg, fun b hb => h.cells b fun e => hopen (e ▸ hb)⟩
  unfold State.tieSlot
  extract_lets c s1 c1 k
  split
  · exact refl s
  · rename_i hopen
    have hopen' : ¬ s.slotClosed a := by
      unfold State.slotClosed
      simpa [c, and_comm] using hopen
    have h1 : SlotStep a s s1 := SlotStep.slotRx s _ _ _ _
    split
    · exact of_step s1 h1 hopen'
    · exact of_step _ ((h1.trans (SlotStep.putCell s1 _)).trans (SlotStep.portBytes _ _ _)) hopen'

theorem slotsTaken (s : State) (g : RxFrame) : SharedSlots s (s.slotsTaken g) := by
  unfold State.slotsTaken
  split
  · exact refl s
  · exact State.foldl_induct (P := SharedSlots s) (fun t q h => h.trans (tieSlot t _ _ _)) _ (refl s)

end SharedSlots

end Sys2Proof.Machine
end

section
/-! Proofs: a ranging frame at hand ends a direction's losses (chapter 03, R109, R110; chapter 11, R361). -/

namespace Sys2Proof.Machine

/-- From `s` to `t` no direction has lost a frame or ended its losses, and neither ring time nor memory has changed. -/
structure LostKept (s t : State) : Prop where
  lost : ∀ r rev, (t.trv r rev).lost = (s.trv r rev).lost
  dt64 : t.dt64 = s.dt64
  mem : t.mem = s.mem

namespace LostKept

variable {s t u : State}

theorem refl (s : State) : LostKept s s := ⟨fun _ _ => rfl, rfl, rfl⟩

theorem trans (h : LostKept s t) (h' : LostKept t u) : LostKept s u :=
  ⟨fun r rev => (h'.lost r rev).trans (h.lost r rev), h'.dt64.trans h.dt64, h'.mem.trans h.mem⟩

theorem of_trav (h : t.trav = s.trav) (hnow : t.dt64 = s.dt64) (hmem : t.mem = s.mem) : LostKept s t :=
  ⟨fun _ _ => by rw [State.trv, State.trv, h], hnow, hmem⟩

theorem when (h : LostKept s t) (c : Bool) {f : State → State} (hf : ∀ u, LostKept u (f u)) : LostKept s (t.when c f) :=
  State.when_induct (P := LostKept s) c h (h.trans (hf t))

theorem fault (s : State) (src page a m acc d : Nat) : LostKept s (s.fault src page a m acc d) := of_trav rfl rfl rfl

theorem setTrv (s : State) (r : Nat) (rev : Bool) {v : TravDir} (hv : v.lost = (s.trv r rev).lost) :
    LostKept s (s.setTrv r rev v) := by
  refine ⟨fun r' rev' => ?_, rfl, rfl⟩
  by_cases h : (r', rev') = (r, rev)
  · obtain ⟨rfl, rfl⟩ := Prod.mk.inj h
    rw [State.trv_setTrv_same, hv]
  · rw [State.trv_setTrv_ne _ _ h]

theorem planMargin (s : State) (ring : Nat) (rev : Bool) : LostKept s (s.planMargin ring rev) := by
  unfold State.planMargin
  exact (setTrv s ring rev (by rfl)).when _ fun _ => fault _ _ _ _ _ _ _

theorem planMarginSum (s : State) (ring : Nat) : LostKept s (s.planMarginSum ring) := by
  unfold State.planMarginSum
  split
  · exact refl s
  · exact (setTrv s ring false (by rfl)).when _ fun _ => fault _ _ _ _ _ _ _

theorem travToNode (s : State) (ring : Nat) : LostKept s (s.travToNode ring) := by
  unfold State.travToNode
  extract_lets n avg tf tr sm rf rr toF toR
  have hfirst : LostKept s (s.setTrv ring false { tf with toNode := toF }) := setTrv s ring false rfl
  exact hfirst.trans (setTrv _ ring true (hfirst.lost ring true).symm)

theorem travRound (s : State) (ring : Nat) (f r : RangeRet) : LostKept s (s.travRound ring f r) := by
  unfold State.travRound
  extract_lets n tf seg whole s1 path s2 s3 ask
  have hpath : ∀ u rev x, LostKept u (path u rev x) := by
    intro u rev x
    unfold path
    dsimp only
    split
    · exact refl u
    · exact (setTrv u ring rev (by rfl)).trans (planMargin _ ring rev)
  have h1 : LostKept s s1 := setTrv s ring false (by rfl)
  have h2 : LostKept s s2 := ((h1.trans (hpath s1 false f)).trans (hpath _ true r)).trans (travToNode _ ring)
  have h3 : LostKept s s3 := h2.trans (planMarginSum s2 ring)
  split
  · exact h3.trans (of_trav rfl rfl rfl)
  · exact h3

theorem travOne (s : State) (ring : Nat) (rev : Bool) (x : RangeRet) : LostKept s (s.travOne ring rev x) := by
  unfold State.travOne
  extract_lets t res d s1 s2
  have h1 : LostKept s s1 := by
    unfold s1
    split
    · exact refl s
    · exact setTrv s ring rev (by rfl)
  have h2 : LostKept s s2 := h1.when _ fun u => fault u _ _ _ _ _ _
  exact h2.when _ fun u => planMargin u ring rev

/-- A frame at hand ends the losses of its direction. -/
theorem travReturn (s : State) (ring : Nat) (rev : Bool) (x : RangeRet) :
    LostKept (s.setTrv ring rev { s.trv ring rev with lost := 0 }) (s.travReturn ring rev x) := by
  unfold State.travReturn
  extract_lets t0 s1 other pair t1 s2 t2
  have h1 : LostKept (s.setTrv ring rev { s.trv ring rev with lost := 0 }) s1 := travOne _ ring rev x
  have h2 : LostKept s1 s2 := setTrv s1 ring (!rev) (by rfl)
  clear_value pair
  cases pair with
  | none => exact h1.trans (setTrv s1 ring rev (by rfl))
  | some y =>
    dsimp only
    split
    · exact (h1.trans h2).trans (travRound s2 ring y x)
    · exact (h1.trans h2).trans (travRound s2 ring x y)

end LostKept

end Sys2Proof.Machine
end

section
/-! Proofs: frames that a head sends on the tie (chapter 11, R350, R360 to R362; chapter 04, R129). -/

namespace Sys2Proof.Machine

/-- A frame leaves on the tie at an instant, and the head has noted it. -/
def State.tieSends (s : State) (at_ : Nat) (p : Pair) (f : List Byte) : State :=
  ((s.reach at_).setPair p).send (s.tieOut at_ f)

theorem State.tieSends_frame (s : State) (at_ : Nat) (p : Pair) (f : List Byte) : ∃ x, s.tieSends at_ p f =
    { s with dt64 := (s.reach at_).dt64, pair := p, lanes := x, out := s.tieOut at_ f } := by
  obtain ⟨x, hx⟩ := ((s.reach at_).setPair p).send_frame (s.tieOut at_ f)
  refine ⟨x, hx.trans ?_⟩
  rw [s.reach_eq]
  rfl

/-- The states of the cells and of the stack, as a Jig state frame carries them (R350). -/
def State.jigStates (s : State) : List Byte :=
  (List.range 256).map (fun j => if s.inMap j then BitVec.ofNat 8 ((s.inst j).st % 64) else (0 : Byte)) ++
    [BitVec.ofNat 8 ((s.inst stackInst).st % 64), 0, 0, 0]

section
variable {s : State} {launch : Nat}

theorem State.jigTx_silent (h : (s.paired && s.role = 4 && s.plan.started && s.plan.pastML && !s.pair.jigSent) = false) :
    s.jigTx launch = s := if_neg (by simpa using h)

theorem State.jigTx_sends (h : (s.paired && s.role = 4 && s.plan.started && s.plan.pastML && !s.pair.jigSent) = true) :
    s.jigTx launch = s.tieSends (s.tieFree launch 272) { s.pair with jigSent := true }
      (s.tieFrame 1 0 false s.nextPidx s.jigStates) := by
  refine (if_pos h).trans ?_
  unfold State.tieSends
  dsimp only
  rw [s.reach_eq]
  rfl

/-- A head that is not ACTIVE sends a tie ranging frame in a millisecond in which it has sent none. -/
def State.rangesNow (s : State) (launch : Nat) : Bool :=
  s.paired && s.role ≠ 4 && s.laneUp s.tieLane && Nat.blt s.pair.tieMs (s.tieFree launch 28 / 16000000 + 1)

theorem State.not_rangesNow : (!s.paired || decide (s.role = 4) || !s.tieUp ||
    Nat.ble (s.tieFree launch 28 / 16000000 + 1) s.pair.tieMs) = !s.rangesNow launch := by
  have hms : Nat.ble (s.tieFree launch 28 / 16000000 + 1) s.pair.tieMs =
      !Nat.blt s.pair.tieMs (s.tieFree launch 28 / 16000000 + 1) := by
    rw [Bool.eq_iff_iff, Bool.not_eq_true', ← Bool.not_eq_true, Nat.ble_eq, Nat.blt_eq]
    omega
  simp [State.rangesNow, State.tieUp, hms]

theorem State.tieRangeTx_silent (h : s.rangesNow launch = false) : s.tieRangeTx launch = s :=
  if_pos (by rw [State.not_rangesNow, h]; rfl)

theorem State.tieRangeTx_sends (h : s.rangesNow launch = true) : s.tieRangeTx launch =
    s.tieSends (s.tieFree launch 28) { s.pair with tieRange := some (bitsOfInt 64 (txStamp (s.tieFree launch 28) 0)),
                                                   tieMs := s.tieFree launch 28 / 16000000 + 1 }
      (s.tieFrame 4 0 false (s.regN R.TRG.PIDX) (natLe 8 (bitsOfInt 64 (txStamp (s.tieFree launch 28) 0)) ++ zeros 8)) := by
  refine (if_neg (by rw [State.not_rangesNow, h]; decide)).trans ?_
  unfold State.tieSends
  dsimp only
  rw [s.reach_eq]
  rfl

theorem State.rangeCopyTx_silent (h : s.paired = false ∨ s.pair.rangeFwd = []) : s.rangeCopyTx launch = s := by
  unfold State.rangeCopyTx
  rcases h with h | h
  · exact if_pos (by simp [h])
  · rw [h]
    exact ite_self _

theorem State.rangeCopyTx_sends (hpaired : s.paired = true) {x : Nat × Bool × Nat × List Byte}
    {rest : List (Nat × Bool × Nat × List Byte)} (h : s.pair.rangeFwd = x :: rest) : s.rangeCopyTx launch =
      s.tieSends (s.tieFree launch (12 + x.2.2.2.length)) { s.pair with rangeFwd := rest }
        (s.tieFrame 5 x.1 x.2.1 x.2.2.1 x.2.2.2) := by
  unfold State.rangeCopyTx State.tieSends
  rw [if_neg (by simp [hpaired]), h]
  dsimp only
  rw [s.reach_eq]
  rfl

end

/-! ### The slots of cell nodes (R360) -/

/-- The slots that cell nodes' copies gave, by ascending address. -/
def State.nodeSlots (s : State) : List (List Byte) :=
  s.ringAddrs.mergeSort.filterMap fun a => ((NMap.get ({} : CellRx) s.cells a).copy.filter (·.node)).map (·.bytes)

theorem State.nodeSlots_eq (s : State) : s.nodeSlots = s.ringAddrs.mergeSort.filterMap fun a =>
    match (NMap.get ({} : CellRx) s.cells a).copy with
    | some c => if c.node then some c.bytes else none
    | none => none := by
  unfold State.nodeSlots
  congr 1
  funext a
  cases (NMap.get ({} : CellRx) s.cells a).copy with
  | none => rfl
  | some c => cases h : c.node <;> simp [h]

/-- The instant at which the slots leave has come, and those that do not fit are counted. -/
def State.slotsCounted (s : State) : State :=
  ((s.reach (s.plan.start + s.regF R.HPR.TXL 0 20)).setPair { s.pair with slotsTx := true }).bumpBy R.HPR.TIEDROP
    (s.nodeSlots.length - s.regF R.HPR.TIEN 0 5)

/-- The bytes of the first TIEN slots. -/
def State.slotsSent (s : State) : List Byte := (s.nodeSlots.take (s.regF R.HPR.TIEN 0 5)).flatten

theorem State.regF_bumpBy (s : State) (k n : Nat) : (s.bumpBy k n).regF k 0 16 = Nat.min 65535 (s.regF k 0 16 + n) := by
  have hlt := s.regF_lt k 0 16
  have hmin : Nat.min 65535 (s.regF k 0 16 + n) = min 65535 (s.regF k 0 16 + n) := rfl
  unfold State.bumpBy
  rw [hmin]
  split
  · omega
  · rw [State.regF_setF_same _ _ _ _ _ (by decide)]
    exact Nat.mod_eq_of_lt (by omega)

theorem State.bumpBy_step (s : State) (k n : Nat) : RegStep [k] s (s.bumpBy k n) := by
  unfold State.bumpBy
  split
  · exact RegStep.refl _ s
  · exact (RegStep.refl _ s).setReg _ (by simp)

/-- An ACTIVE or STANDBY head shares its slots once a period. -/
def State.sharesNow (s : State) : Bool := s.paired && s.plan.started && (s.role = 2 || s.role = 4) && !s.pair.slotsTx

theorem State.not_sharesNow (s : State) :
    (!(s.paired && s.plan.started && (s.role = 2 || s.role = 4)) || s.pair.slotsTx) = !s.sharesNow := by
  simp only [State.sharesNow, Bool.not_and, Bool.not_not]

theorem State.tieSlotsTx_silent {s : State} (h : s.sharesNow = false) : s.tieSlotsTx = s :=
  if_pos (by rw [State.not_sharesNow, h]; rfl)

theorem State.tieSlotsTx_sends {s : State} (h : s.sharesNow = true) : s.tieSlotsTx =
    if s.slotsSent.isEmpty then s.slotsCounted
    else s.slotsCounted.send (s.slotsCounted.tieOut (s.plan.start + s.regF R.HPR.TXL 0 20)
      (s.slotsCounted.tieFrame 2 0 false (s.slotsCounted.regN R.TRG.PIDX) s.slotsSent)) := by
  refine (if_neg (by rw [State.not_sharesNow, h]; decide)).trans ?_
  unfold State.slotsSent State.slotsCounted
  rw [s.nodeSlots_eq]
  dsimp only
  rw [s.reach_eq]
  rfl

end Sys2Proof.Machine
end

section
/-! Proofs: TIEUP, the loss of the tie (chapter 11, R368, R369) and a tie beacon of the peer (R350, R363). -/

namespace Sys2Proof.Machine

/-! ### TIEUP follows the tie -/

/-- Whether a leaving of UP waits to be raised, once TIEUP follows the tie. -/
def State.tieDownNow (s : State) : Bool :=
  if s.regB R.HPR.HSTA 7 = s.laneUp s.tieLane then s.pair.tieDown else !s.laneUp s.tieLane

/-- From `s` to `t` TIEUP has followed the tie. -/
structure TieSynced (s t : State) : Prop where
  rest : t = { s with regs := t.regs, pair := { s.pair with tieDown := s.tieDownNow } }
  regs : regsBut s t [R.HPR.HSTA, R.IRQS 0x88]
  tieUp : t.regB R.HPR.HSTA 7 = s.laneUp s.tieLane
  hsta : ∀ i, i ≠ 7 → t.regB R.HPR.HSTA i = s.regB R.HPR.HSTA i
  event : s.regB R.HPR.HSTA 7 ≠ s.laneUp s.tieLane → t.regB (R.IRQS 0x88) 4 = true

theorem TieSynced.dt64 {s t : State} (h : TieSynced s t) : t.dt64 = s.dt64 := (congrArg State.dt64 h.rest :)

theorem TieSynced.mem {s t : State} (h : TieSynced s t) : t.mem = s.mem := (congrArg State.mem h.rest :)

theorem State.tieSync_unpaired {s : State} (h : s.paired = false) : s.tieSync = s := if_pos (by simp [h])

theorem State.tieSync_spec {s : State} (hpaired : s.paired = true) : TieSynced s s.tieSync := by
  by_cases hsame : s.regB R.HPR.HSTA 7 = s.laneUp s.tieLane
  · have hsync : s.tieSync = s := if_pos (by simp [State.tieUp, hsame])
    have hdown : s.tieDownNow = s.pair.tieDown := if_pos hsame
    rw [hsync]
    refine ⟨?_, regsBut.refl s _, hsame, fun _ _ => rfl, fun h => absurd hsame h⟩
    rw [hdown]
  · have hsync : s.tieSync = ((s.setB R.HPR.HSTA 7 (s.laneUp s.tieLane)).irq 0x88 4).setPair
        { s.pair with tieDown := !s.laneUp s.tieLane } := if_neg (by simp [hpaired, State.tieUp, hsame])
    have hdown : s.tieDownNow = !s.laneUp s.tieLane := if_neg hsame
    have hstep : RegStep [R.HPR.HSTA, R.IRQS 0x88] s ((s.setB R.HPR.HSTA 7 (s.laneUp s.tieLane)).irq 0x88 4) :=
      ((RegStep.refl _ s).setB 7 _ (by simp)).irq 4 (by simp)
    have hhsta : ((s.setB R.HPR.HSTA 7 (s.laneUp s.tieLane)).irq 0x88 4).reg R.HPR.HSTA =
        (s.setB R.HPR.HSTA 7 (s.laneUp s.tieLane)).reg R.HPR.HSTA := State.reg_irq_ne _ (by decide)
    have hevent : ((s.setB R.HPR.HSTA 7 (s.laneUp s.tieLane)).irq 0x88 4).regB (R.IRQS 0x88) 4 = true :=
      State.regB_irq_same _ _ (by decide)
    rw [hsync]
    generalize (s.setB R.HPR.HSTA 7 (s.laneUp s.tieLane)).irq 0x88 4 = u at hstep hhsta hevent
    refine ⟨?_, hstep.regs.regs rfl, ?_, fun i hi => ?_, fun _ => hevent⟩
    · rw [hdown, hstep.rest]
      rfl
    · exact (State.regB_reg hhsta 7).trans (State.regB_setB_same _ _ _ _ (by decide))
    · exact (State.regB_reg hhsta i).trans ((s.regB_setB _ _ _ _ (by decide)).trans (if_neg fun h => hi h.2))

/-! ### TIE_LOST -/

/-- The tie is lost: it has left UP, or three periods have passed without the peer's beacon while both plans run. -/
def State.tieLoses (s : State) : Bool :=
  s.tieDownNow || (!s.pair.tieLost && s.plan.started && s.pair.beacon.isSome && Nat.ble 3 s.pair.missed)

/-- The loss is noted and raised, and the head is ARMED no more. -/
def State.lossRaised (s : State) : State :=
  ((s.setPair { s.pair with tieLost := true, tieDown := false, cmpBad := true }).setArmed false).fault Src.TIE_LOST hprPage

theorem State.tieLostNow_unpaired {s : State} (h : s.paired = false) : s.tieLostNow = s := by
  unfold State.tieLostNow
  rw [State.tieSync_unpaired h]
  exact if_neg (by simp [h])

theorem State.tieLostNow_eq {s : State} (hpaired : s.paired = true) :
    s.tieLostNow = if s.tieLoses then s.tieSync.lossRaised else s.tieSync := by
  have hsync := State.tieSync_spec hpaired
  have hpaired' : s.tieSync.paired = true := (State.paired_congr (hsync.regs _ (by decide))).trans hpaired
  have hplan : s.tieSync.plan = s.plan := (congrArg State.plan hsync.rest :)
  have hpair : s.tieSync.pair = { s.pair with tieDown := s.tieDownNow } := (congrArg State.pair hsync.rest :)
  have hloses : (s.tieSync.pair.tieDown ||
      (!s.tieSync.pair.tieLost && s.tieSync.plan.started && s.tieSync.pair.beacon.isSome && Nat.ble 3 s.tieSync.pair.missed)) =
        s.tieLoses := by
    rw [hplan, hpair]
    rfl
  unfold State.tieLostNow
  dsimp only
  rw [hpaired', Bool.true_and, hloses]
  rfl

theorem State.armed_setArmed (s : State) (b : Bool) : (s.setArmed b).regB R.HPR.HSTA 6 = b := by
  rcases s.reg_setArmed_hsta b with hreg | ⟨hsame, harmed⟩
  · exact (State.regB_reg hreg 6).trans (State.regB_setB_same _ _ _ _ (by decide))
  · rwa [hsame]

/-- An event of HPR stays set as ARMED changes. -/
theorem State.irqs_setArmed {s : State} {i : Nat} (h : s.regB (R.IRQS 0x88) i = true) (b : Bool) :
    (s.setArmed b).regB (R.IRQS 0x88) i = true := by
  unfold State.setArmed
  split
  · exact h
  · rw [State.irq, State.regB_setB _ _ _ _ _ (by decide)]
    split
    · rfl
    · exact (State.regB_reg (State.reg_setB_ne _ _ _ (by decide)) i).trans h

/-- The loss as it is noted, before ARMED is cleared and Scribe has it. -/
def State.lossNoted (s : State) : State := s.setPair { s.pair with tieLost := true, tieDown := false, cmpBad := true }

/-- From `s` to `t` a loss has been noted and raised, and ARMED is cleared. -/
structure LossRaised (s t : State) : Prop where
  rest : t = { s with regs := t.regs, scribe := t.scribe, pair := { s.pair with tieLost := true, tieDown := false, cmpBad := true } }
  regs : regsBut s t [R.HPR.HSTA, R.IRQS 0x88]
  armed : t.regB R.HPR.HSTA 6 = false
  hsta : ∀ i, i ≠ 6 → t.regB R.HPR.HSTA i = s.regB R.HPR.HSTA i
  event : ∀ i, s.regB (R.IRQS 0x88) i = true → t.regB (R.IRQS 0x88) i = true
  raised : s.raised t Src.TIE_LOST hprPage

theorem State.lossRaised_spec (s : State) : LossRaised s s.lossRaised := by
  have hstep := s.lossNoted.setArmed_step false
  have hregs : s.lossRaised.regs = (s.lossNoted.setArmed false).regs := rfl
  have hscribe : (s.lossNoted.setArmed false).scribe.inflight = s.scribe.inflight :=
    (congrArg (fun t : State => t.scribe.inflight) hstep.rest :)
  refine ⟨?_, ?_, ?_, fun i hi => ?_, fun i hi => ?_, State.raised_fault_of hscribe _ _ _ _ _ _⟩
  · exact (hstep.rest_fault (RegStep.refl [] _)).trans rfl
  · exact fun k hk => (State.reg_congr hregs k).trans (hstep.regs k hk)
  · exact (State.regB_reg (State.reg_congr hregs _) 6).trans (State.armed_setArmed _ false)
  · exact (State.regB_reg (State.reg_congr hregs _) i).trans ((HeadStep.setArmed s.lossNoted false).hsta i hi)
  · exact (State.regB_reg (State.reg_congr hregs _) i).trans (State.irqs_setArmed (s := s.lossNoted) hi false)

end Sys2Proof.Machine
end

section
/-! Proofs: what each frame of the tie does to the head that takes it (chapter 11, R350, R359 to R363). -/

namespace Sys2Proof.Machine

/-! ### A frame that was being discarded -/

section
variable (s : State)

theorem State.dt64_tieTaken : s.tieTaken.dt64 = s.dt64 := by
  obtain ⟨x, hx⟩ := s.tieTaken_frame
  rw [hx]

theorem State.mem_tieTaken : s.tieTaken.mem = s.mem := by
  obtain ⟨x, hx⟩ := s.tieTaken_frame
  rw [hx]

theorem State.cells_tieTaken : s.tieTaken.cells = s.cells := by
  obtain ⟨x, hx⟩ := s.tieTaken_frame
  rw [hx]

theorem State.pair_tieTaken : s.tieTaken.pair = s.pair := by
  obtain ⟨x, hx⟩ := s.tieTaken_frame
  rw [hx]

theorem State.plan_tieTaken : s.tieTaken.plan = s.plan := by
  obtain ⟨x, hx⟩ := s.tieTaken_frame
  rw [hx]

theorem State.reg_tieTaken (k : Nat) : s.tieTaken.reg k = s.reg k := by
  obtain ⟨x, hx⟩ := s.tieTaken_frame
  rw [hx]
  rfl

theorem State.role_tieTaken : s.tieTaken.role = s.role := State.regF_reg (s.reg_tieTaken _) 0 3

theorem State.ringCells_tieTaken (ring : Nat) : s.tieTaken.ringCells ring = s.ringCells ring :=
  State.regF_reg (s.reg_tieTaken _) 0 4

theorem State.ringAddrs_tieTaken : s.tieTaken.ringAddrs = s.ringAddrs := State.ringAddrs_congr fun _ => s.reg_tieTaken _

theorem State.end5_tieTaken : (s.tieTaken.lane s.tieLane).end5 = (s.lane s.tieLane).end5 := by
  unfold State.tieTaken
  split
  · rw [State.lane_setLane]
  · rfl

/-- A frame being discarded on the tie does not delay what leaves on it. -/
theorem State.tieFree_tieTaken (t len : Nat) : s.tieTaken.tieFree t len = s.tieFree t len := by
  have hend := s.end5_tieTaken
  obtain ⟨x, hx⟩ := s.tieTaken_frame
  rw [hx] at hend ⊢
  unfold State.tieFree
  have hfree : State.laneFreeAt { s with lanes := x } s.tieLane = s.laneFreeAt s.tieLane := by
    unfold State.laneFreeAt
    rw [hend]
    rfl
  exact congrArg (fun y => s.tiePlan.foldl (fun u p =>
    if Nat.ble (5 * u + (len + 4) * s.laneFifths s.tieLane) (5 * p.1) || Nat.blt p.1 u then u
    else (5 * p.1 + (p.2 + 4) * s.laneFifths s.tieLane + 4) / 5) (Nat.max (Nat.max t s.dt64) y)) hfree

end

/-! ### A tie beacon -/

theorem leNat_lt (l : List Byte) : leNat l < 256 ^ l.length := by
  induction l with
  | nil => decide
  | cons b l ih =>
    have hb : b.toNat < 256 := b.isLt
    rw [leNat, List.length_cons, Nat.pow_succ]
    omega

theorem framePidx_lt (f : List Byte) : framePidx f < 65536 :=
  (leNat_lt _).trans_le (Nat.pow_le_pow_right (by decide) (List.length_take_le 2 _))

/-- PEER shows the peer's role, ARMED and HOVR as the beacon's last byte has them, and its period. -/
theorem fld_peer (f : List Byte) : let b := parseBeacon f
    let w := wd (b.role + b2n b.armed * 8 + b2n b.hovr * 16 + b.pidx * 65536)
    w.fld 0 5 = byteAt (framePayload f) 15 % 32 ∧ w.fld 16 16 = framePidx f := by
  have hpidx := framePidx_lt f
  have hx := byteAt_lt (framePayload f) 15
  dsimp only [parseBeacon]
  generalize byteAt (framePayload f) 15 = x at hx
  generalize framePidx f = p at hpidx
  have hlow : x % 8 + b2n (x.testBit 3) * 8 + b2n (x.testBit 4) * 16 = x % 32 := by
    rw [Nat.testBit_eq_decide_div_mod_eq, Nat.testBit_eq_decide_div_mod_eq]
    unfold b2n
    simp only [decide_eq_true_eq]
    split <;> split <;> omega
  rw [hlow]
  unfold Word.fld wd
  rw [natFld_eq, natFld_eq, BitVec.toNat_ofNat]
  omega

/-- Whether the tie is UP is read from PCFG and the lanes' LNSTA alone. -/
theorem State.tieUp_congr {s t : State} (hcfg : t.reg R.HPR.PCFG = s.reg R.HPR.PCFG)
    (hlanes : ∀ n < 32, t.reg (R.LNE.LNSTA n) = s.reg (R.LNE.LNSTA n)) : t.laneUp t.tieLane = s.laneUp s.tieLane := by
  have htie : t.tieLane = s.tieLane := State.regF_reg hcfg 8 5
  rw [htie]
  unfold State.laneUp State.laneState
  rw [State.regF_reg (hlanes s.tieLane (s.regF_lt _ 8 5))]

theorem State.laneUp_setReg_peer (s : State) (v : Word) :
    (s.setReg R.HPR.PEER v).laneUp (s.setReg R.HPR.PEER v).tieLane = s.laneUp s.tieLane :=
  State.tieUp_congr (State.reg_setReg_ne s v (by decide)) fun n hn => State.reg_setReg_ne s v (by
    simp only [R.LNE.LNSTA, R.HPR.PEER]
    omega)

/-- PEER shows the peer, and TIEUP follows the tie. -/
theorem State.peerShown_spec {s : State} (hpaired : s.paired = true) (b : TieBeacon) :
    TieSynced (s.setReg R.HPR.PEER (wd (b.role + b2n b.armed * 8 + b2n b.hovr * 16 + b.pidx * 65536))) (s.peerShown b) :=
  State.tieSync_spec ((State.paired_congr (State.reg_setReg_ne s _ (by decide))).trans hpaired)

/-- What a tie beacon gives the head that takes it. -/
structure BeaconGiven (s : State) (f : List Byte) (t : State) : Prop where
  peer : (t.reg R.HPR.PEER).fld 0 5 = byteAt (framePayload f) 15 % 32
  pidx : (t.reg R.HPR.PEER).fld 16 16 = framePidx f
  beacon : t.pair.beacon = some (parseBeacon f)
  tieLost : t.pair.tieLost = false
  tieUp : t.regB R.HPR.HSTA 7 = true
  dt64 : t.dt64 = s.dt64
  mem : t.mem = s.mem

theorem State.reg_beaconHeld (s : State) (b : TieBeacon) (k : Nat) : (s.beaconHeld b).reg k = s.reg k := rfl

/-- Once PEER shows the peer, the beacon is held, and the plan, the role and a claim follow it. -/
theorem TieSynced.beaconGiven {s a : State} {f : List Byte} (hup : s.laneUp s.tieLane = true)
    (h : TieSynced (s.setReg R.HPR.PEER (wd ((parseBeacon f).role + b2n (parseBeacon f).armed * 8 + b2n (parseBeacon f).hovr * 16 +
      (parseBeacon f).pidx * 65536))) a) :
    BeaconGiven s f (((a.beaconHeld (parseBeacon f)).planFollows (parseBeacon f)).listenCheck.tryClaim) := by
  have hkept := ((TieKept.planFollows (a.beaconHeld (parseBeacon f)) (parseBeacon f)).trans (TieKept.listenCheck _)).trans
    (TieKept.tryClaim _)
  have hpeer := (hkept.regs R.HPR.PEER (by decide)).trans ((a.reg_beaconHeld _ _).trans ((h.regs R.HPR.PEER (by decide)).trans
    (State.reg_setReg_same ..)))
  refine ⟨?_, ?_, hkept.beacon, hkept.tieLost,
    hkept.tieUp.trans ((State.regB_reg (a.reg_beaconHeld _ _) 7).trans (h.tieUp.trans ((s.laneUp_setReg_peer _).trans hup))),
    hkept.dt64.trans (h.dt64.trans (State.setReg_dt64 ..)), hkept.mem.trans (h.mem.trans (State.setReg_mem ..))⟩
  · rw [hpeer]
    exact (fld_peer f).1
  · rw [hpeer]
    exact (fld_peer f).2

theorem State.beaconTaken_spec {s : State} (hpaired : s.paired = true) (hup : s.laneUp s.tieLane = true) {g : RxFrame}
    (hlen : (framePayload g.bytes).length = 16) : BeaconGiven s g.bytes (s.beaconTaken g) := by
  unfold State.beaconTaken
  rw [if_neg (not_not.2 hlen)]
  exact (State.peerShown_spec hpaired _).beaconGiven hup

/-! ### A tie ranging frame -/

/-- What the ACTIVE head does with a tie ranging frame: it returns it with its stamps. -/
theorem State.echoTaken_spec {s : State} (hup : s.laneUp s.tieLane = true) (h4 : s.role = 4) {g : RxFrame}
    (hlen : (framePayload g.bytes).length = 16) (launch : Nat) :
    s.echoTaken launch g = { s with
      lanes := (s.echoTaken launch g).lanes, dt64 := (s.echoTaken launch g).dt64
      out := [.exl s.tieLane (s.echoAt g launch) (s.echoFrame g (s.echoAt g launch))] } := by
  have hgoes : s.echoTaken launch g = (s.reach (s.echoAt g launch)).send
      ((s.reach (s.echoAt g launch)).tieOut (s.echoAt g launch)
        ((s.reach (s.echoAt g launch)).echoFrame g (s.echoAt g launch))) := if_neg (by simp [h4, hlen])
  have hout : (s.reach (s.echoAt g launch)).tieOut (s.echoAt g launch)
      ((s.reach (s.echoAt g launch)).echoFrame g (s.echoAt g launch)) =
        [.exl s.tieLane (s.echoAt g launch) (s.echoFrame g (s.echoAt g launch))] := by
    rw [s.reach_eq]
    exact if_pos hup
  obtain ⟨x, hx⟩ := (s.reach (s.echoAt g launch)).send_frame
    ((s.reach (s.echoAt g launch)).tieOut (s.echoAt g launch)
        ((s.reach (s.echoAt g launch)).echoFrame g (s.echoAt g launch)))
  rw [hgoes, hx, hout, s.reach_eq]

theorem State.echoFrame_spec (s : State) (g : RxFrame) (at_ : Nat) : frameType (s.echoFrame g at_) = 4 ∧
    framePidx (s.echoFrame g at_) = framePidx g.bytes ∧ framePayload (s.echoFrame g at_) =
      (framePayload g.bytes).take 8 ++ natLe 4 (bitsOfInt 32 (sofStamp g)) ++ natLe 4 (bitsOfInt 32 (txStamp at_ 0)) := by
  obtain ⟨htype, -, -, hpidx, -⟩ := frame_header_fields 4 false s.hid 0
    ((framePayload g.bytes).take 8 ++ natLe 4 (bitsOfInt 32 (sofStamp g)) ++ natLe 4 (bitsOfInt 32 (txStamp at_ 0))).length
    (framePidx g.bytes) s.datum.tv s.dstate false false
    ((framePayload g.bytes).take 8 ++ natLe 4 (bitsOfInt 32 (sofStamp g)) ++ natLe 4 (bitsOfInt 32 (txStamp at_ 0)))
    (by decide) s.hid_lt (by decide) _ rfl
  exact ⟨htype, hpidx.trans (Nat.mod_eq_of_lt (framePidx_lt _)), framePayload_frameOf (frameHeader_length ..) _⟩

/-- What its own ranging frame, returned, does to a head. -/
structure RangeGiven (s : State) (e : Int) (t : State) : Prop where
  tieRange : t.pair.tieRange = none
  tofs : t.reg R.HPR.TOFS = wdInt (satSym e)
  offs : t.reg R.DTM.OFFS = wdInt (satSym e)
  leaves : s.role = 2 → s.regN R.DTM.STEPLIM < e.natAbs → t.role = 1 ∧ t.regB R.HPR.HSTA 9 = false ∧ t.plan.run = false
  mem : t.mem = s.mem
  cells : t.cells = s.cells

theorem State.run_planHalt (s : State) : s.planHalt.plan.run = false := by
  cases h : s.plan.run with
  | false =>
    have hidle : s.planHalt = s := if_pos (by simp [h])
    rw [hidle, h]
  | true =>
    obtain ⟨r, d, e, j, c, hframe, -⟩ := State.planHalt_frame h
    rw [hframe]
    rfl

theorem State.role_planHalt (s : State) : s.planHalt.role = s.role := by
  cases h : s.plan.run with
  | false =>
    have hidle : s.planHalt = s := if_pos (by simp [h])
    rw [hidle]
  | true => exact State.regF_reg (State.reg_planHalt h (by decide) (by decide) (by decide)) 0 3

theorem TieKept.offsetJudged (s : State) (e : Int) : TieKept s (s.offsetJudged e) := by
  unfold State.offsetJudged
  split
  · exact ((planHalt s).trans (setB _ _ (by decide) (by decide) (.inr (by decide)))).trans (roleTo _ 1)
  · exact refl s

/-- A standby whose clock is beyond STEPLIM goes back to LISTEN with its plan stopped. -/
theorem State.offsetJudged_leaves {s : State} {e : Int} (h2 : s.role = 2) (hfar : s.regN R.DTM.STEPLIM < e.natAbs) :
    (s.offsetJudged e).role = 1 ∧ (s.offsetJudged e).regB R.HPR.HSTA 9 = false ∧ (s.offsetJudged e).plan.run = false := by
  have hgoes : s.offsetJudged e = (s.planHalt.setB R.HPR.HSTA 9 false).roleTo 1 := if_pos (by simp [h2, hfar])
  have hrole : (s.planHalt.setB R.HPR.HSTA 9 false).role = s.role :=
    (State.regF_setB_ne _ _ (by decide) (by decide)).trans (s.role_planHalt)
  obtain ⟨hnow, hsta, hplan⟩ := State.roleTo_spec (s := s.planHalt.setB R.HPR.HSTA 9 false) (r := 1) (by rw [hrole, h2]; decide)
    (by decide)
  rw [hgoes]
  exact ⟨hnow, (hsta 9 (by decide)).trans (State.regB_setB_same _ _ _ _ (by decide)),
    (congrArg Plan.run hplan).trans s.run_planHalt⟩

theorem State.reg_withOffs_ne (s : State) (e : Int) {k : Nat} (h : k ≠ R.DTM.OFFS) : (s.withOffs e).reg k = s.reg k :=
  State.reg_setReg_ne _ _ h

theorem State.reg_withOffs_same (s : State) (e : Int) : (s.withOffs e).reg R.DTM.OFFS = wdInt (satSym e) := State.reg_setReg_same ..

/-- From `s` to `t` a head shows the offset that its ranging frame gave. -/
structure OffsetShown (s : State) (e : Int) (t : State) : Prop where
  tieRange : t.pair.tieRange = none
  tofs : t.reg R.HPR.TOFS = wdInt (satSym e)
  mem : t.mem = s.mem
  cells : t.cells = s.cells
  reg : ∀ k, k ≠ R.HPR.TOFS → t.reg k = s.reg k

theorem State.offsetShown_spec (s : State) (g : RxFrame) (e : Int) : OffsetShown s e (s.offsetShown g e) := by
  unfold State.offsetShown
  rw [s.reach_eq]
  exact ⟨rfl, State.reg_setReg_same .., rfl, rfl, fun k hk => State.reg_setReg_ne _ _ hk⟩

/-- A shown offset is judged against STEPLIM, and then it is a measurement of Datum's. -/
theorem OffsetShown.measured {s a : State} {e : Int} (h : OffsetShown s e a) (hst : s.dstate ≠ 4) :
    RangeGiven s e ((a.offsetJudged e).measure e) := by
  have hkept := TieKept.offsetJudged a e
  have hst' : (a.offsetJudged e).dstate ≠ 4 := by
    rw [State.dstate_congr ((hkept.regs _ (by decide)).trans (h.reg _ (by decide)))]
    exact hst
  have hjudged := JudgeKept.measure hst' e
  have hreg : ∀ k, k ∉ judgeKeys → k ≠ R.DTM.OFFS → ((a.offsetJudged e).measure e).reg k = (a.offsetJudged e).reg k :=
    fun k hk hne => (hjudged.regs k hk).trans (State.reg_withOffs_ne _ e hne)
  refine ⟨hjudged.tieRange.trans (hkept.tieRange.trans h.tieRange), ?_, ?_, fun h2 hfar => ?_,
    hjudged.mem.trans (hkept.mem.trans h.mem), hjudged.cells.trans (hkept.cells.trans h.cells)⟩
  · exact (hreg _ (by decide) (by decide)).trans ((hkept.regs _ (by decide)).trans h.tofs)
  · exact (hjudged.regs _ (by decide)).trans (State.reg_withOffs_same ..)
  · have hrole : a.role = 2 := (State.regF_reg (h.reg R.HPR.HSTA (by decide)) 0 3).trans h2
    have hlim : a.regN R.DTM.STEPLIM < e.natAbs := by
      rw [State.regN, h.reg _ (by decide)]
      exact hfar
    obtain ⟨hnow, hlock, hrun⟩ := State.offsetJudged_leaves hrole hlim
    have hhsta := hreg R.HPR.HSTA (by decide) (by decide)
    exact ⟨(State.regF_reg hhsta 0 3).trans hnow, (State.regB_reg hhsta 9).trans hlock, hjudged.run.trans hrun⟩

theorem State.rangeTaken_spec {s : State} (h4 : s.role ≠ 4) {g : RxFrame} (hlen : (framePayload g.bytes).length = 16)
    (hown : s.pair.tieRange = some (leAt (framePayload g.bytes) 0 8)) (hst : s.dstate ≠ 4) :
    RangeGiven s (tieError g) (s.rangeTaken g) := by
  have hgoes : s.rangeTaken g = ((s.offsetShown g (tieError g)).offsetJudged (tieError g)).measure (tieError g) := by
    unfold State.rangeTaken
    rw [hown]
    exact if_neg (by simp [h4, hlen])
  rw [hgoes]
  exact (s.offsetShown_spec g _).measured hst

/-! ### A ranging copy -/

theorem State.copyTaken_spec {s : State} {g : RxFrame}
    (hlen : (framePayload g.bytes).length = 8 + 8 * s.ringCells (frameRing g.bytes))
    (hcells : s.ringCells (frameRing g.bytes) ≠ 0) :
    ((s.copyTaken g).trv (frameRing g.bytes) (frameRev g.bytes)).lost = 0 ∧ (s.copyTaken g).dt64 = s.dt64 ∧
      (s.copyTaken g).mem = s.mem := by
  have hgoes : s.copyTaken g = s.travReturn (frameRing g.bytes) (frameRev g.bytes)
      { launch := leAt (framePayload g.bytes) 0 8, entries := rangeEntries (s.ringCells (frameRing g.bytes)) (framePayload g.bytes)
        arrival := none } := if_neg (by simp [hlen, hcells])
  have hkept := LostKept.travReturn s (frameRing g.bytes) (frameRev g.bytes)
      { launch := leAt (framePayload g.bytes) 0 8, entries := rangeEntries (s.ringCells (frameRing g.bytes)) (framePayload g.bytes)
        arrival := none }
  rw [hgoes]
  exact ⟨(hkept.lost _ _).trans (congrArg TravDir.lost (State.trv_setTrv_same ..)), hkept.dt64, hkept.mem⟩

end Sys2Proof.Machine
end

section
/-! Proofs: the tie's frames (chapter 11, R350, R360 to R363, R368; chapter 04, R129). -/

namespace Sys2Proof.Machine

/-! ### The commands -/

theorem exec_tieBeaconRx (f : RxFrame) (s : State) : exec (.tieBeaconRx f) s = .next (s.tieThen 3 f State.beaconTaken) :=
  congrArg Host.Outcome.next (s.tieBeaconRx_eq f)
theorem exec_jigStateRx (f : RxFrame) (s : State) : exec (.jigStateRx f) s = .next (s.tieThen 1 f State.jigTaken) :=
  congrArg Host.Outcome.next (s.jigRx_eq f)
theorem exec_tieSlotsRx (f : RxFrame) (s : State) : exec (.tieSlotsRx f) s = .next (s.tieThen 2 f State.slotsTaken) :=
  congrArg Host.Outcome.next (s.tieSlotsRx_eq f)
theorem exec_tieRangingEcho (f : RxFrame) (l : Nat) (s : State) :
    exec (.tieRangingEcho f l) s = .next (s.tieThen 4 f fun t => t.echoTaken l) :=
  congrArg Host.Outcome.next (s.tieRangeEcho_eq f l)
theorem exec_tieRangingRx (f : RxFrame) (s : State) : exec (.tieRangingRx f) s = .next (s.tieThen 4 f State.rangeTaken) :=
  congrArg Host.Outcome.next (s.tieRangeRx_eq f)
theorem exec_rangingCopyRx (f : RxFrame) (s : State) : exec (.rangingCopyRx f) s = .next (s.tieThen 5 f State.copyTaken) :=
  congrArg Host.Outcome.next (s.rangeCopyRx_eq f)
theorem exec_jigStateTx (l : Nat) (s : State) : exec (.jigStateTx l) s = .next (s.jigTx l) := rfl
theorem exec_tieSlotsTx (s : State) : exec .tieSlotsTx s = .next s.tieSlotsTx := rfl
theorem exec_tieRangingTx (l : Nat) (s : State) : exec (.tieRangingTx l) s = .next (s.tieRangeTx l) := rfl
theorem exec_rangingCopyTx (l : Nat) (s : State) : exec (.rangingCopyTx l) s = .next (s.rangeCopyTx l) := rfl
theorem exec_tieLost (s : State) : exec .tieLost s = .next s.tieLostNow := rfl

/-! ### A frame of a type that a head takes or refuses -/

section
variable {s : State} {f g : RxFrame} (hpaired : s.paired = true) (hup : s.laneUp s.tieLane = true)
  (hg : g = { f with intact := f.intact && !(s.lane s.tieLane).drop })
include hpaired hup hg

/-- A frame that fails R157, or is of another type or not for this head, changes at most the mark of a frame being discarded. -/
theorem State.tieThen_idle {type : Nat} {h : State → RxFrame → State} {other : Prop}
    (hidle : (frameCheck (frameRing g.bytes) (frameRev g.bytes) g).isNone = false ∨ frameType g.bytes ≠ type ∨ other)
    (hother : other → h s.tieTaken g = s.tieTaken) : s.tieThen type f h = s.tieTaken := by
  rcases hidle with hbad | htype | hnot
  · exact State.tieThen_refused hpaired hup hg (.inl hbad)
  · exact State.tieThen_refused hpaired hup hg (.inr htype)
  · by_cases hbad : (frameCheck (frameRing g.bytes) (frameRev g.bytes) g).isNone = true ∧ frameType g.bytes = type
    · rw [State.tieThen_taken hpaired hup hg hbad.1 hbad.2, hother hnot]
    · refine State.tieThen_refused hpaired hup hg ?_
      rwa [not_and_or, Bool.not_eq_true] at hbad

end

section
variable {s : State} {g : RxFrame}

theorem State.beaconTaken_idle (h : (framePayload g.bytes).length ≠ 16) : s.beaconTaken g = s := if_pos h

theorem State.jigTaken_idle (h : (framePayload g.bytes).length ≠ 260 ∨ s.role = 4) : s.jigTaken g = s :=
  if_pos (by rcases h with h | h <;> simp [h])

theorem State.jigTaken_held (hlen : (framePayload g.bytes).length = 260) (h4 : s.role ≠ 4) :
    s.jigTaken g = s.setPair { s.pair with jig := (framePayload g.bytes).take 257 } := if_neg (by simp [hlen, h4])

theorem State.slotsTaken_idle (h : s.plan.started = false ∨ framePidx g.bytes ≠ s.regN R.TRG.PIDX) : s.slotsTaken g = s :=
  if_pos (by rcases h with h | h <;> simp [State.slotsLate, h])

theorem State.echoTaken_idle (h : s.role ≠ 4 ∨ (framePayload g.bytes).length ≠ 16) (launch : Nat) :
    s.echoTaken launch g = s :=
  if_pos (by rcases h with h | h <;> simp [h])

theorem State.rangeTaken_idle (h : s.pair.tieRange = none ∨ s.role = 4 ∨ (framePayload g.bytes).length ≠ 16) :
    s.rangeTaken g = s := by
  unfold State.rangeTaken
  split
  · rfl
  · rename_i t1 ht1
    refine if_pos ?_
    rcases h with h | h | h
    · simp [h] at ht1
    · simp [h]
    · simp [h]

theorem State.copyTaken_idle (h : (framePayload g.bytes).length ≠ 8 + 8 * s.ringCells (frameRing g.bytes) ∨
    s.ringCells (frameRing g.bytes) = 0) : s.copyTaken g = s := if_pos (by rcases h with h | h <;> simp [h])

end

theorem State.regN_tieTaken (s : State) (k : Nat) : s.tieTaken.regN k = s.regN k := congrArg BitVec.toNat (s.reg_tieTaken k)

theorem State.tieUp_tieTaken (s : State) : s.tieTaken.laneUp s.tieTaken.tieLane = s.laneUp s.tieLane :=
  State.tieUp_congr (s.reg_tieTaken _) fun _ _ => s.reg_tieTaken _

/-! ### The slots of cell nodes (R360) -/

/-- What a head does that shares its slots. -/
structure SlotsShared (s : State) (at_ : Nat) (t : State) : Prop where
  pair : t.pair = { s.pair with slotsTx := true }
  dt64 : t.dt64 = (s.reach at_).dt64
  dropped : t.regF R.HPR.TIEDROP 0 16 =
    Nat.min 65535 (s.regF R.HPR.TIEDROP 0 16 + (s.nodeSlots.length - s.regF R.HPR.TIEN 0 5))
  sent : s.slotsSent ≠ [] → t.out = if s.laneUp s.tieLane then
    [.exl s.tieLane at_ (s.tieFrame 2 0 false (s.regN R.TRG.PIDX) s.slotsSent)] else []
  regs : regsBut s t [R.HPR.TIEDROP]
  rest : t = { s with regs := t.regs, pair := t.pair, dt64 := t.dt64, lanes := t.lanes, out := t.out }

theorem State.slotsCounted_step (s : State) : RegStep [R.HPR.TIEDROP]
    ((s.reach (s.plan.start + s.regF R.HPR.TXL 0 20)).setPair { s.pair with slotsTx := true }) s.slotsCounted :=
  State.bumpBy_step ..

/-- The instant has come and the slots that do not fit are counted. -/
theorem State.slotsCounted_rest (s : State) : s.slotsCounted = { s with
    regs := s.slotsCounted.regs, pair := { s.pair with slotsTx := true }
    dt64 := (s.reach (s.plan.start + s.regF R.HPR.TXL 0 20)).dt64 } :=
  s.slotsCounted_step.rest.trans (by rw [s.reach_eq]; rfl)

theorem State.regsBut_slotsCounted (s : State) : regsBut s s.slotsCounted [R.HPR.TIEDROP] := fun k hk =>
  (s.slotsCounted_step.regs k hk).trans (State.reg_reach ..)

theorem State.tiedrop_slotsCounted (s : State) : s.slotsCounted.regF R.HPR.TIEDROP 0 16 =
    Nat.min 65535 (s.regF R.HPR.TIEDROP 0 16 + (s.nodeSlots.length - s.regF R.HPR.TIEN 0 5)) :=
  (State.regF_bumpBy ..).trans (congrArg (fun d => Nat.min 65535 (d + (s.nodeSlots.length - s.regF R.HPR.TIEN 0 5)))
    (State.regF_reg (State.reg_reach ..) 0 16))

/-- The frame that the head sends after the counting is the one of the state before. -/
theorem State.slotsCounted_sends (s : State) : s.slotsCounted.tieOut (s.plan.start + s.regF R.HPR.TXL 0 20)
    (s.slotsCounted.tieFrame 2 0 false (s.slotsCounted.regN R.TRG.PIDX) s.slotsSent) =
      if s.laneUp s.tieLane then [.exl s.tieLane (s.plan.start + s.regF R.HPR.TXL 0 20)
        (s.tieFrame 2 0 false (s.regN R.TRG.PIDX) s.slotsSent)] else [] := by
  have hregs := s.regsBut_slotsCounted
  have hlane : s.slotsCounted.tieLane = s.tieLane := State.regF_reg (hregs _ (by decide)) 8 5
  have hup : s.slotsCounted.laneUp s.slotsCounted.tieLane = s.laneUp s.tieLane :=
    State.tieUp_congr (hregs _ (by decide)) fun n hn => hregs _ (by
      simp only [List.mem_singleton, R.LNE.LNSTA, R.HPR.TIEDROP]
      omega)
  have hframe : s.slotsCounted.tieFrame 2 0 false (s.slotsCounted.regN R.TRG.PIDX) s.slotsSent =
      s.tieFrame 2 0 false (s.regN R.TRG.PIDX) s.slotsSent := by
    have hhid : s.slotsCounted.hid = s.hid := State.regF_reg (hregs _ (by decide)) 3 1
    have hst : s.slotsCounted.dstate = s.dstate := State.dstate_congr (hregs _ (by decide))
    have hpidx : s.slotsCounted.regN R.TRG.PIDX = s.regN R.TRG.PIDX := congrArg BitVec.toNat (hregs _ (by decide))
    have htv : s.slotsCounted.datum = s.datum := (congrArg State.datum s.slotsCounted_rest :)
    unfold State.tieFrame State.header
    rw [hhid, hst, hpidx, htv]
  unfold State.tieOut State.tieUp
  rw [hup, hlane, hframe]

theorem State.slotsCounted_spec (s : State) {t : State} {x : NMap Lane} {l : List OutFrame}
    (ht : t = { s.slotsCounted with lanes := x, out := l })
    (hl : s.slotsSent ≠ [] → l = s.slotsCounted.tieOut (s.plan.start + s.regF R.HPR.TXL 0 20)
      (s.slotsCounted.tieFrame 2 0 false (s.slotsCounted.regN R.TRG.PIDX) s.slotsSent)) :
    SlotsShared s (s.plan.start + s.regF R.HPR.TXL 0 20) t := by
  subst ht
  refine ⟨(congrArg State.pair s.slotsCounted_rest :), (congrArg State.dt64 s.slotsCounted_rest :), s.tiedrop_slotsCounted,
    fun hne => (hl hne).trans s.slotsCounted_sends, s.regsBut_slotsCounted.regs rfl, ?_⟩
  dsimp only
  exact (congrArg (fun u : State => { u with lanes := x, out := l }) s.slotsCounted_rest :).trans (by rw [s.slotsCounted_rest])

theorem State.tieSlotsTx_spec {s : State} (h : s.sharesNow = true) :
    SlotsShared s (s.plan.start + s.regF R.HPR.TXL 0 20) s.tieSlotsTx := by
  rw [State.tieSlotsTx_sends h]
  split
  · rename_i hnone
    exact s.slotsCounted_spec rfl fun hne => absurd (List.isEmpty_iff.1 hnone) hne
  · obtain ⟨x, hx⟩ := s.slotsCounted.send_frame (s.slotsCounted.tieOut (s.plan.start + s.regF R.HPR.TXL 0 20)
      (s.slotsCounted.tieFrame 2 0 false (s.slotsCounted.regN R.TRG.PIDX) s.slotsSent))
    exact s.slotsCounted_spec hx fun _ => rfl

/-- Settles O44: a frame of the tie goes to what its type asks for where the head takes it, and what leaves on the tie, and the
loss of the tie, change what the statement names. -/
theorem tieFrames : Obligations.TieFrames := by
  intro s
  refine ⟨fun f => ⟨fun hdown => ?_, ?_⟩, ?_, ?_, ?_⟩
  · rw [exec_tieBeaconRx, exec_jigStateRx, exec_tieSlotsRx, exec_tieRangingRx, exec_rangingCopyRx]
    simp only [exec_tieRangingEcho, State.tieThen_down hdown, implies_true, and_self]
  · rintro hpaired hup g hg ok rfl pl rfl s0 (hs0 : s0 = s.tieTaken)
    subst hs0
    have hpaired' : s.tieTaken.paired = true := (State.paired_congr (s.reg_tieTaken _)).trans hpaired
    have hup' := s.tieUp_tieTaken.trans hup
    refine ⟨fun hidle => ?_, fun hok htype hlen => ?_, fun hidle => ?_, fun hok htype hlen h4 => ?_, fun hidle => ?_,
      fun hok htype => ?_, fun hidle l => ?_, fun hok htype h4 hlen l => ?_, fun hidle => ?_,
      fun hok htype h4 hlen hown hst => ?_, fun hidle => ?_, fun hok htype hlen hcells => ?_⟩
    · rw [exec_tieBeaconRx, State.tieThen_idle hpaired hup hg hidle State.beaconTaken_idle]
    · rw [exec_tieBeaconRx, State.tieThen_taken hpaired hup hg hok htype]
      have hgiven := State.beaconTaken_spec hpaired' hup' hlen
      exact ⟨_, rfl, hgiven.peer, hgiven.pidx, hgiven.beacon, hgiven.tieLost, hgiven.tieUp, hgiven.dt64.trans s.dt64_tieTaken,
        hgiven.mem.trans s.mem_tieTaken⟩
    · rw [exec_jigStateRx, State.tieThen_idle hpaired hup hg hidle fun h =>
        State.jigTaken_idle (by rwa [s.role_tieTaken])]
    · rw [exec_jigStateRx, State.tieThen_taken hpaired hup hg hok htype,
        State.jigTaken_held hlen (by rwa [s.role_tieTaken]), s.pair_tieTaken]
      rfl
    · rw [exec_tieSlotsRx, State.tieThen_idle hpaired hup hg hidle fun h =>
        State.slotsTaken_idle (by rwa [s.plan_tieTaken, s.regN_tieTaken])]
    · rw [exec_tieSlotsRx, State.tieThen_taken hpaired hup hg hok htype]
      have hshared := SharedSlots.slotsTaken s.tieTaken g
      refine ⟨_, rfl, hshared.dt64.trans s.dt64_tieTaken, hshared.pair.trans s.pair_tieTaken, fun a ha => ?_⟩
      have hcell := hshared.cells a (by rwa [State.slotClosed, s.ringAddrs_tieTaken, s.cells_tieTaken])
      rwa [s.cells_tieTaken] at hcell
    · rw [exec_tieRangingEcho, State.tieThen_idle hpaired hup hg hidle fun h =>
        State.echoTaken_idle (by rwa [s.role_tieTaken]) l]
    · rw [exec_tieRangingEcho, State.tieThen_taken hpaired hup hg hok htype]
      have hat : s.tieTaken.echoAt g l =
          s.tieFree (if l < f.eof then f.eof else Nat.min l (f.sof + 160000)) 28 := by
        subst hg
        exact s.tieFree_tieTaken _ 28
      have hlane : s.tieTaken.tieLane = s.tieLane := State.regF_reg (s.reg_tieTaken _) 8 5
      have hgoes := State.echoTaken_spec hup' (s.role_tieTaken.trans h4) hlen l
      obtain ⟨hecho, hpidx, hpl⟩ := s.tieTaken.echoFrame_spec g (s.tieTaken.echoAt g l)
      rw [hat] at hgoes hecho hpidx hpl
      refine ⟨_, rfl, ⟨_, ?_, hecho, hpidx, hpl⟩, ?_⟩
      · rw [hgoes, hlane]
        exact List.mem_singleton_self _
      · obtain ⟨x, hx⟩ := s.tieTaken_frame
        rw [hgoes, hx]
    · rw [exec_tieRangingRx, State.tieThen_idle hpaired hup hg hidle fun h =>
        State.rangeTaken_idle (by rwa [s.pair_tieTaken, s.role_tieTaken])]
    · rintro e rfl
      rw [exec_tieRangingRx, State.tieThen_taken hpaired hup hg hok htype]
      have hgiven := State.rangeTaken_spec (s := s.tieTaken) (by rwa [s.role_tieTaken]) hlen (by rwa [s.pair_tieTaken])
        (by rwa [State.dstate_congr (s.reg_tieTaken _)])
      exact ⟨_, rfl, hgiven.tieRange, hgiven.tofs, hgiven.offs, fun h2 hfar => hgiven.leaves (by rwa [s.role_tieTaken])
        (by rwa [s.regN_tieTaken]), hgiven.mem.trans s.mem_tieTaken, hgiven.cells.trans s.cells_tieTaken⟩
    · rw [exec_rangingCopyRx, State.tieThen_idle hpaired hup hg hidle fun h =>
        State.copyTaken_idle (by rwa [s.ringCells_tieTaken])]
    · rw [exec_rangingCopyRx, State.tieThen_taken hpaired hup hg hok htype]
      obtain ⟨hlost, hnow, hmem⟩ := State.copyTaken_spec (s := s.tieTaken) (g := g) (by rwa [s.ringCells_tieTaken])
        (by rwa [s.ringCells_tieTaken])
      exact ⟨_, rfl, hlost, hnow.trans s.dt64_tieTaken, hmem.trans s.mem_tieTaken⟩
  · rintro at_ - launch
    refine ⟨?_, ?_, fun hnone => ?_, fun hpaired x rest hx => ?_⟩
    · rintro sends rfl
      refine ⟨fun h => by rw [exec_jigStateTx, State.jigTx_silent h], fun h => ?_⟩
      rw [exec_jigStateTx, State.jigTx_sends h]
      obtain ⟨x, hx⟩ := s.tieSends_frame (s.tieFree launch 272) { s.pair with jigSent := true }
        (s.tieFrame 1 0 false s.nextPidx s.jigStates)
      rw [hx]
      exact ⟨_, rfl, rfl, rfl, rfl, rfl⟩
    · rintro sends (rfl : sends = s.rangesNow launch)
      refine ⟨fun h => by rw [exec_tieRangingTx, State.tieRangeTx_silent h], fun h => ?_⟩
      have hup : s.tieUp = true := by
        simp only [State.rangesNow, Bool.and_eq_true] at h
        exact h.1.2
      obtain ⟨x, hx⟩ := s.tieSends_frame (s.tieFree launch 28)
        { s.pair with
          tieRange := some (bitsOfInt 64 (txStamp (s.tieFree launch 28) 0)), tieMs := s.tieFree launch 28 / 16000000 + 1 }
        (s.tieFrame 4 0 false (s.regN R.TRG.PIDX) (natLe 8 (bitsOfInt 64 (txStamp (s.tieFree launch 28) 0)) ++ zeros 8))
      rw [exec_tieRangingTx, State.tieRangeTx_sends h, hx]
      exact ⟨_, rfl, rfl, rfl, if_pos hup, rfl⟩
    · rw [exec_rangingCopyTx, State.rangeCopyTx_silent hnone]
    · rw [exec_rangingCopyTx, State.rangeCopyTx_sends hpaired hx]
      obtain ⟨y, hy⟩ := s.tieSends_frame (s.tieFree launch (12 + x.2.2.2.length)) { s.pair with rangeFwd := rest }
        (s.tieFrame 5 x.1 x.2.1 x.2.2.1 x.2.2.2)
      rw [hy]
      exact ⟨_, rfl, rfl, rfl, rfl, rfl⟩
  · rintro sends (rfl : sends = s.sharesNow)
    refine ⟨fun h => by rw [exec_tieSlotsTx, State.tieSlotsTx_silent h], ?_⟩
    rintro h at_ rfl slots (rfl : slots = s.nodeSlots)
    rw [exec_tieSlotsTx]
    have hshared := State.tieSlotsTx_spec h
    exact ⟨_, rfl, hshared.pair, hshared.dt64, hshared.dropped, hshared.sent, hshared.regs, hshared.rest⟩
  · rintro up rfl down (rfl : down = s.tieDownNow) lost (rfl : lost = s.tieLoses)
    refine ⟨fun h => by rw [exec_tieLost, State.tieLostNow_unpaired h], fun hpaired => ?_⟩
    have hsync := State.tieSync_spec hpaired
    rw [exec_tieLost, State.tieLostNow_eq hpaired]
    refine ⟨_, rfl, ?_⟩
    cases hlost : s.tieLoses with
    | false =>
      rw [if_neg (by decide)]
      refine ⟨hsync.tieUp, hsync.event, fun h => absurd h (by decide),
        fun _ => ⟨?_, hsync.hsta 6 (by decide), ?_⟩, hsync.regs, ?_⟩
      · exact (congrArg State.scribe hsync.rest :)
      · exact (congrArg State.pair hsync.rest :)
      · rw [hsync.rest]
    | true =>
      have hloss := s.tieSync.lossRaised_spec
      rw [if_pos rfl]
      refine ⟨(hloss.hsta 7 (by decide)).trans hsync.tieUp, fun h => hloss.event 4 (hsync.event h),
        fun _ => ⟨?_, hloss.armed, State.raised_congr hloss.raised ?_ rfl⟩, fun h => absurd h (by decide),
        hsync.regs.trans hloss.regs, ?_⟩
      · rw [hloss.rest, hsync.rest]
      · exact (congrArg State.scribe hsync.rest :).symm
      · rw [hloss.rest, hsync.rest]

end Sys2Proof.Machine
end
